-- ==== Sys2Proof/Word.lean ====
section
/-! DEFINITION. The word types of the Keltos K2 (R7, R8): a byte is 8 bits, a word is 64 bits. -/
namespace Sys2Proof

/-- A byte (R8). -/
abbrev Byte := BitVec 8
/-- A 16-bit field. -/
abbrev U16 := BitVec 16
/-- A 32-bit field. -/
abbrev U32 := BitVec 32
/-- A 64-bit word (R8). -/
abbrev Word := BitVec 64
/-- The bits of an FP32 value (R32). -/
abbrev F32 := BitVec 32

end Sys2Proof
end

