-- ==== Sys2Proof/Config.lean ====
section
/-! DEFINITION. What the spec leaves open and one implementation fixes: every constant here is opaque, so nothing can be
proved of its value (log entries name each). -/
namespace Sys2Proof.Config

/-- Fresh open values: the n-th one that a run draws. -/
opaque freeValue : Nat → BitVec 64

/-- Unique device secret (Table 20-4); never readable (R537). -/
opaque uds : List Byte

/-- ROMDIG (Table 20-1): the digest of the boot ROM. -/
opaque romDigest : List Byte

/-- The two firmware-key digests that manufacture fuses (Table 20-4 VENDOR). -/
opaque vendorDigest : Nat → List Byte

/-- ML-DSA-87: public key of the identity key made from a 32-byte seed, and of the attestation key for a fuse SVN (Table 20-3). -/
opaque idkPublic : List Byte → List Byte
opaque akPublic : Nat → List Byte

/-- ML-DSA-87 signature by the attestation key of a fuse SVN over a 64-byte digest. -/
opaque akSign : Nat → List Byte → List Byte

/-- ML-DSA-87 verification: public key, digest, signature. -/
opaque verify : List Byte → List Byte → List Byte → Bool

/-- The same under the key whose SHA3-512 digest is given: the spec names a signer by its key's digest only (R279). -/
opaque verifyBy : List Byte → List Byte → List Byte → Bool

/-- A vendor-signed unlock container is valid under the vendor key digests that are not revoked (R540). -/
opaque unlockValid : List Byte → List (List Byte) → Bool

/-- The X.509 chain of certificate slot 0 for an attestation key (R542). -/
opaque certChain : Nat → List Byte

/-- AES-256-GCM: key, IV, additional data, text to (ciphertext, tag), and back when the tag matches. -/
opaque gcmSeal : List Byte → List Byte → List Byte → List Byte → List Byte × List Byte
opaque gcmOpen : List Byte → List Byte → List Byte → List Byte → List Byte → Option (List Byte)

/-- Static power of a level group at a level over 100 ns, in 1/256 pJ (R483: the clock plan gives it; its layout does
not). -/
opaque staticEnergy : Nat → Nat → Nat

/-- Spare lanes of a die-to-die link (Table 18-1 counts them; no rule gives their number). -/
opaque dieSpares : Nat → Nat

/-- Spares of a kind of Table 18-5 under one parent, an SRAM bank, a stack or a cellar channel (no rule gives their number). -/
opaque spareUnits : Nat → Nat → Nat

/-- The stack of a die, and the cellar channel, that holds a local address: fixed functions that no rule states. -/
opaque stackOf : Nat → Nat
opaque channelOf : Nat → Nat

/-- A byte that a loopback of depth 2 leaves at a local address (Table 23-12: its array pattern is not stated), for an open
value drawn for the run. -/
opaque loopByte : BitVec 64 → Nat → BitVec 8

/-- Location fields of the cellar row that holds a local address (Table 19-5 KIND 7): the fixed function that spreads
cellar units over channels is not stated. -/
opaque cellarRow : Nat → Nat

/-- The value a CXL configuration-space read returns once the space answers, by offset. -/
opaque configSpace : Nat → BitVec 32

/-- The 7 check bits of a bank word (R91: SECDED, whose code is not stated). -/
opaque secded : BitVec 32 → BitVec 7

/-- What a self-test slice leaves in a block's test entries (R509: its patterns are not stated): an open value drawn for the
slice, and the word. -/
opaque testWord : BitVec 64 → Nat → BitVec 32

/-- The IEEE 1500 register a stack shifts out for a shifted-in value (JEDEC HBM3E): stack, whether it is the instruction
register, value. -/
opaque hbmShift : Nat → Bool → Nat → Nat

/-- The level of a boundary-scan input cell that no field of State holds (R603). -/
opaque pinLevel : Nat → Bool

end Sys2Proof.Config
end

