-- ==== Sys2Proof/Machine/Table.lean ====
section
/-! DEFINITION. Sparse tables in one canonical form: keys strictly rising, no entry equal to the default that an
unlisted key reads as. Memory (a table of bytes), register files and queues are all tables of this form. -/
namespace Sys2Proof.Machine

/-- A sparse table: key and value pairs, keys strictly rising, no value equal to the default. -/
abbrev Tab (α : Type) := List (Nat × α)

/-- The value at key `k`, `d` where none is listed. -/
def Tab.get {α : Type} (d : α) : Tab α → Nat → α
  | [], _ => d
  | (j, v) :: t, k => if j = k then v else Tab.get d t k

/-- The table without key `k`. -/
def Tab.erase {α : Type} (t : Tab α) (k : Nat) : Tab α := t.filter (fun e => e.1 != k)

/-- The table with `v` listed at `k`. -/
def Tab.insert {α : Type} : Tab α → Nat → α → Tab α
  | [], k, v => [(k, v)]
  | (j, w) :: t, k, v =>
    if j = k then (k, v) :: t else if k < j then (k, v) :: (j, w) :: t else (j, w) :: Tab.insert t k v

/-- The table that reads `v` at `k` and as before elsewhere, kept canonical for default `d`. -/
def Tab.set {α : Type} [DecidableEq α] (d : α) (t : Tab α) (k : Nat) (v : α) : Tab α :=
  if v = d then Tab.erase t k else Tab.insert t k v

/-- The table with the value at `k` changed by `f`. -/
def Tab.modify {α : Type} [DecidableEq α] (d : α) (t : Tab α) (k : Nat) (f : α → α) : Tab α :=
  Tab.set d t k (f (Tab.get d t k))

/-- The canonical form above bound `lo`: keys rising from `lo`, no default entry. -/
def Tab.wfFrom {α : Type} [DecidableEq α] (d : α) : Nat → Tab α → Bool
  | _, [] => true
  | lo, (k, v) :: t => decide (lo ≤ k) && decide (v ≠ d) && Tab.wfFrom d (k + 1) t

/-- The canonical form. -/
def Tab.wf {α : Type} [DecidableEq α] (d : α) (t : Tab α) : Bool := Tab.wfFrom d 0 t

/-- Every entry whose key satisfies `p` removed. -/
def Tab.dropWhere {α : Type} (p : Nat → Bool) (t : Tab α) : Tab α := t.filter (fun e => !p e.1)

/-- The smallest `k` in `lo … lo + fuel - 1` with `p k`. -/
def firstFrom (p : Nat → Bool) : Nat → Nat → Option Nat
  | _, 0 => none
  | lo, fuel + 1 => if p lo then some lo else firstFrom p (lo + 1) fuel

/-- Memory: address and byte pairs; an unlisted address reads as zero. -/
abbrev Memory := List Host.Cell

/-- One byte of memory. An unlisted byte reads as 0x00. -/
def Memory.byte (m : Memory) (a : Nat) : Byte := Tab.get (0 : Byte) m a

/-- Memory with the byte at `a` replaced. -/
def Memory.put (m : Memory) (a : Nat) (b : Byte) : Memory := Tab.set (0 : Byte) m a b

/-- Memory with the bytes `bs` stored from `a` upward. -/
def Memory.store (m : Memory) (a : Nat) : List Byte → Memory
  | [] => m
  | b :: bs => Memory.store (Memory.put m a b) (a + 1) bs

/-- `n` bytes of memory from `a` upward. -/
def Memory.load (m : Memory) (a : Nat) : Nat → List Byte
  | 0 => []
  | n + 1 => Memory.byte m a :: Memory.load m (a + 1) n

/-- Memory with every byte of `a … a + n - 1` zero. -/
def Memory.clear (m : Memory) (a n : Nat) : Memory :=
  Tab.dropWhere (fun k => decide (a ≤ k) && decide (k < a + n)) m

/-- The canonical form of memory. -/
def Memory.wf (m : Memory) : Bool := Tab.wf (0 : Byte) m

/-- The number whose little-endian bytes are `bs` (R8). -/
def leNat : List Byte → Nat
  | [] => 0
  | b :: bs => b.toNat + 256 * leNat bs

/-- The `n` little-endian bytes of `v` (R8). -/
def leBytes : Nat → Nat → List Byte
  | 0, _ => []
  | n + 1, v => BitVec.ofNat 8 (v % 256) :: leBytes n (v / 256)

/-- The little-endian number in the `n` bytes at offset `o` of a byte list. -/
def leAt (bs : List Byte) (o n : Nat) : Nat := leNat ((bs.drop o).take n)

/-- Bits [hi:lo] of a number (R7). -/
def bits (v hi lo : Nat) : Nat := (v >>> lo) % 2 ^ (hi + 1 - lo)

/-- Bit `i` of a number. -/
def bit (v i : Nat) : Bool := (v >>> i) % 2 == 1

/-- A `w`-bit two's complement number as an integer. -/
def sext (w v : Nat) : Int := if v % 2 ^ w < 2 ^ (w - 1) then (v % 2 ^ w : Nat) else ((v % 2 ^ w : Nat) : Int) - 2 ^ w

/-- The low `w` bits of an integer. -/
def trunc (w : Nat) (x : Int) : Nat := (x % (2 ^ w : Nat)).toNat

/-- Ceiling division. -/
def cdiv (a b : Nat) : Nat := (a + b - 1) / b

/-- `v` with field [hi:lo] replaced by `x`. -/
def setBits (v hi lo x : Nat) : Nat :=
  v - (bits v hi lo) * 2 ^ lo + (x % 2 ^ (hi + 1 - lo)) * 2 ^ lo

/-- A list with element `i` replaced; unchanged when `i` is past the end. -/
def listSet {α : Type} (l : List α) (i : Nat) (v : α) : List α := l.set i v

end Sys2Proof.Machine
end

