-- ==== Sys2Proof/Machine/Numerics.lean ====
section
/-! DEFINITION. Number formats, rounding and FP32 arithmetic of chapter 02 (R31 to R62). Values are exact: a finite
value is a sign, a natural significand and a power of two, so every sum and product is exact before its one rounding. -/
namespace Sys2Proof.Machine

/-- Data formats (Table 02-1, Table 04-2). VQ codes are never an operand and have no encoding here (R114). -/
inductive Fmt where
  | fp32 | bf16 | fp16 | e4m3 | e5m2 | fp4 | int8 | int4 | int32
  deriving DecidableEq, Repr

/-- The FMT encodings of Table 04-2. -/
def Fmt.ofCode : Nat → Option Fmt
  | 1 => some .fp32 | 2 => some .bf16 | 3 => some .fp16 | 4 => some .e4m3 | 5 => some .e5m2
  | 6 => some .fp4 | 7 => some .int8 | 8 => some .int4 | 9 => some .int32 | _ => none

/-- The FMT encoding of a format (Table 04-2). -/
def Fmt.code : Fmt → Nat
  | .fp32 => 1 | .bf16 => 2 | .fp16 => 3 | .e4m3 => 4 | .e5m2 => 5 | .fp4 => 6 | .int8 => 7 | .int4 => 8 | .int32 => 9

/-- Element bits (Table 04-2). -/
def Fmt.width : Fmt → Nat
  | .fp32 => 32 | .bf16 => 16 | .fp16 => 16 | .e4m3 => 8 | .e5m2 => 8 | .fp4 => 4 | .int8 => 8 | .int4 => 4 | .int32 => 32

/-- Integer formats. -/
def Fmt.isInt : Fmt → Bool
  | .int8 | .int4 | .int32 => true
  | _ => false

/-- Exception flags (Table 02-7): [0] NV, [1] DZ, [2] OF, [3] UF, [4] NX. -/
abbrev Flags := BitVec 5
def flagNV : Flags := 1
def flagDZ : Flags := 2
def flagOF : Flags := 4
def flagUF : Flags := 8
def flagNX : Flags := 16

/-- How a floating format holds infinities and NaNs (Table 02-2). -/
inductive Specials where
  | ieee    -- E all ones: infinity or NaN
  | e4m3    -- no infinity; NaN only 0x7F and 0xFF
  | none    -- E2M1
  deriving DecidableEq, Repr

/-- The layout of a floating format (Table 02-2): exponent bits, mantissa bits, bias. -/
structure FloatFmt where
  eb : Nat
  mb : Nat
  bias : Nat
  sp : Specials
  deriving DecidableEq, Repr

def FloatFmt.fp32 : FloatFmt := ⟨8, 23, 127, .ieee⟩
def FloatFmt.bf16 : FloatFmt := ⟨8, 7, 127, .ieee⟩
def FloatFmt.fp16 : FloatFmt := ⟨5, 10, 15, .ieee⟩
def FloatFmt.e5m2 : FloatFmt := ⟨5, 2, 15, .ieee⟩
def FloatFmt.e4m3 : FloatFmt := ⟨4, 3, 7, .e4m3⟩
def FloatFmt.e2m1 : FloatFmt := ⟨2, 1, 1, .none⟩

/-- The floating layout of a format; the E2M1 element for FP4, FP32 for the integer formats (never used for them). -/
def Fmt.float : Fmt → FloatFmt
  | .fp32 => .fp32 | .bf16 => .bf16 | .fp16 => .fp16 | .e4m3 => .e4m3 | .e5m2 => .e5m2 | .fp4 => .e2m1
  | .int8 => .fp32 | .int4 => .fp32 | .int32 => .fp32

/-- An exact value: NaN, a signed infinity, or (-1)^neg × m × 2^e. -/
inductive FVal where
  | nan
  | inf (neg : Bool)
  | fin (neg : Bool) (m : Nat) (e : Int)
  deriving DecidableEq, Repr

/-- The value of a floating encoding (R32). -/
def FloatFmt.value (f : FloatFmt) (v : Nat) : FVal :=
  let neg := bit v (f.eb + f.mb)
  let ef := bits v (f.eb + f.mb - 1) f.mb
  let m := v % 2 ^ f.mb
  let top := 2 ^ f.eb - 1
  if f.sp = .ieee ∧ ef = top then (if m = 0 then .inf neg else .nan)
  else if f.sp = .e4m3 ∧ ef = top ∧ m = 2 ^ f.mb - 1 then .nan
  else if ef = 0 then .fin neg m (1 - (f.bias : Int) - f.mb)
  else .fin neg (2 ^ f.mb + m) ((ef : Int) - f.bias - f.mb)

/-- The canonical NaN of a floating format (Table 02-3). -/
def FloatFmt.canonNaN (f : FloatFmt) : Nat :=
  match f.sp with
  | .ieee => (2 ^ f.eb - 1) * 2 ^ f.mb + 2 ^ (f.mb - 1)
  | .e4m3 => 0x7F
  | .none => 0

/-- Number of bits of a natural number. -/
def bitLen (n : Nat) : Nat := if n = 0 then 0 else Nat.log2 n + 1

/-- Sign bit of a format's encoding. -/
def FloatFmt.signBit (f : FloatFmt) (neg : Bool) : Nat := if neg then 2 ^ (f.eb + f.mb) else 0

/-- m × 2^e, plus an unstated positive amount below 2^e when `sticky`, rounded to nearest even with unbounded exponent
range, as (encoding magnitude, inexact) (R47). The encoding may lie past the format's largest finite one. -/
def FloatFmt.roundMag (f : FloatFmt) (m : Nat) (e : Int) (sticky : Bool) : Nat × Bool :=
  if m = 0 then (0, sticky) else
  let emin : Int := 1 - (f.bias : Int) - f.mb
  let lsb : Int := max (e + bitLen m - (f.mb + 1)) emin
  if lsb ≤ e ∧ !sticky then ((lsb - emin).toNat * 2 ^ f.mb + m * 2 ^ (e - lsb).toNat, false)
  else
    -- at least one bit is dropped, so that the sticky amount only breaks ties
    let m2 := if lsb ≤ e then m * 2 ^ ((e - lsb).toNat + 1) else m
    let s := if lsb ≤ e then 1 else (lsb - e).toNat
    let q := m2 >>> s
    let r := m2 % 2 ^ s
    let half := 2 ^ (s - 1)
    let up := r > half || (r == half && (sticky || q % 2 == 1))
    let q2 := if up then q + 1 else q
    ((lsb - emin).toNat * 2 ^ f.mb + q2, r != 0 || sticky)

/-- The encoding magnitude of infinity in an IEEE format, and of the first value past the largest finite one in E4M3. -/
def FloatFmt.overAt (f : FloatFmt) : Nat :=
  match f.sp with
  | .ieee => (2 ^ f.eb - 1) * 2 ^ f.mb
  | .e4m3 => 0x7F
  | .none => 2 ^ (f.eb + f.mb)

/-- A finite value rounded to a format with the flags of Table 02-5 and Table 02-7 (R46, R62). -/
def FloatFmt.round (f : FloatFmt) (neg : Bool) (m : Nat) (e : Int) (sticky : Bool) : Nat × Flags :=
  let (mag, inexact) := f.roundMag m e sticky
  if f.overAt ≤ mag then
    match f.sp with
    | .ieee => (f.signBit neg + f.overAt, flagOF ||| flagNX)
    | .e4m3 => (f.signBit neg + 0x7E, flagOF ||| flagNX)
    | .none => (f.signBit neg + (2 ^ (f.eb + f.mb) - 1), flagOF ||| flagNX)
  else
    (f.signBit neg + mag,
      if inexact then (if mag < 2 ^ f.mb then flagUF ||| flagNX else flagNX) else 0)

/-- Conversion of a value to a floating format by round-to-nearest-even (R46, Table 02-5). -/
def FloatFmt.convert (f : FloatFmt) : FVal → Nat × Flags
  | .nan => (f.canonNaN, 0)
  | .inf neg =>
    match f.sp with
    | .ieee => (f.signBit neg + f.overAt, 0)
    | _ => (f.canonNaN, flagNV)
  | .fin neg m e => f.round neg m e false

/-- The value of an FP32 encoding. -/
def f32val (b : F32) : FVal := FloatFmt.fp32.value b.toNat

/-- The canonical FP32 NaN (Table 02-3). -/
def f32nan : F32 := 0x7FC00000
def f32inf (neg : Bool) : F32 := if neg then 0xFF800000 else 0x7F800000

/-- An exact value rounded to FP32. -/
def toF32 (v : FVal) : F32 × Flags :=
  let (n, fl) := FloatFmt.fp32.convert v
  (BitVec.ofNat 32 n, fl)

def isNaN32 (b : F32) : Bool := f32val b == .nan
def sign32 (b : F32) : Bool := b.msb
def isZero32 (b : F32) : Bool := b &&& 0x7FFFFFFF == 0
def isInf32 (b : F32) : Bool := b &&& 0x7FFFFFFF == 0x7F800000

/-- Exact product (R35, R57); NaN where a factor is NaN or infinity meets zero. -/
def FVal.mul : FVal → FVal → FVal
  | .nan, _ => .nan
  | _, .nan => .nan
  | .inf a, .inf b => .inf (a ^^ b)
  | .inf a, .fin b m _ => if m = 0 then .nan else .inf (a ^^ b)
  | .fin a m _, .inf b => if m = 0 then .nan else .inf (a ^^ b)
  | .fin a m e, .fin b n g => .fin (a ^^ b) (m * n) (e + g)

/-- The signed significand of a finite value over 2^lo, for lo at or below its exponent. -/
def signedAt (neg : Bool) (m : Nat) (e lo : Int) : Int :=
  let x : Int := m * 2 ^ (e - lo).toNat
  if neg then -x else x

/-- Exact sum of two values (R35: an exact zero is +0 unless both terms are −0). -/
def FVal.add : FVal → FVal → FVal
  | .nan, _ => .nan
  | _, .nan => .nan
  | .inf a, .inf b => if a = b then .inf a else .nan
  | .inf a, _ => .inf a
  | _, .inf b => .inf b
  | .fin a m e, .fin b n g =>
    let lo := min e g
    let t := signedAt a m e lo + signedAt b n g lo
    if t = 0 then .fin (a && b) 0 lo else .fin (decide (t < 0)) t.natAbs lo

/-- NV of an operation: it produces a NaN from operands none of which is NaN (Table 02-7, vector engine). -/
def invalidIf (r : FVal) (ins : List FVal) : Flags :=
  if r = .nan ∧ !(ins.any (· == .nan)) then flagNV else 0

/-- FP32 addition, rounded once (R61). -/
def fAdd (a b : F32) : F32 × Flags :=
  let r := (f32val a).add (f32val b)
  let (x, fl) := toF32 r
  (x, fl ||| invalidIf r [f32val a, f32val b])

/-- Sign bit flipped: exact, no flag (Table 04-4). -/
def fNeg (a : F32) : F32 := a ^^^ 0x80000000
/-- Sign bit cleared: exact, no flag (Table 04-4). -/
def fAbs (a : F32) : F32 := a &&& 0x7FFFFFFF

def fSub (a b : F32) : F32 × Flags :=
  let vb := match f32val b with
    | .nan => FVal.nan
    | .inf n => .inf (!n)
    | .fin n m e => .fin (!n) m e
  let r := (f32val a).add vb
  let (x, fl) := toF32 r
  (x, fl ||| invalidIf r [f32val a, f32val b])

/-- FP32 multiplication, rounded once (R61). -/
def fMul (a b : F32) : F32 × Flags :=
  let r := (f32val a).mul (f32val b)
  let (x, fl) := toF32 r
  (x, fl ||| invalidIf r [f32val a, f32val b])

/-- Fused multiply-add a × b + c, rounded once (R61). -/
def fFma (a b c : F32) : F32 × Flags :=
  let r := ((f32val a).mul (f32val b)).add (f32val c)
  let (x, fl) := toF32 r
  (x, fl ||| invalidIf r [f32val a, f32val b, f32val c])

/-- Exact quotient m×2^e / (n×2^g), n ≠ 0, as significand, exponent and sticky, with 32 spare quotient bits. -/
def quotient (m : Nat) (e : Int) (n : Nat) (g : Int) : Nat × Int × Bool :=
  let k := 64 + bitLen n
  let num := m * 2 ^ k
  (num / n, e - g - k, num % n != 0)

/-- FP32 division, correctly rounded (R61, R62: DZ for a finite nonzero value over zero). -/
def fDiv (a b : F32) : F32 × Flags :=
  match f32val a, f32val b with
  | .nan, _ => (f32nan, 0)
  | _, .nan => (f32nan, 0)
  | .inf _, .inf _ => (f32nan, flagNV)
  | .inf x, .fin y _ _ => (f32inf (x ^^ y), 0)
  | .fin x _ _, .inf y => ((if x ^^ y then 0x80000000 else 0), 0)
  | .fin x m e, .fin y n g =>
    if n = 0 then (if m = 0 then (f32nan, flagNV) else (f32inf (x ^^ y), flagDZ))
    else
      let (q, ex, st) := quotient m e n g
      let (r, fl) := FloatFmt.fp32.round (x ^^ y) q ex st
      (BitVec.ofNat 32 r, fl)

/-- Newton steps toward the integer square root from an estimate at or above it. -/
def isqrtStep (n : Nat) : Nat → Nat → Nat
  | 0, x => x
  | fuel + 1, x => let y := (x + n / x) / 2; if y < x then isqrtStep n fuel y else x

/-- Integer square root: the largest r with r × r ≤ n. -/
def isqrt (n : Nat) : Nat := if n = 0 then 0 else isqrtStep n (bitLen n + 8) (2 ^ (bitLen n / 2 + 1))

/-- Square root of m × 2^e as significand, exponent, sticky, with at least 40 significant bits. -/
def sqrtParts (m : Nat) (e : Int) : Nat × Int × Bool :=
  let k : Nat := 128 + (if (e % 2) = 0 then 0 else 1)
  let n := m * 2 ^ k
  let r := isqrt n
  (r, (e - k) / 2, r * r != n)

/-- FP32 square root, correctly rounded; √−0 is −0 and a negative nonzero operand is NaN with NV (R61, IEEE 754). -/
def fSqrt (a : F32) : F32 × Flags :=
  match f32val a with
  | .nan => (f32nan, 0)
  | .inf true => (f32nan, flagNV)
  | .inf false => (a, 0)
  | .fin neg m e =>
    if m = 0 then (a, 0)
    else if neg then (f32nan, flagNV)
    else
      let (r, ex, st) := sqrtParts m e
      let (x, fl) := FloatFmt.fp32.round false r ex st
      (BitVec.ofNat 32 x, fl)

/-- A total preorder key of non-NaN FP32 values: −0 below +0 (R61). -/
def f32key (a : F32) : Int := if a.msb then -((a &&& 0x7FFFFFFF).toNat : Int) - 1 else (a.toNat : Int)

/-- Minimum (R61). -/
def fMin (a b : F32) : F32 :=
  if (isNaN32 a) then (if (isNaN32 b) then f32nan else b) else if (isNaN32 b) then a
  else if f32key a ≤ f32key b then a else b

/-- Maximum (R61). -/
def fMax (a b : F32) : F32 :=
  if (isNaN32 a) then (if (isNaN32 b) then f32nan else b) else if (isNaN32 b) then a
  else if f32key a ≤ f32key b then b else a

/-- a < b for values that are not NaN, with +0 equal to −0 (R129). -/
def fLt (a b : F32) : Bool :=
  !(isNaN32 a) && !(isNaN32 b) && !((isZero32 a) && (isZero32 b)) && decide (f32key a < f32key b)

/-- IEEE equality (R129). -/
def fEq (a b : F32) : Bool := !(isNaN32 a) && !(isNaN32 b) && (((isZero32 a) && (isZero32 b)) || a == b)

/-- Nearest integer, ties to even, of m × 2^e, with an inexact mark (R42). -/
def rneInt (m : Nat) (e : Int) : Nat × Bool :=
  if 0 ≤ e then (m * 2 ^ e.toNat, false)
  else
    let s := (-e).toNat
    let q := m >>> s
    let r := m % 2 ^ s
    let half := 2 ^ (s - 1)
    ((if r > half || (r == half && q % 2 == 1) then q + 1 else q), r != 0)

/-- An exact value to a `w`-bit two's complement integer: saturates with NV, NaN to 0 with NV, NX when the value
changes (R42, Table 02-5). -/
def toIntFmt (w : Nat) : FVal → Int × Flags
  | .nan => (0, flagNV)
  | .inf neg => ((if neg then -(2 ^ (w - 1)) else 2 ^ (w - 1) - 1), flagNV)
  | .fin neg m e =>
    let (q, inexact) := rneInt m e
    let x : Int := if neg then -(q : Int) else q
    if x < -(2 ^ (w - 1)) then (-(2 ^ (w - 1)), flagNV)
    else if 2 ^ (w - 1) - 1 < x then (2 ^ (w - 1) - 1, flagNV)
    else (x, if inexact then flagNX else 0)

/-- An integer as an exact value. -/
def intVal (x : Int) : FVal := .fin (decide (x < 0)) x.natAbs 0

/-- Conversion from INT32 to FP32, rounded to nearest even with NX (R46). -/
def int32ToF32 (x : Int) : F32 × Flags := toF32 (intVal x)

/-- The value of an FP4 element under its scale byte (R38). -/
def fp4Val (elem scale : Nat) : FVal :=
  if scale = 0xFF then .nan
  else match FloatFmt.e2m1.value (elem % 16) with
    | .fin neg m e => .fin neg m (e + scale - 127)
    | v => v

/-- Scale exponent of a block: the smallest e with a ≤ 6 × 2^e, clamped to −127 … 127, where a = m × 2^x is nonzero
(R39 step 2). -/
def fp4Scale (m : Nat) (x : Int) : Int :=
  -- a ≤ 3 × 2^(e+1); with L bits in m, the answer is x + L - 3 or x + L - 2
  let lo : Int := x + bitLen m - 4
  let fits (e : Int) : Bool :=
    -- m × 2^x ≤ 6 × 2^e
    if e ≤ x then m * 2 ^ (x - e).toNat ≤ 6 else m ≤ 6 * 2 ^ (e - x).toNat
  let e := if fits lo then lo else if fits (lo + 1) then lo + 1 else if fits (lo + 2) then lo + 2 else lo + 3
  max (-127) (min 127 e)

/-- The larger of two magnitudes as FP32 bits. -/
def maxMag (a b : Nat) : Nat := max (a % 2 ^ 31) (b % 2 ^ 31)

/-- Quantises one block of FP32 values to FP4: scale byte, and each value's element and flags (R39). -/
def quantFp4 (xs : List F32) : Nat × List (Nat × Flags) :=
  if xs.any (fun x => (isNaN32 x) || (isInf32 x)) then (0xFF, xs.map (fun _ => (0, flagNV)))
  else
    let a := xs.foldl (fun acc x => maxMag acc x.toNat) 0
    let ex : Int := match FloatFmt.fp32.value a with
      | .fin _ m x => if m = 0 then 0 else fp4Scale m x
      | _ => 0
    let one (x : F32) : Nat × Flags :=
      match f32val x with
      | .fin neg m e => FloatFmt.e2m1.round neg m (e - ex) false
      | _ => (0, 0)
    ((ex + 127).toNat, xs.map one)

/-- mix64 of R284: the bits of R49 before their truncation, arithmetic modulo 2^64. -/
def mix64 (seed index : Word) : Word :=
  let x := seed ^^^ (index * 0x9E3779B97F4A7C15)
  let x := (x ^^^ (x >>> 30)) * 0xBF58476D1CE4E5B9
  let x := (x ^^^ (x >>> 27)) * 0x94D049BB133111EB
  x ^^^ (x >>> 31)

/-- The 16 random bits of a stochastic rounding (R49). -/
def srBits (seed index : Word) : Nat := (mix64 seed index).toNat % 65536

/-- FP32 to BF16 by stochastic rounding with its flags (R49). -/
def stochBf16 (v : F32) (seed index : Word) : Nat × Flags :=
  if (isNaN32 v) || (isInf32 v) then FloatFmt.bf16.convert (f32val v)
  else
    let high := v.toNat / 65536
    let low := v.toNat % 65536
    let h := (if low + srBits seed index ≥ 65536 then high + 1 else high) % 65536
    let above := decide (h % 32768 = 0x7F80)
    let sub := decide (h % 32768 < 0x80)
    (h, (if above then flagOF ||| flagNX else 0) ||| (if low ≠ 0 then flagNX else 0)
        ||| (if low ≠ 0 ∧ sub then flagUF else 0))

/-- An FP32 value in a destination format that holds no scale of its own, as bits and flags (R42, R46): FP4 is
quantised by block elsewhere and INT8, INT4 take factor 1 here. -/
def f32ToFmt (f : Fmt) (x : F32) : Nat × Flags :=
  match f with
  | .fp32 => (if (isNaN32 x) then f32nan.toNat else x.toNat, 0)
  | .bf16 => FloatFmt.bf16.convert (f32val x)
  | .fp16 => FloatFmt.fp16.convert (f32val x)
  | .e4m3 => FloatFmt.e4m3.convert (f32val x)
  | .e5m2 => FloatFmt.e5m2.convert (f32val x)
  | .fp4 => FloatFmt.e2m1.convert (f32val x)
  | .int8 => let (i, fl) := toIntFmt 8 (f32val x); (trunc 8 i, fl)
  | .int4 => let (i, fl) := toIntFmt 4 (f32val x); (trunc 4 i, fl)
  | .int32 => let (i, fl) := toIntFmt 32 (f32val x); (trunc 32 i, fl)

/-- FP32 with factor f to an integer format: the exact product rounded once (R42). The product of an infinity and a factor
of 0 counts as NaN, as R57 has it in the array: 0 with NV (DESIGN CHOICE, log 95). -/
def f32ToIntScaled (w : Nat) (x f : F32) : Nat × Flags :=
  let (i, fl) := toIntFmt w ((f32val x).mul (f32val f))
  (trunc w i, fl)

/-- A floating, INT32 or scaled element as FP32 (R45, R46). -/
def elemToF32 (f : Fmt) (b : Nat) : F32 × Flags :=
  match f with
  | .int8 => int32ToF32 (sext 8 b)
  | .int4 => int32ToF32 (sext 4 b)
  | .int32 => int32ToF32 (sext 32 b)
  | _ => toF32 (f.float.value b)

/-- ISCALE of one accumulator entry: (fp32(acc) × w) × a, three roundings (R41). -/
def iscale (acc : Int) (w a : F32) : F32 × Flags :=
  let (x, f1) := int32ToF32 acc
  let (y, f2) := fMul x w
  let (z, f3) := fMul y a
  (z, f1 ||| f2 ||| f3)

end Sys2Proof.Machine
end

