-- ==== Sys2Proof/Machine/FunctionUnits.lean ====
section
/-! DEFINITION. The function units RCP, RSQ, EXP, LOG, SIN and COS (R125, Table 04-5): the exact mathematical result
rounded once to FP32. The transcendental ones are computed in fixed point with 416 fraction bits from below, far past
the point where any FP32 argument's result lies near a rounding boundary, and then rounded once. -/
namespace Sys2Proof.Machine

/-- Fraction bits of the fixed-point evaluation. -/
def fuP : Nat := 416

/-- Units in the last place taken off a fixed-point magnitude, so that it lies below the exact one. -/
def fuSlack : Nat := 4096

/-- atan(1/n) or atanh(1/n) in fixed point by its power series: `term` is 1/n^(2k+1). -/
def invSeries (alternate : Bool) (n2 : Nat) : Nat → Nat → Int → Int
  | 0, _, _ => 0
  | fuel + 1, k, term =>
    let t := term / ((2 * k + 1 : Nat) : Int)
    (if alternate && k % 2 == 1 then -t else t) + invSeries alternate n2 fuel (k + 1) (term / (n2 : Int))

/-- π in fixed point (Machin's formula). -/
def fixPi : Int :=
  16 * invSeries true 25 200 0 ((2 : Int) ^ fuP / 5) - 4 * invSeries true 57121 60 0 ((2 : Int) ^ fuP / 239)

/-- ln 2 in fixed point: 2 atanh(1/3). -/
def fixLn2 : Int := 2 * invSeries false 9 160 0 ((2 : Int) ^ fuP / 3)

/-- Σ t × r^n × k!/(k+n)! in fixed point: the exponential's series from term `t`. -/
def expSeries (r : Int) : Nat → Nat → Int → Int
  | 0, _, _ => 0
  | fuel + 1, k, t => t + expSeries r fuel (k + 1) (t * r / (2 : Int) ^ fuP / ((k + 1 : Nat) : Int))

/-- The alternating series t − t r²/((k+1)(k+2)) + … in fixed point. -/
def trigSeries (r2 : Int) : Nat → Nat → Int → Int
  | 0, _, _ => 0
  | fuel + 1, k, t =>
    t - trigSeries r2 fuel (k + 2) (t * r2 / (2 : Int) ^ fuP / (((k + 1) * (k + 2) : Nat) : Int))

/-- atanh(z) × 1 in fixed point for a fixed-point z: z + z³/3 + …. -/
def atanhSeries (z2 : Int) : Nat → Nat → Int → Int
  | 0, _, _ => 0
  | fuel + 1, k, t =>
    t / ((2 * k + 1 : Nat) : Int) + atanhSeries z2 fuel (k + 1) (t * z2 / (2 : Int) ^ fuP)

/-- A fixed-point magnitude, known to lie just above `v - fuSlack`, rounded once to FP32. -/
def fuRound (neg : Bool) (v : Int) (e : Int) : F32 × Flags :=
  let (r, fl) := FloatFmt.fp32.round neg (v - (fuSlack : Int)).toNat (e - fuP) true
  (BitVec.ofNat 32 r, fl)

/-- The fixed-point integer of m × 2^e. -/
def toFix (m : Nat) (e : Int) : Int :=
  if 0 ≤ e + fuP then ((m * 2 ^ (e + fuP).toNat : Nat) : Int) else ((m / 2 ^ (-(e + fuP)).toNat : Nat) : Int)

/-- RCP (Table 04-5). -/
def fRcp (a : F32) : F32 × Flags :=
  match f32val a with
  | .nan => (f32nan, 0)
  | .inf neg => ((if neg then 0x80000000 else 0), 0)
  | .fin neg m e =>
    if m = 0 then (f32inf neg, flagDZ)
    else
      let (q, ex, st) := quotient 1 0 m e
      let (r, fl) := FloatFmt.fp32.round neg q ex st
      (BitVec.ofNat 32 r, fl)

/-- RSQ (Table 04-5). -/
def fRsq (a : F32) : F32 × Flags :=
  match f32val a with
  | .nan => (f32nan, 0)
  | .inf true => (f32nan, flagNV)
  | .inf false => (0, 0)
  | .fin neg m e =>
    if m = 0 then (f32inf neg, flagDZ)
    else if neg then (f32nan, flagNV)
    else
      -- an even exponent, so that 1/√(m 2^e) = √(2^512 / m) × 2^(−256 − e/2)
      let (m, e) := if e % 2 = 0 then (m, e) else (2 * m, e - 1)
      let n := 2 ^ 512 / m
      let r := isqrt n
      let exact := decide (m * (r * r) = 2 ^ 512)
      let (x, fl) := FloatFmt.fp32.round false r (-256 - e / 2) (!exact)
      (BitVec.ofNat 32 x, fl)

/-- EXP (Table 04-5). -/
def fExp (a : F32) : F32 × Flags :=
  match f32val a with
  | .nan => (f32nan, 0)
  | .inf true => (0, 0)
  | .inf false => (f32inf false, 0)
  | .fin neg m e =>
    if m = 0 then (0x3F800000, 0)
    else if 8 ≤ e + bitLen m - 1 then          -- |x| ≥ 256
      (if neg then (0, flagUF ||| flagNX) else (f32inf false, flagOF ||| flagNX))
    else
      let x := if neg then -toFix m e else toFix m e
      let k := x / fixLn2
      fuRound false (expSeries (x - k * fixLn2) 110 0 ((2 : Int) ^ fuP)) k

/-- LOG (Table 04-5). -/
def fLog (a : F32) : F32 × Flags :=
  match f32val a with
  | .nan => (f32nan, 0)
  | .inf true => (f32nan, flagNV)
  | .inf false => (f32inf false, 0)
  | .fin neg m e =>
    if m = 0 then (f32inf true, flagDZ)
    else if neg then (f32nan, flagNV)
    else if a = 0x3F800000 then (0, 0)
    else
      -- x = y × 2^k with 3/4 ≤ y < 3/2
      let l := bitLen m
      let k0 : Int := e + l - 1
      let k := if 2 * m ≥ 3 * 2 ^ (l - 1) then k0 + 1 else k0
      let y := toFix m (e - k)
      let one : Int := (2 : Int) ^ fuP
      let z := (y - one) * one / (y + one)
      let v := k * fixLn2 + 2 * atanhSeries (z * z / one) 190 0 z
      fuRound (decide (v < 0)) (v.natAbs : Int) 0

/-- The magnitude |x| reduced by multiples of π/2: quadrant and remainder in −π/4 … π/4. -/
def trigReduce (m : Nat) (e : Int) : Int × Int :=
  let x := toFix m e
  let h := fixPi / 2
  let k := (x + h / 2) / h
  (k, x - k * h)

/-- ±sin r or ±cos r by quadrant, as a signed fixed-point number. -/
def trigEval (quadrant : Int) (r : Int) : Int :=
  let r2 := r * r / (2 : Int) ^ fuP
  let s := trigSeries r2 60 1 r
  let c := trigSeries r2 60 0 ((2 : Int) ^ fuP)
  if quadrant % 4 = 0 then s else if quadrant % 4 = 1 then c else if quadrant % 4 = 2 then -s else -c

/-- SIN (Table 04-5). -/
def fSin (a : F32) : F32 × Flags :=
  match f32val a with
  | .nan => (f32nan, 0)
  | .inf _ => (f32nan, flagNV)
  | .fin neg m e =>
    if m = 0 then (a, 0)
    else
      let (k, r) := trigReduce m e
      let v := trigEval k r
      fuRound (neg ^^ decide (v < 0)) (v.natAbs : Int) 0

/-- COS (Table 04-5). -/
def fCos (a : F32) : F32 × Flags :=
  match f32val a with
  | .nan => (f32nan, 0)
  | .inf _ => (f32nan, flagNV)
  | .fin _ m e =>
    if m = 0 then (0x3F800000, 0)
    else
      let (k, r) := trigReduce m e
      let v := trigEval (k + 1) r
      fuRound (decide (v < 0)) (v.natAbs : Int) 0

end Sys2Proof.Machine
end

