-- ==== Sys2Proof/Machine/Tensor.lean ====
section
/-! DEFINITION. Tensor descriptors (Table 04-1): their fields, layout, checks and the bytes they address. -/
namespace Sys2Proof.Machine

/-- The space a descriptor names (Table 04-1 SPACE, BLOCK). -/
inductive Space where
  | sram
  | bank (b : Nat)
  deriving DecidableEq, Repr

/-- A tensor descriptor (Table 04-1). `size` has five entries and `stride` four (dimensions 1 to 4); those at or above
`rank` are zero in a descriptor that passes its checks. -/
structure Desc where
  base : Nat
  aux : Nat
  size : List Nat
  stride : List Int
  fmt : Fmt
  rank : Nat
  space : Space
  tail : Bool
  sr : Bool
  pad : F32
  seed : Word
  deriving DecidableEq, Repr

/-- The descriptor of 64 bytes; none when check 1 or 8 of Table 04-3 fails (R118). -/
def Desc.decode (bs : List Byte) : Option Desc :=
  let shape := leAt bs 45 1
  let mode := leAt bs 46 1
  let rank := bits shape 2 0
  let space := bits shape 4 3
  let block := bits shape 7 5
  match Fmt.ofCode (leAt bs 44 1) with
  | none => none
  | some fmt =>
    if rank = 0 ∨ 5 < rank ∨ 1 < space ∨ 5 < block ∨ (space = 0 ∧ block ≠ 0) ∨ bits mode 7 2 ≠ 0
        ∨ leAt bs 47 1 ≠ 0 ∨ leAt bs 52 4 ≠ 0 then none
    else some
      { base := leAt bs 0 4, aux := leAt bs 4 4,
        size := [leAt bs 8 4, leAt bs 12 4, leAt bs 16 4, leAt bs 20 4, leAt bs 24 4],
        stride := [sext 32 (leAt bs 28 4), sext 32 (leAt bs 32 4), sext 32 (leAt bs 36 4), sext 32 (leAt bs 40 4)],
        fmt := fmt, rank := rank, space := if space = 0 then .sram else .bank block,
        tail := bit mode 0, sr := bit mode 1, pad := BitVec.ofNat 32 (leAt bs 48 4),
        seed := BitVec.ofNat 64 (leAt bs 56 8) }

/-- SIZE of dimension d, 1 at or above RANK (indices there are zero, R115). -/
def Desc.dim (d : Desc) (k : Nat) : Nat := if k < d.rank then d.size.getD k 0 else 1

/-- STRIDE of dimension k ≥ 1, zero at or above RANK. -/
def Desc.step (d : Desc) (k : Nat) : Int := if k < d.rank then d.stride.getD (k - 1) 0 else 0

/-- Number of elements. -/
def Desc.count (d : Desc) : Nat := d.dim 0 * d.dim 1 * d.dim 2 * d.dim 3 * d.dim 4

/-- Number of rows (R116). -/
def Desc.rows (d : Desc) : Nat := d.dim 1 * d.dim 2 * d.dim 3 * d.dim 4

/-- The descriptor with SIZE of dimension RANK − 1 replaced (R122). -/
def Desc.resize (d : Desc) (n : Nat) : Desc := { d with size := d.size.set (d.rank - 1) n }

/-- The declared SIZE that R122 replaces. -/
def Desc.outer (d : Desc) : Nat := d.dim (d.rank - 1)

/-- Bytes of the first n elements of a row. -/
def Fmt.bytes (f : Fmt) (n : Nat) : Nat := cdiv (n * f.width) 8

/-- Bytes of one row. -/
def Desc.rowBytes (d : Desc) : Nat := d.fmt.bytes (d.dim 0)

/-- Byte offset of row r relative to BASE (R115, R116). -/
def Desc.rowOff (d : Desc) (r : Nat) : Int :=
  let i1 := r % d.dim 1
  let i2 := r / d.dim 1 % d.dim 2
  let i3 := r / d.dim 1 / d.dim 2 % d.dim 3
  let i4 := r / d.dim 1 / d.dim 2 / d.dim 3
  i1 * d.step 1 + i2 * d.step 2 + i3 * d.step 3 + i4 * d.step 4

/-- Byte offset of element L (R115) relative to BASE; the nibble of a 4-bit element is `L`'s i0 mod 2 (R36). -/
def Desc.elemOff (d : Desc) (l : Nat) : Int :=
  d.rowOff (l / d.dim 0) + ((l % d.dim 0) * d.fmt.width / 8 : Nat)

/-- Lowest byte offset of dimension k's steps. -/
def Desc.loStep (d : Desc) (k : Nat) : Int := if d.step k < 0 then ((d.dim k : Int) - 1) * d.step k else 0
/-- Highest byte offset of dimension k's steps. -/
def Desc.hiStep (d : Desc) (k : Nat) : Int := if 0 < d.step k then ((d.dim k : Int) - 1) * d.step k else 0

/-- Lowest and highest byte of the elements, offset `off` added to BASE (R149). -/
def Desc.extent (d : Desc) (off : Int) : Int × Int :=
  (d.base + off + d.loStep 1 + d.loStep 2 + d.loStep 3 + d.loStep 4,
   d.base + off + d.hiStep 1 + d.hiStep 2 + d.hiStep 3 + d.hiStep 4 + d.rowBytes - 1)

/-- Bytes of the scale array (R117): a scale byte per 32 elements, or an FP32 scale per row. -/
def Desc.auxBytes (d : Desc) : Nat :=
  match d.fmt with
  | .fp4 => cdiv d.count 32
  | .int8 | .int4 => 4 * d.rows
  | _ => 0

/-- Lowest and highest byte of the scale array, none when it holds no byte. -/
def Desc.auxExtent (d : Desc) (off : Int) : Option (Int × Int) :=
  if d.auxBytes = 0 then none else some (d.aux + off, d.aux + off + d.auxBytes - 1)

/-- A context's carve-outs in a region (R92): SRAM bytes and bank entries. -/
structure Carve where
  sramBase : Nat
  sramSize : Nat
  bankFirst : Nat
  bankCount : Nat
  deriving DecidableEq, Repr

/-- Size in bytes of the context's carve-out of a space. -/
def Carve.sizeOf (c : Carve) : Space → Nat
  | .sram => c.sramSize
  | .bank _ => 512 * c.bankCount

/-- A byte interval lies in a carve-out of n bytes. -/
def inside (x : Int × Int) (n : Nat) : Bool := decide (0 ≤ x.1) && decide (x.2 < (n : Int))

/-- Every byte of the elements and, when `aux`, of the scale array lies in the carve-out (Table 04-3 check 9, R159). -/
def Desc.fits (d : Desc) (c : Carve) (off auxOff : Int) (aux : Bool) : Bool :=
  inside (d.extent off) (c.sizeOf d.space) &&
  (!aux || match d.auxExtent auxOff with
    | none => true
    | some x => inside x (c.sizeOf .sram))

/-- The size and stride conditions of check 2 of Table 04-3 for dimension k. -/
def Desc.dimOk (d : Desc) (k : Nat) : Bool :=
  if k < d.rank then decide (1 ≤ d.size.getD k 0)
  else d.size.getD k 0 == 0 && (k == 0 || d.stride.getD (k - 1) 0 == 0)

/-- The stride condition of check 4 for dimension k. -/
def Desc.strideOk (d : Desc) (k : Nat) : Bool :=
  if d.fmt.width < 8 then true else decide (d.step k % (d.fmt.width / 8 : Nat) = 0)

/-- What an instruction uses a descriptor for: SR is allowed in a BF16 destination of graft training (check 6), TAIL in
the key source of SORT (check 7). -/
structure DescUse where
  dest : Bool := false
  sortKey : Bool := false
  train : Bool := false
  deriving DecidableEq, Repr

/-- The rule checks 2 to 7 of Table 04-3; checks 1 and 8 hold of every decoded descriptor. -/
def Desc.ruleOk (d : Desc) (u : DescUse) : Bool :=
  d.dimOk 0 && d.dimOk 1 && d.dimOk 2 && d.dimOk 3 && d.dimOk 4
  && (match d.space with
      | .sram => true
      | .bank _ => d.fmt == .fp32 || d.fmt == .int32)
  && (d.fmt != .fp4 || d.size.getD 0 0 % 32 == 0) && (d.fmt != .int4 || d.size.getD 0 0 % 2 == 0)
  && d.strideOk 1 && d.strideOk 2 && d.strideOk 3 && d.strideOk 4
  && (d.aux == 0 || d.fmt == .fp4 || d.fmt == .int8 || d.fmt == .int4)
  && (!d.sr || (u.dest && d.fmt == .bf16 && u.train))
  && (!d.tail || u.sortKey)

/-- BASE offset of an offset register: its low half as a signed 32-bit value (R145). -/
def offBase (s : Word) : Int := sext 32 (s.toNat % 2 ^ 32)
/-- AUX offset of an offset register: its high half as a signed 32-bit value (R145). -/
def offAux (s : Word) : Int := sext 32 (s.toNat / 2 ^ 32)

/-- An offset register plus b times a block register, each half on its own modulo 2^32 (R145). -/
def offBlock (s t : Word) (b : Nat) : Word :=
  let lo := (s.toNat % 2 ^ 32 + b * (t.toNat % 2 ^ 32)) % 2 ^ 32
  let hi := (s.toNat / 2 ^ 32 + b * (t.toNat / 2 ^ 32)) % 2 ^ 32
  BitVec.ofNat 64 (lo + hi * 2 ^ 32)

/-- An interval of bytes of one space that an unretired instruction reads or writes (R149). -/
inductive SpanSpace where
  | sram
  | bank (b : Nat)
  | device
  deriving DecidableEq, Repr

structure Span where
  space : SpanSpace
  lo : Int
  hi : Int
  write : Bool
  deriving DecidableEq, Repr

/-- The span space of a descriptor's space. -/
def Space.span : Space → SpanSpace
  | .sram => .sram
  | .bank b => .bank b

/-- Two spans hold each other back: same space, an overlap, and at least one of them written (R149). -/
def Span.conflicts (a b : Span) : Bool :=
  a.space == b.space && decide (a.lo ≤ b.hi) && decide (b.lo ≤ a.hi) && (a.write || b.write)

/-- The spans of a descriptor operand: its elements and, when `aux`, its scale array as a span of its own. -/
def Desc.spans (d : Desc) (off auxOff : Int) (aux write : Bool) : List Span :=
  let e := d.extent off
  { space := d.space.span, lo := e.1, hi := e.2, write := write } ::
    (if aux then
      match d.auxExtent auxOff with
      | none => []
      | some x => [{ space := .sram, lo := x.1, hi := x.2, write := write && d.fmt == .fp4 }]
     else [])

end Sys2Proof.Machine
end

