-- ==== Sys2Proof/Machine/RegionWord.lean ====
section
/-! DEFINITION. The region instruction list (R146 to R170): decoded instructions, the 128-bit instruction word, its
decoder, which refuses every unlisted encoding (check 2 of Table 05-15), and its encoder. -/
namespace Sys2Proof.Machine

/-- MAT MUL (Table 05-5). -/
structure MulF where
  blocks : Nat
  set : Nat
  dir : Nat
  rbm : Nat
  shift : Nat
  seg : Nat
  wstart : Nat
  clr : Nat
  half : Nat
  adesc : Nat
  offa : Nat
  e0 : Nat
  szreg : Nat
  deriving DecidableEq, Repr

/-- MAT LOADW (Table 05-5). -/
structure LoadwF where
  blocks : Nat
  set : Nat
  two : Nat
  wdesc : Nat
  offw : Nat
  bsreg : Nat
  deriving DecidableEq, Repr

/-- MAT PRELOAD (Table 05-5). -/
structure PreloadF where
  blocks : Nat
  q : Nat
  sdesc : Nat
  off : Nat
  two : Nat
  deriving DecidableEq, Repr

/-- MAT BSTORE, BLOAD, BCLEAR (Table 05-5). -/
structure BankF where
  blocks : Nat
  e0 : Nat
  count : Nat
  sdesc : Nat
  off : Nat
  bsreg : Nat
  deriving DecidableEq, Repr

inductive BankOp where
  | bstore | bload | bclear
  deriving DecidableEq, Repr

/-- VEC operations (Table 05-7), in OP order. -/
inductive VecOp where
  | add | sub | mul | fma | div | sqrt | min | max | abs | neg | cvt | rcp | rsq | exp | log | sin | cos
  | cmp | sel | iscale | rsum | rmax | rmin | ramax | scan | sort | topk | gather | scatter | scatterAdd | vqnear
  deriving DecidableEq, Repr

/-- VEC fields (Table 05-6). -/
structure VecF where
  dst : Nat
  srca : Nat
  srcb : Nat
  srcc : Nat
  mask : Nat
  offd : Nat
  offa : Nat
  offb : Nat
  offc : Nat
  szreg : Nat
  scalreg : Nat
  scalsel : Nat
  auxop : Nat
  deriving DecidableEq, Repr

/-- MOV operations (Table 05-9). -/
inductive MovOp where
  | set | add | sub | mul | and | or | xor | shl | shr | minu | maxu | ld | ld32 | st | spec | dmain | dmaout
  deriving DecidableEq, Repr

/-- MOV fields (Table 05-8). -/
structure MovF where
  sd : Nat
  sa : Nat
  sb : Nat
  desc : Nat
  off : Nat
  xp : Nat
  imm : Nat
  deriving DecidableEq, Repr

/-- LOOP fields (Table 05-11). -/
structure LoopF where
  src : Nat
  tripreg : Nat
  trip : Nat
  maxtrip : Nat
  bodylen : Nat
  idxreg : Nat
  deriving DecidableEq, Repr

inductive SyncOp where
  | waitall | rbar | post | waitge | recv
  deriving DecidableEq, Repr

/-- SYNC fields (Table 05-12). -/
structure SyncF where
  id : Nat
  reg : Nat
  imm : Nat
  timeout : Nat
  order : Nat
  deriving DecidableEq, Repr

inductive KvOp where
  | append | read | score | len
  deriving DecidableEq, Repr

/-- KV fields (Table 05-13). -/
structure KvF where
  seqd : Nat
  kd : Nat
  vd : Nat
  auxd : Nat
  layer : Nat
  headg : Nat
  offreg : Nat
  szreg : Nat
  deriving DecidableEq, Repr

inductive RouteOp where
  | place | send | returnAcc | returnSlot
  deriving DecidableEq, Repr

/-- ROUTE fields (Table 05-13). -/
structure RouteF where
  choice : Nat
  weight : Nat
  token : Nat
  out : Nat
  idx : Nat
  capreg : Nat
  poolreg : Nat
  epochreg : Nat
  offreg : Nat
  renorm : Nat
  deriving DecidableEq, Repr

/-- TAP fields (Table 05-13). -/
structure TapF where
  desc : Nat
  offreg : Nat
  tapid : Nat
  deriving DecidableEq, Repr

/-- A decoded region instruction without its MV bit. -/
inductive RBody where
  | mul (f : MulF)
  | loadw (f : LoadwF)
  | preload (f : PreloadF)
  | bank (op : BankOp) (f : BankF)
  | vec (op : VecOp) (f : VecF)
  | mov (op : MovOp) (f : MovF)
  | loop (f : LoopF)
  | sync (op : SyncOp) (f : SyncF)
  | kv (op : KvOp) (f : KvF)
  | route (op : RouteOp) (f : RouteF)
  | tap (f : TapF)
  deriving DecidableEq, Repr

/-- A decoded region instruction: its may-vary bit (R170) and the rest. -/
structure RInstr where
  mv : Bool
  body : RBody
  deriving DecidableEq, Repr

/-- No descriptor (R142). -/
def noDesc : Nat := 0x3FF

/-- Fields of the given widths, lowest first. -/
def unpackBits : List Nat → Nat → List Nat
  | [], _ => []
  | k :: ks, v => v % 2 ^ k :: unpackBits ks (v / 2 ^ k)

/-- The number whose fields, lowest first, are the given (width, value) pairs. -/
def packBits : List (Nat × Nat) → Nat
  | [] => 0
  | (k, x) :: r => x + 2 ^ k * packBits r

/-- OP codes of Table 05-7. -/
def VecOp.code : VecOp → Nat
  | .add => 0x00 | .sub => 0x01 | .mul => 0x02 | .fma => 0x03 | .div => 0x04 | .sqrt => 0x05 | .min => 0x06
  | .max => 0x07 | .abs => 0x08 | .neg => 0x09 | .cvt => 0x0A | .rcp => 0x0B | .rsq => 0x0C | .exp => 0x0D
  | .log => 0x0E | .sin => 0x0F | .cos => 0x10 | .cmp => 0x11 | .sel => 0x12 | .iscale => 0x13 | .rsum => 0x14
  | .rmax => 0x15 | .rmin => 0x16 | .ramax => 0x17 | .scan => 0x18 | .sort => 0x19 | .topk => 0x1A
  | .gather => 0x1B | .scatter => 0x1C | .scatterAdd => 0x1D | .vqnear => 0x1E

def VecOp.ofCode : Nat → Option VecOp
  | 0x00 => some .add | 0x01 => some .sub | 0x02 => some .mul | 0x03 => some .fma | 0x04 => some .div
  | 0x05 => some .sqrt | 0x06 => some .min | 0x07 => some .max | 0x08 => some .abs | 0x09 => some .neg
  | 0x0A => some .cvt | 0x0B => some .rcp | 0x0C => some .rsq | 0x0D => some .exp | 0x0E => some .log
  | 0x0F => some .sin | 0x10 => some .cos | 0x11 => some .cmp | 0x12 => some .sel | 0x13 => some .iscale
  | 0x14 => some .rsum | 0x15 => some .rmax | 0x16 => some .rmin | 0x17 => some .ramax | 0x18 => some .scan
  | 0x19 => some .sort | 0x1A => some .topk | 0x1B => some .gather | 0x1C => some .scatter
  | 0x1D => some .scatterAdd | 0x1E => some .vqnear | _ => none

/-- OP codes of Table 05-9. -/
def MovOp.code : MovOp → Nat
  | .set => 0x00 | .add => 0x01 | .sub => 0x02 | .mul => 0x03 | .and => 0x04 | .or => 0x05 | .xor => 0x06
  | .shl => 0x07 | .shr => 0x08 | .minu => 0x09 | .maxu => 0x0A | .ld => 0x10 | .ld32 => 0x11 | .st => 0x12
  | .spec => 0x20 | .dmain => 0x30 | .dmaout => 0x31

def MovOp.ofCode : Nat → Option MovOp
  | 0x00 => some .set | 0x01 => some .add | 0x02 => some .sub | 0x03 => some .mul | 0x04 => some .and
  | 0x05 => some .or | 0x06 => some .xor | 0x07 => some .shl | 0x08 => some .shr | 0x09 => some .minu
  | 0x0A => some .maxu | 0x10 => some .ld | 0x11 => some .ld32 | 0x12 => some .st | 0x20 => some .spec
  | 0x30 => some .dmain | 0x31 => some .dmaout | _ => none

def SyncOp.code : SyncOp → Nat
  | .waitall => 0 | .rbar => 1 | .post => 2 | .waitge => 3 | .recv => 4

def SyncOp.ofCode : Nat → Option SyncOp
  | 0 => some .waitall | 1 => some .rbar | 2 => some .post | 3 => some .waitge | 4 => some .recv | _ => none

def KvOp.code : KvOp → Nat
  | .append => 0 | .read => 1 | .score => 2 | .len => 3

def KvOp.ofCode : Nat → Option KvOp
  | 0 => some .append | 1 => some .read | 2 => some .score | 3 => some .len | _ => none

def RouteOp.code : RouteOp → Nat
  | .place => 0 | .send => 1 | .returnAcc => 2 | .returnSlot => 3

def RouteOp.ofCode : Nat → Option RouteOp
  | 0 => some .place | 1 => some .send | 2 => some .returnAcc | 3 => some .returnSlot | _ => none

/-- AUXOP bits an operation uses (Table 05-7); the others are reserved. -/
def VecOp.auxMask : VecOp → Nat
  | .cmp => 4 | .rsum => 2 | .rmax => 2 | .rmin => 2 | .ramax => 2 | .scan => 8 | .sort => 16 | .topk => 64 | _ => 1

/-- The operation takes SRCB and so allows SCALSEL 1 (R157). -/
def VecOp.scalB : VecOp → Bool
  | .add | .sub | .mul | .fma | .div | .min | .max | .cmp | .sel => true
  | _ => false

/-- Field encodings of Table 05-6 and 05-7 that are listed. -/
def VecF.listed (op : VecOp) (f : VecF) : Bool :=
  decide (f.auxop < op.auxMask)
  && (f.scalsel == 0 || (f.scalsel == 1 && op.scalB) || (f.scalsel == 2 && op == .fma))
  && (op != .scan || f.auxop % 4 != 3)                   -- combine 0, 1 or 2
  && (op != .sort || f.auxop % 8 ≤ 5)                    -- G is 2 to 64

/-- Listed encodings of Table 05-5 for MUL. -/
def MulF.listed (f : MulF) : Bool :=
  f.blocks != 0 && f.dir ≤ 1 && f.rbm ≤ 2 && f.shift ≤ 4 && f.wstart ≤ 2

/-- Listed encodings for the bank operations; BCLEAR names no descriptor and no register (R156). -/
def BankF.listed (op : BankOp) (f : BankF) : Bool :=
  f.blocks != 0 && 1 ≤ f.count && f.count ≤ 512
  && (op != .bclear || (f.sdesc == noDesc && f.off == 0 && f.bsreg == 0))

/-- Listed encodings of Table 05-10 and 05-8: SPEC's selector is 0, 1 or 2. -/
def MovF.listed (op : MovOp) (f : MovF) : Bool :=
  (op != .spec || f.imm % 256 ≤ 2) && (op == .dmain || f.xp == 0)

/-- Listed encodings of Table 05-11. -/
def LoopF.listed (f : LoopF) : Bool := f.src ≤ 2 && 1 ≤ f.maxtrip && 1 ≤ f.bodylen && f.bodylen ≤ 8191

/-- Listed encodings of Table 05-12: ID ranges, and unused fields zero (R166). -/
def SyncF.listed (op : SyncOp) (f : SyncF) : Bool :=
  match op with
  | .waitall => f.id == 0 && f.reg == 0 && f.imm == 0 && f.order == 0
  | .rbar => f.id ≤ 63 && f.reg == 0 && f.imm == 0 && f.order == 0
  | .post => f.id ≤ 63 && f.reg == 0 && f.imm == 0 && f.timeout == 0 && f.order == 0
  | .waitge => f.id ≤ 63 && f.order == 0
  | .recv => f.id ≤ 255

/-- Every field encoding is listed (check 2 of Table 05-15). -/
def RBody.listed : RBody → Bool
  | .mul f => f.listed
  | .loadw f => f.blocks != 0
  | .preload f => f.blocks != 0
  | .bank op f => f.listed op
  | .vec op f => f.listed op
  | .mov op f => f.listed op
  | .loop f => f.listed
  | .sync op f => f.listed op
  | .kv _ _ => true
  | .route _ _ => true
  | .tap _ => true

/-- CLASS of Table 05-3. -/
def RBody.classCode : RBody → Nat
  | .mul _ | .loadw _ | .preload _ | .bank _ _ => 0
  | .vec _ _ => 1 | .mov _ _ => 2 | .loop _ => 3 | .sync _ _ => 4 | .kv _ _ => 5 | .route _ _ => 6 | .tap _ => 7

/-- OP of Table 05-3. -/
def RBody.opCode : RBody → Nat
  | .mul _ => 0 | .loadw _ => 1 | .preload _ => 2
  | .bank .bstore _ => 3 | .bank .bload _ => 4 | .bank .bclear _ => 5
  | .vec op _ => op.code | .mov op _ => op.code | .loop _ => 0 | .sync op _ => op.code
  | .kv op _ => op.code | .route op _ => op.code | .tap _ => 0

/-- The fields above bit 16, lowest first, with their widths; reserved bits are zero fields. -/
def RBody.fields : RBody → List (Nat × Nat)
  | .mul f => [(6, f.blocks), (2, f.set), (2, f.dir), (2, f.rbm), (3, f.shift), (2, f.seg), (2, f.wstart), (1, f.clr),
      (1, f.half), (1, 0), (10, f.adesc), (5, f.offa), (9, f.e0), (2, 0), (5, f.szreg), (59, 0)]
  | .loadw f => [(6, f.blocks), (2, f.set), (1, f.two), (10, f.wdesc), (5, f.offw), (5, f.bsreg), (83, 0)]
  | .preload f => [(6, f.blocks), (3, f.q), (10, f.sdesc), (5, f.off), (1, f.two), (87, 0)]
  | .bank _ f => [(6, f.blocks), (9, f.e0), (10, f.count), (10, f.sdesc), (5, f.off), (5, f.bsreg), (67, 0)]
  | .vec _ f => [(10, f.dst), (10, f.srca), (10, f.srcb), (10, f.srcc), (10, f.mask), (5, f.offd), (5, f.offa),
      (5, f.offb), (5, f.offc), (5, f.szreg), (5, f.scalreg), (2, f.scalsel), (6, f.auxop), (24, 0)]
  | .mov _ f => [(5, f.sd), (5, f.sa), (5, f.sb), (10, f.desc), (5, f.off), (1, f.xp), (1, 0), (64, f.imm), (16, 0)]
  | .loop f => [(2, f.src), (5, f.tripreg), (32, f.trip), (32, f.maxtrip), (13, f.bodylen), (5, f.idxreg), (23, 0)]
  | .sync _ f => [(8, f.id), (5, f.reg), (32, f.imm), (16, f.timeout), (1, f.order), (50, 0)]
  | .kv _ f => [(10, f.seqd), (10, f.kd), (10, f.vd), (10, f.auxd), (10, f.layer), (6, f.headg), (5, f.offreg),
      (5, f.szreg), (46, 0)]
  | .route _ f => [(10, f.choice), (10, f.weight), (10, f.token), (10, f.out), (10, f.idx), (5, f.capreg),
      (5, f.poolreg), (5, f.epochreg), (5, f.offreg), (1, f.renorm), (41, 0)]
  | .tap f => [(10, f.desc), (5, f.offreg), (6, f.tapid), (91, 0)]

/-- Every field lies within its width. -/
def fieldsFit : List (Nat × Nat) → Bool
  | [] => true
  | (k, x) :: r => decide (x < 2 ^ k) && fieldsFit r

/-- A well-formed region instruction: every field within its width and every encoding listed. -/
def RInstr.wf (i : RInstr) : Bool := fieldsFit i.body.fields && i.body.listed

/-- The 128-bit instruction word as a number (R146). -/
def RInstr.encode (i : RInstr) : Nat :=
  packBits ((4, i.body.classCode) :: (1, if i.mv then 1 else 0) :: (3, 0) :: (8, i.body.opCode) :: i.body.fields)

/-- The fields of a MAT word above bit 16. -/
def decodeMat (op v : Nat) : Option RBody :=
  match op with
  | 0 => match unpackBits [6, 2, 2, 2, 3, 2, 2, 1, 1, 1, 10, 5, 9, 2, 5, 59] v with
    | [bl, st, di, rb, sh, sg, ws, cl, ha, 0, ad, oa, e0, 0, sz, 0] => some (.mul ⟨bl, st, di, rb, sh, sg, ws, cl, ha, ad, oa, e0, sz⟩)
    | _ => none
  | 1 => match unpackBits [6, 2, 1, 10, 5, 5, 83] v with
    | [bl, st, tw, wd, ow, bs, 0] => some (.loadw ⟨bl, st, tw, wd, ow, bs⟩)
    | _ => none
  | 2 => match unpackBits [6, 3, 10, 5, 1, 87] v with
    | [bl, q, sd, off, tw, 0] => some (.preload ⟨bl, q, sd, off, tw⟩)
    | _ => none
  | n => match unpackBits [6, 9, 10, 10, 5, 5, 67] v with
    | [bl, e0, ct, sd, off, bs, 0] =>
      match n with
      | 3 => some (.bank .bstore ⟨bl, e0, ct, sd, off, bs⟩)
      | 4 => some (.bank .bload ⟨bl, e0, ct, sd, off, bs⟩)
      | 5 => some (.bank .bclear ⟨bl, e0, ct, sd, off, bs⟩)
      | _ => none
    | _ => none

/-- A VEC word above bit 16. -/
def decodeVec (op v : Nat) : Option RBody :=
  match VecOp.ofCode op, unpackBits [10, 10, 10, 10, 10, 5, 5, 5, 5, 5, 5, 2, 6, 24] v with
  | some o, [d, a, b, c, m, od, oa, ob, oc, sz, sr, ss, ax, 0] => some (.vec o ⟨d, a, b, c, m, od, oa, ob, oc, sz, sr, ss, ax⟩)
  | _, _ => none

/-- A MOV word above bit 16. -/
def decodeMov (op v : Nat) : Option RBody :=
  match MovOp.ofCode op, unpackBits [5, 5, 5, 10, 5, 1, 1, 64, 16] v with
  | some o, [sd, sa, sb, de, off, xp, 0, imm, 0] => some (.mov o ⟨sd, sa, sb, de, off, xp, imm⟩)
  | _, _ => none

/-- A LOOP word above bit 16. -/
def decodeLoop (op v : Nat) : Option RBody :=
  match op, unpackBits [2, 5, 32, 32, 13, 5, 23] v with
  | 0, [s, tr, t, mt, bl, ix, 0] => some (.loop ⟨s, tr, t, mt, bl, ix⟩)
  | _, _ => none

/-- A SYNC word above bit 16. -/
def decodeSync (op v : Nat) : Option RBody :=
  match SyncOp.ofCode op, unpackBits [8, 5, 32, 16, 1, 50] v with
  | some o, [id, rg, imm, tm, od, 0] => some (.sync o ⟨id, rg, imm, tm, od⟩)
  | _, _ => none

/-- A KV word above bit 16. -/
def decodeKv (op v : Nat) : Option RBody :=
  match KvOp.ofCode op, unpackBits [10, 10, 10, 10, 10, 6, 5, 5, 46] v with
  | some o, [sq, kd, vd, ax, ly, hg, off, sz, 0] => some (.kv o ⟨sq, kd, vd, ax, ly, hg, off, sz⟩)
  | _, _ => none

/-- A ROUTE word above bit 16. -/
def decodeRoute (op v : Nat) : Option RBody :=
  match RouteOp.ofCode op, unpackBits [10, 10, 10, 10, 10, 5, 5, 5, 5, 1, 41] v with
  | some o, [ch, we, tk, out, idx, cp, pl, ep, off, rn, 0] => some (.route o ⟨ch, we, tk, out, idx, cp, pl, ep, off, rn⟩)
  | _, _ => none

/-- A TAP word above bit 16. -/
def decodeTap (op v : Nat) : Option RBody :=
  match op, unpackBits [10, 5, 6, 91] v with
  | 0, [de, off, id, 0] => some (.tap ⟨de, off, id⟩)
  | _, _ => none

/-- The body of an instruction word by its CLASS. -/
def decodeBody (cls op v : Nat) : Option RBody :=
  match cls with
  | 0 => decodeMat op v
  | 1 => decodeVec op v
  | 2 => decodeMov op v
  | 3 => decodeLoop op v
  | 4 => decodeSync op v
  | 5 => decodeKv op v
  | 6 => decodeRoute op v
  | 7 => decodeTap op v
  | _ => none

/-- The instruction a 128-bit word spells; none for a reserved class, an unlisted OP or field encoding or a reserved
bit that is set (check 2 of Table 05-15). -/
def RInstr.decode (w : Nat) : Option RInstr :=
  match unpackBits [4, 1, 3, 8, 112] w with
  | [cls, mv, 0, op, v] =>
    match decodeBody cls op v with
    | some b => if b.listed then some ⟨mv == 1, b⟩ else none
    | none => none
  | _ => none

/-- MV is set on exactly the instructions of Table 05-14 (R170). -/
def RBody.mayVary : RBody → Bool
  | .route .returnAcc _ => true
  | .sync .recv f => f.order == 1
  | .mov .spec f => f.imm % 256 == 1
  | _ => false

end Sys2Proof.Machine
end

