-- ==== Sys2Proof/Machine/Block.lean ====
section
/-! DEFINITION. The matrix block of chapter 03: weight sets, row buffer, accumulator bank, and what a MAT instruction
does to them (R67 to R111). Results do not depend on the wavefront timing of R74 and R82, which is not state. -/
namespace Sys2Proof.Machine

/-- Weight set states (Table 03-3). -/
inductive SetState where
  | free | loading | ready | active | retiring
  deriving DecidableEq, Repr

/-! Parity and residues (R109). -/

/-- Parity of a byte. -/
def byteParity (v : Nat) : Nat := ((List.range 8).filter (bit v)).length % 2

/-- The parity bits of a lane register or row buffer element, one for each of its four bytes (R109). -/
def regParity (v : Nat) : Nat :=
  byteParity v + 2 * byteParity (v / 2 ^ 8) + 4 * byteParity (v / 2 ^ 16) + 8 * byteParity (v / 2 ^ 24)

/-- The parity bits that belong to a table of registers. -/
def parityOf (t : Tab Nat) : Tab Nat := t.filterMap (fun e => if regParity e.2 = 0 then none else some (e.1, regParity e.2))

/-- The keys whose stored parity does not fit the stored value. -/
def parityBad (t par : Tab Nat) : List Nat :=
  (t.map (·.1) ++ par.map (·.1)).filter (fun k => regParity (Tab.get 0 t k) != Tab.get 0 par k)

/-- One weight set of a block: lane registers keyed 128 k + n, scale bytes keyed 128 q + n (R69, R70), the parity bits of
both (R109), the format and TWO bit of the LOADW that filled it (R153), and the cell of a row that failed parity
twice, which marks the set failed (Table 03-9). -/
structure WSet where
  st : SetState
  fmt : Fmt
  two : Bool
  failed : Option (Nat × Nat)
  regs : Tab Nat
  scales : Tab Nat
  regsPar : Tab Nat
  scalesPar : Tab Nat
  deriving DecidableEq, Repr

/-- A FREE set that reads as zero (R83). -/
def WSet.empty : WSet := ⟨.free, .fp32, false, none, [], [], [], []⟩

/-- The cells (q, j) in which a weight or scale byte of the set fails parity (R109, R110). -/
def WSet.badCells (w : WSet) : List (Nat × Nat) :=
  (parityBad w.regs w.regsPar).map (fun x => (x / 128 / 16, x % 128 / 16)) ++ (parityBad w.scales w.scalesPar).map (fun x => (x / 128, x % 128 / 16))

/-- An entry of the operand row buffer over the block's 128 lane rows: elements, scale bytes, and the parity of both (R71,
R109). -/
structure RowEntry where
  elems : Tab Nat
  scales : Tab Nat
  elemsPar : Tab Nat
  scalesPar : Tab Nat
  deriving DecidableEq, Repr

def RowEntry.zero : RowEntry := ⟨[], [], [], []⟩

/-- The cell rows of an entry that fail parity, each in the cell of column 0. -/
def RowEntry.badCells (x : RowEntry) : List (Nat × Nat) :=
  (parityBad x.elems x.elemsPar ++ parityBad x.scales x.scalesPar).map (fun k => (k / 16, 0))

/-! Exception flags by lane or column (R62). -/

/-- Sticky flag sets, by vector lane or by accumulator column. -/
abbrev FlagSets := Tab Flags

/-- A flag set joined by what a lane or column raises. -/
def FlagSets.raise (t : FlagSets) (k : Nat) (f : Flags) : FlagSets := if f = 0 then t else Tab.modify 0 t k (· ||| f)

/-- The 5-bit summary of an instruction: the OR of every set (R63). -/
def FlagSets.summary (t : FlagSets) : Flags := t.foldl (fun g e => g ||| e.2) 0

/-- Flags raised one after another. -/
def raiseAll (xs : List (Nat × Flags)) : FlagSets := xs.foldl (fun t e => FlagSets.raise t e.1 e.2) []

/-- A bank word: 32 bits and their 7 check bits (R91). -/
structure BankWord where
  data : U32
  check : BitVec 7
  deriving DecidableEq, Repr

/-- A word written with its check bits. The SECDED code is the implementation's (log 9). -/
def BankWord.of (w : U32) : BankWord := ⟨w, Config.secded w⟩

/-- A block: its four weight sets, row buffer entry E0, keyed by lane row 16 q + m and kept from one window-mode MAT to the
next (R71, R88), the slices that wait in E1 to E3 in front of it, oldest first, the bank (a listed word is marked written,
R93; entries 512 to 519 are the test entries, R91), the corrected-error count (R96) and the product counts since the power
manager last read them (R102). -/
structure Block where
  sets : List WSet
  e0 : RowEntry
  queue : List RowEntry
  bank : Tab (Option BankWord)
  corrected : Nat
  products : Nat
  gated : Nat
  deriving DecidableEq, Repr

def Block.reset : Block := ⟨List.replicate 4 .empty, .zero, [], [], 0, 0, 0⟩

/-- Every weight set FREE and zero, every row buffer entry zero: the start of a command (R83). -/
def Block.startCommand (b : Block) : Block := { b with sets := List.replicate 4 .empty, e0 := .zero, queue := [] }

def Block.set (b : Block) (i : Nat) : WSet := b.sets.getD i .empty

/-- The active set, if any. -/
def Block.active (b : Block) : Option Nat := (List.range 4).find? (fun i => (b.set i).st == .active)

/-- One bank word at entry e, column n; an unwritten word reads 0 (R91, R93). -/
def Block.word (b : Block) (e n : Nat) : U32 := ((Tab.get none b.bank (e * 128 + n)).map (·.data)).getD 0

/-- A bank word written and marked written (R93). -/
def Block.putWord (b : Block) (e n : Nat) (w : U32) : Block := { b with bank := Tab.set none b.bank (e * 128 + n) (some (.of w)) }

/-- The 8 test entries written, word i with `f i`; no instruction names them (R91, R509). -/
def Block.putTest (b : Block) (f : Nat → U32) : Block :=
  { b with bank := b.bank.filter (fun e => decide (e.1 < 65536)) ++ (List.range 1024).map (fun i => (65536 + i, some (.of (f i)))) }

/-- Every mark of entries first … first + n − 1 cleared (R93, R555). -/
def Block.unwrite (b : Block) (first n : Nat) : Block :=
  { b with bank := Tab.dropWhere (fun k => decide (128 * first ≤ k) && decide (k < 128 * (first + n))) b.bank }

/-- The accumulation class, two-element packing and issue interval of a weight and activation format (Table 02-6,
Table 03-2); none when the table lists no such pair. -/
structure PairClass where
  integer : Bool
  two : Bool
  interval : Nat
  deriving DecidableEq, Repr

def pairClass (w a : Fmt) : Option PairClass :=
  if w == .int32 || a == .int32 then none
  else if w.isInt && a.isInt then
    if w == .int4 && a == .int4 then some ⟨true, true, 1⟩ else some ⟨true, false, 1⟩
  else if w.isInt || a.isInt then none
  else if w == .fp4 && a == .fp4 then some ⟨false, true, 1⟩
  else if w == .fp32 || a == .fp32 then some ⟨false, false, 16⟩
  else if w == .bf16 || w == .fp16 || a == .bf16 || a == .fp16 then some ⟨false, false, 2⟩
  else some ⟨false, false, 1⟩

/-- The exact values a lane register or row buffer element holds: two in the two-element packing (R69, R71). -/
def laneVals (f : Fmt) (two : Bool) (raw scale : Nat) : List FVal :=
  match f with
  | .fp4 => if two then [fp4Val raw scale, fp4Val (raw / 16) scale] else [fp4Val raw scale]
  | _ => [f.float.value (raw % 2 ^ f.width)]

/-- The integers a lane register or row buffer element holds. -/
def laneInts (f : Fmt) (two : Bool) (raw : Nat) : List Int :=
  match f with
  | .int4 => if two then [sext 4 raw, sext 4 (raw / 16)] else [sext 4 raw]
  | _ => [sext f.width raw]

def FVal.neg : FVal → FVal
  | .nan => .nan
  | .inf n => .inf (!n)
  | .fin n m e => .fin (!n) m e

/-- The pair-mode exchange of R85 over the lanes' element lists. -/
def pairMode {α : Type} (neg : α → α) (two : Bool) (lane : Nat → List α) (k : Nat) : List α :=
  if two then
    match lane k with
    | [a, b] => [neg b, a]
    | l => l
  else if k % 2 = 0 then (lane (k + 1)).map neg else lane (k - 1)

/-- An exact sum of products: the empty sum is −0, so that zeros add as R35 states. -/
def exactSum (ps : List (FVal × FVal)) : FVal := ps.foldl (fun s p => s.add (p.1.mul p.2)) (.fin true 0 0)

/-- The flags the array raises for a rounded result (R57, R62: NV and OF only). -/
def arrayFlags (r : FVal) (fl : Flags) : Flags := (if r = .nan then flagNV else 0) ||| (fl &&& flagOF)

/-- A value rounded once with the array's flags. -/
def arrayRound (v : FVal) : F32 × Flags :=
  let (x, fl) := toF32 v
  (x, arrayFlags v fl)

/-- One FP32 addition of R54 with the array's flags. -/
def arrayAdd (a b : F32) : F32 × Flags := arrayRound ((f32val a).add (f32val b))

/-- t = (((c0 + c1) + c2) …) + c7 (R54). -/
def cellChain : List (F32 × Flags) → F32 × Flags
  | [] => (0, 0)
  | c :: cs => cs.foldl (fun t c => let (x, fl) := arrayAdd t.1 c.1; (x, t.2 ||| c.2 ||| fl)) c

/-- The update of one accumulator entry of a floating pair (R54, R59). -/
def accFloat (clr : Bool) (entry t : F32) : F32 × Flags := if clr then (t, 0) else arrayAdd entry t

/-- The update of one accumulator entry of an integer pair (R56, R59): modulo 2^32, OF when the exact sum does not fit. -/
def accInt (clr : Bool) (entry : U32) (t : Int) : U32 × Flags :=
  let x : Int := if clr then t else sext 32 entry.toNat + t
  (BitVec.ofNat 32 (trunc 32 x), if x < -(2 ^ 31) ∨ 2 ^ 31 - 1 < x then flagOF else 0)

/-- A streamed row: each element's bits and the scale byte of its block. -/
abbrev ActRow := List (Nat × Nat)

/-- The row buffer element of lane row k from the elements that reach it: one, or a pair packed as R71 states. -/
def packLane (two : Bool) (row : ActRow) (k : Nat) : Nat × Nat :=
  if two then
    let a := row.getD (2 * k) (0, 0)
    let b := row.getD (2 * k + 1) (0, 0)
    (a.1 % 16 + 16 * (b.1 % 16), a.2)
  else row.getD k (0, 0)

/-- A table of the nonzero values of f over 0 … n − 1. -/
def tabOf (n : Nat) (f : Nat → Nat) : Tab Nat :=
  (List.range n).filterMap (fun i => if f i = 0 then none else some (i, f i))

/-- A row buffer entry given lane by lane, with its parity. -/
def RowEntry.of (f : Nat → Nat × Nat) : RowEntry :=
  let es := tabOf 128 (fun k => (f k).1)
  let ss := tabOf 128 (fun k => (f k).2)
  ⟨es, ss, parityOf es, parityOf ss⟩

/-- E0 given lane by lane. -/
def Block.setE0 (b : Block) (f : Nat → Nat × Nat) : Block := { b with e0 := .of f }

def Block.lane (b : Block) (k : Nat) : Nat × Nat := (Tab.get 0 b.e0.elems k, Tab.get 0 b.e0.scales k)

/-- A slice that arrives passes through the queue of E1 to E3 into E0 (R71, R84): it joins behind the slices that wait, and
the oldest one moves on. -/
def Block.through (b : Block) (x : RowEntry) : Block :=
  match b.queue ++ [x] with
  | [] => b
  | y :: ys => { b with e0 := y, queue := ys.take 3 }

/-- One window-mode row step (R86, R87): s new elements enter at the top of each segment of 16 L lane rows. -/
def Block.windowStep (b : Block) (two : Bool) (s l : Nat) (row : ActRow) : Block :=
  b.setE0 (fun k =>
    let seg := k / (16 * l)
    let m := k % (16 * l)
    if m < s then packLane two row (seg * s + m) else b.lane (k - s))

/-- The arriving row taken into E0 (R84 to R88). -/
def Block.arrive (b : Block) (f : MulF) (two : Bool) (row : ActRow) : Block :=
  if f.rbm = 2 then b.windowStep two (2 ^ f.shift) (2 ^ f.seg) row
  else b.through (.of (packLane two row))

/-- Weight register and scale byte of lane (k, n). -/
def WSet.reg (w : WSet) (k n : Nat) : Nat × Nat :=
  (Tab.get 0 w.regs (128 * k + n), Tab.get 0 w.scales (128 * (k / 16) + n))

/-- An element is zero and may gate its lane (R100), given the exact value. -/
def FVal.isZero : FVal → Bool
  | .fin _ m _ => m == 0
  | _ => false
def FVal.isFinite : FVal → Bool
  | .fin _ _ _ => true
  | _ => false

/-- The product is gated (R99). -/
def gates (p : FVal × FVal) : Bool := (p.1.isZero && p.2.isFinite) || (p.2.isZero && p.1.isFinite)

/-- Pairs of presented element and weight in cell row q and column n, ordinary direction. -/
def ordPairs (x : Nat → List FVal) (w : Nat → List FVal) (q : Nat) : List (FVal × FVal) :=
  (List.range 16).flatMap (fun m => (x (16 * q + m)).zip (w (16 * q + m)))

/-- The residue modulo 3 of a finite value in units of 2^lo. -/
def FVal.residue (lo : Int) : FVal → Int
  | .fin n m e => signedAt n m e lo % 3
  | _ => 0

/-- The residue check of a cell column sum: its residue equals the sum of its products' residues (R109). A sum that is no
finite value carries none. -/
def residueOk (ps : List (FVal × FVal)) (s : FVal) : Bool :=
  match s with
  | .fin n m e => (signedAt n m e e - ps.foldl (fun r p => r + (p.1.mul p.2).residue e) 0) % 3 == 0
  | _ => true

/-- The residue check of an integer column sum over one cell. -/
def intResidueOk (ps : List (Int × Int)) (s : Int) : Bool := (s - ps.foldl (fun r p => r + p.1 % 3 * (p.2 % 3)) 0) % 3 == 0

/-- One cell's column sum before and after its rounding, with whether the residue check passes (R53, R109). -/
def cellSum (ps : List (FVal × FVal)) : (F32 × Flags) × Bool :=
  let s := exactSum ps
  (arrayRound s, residueOk ps s)

/-- One column of an ordinary floating row (R53, R54): t and its flags. -/
def ordColumn (x w : Nat → List FVal) : F32 × Flags :=
  cellChain ((List.range 8).map (fun q => (cellSum (ordPairs x w q)).1))

/-- The cell rows whose sum of one ordinary column fails its residue check. -/
def ordBad (x w : Nat → List FVal) : List Nat := (List.range 8).filter (fun q => !(cellSum (ordPairs x w q)).2)

/-- Presented elements of an ordinary floating row, by lane row (R84, R85). -/
def Block.floatLanes (b : Block) (f : MulF) (af : Fmt) (two : Bool) : Nat → List FVal :=
  let lane (k : Nat) := laneVals af two (b.lane k).1 (b.lane k).2
  if f.rbm = 1 then pairMode FVal.neg two lane else lane

/-- Presented elements of an ordinary integer row, by lane row (R84, R85). -/
def Block.intLanes (b : Block) (f : MulF) (af : Fmt) (two : Bool) : Nat → List Int :=
  let lane (k : Nat) := laneInts af two (b.lane k).1
  if f.rbm = 1 then pairMode (fun x => -x) two lane else lane

/-- Integer column sum (R56). -/
def intColumn (x w : Nat → List Int) : Int :=
  (List.range 128).foldl (fun s k => ((x k).zip (w k)).foldl (fun s p => s + p.1 * p.2) s) 0

/-- The integer pairs that one cell sums for a column. -/
def intPairs (x w : Nat → List Int) (q : Nat) : List (Int × Int) :=
  (List.range 16).flatMap (fun m => (x (16 * q + m)).zip (w (16 * q + m)))

/-- The cell rows whose integer sum of one column fails its residue check. -/
def intBad (x w : Nat → List Int) : List Nat :=
  (List.range 8).filter (fun q => !intResidueOk (intPairs x w q) ((intPairs x w q).foldl (fun s p => s + p.1 * p.2) 0))

/-- What a row or a whole MUL did to a block: the block, the flags of its columns, and the cells whose checks failed
(R62, R109). -/
structure MulOut where
  block : Block
  flags : FlagSets
  bad : List (Nat × Nat)
  deriving DecidableEq, Repr

/-- How many products of a row one block computes, and how many it gates (R99, R102). -/
def countGates (x : Nat → List FVal) (w : Nat → Nat → List FVal) : Nat × Nat :=
  let ps := (List.range 128).flatMap (fun k => (List.range 128).flatMap (fun n => (x k).zip (w k n)))
  (ps.length - (ps.filter gates).length, (ps.filter gates).length)

/-- One ordinary row of a MUL into bank entry e (R54, R56, R59). -/
def Block.ordRow (b : Block) (f : MulF) (w : WSet) (af : Fmt) (pc : PairClass) (e : Nat) (row : ActRow) : MulOut :=
  let b := b.arrive f pc.two row
  let par := b.e0.badCells
  if pc.integer then
    let x := b.intLanes f af pc.two
    let wl (n k : Nat) : List Int := laneInts w.fmt pc.two (w.reg k n).1
    let g := countGates (fun k => (x k).map intVal) (fun k n => (wl n k).map intVal)
    let b := { b with products := b.products + g.1, gated := b.gated + g.2 }
    (List.range 128).foldl (fun (acc : MulOut) n =>
      let (v, fl) := accInt (f.clr == 1) (acc.block.word e n) (intColumn x (wl n))
      ⟨acc.block.putWord e n v, acc.flags.raise n fl, acc.bad ++ (intBad x (wl n)).map (fun q => (q, n / 16))⟩) ⟨b, [], par⟩
  else
    let x := b.floatLanes f af pc.two
    let wl (n k : Nat) : List FVal := laneVals w.fmt pc.two (w.reg k n).1 (w.reg k n).2
    let g := countGates x (fun k n => wl n k)
    let b := { b with products := b.products + g.1, gated := b.gated + g.2 }
    (List.range 128).foldl (fun (acc : MulOut) n =>
      let (t, ft) := ordColumn x (wl n)
      let (v, fl) := accFloat (f.clr == 1) (acc.block.word e n) t
      ⟨acc.block.putWord e n v, acc.flags.raise n (ft ||| fl), acc.bad ++ (ordBad x (wl n)).map (fun q => (q, n / 16))⟩) ⟨b, [], par⟩

/-- The weight element of lane (k, n) that the transposed direction uses: half h of a two-element set (R106). -/
def WSet.transVal (w : WSet) (h k n : Nat) : FVal :=
  let r := w.reg k n
  (laneVals w.fmt w.two r.1 r.2).getD (if w.two then h else 0) .nan

/-- One transposed row into bank entry e (R103, R104). -/
def Block.transRow (b : Block) (f : MulF) (w : WSet) (af : Fmt) (e : Nat) (row : ActRow) : MulOut :=
  let x (n : Nat) : FVal := af.float.value (row.getD n (0, 0)).1
  let g := countGates (fun n => [x n]) (fun n k => [w.transVal f.half k n])
  let b := { b with products := b.products + g.1, gated := b.gated + g.2 }
  (List.range 128).foldl (fun (acc : MulOut) k =>
    let cell (j : Nat) := cellSum ((List.range 16).map (fun m => (x (16 * j + m), w.transVal f.half k (16 * j + m))))
    let (t, ft) := cellChain ((List.range 8).map (fun j => (cell j).1))
    let (v, fl) := accFloat (f.clr == 1) (acc.block.word e k) t
    ⟨acc.block.putWord e k v, acc.flags.raise k (ft ||| fl),
      acc.bad ++ ((List.range 8).filter (fun j => !(cell j).2)).map (fun j => (k / 16, j))⟩) ⟨b, [], []⟩

/-- Every row of a MUL, row i into entry e0 + i (R152). -/
def Block.mulRows (b : Block) (f : MulF) (w : WSet) (af : Fmt) (pc : PairClass) : Nat → List ActRow → MulOut
  | _, [] => ⟨b, [], []⟩
  | e, r :: rs =>
    let x := if f.dir = 1 then b.transRow f w af e r else b.ordRow f w af pc e r
    let y := x.block.mulRows f w af pc (e + 1) rs
    ⟨y.block, x.flags.foldl (fun t z => t.raise z.1 z.2) y.flags, x.bad ++ y.bad⟩

/-- The MUL can run in this block: the pair is listed, TWO matches, and the transposed direction has a floating stream
and a floating set (R105, R153). A FREE set fails too (R83), and so does a RETIRING one, of which the spec says neither a
swap nor a wait: it holds no tile of a load that has begun since (DESIGN CHOICE, log 97). A transposed stream of E4M3,
E5M2, FP4 or an integer format, which R105 excludes without saying where, fails here at issue (DESIGN CHOICE, log 97). -/
def Block.mulClass (b : Block) (f : MulF) (af : Fmt) : Option PairClass :=
  let w := b.set f.set
  if w.st == .free || w.st == .retiring then none
  else match pairClass w.fmt af with
    | none => none
    | some pc =>
      if f.dir = 1 then
        if pc.integer then none else if af == .bf16 || af == .fp16 || af == .fp32 then some pc else none
      else if w.two == pc.two then some pc else none

/-- The swap of R81: the named set becomes ACTIVE and the one that was active RETIRING. -/
def Block.swapIn (b : Block) (i : Nat) : Block :=
  if (b.set i).st == .active then b
  else
    let sets := match b.active with
      | some a => b.sets.set a { b.set a with st := .retiring }
      | none => b.sets
    { b with sets := sets.set i { b.set i with st := .active } }

/-- The start of a window-mode MUL (R88): clear makes every E0 element +0. Keep and preload leave E0 as it stands, lanes
that no preload wrote and lanes that a preload wrote since the last window-mode MUL included (DESIGN CHOICE, log 97). -/
def Block.startWindow (b : Block) (f : MulF) : Block :=
  if f.rbm = 2 ∧ f.wstart = 0 then { b with e0 := .zero } else b

/-- A whole MUL in one block whose pair class is known. -/
def Block.mul (b : Block) (f : MulF) (af : Fmt) (pc : PairClass) (bankFirst : Nat) (rows : List ActRow) : MulOut :=
  let b := (b.swapIn f.set).startWindow f
  let o := b.mulRows f (b.set f.set) af pc (bankFirst + f.e0) rows
  { o with bad := (if rows.isEmpty then [] else (b.set f.set).badCells) ++ o.bad }

/-- A tile for LOADW: element (j, n) along reduction index and output column as bits and scale byte, j below `size`. -/
def Block.load (b : Block) (i : Nat) (fmt : Fmt) (two : Bool) (size : Nat) (elem : Nat → Nat → Nat × Nat) : Block :=
  let el (j n : Nat) : Nat × Nat := if j < size then elem j n else (0, 0)
  let regs := tabOf 16384 (fun x =>
    let k := x / 128
    let n := x % 128
    if two then (el (2 * k) n).1 % 16 + 16 * ((el (2 * k + 1) n).1 % 16) else (el k n).1)
  let scales := tabOf 1024 (fun x => (el ((if two then 32 else 16) * (x / 128)) (x % 128)).2)
  { b with sets := b.sets.set i ⟨.loading, fmt, two, none, regs, scales, parityOf regs, parityOf scales⟩ }

/-- PRELOAD of one vector into cell row q (R155): sixteen lane elements and one scale byte for all of them, 0 for a source
that is not FP4 (DESIGN CHOICE, log 97: R155 gives the byte for an FP4 source only). -/
def Block.preload (b : Block) (q : Nat) (elems : List Nat) (scale : Nat) : Block :=
  b.setE0 (fun k => if k / 16 = q then (elems.getD (k % 16) 0, scale) else b.lane k)

/-- The parity-checked end of a load: READY, or marked failed after the second failure of a row (R110). -/
def Block.loadDone (b : Block) (i : Nat) (failed : Option (Nat × Nat)) : Block :=
  if (b.set i).st == .loading then { b with sets := b.sets.set i { b.set i with st := .ready, failed := failed } } else b

/-- A RETIRING set becomes FREE (Table 03-3). -/
def Block.setFree (b : Block) (i : Nat) : Block :=
  if (b.set i).st == .retiring then { b with sets := b.sets.set i .empty } else b

end Sys2Proof.Machine
end

