-- ==== Sys2Proof/Machine/Vector.lean ====
section
/-! DEFINITION. The vector engine's operations (R112 to R140) as functions from the bytes an instruction reads to the
elements it writes. Every source byte is read before any destination byte is written, except where R132 orders the
rows of SCATTER_ADD one after another. -/
namespace Sys2Proof.Machine

/-- A descriptor with the offsets its register adds to BASE and AUX at issue (R145). -/
structure Opnd where
  d : Desc
  off : Int
  aux : Int
  deriving DecidableEq, Repr

/-- A reader of carve-out bytes: space and byte offset. -/
abbrev Reader := Space → Nat → Byte

/-- The number in n little-endian bytes. -/
def Reader.le (rd : Reader) (sp : Space) (a : Int) : Nat → Nat
  | 0 => 0
  | n + 1 => (rd sp a.toNat).toNat + 256 * Reader.le rd sp (a + 1) n

/-- Address of element L. -/
def Opnd.addr (o : Opnd) (l : Nat) : Int := o.d.base + o.off + o.d.elemOff l

/-- The bits of element L (R36, R115). -/
def Opnd.bits (rd : Reader) (o : Opnd) (l : Nat) : Nat :=
  if o.d.fmt.width = 4 then
    let b := (rd o.d.space (o.addr l).toNat).toNat
    if l % o.d.dim 0 % 2 = 0 then b % 16 else b / 16
  else rd.le o.d.space (o.addr l) (o.d.fmt.width / 8)

/-- The FP4 scale byte of element L (R117). -/
def Opnd.scaleByte (rd : Reader) (o : Opnd) (l : Nat) : Nat := rd.le .sram (o.d.aux + o.aux + (l / 32 : Nat)) 1

/-- The FP32 row scale or factor of row r (R117). -/
def Opnd.rowScale (rd : Reader) (o : Opnd) (r : Nat) : F32 := BitVec.ofNat 32 (rd.le .sram (o.d.aux + o.aux + (4 * r : Nat)) 4)

/-- Element L as FP32 with the flags of its conversion (R45, R60, R117). -/
def Opnd.f32 (rd : Reader) (o : Opnd) (l : Nat) : F32 × Flags :=
  let b := o.bits rd l
  match o.d.fmt with
  | .fp4 => toF32 (fp4Val b (o.scaleByte rd l))
  | .int8 | .int4 =>
    let (x, f1) := elemToF32 o.d.fmt b
    let (y, f2) := fMul x (o.rowScale rd (l / o.d.dim 0))
    (y, f1 ||| f2)
  | f => elemToF32 f b

/-- What an instruction writes through one destination: element bits by linear index, scale bytes by block, in order. -/
structure VOut where
  elems : List (Nat × Nat)
  scales : List (Nat × Nat)
  deriving DecidableEq, Repr

/-- Exception flags raised, each with the lane whose set takes it (R62). -/
abbrev Raises := List (Nat × Flags)

/-- The lane of a pass of w lanes that serves element l of a tensor with rows of n (R119). The two elements of a lane in
the narrow class are those 512 apart in the pass (DESIGN CHOICE, log 96: nothing observable depends on it). -/
def laneOf (w n l : Nat) : Nat :=
  if n ≤ w then (l / n % (w / n) * n + l % n) % 512 else l % n % w % 512

/-- FP32 results quantised block by block into an FP4 destination (R39, R117). A block of which an instruction writes only
some elements (a run-time size that is no multiple of 32, a padded position of SORT) is quantised from the elements
present alone, and its scale byte is rewritten; the others keep their nibbles (DESIGN CHOICE, log 95). -/
def storeFp4 (ln : Nat → Nat) (xs : List (Nat × F32)) : VOut × Raises :=
  let blocks := (xs.map (fun e => e.1 / 32)).eraseDups
  blocks.foldl (fun (acc : VOut × Raises) b =>
    let es := xs.filter (fun e => e.1 / 32 == b)
    let (s, els) := quantFp4 (es.map (·.2))
    (⟨acc.1.elems ++ (es.map (·.1)).zip (els.map (·.1)), acc.1.scales ++ [(b, s)]⟩,
      acc.2 ++ (es.map (fun e => ln e.1)).zip (els.map (·.2)))) (⟨[], []⟩, [])

/-- One FP32 result as destination bits (R42, R46, R49). -/
def storeElem (rd : Reader) (o : Opnd) (l : Nat) (x : F32) : Nat × Flags :=
  match o.d.fmt with
  | .int8 => f32ToIntScaled 8 x (o.rowScale rd (l / o.d.dim 0))
  | .int4 => f32ToIntScaled 4 x (o.rowScale rd (l / o.d.dim 0))
  | .bf16 => if o.d.sr then stochBf16 x o.d.seed (BitVec.ofNat 64 l) else f32ToFmt .bf16 x
  | f => f32ToFmt f x

/-- FP32 results by linear index as destination bits and flags. -/
def storeF32 (rd : Reader) (ln : Nat → Nat) (o : Opnd) (xs : List (Nat × F32)) : VOut × Raises :=
  if o.d.fmt = .fp4 then storeFp4 ln xs
  else
    let rs := xs.map (fun e => (e.1, storeElem rd o e.1 e.2))
    (⟨rs.map (fun e => (e.1, e.2.1)), []⟩, rs.map (fun e => (ln e.1, e.2.2)))

/-- Bit L of a mask descriptor's words (R121). -/
def Opnd.maskBit (rd : Reader) (o : Opnd) (l : Nat) : Bool :=
  bit (rd.le o.d.space (o.addr (l / 32)) 4) (l % 32)

/-- Elementwise operations on FP32 values (Table 04-4). -/
def elemOp (op : VecOp) (a b c : F32) : F32 × Flags :=
  match op with
  | .add => fAdd a b
  | .sub => fSub a b
  | .mul => fMul a b
  | .fma => fFma a b c
  | .div => fDiv a b
  | .sqrt => fSqrt a
  | .min => (fMin a b, 0)
  | .max => (fMax a b, 0)
  | .abs => (fAbs a, 0)
  | .neg => (fNeg a, 0)
  | .rcp => fRcp a
  | .rsq => fRsq a
  | .exp => fExp a
  | .log => fLog a
  | .sin => fSin a
  | .cos => fCos a
  | _ => (a, 0)

/-- CMP relations and their flags (R129): 0 EQ, 1 NE, 2 LT, 3 LE. -/
def cmpRel (rel : Nat) (a b : F32) : Bool × Flags :=
  let nan := isNaN32 a || isNaN32 b
  match rel with
  | 0 => (fEq a b, 0)
  | 1 => (!(fEq a b), 0)
  | 2 => (fLt a b, if nan then flagNV else 0)
  | _ => (fLt a b || fEq a b, if nan then flagNV else 0)

/-- Which combine a reduction or scan uses. -/
inductive Combine where
  | sum | max | min
  deriving DecidableEq, Repr

/-- combine of R126; a combine with one absent operand returns the other unchanged. -/
def combine (c : Combine) : Option F32 → Option F32 → Option F32 × Flags
  | none, y => (y, 0)
  | x, none => (x, 0)
  | some x, some y =>
    match c with
    | .sum => let (r, f) := fAdd x y; (some r, f)
    | .max => (some (fMax x y), 0)
    | .min => (some (fMin x y), 0)

/-- The identity of R127 and R128. -/
def Combine.identity : Combine → F32
  | .sum => 0
  | .max => 0xFF800000
  | .min => 0x7F800000

/-- A left fold of combine over a list. -/
def combineList (c : Combine) (x : Option F32) (ys : List (Option F32)) : Option F32 × Flags :=
  ys.foldl (fun acc y => let (r, f) := combine c acc.1 y; (r, acc.2 ||| f)) (x, 0)

/-- One halving step of the reduction tree: element p with element p + h, for p below h. -/
def treeStep (c : Combine) (h : Nat) (s : List (Option F32)) : List (Option F32) × Raises :=
  let rs := ((s.take h).zip (s.drop h)).map (fun e => combine c e.1 e.2)
  (rs.map (·.1), (List.range rs.length).zip (rs.map (·.2)))

/-- reduce_row of R126, with the flags of each lane p. -/
def reduceRow (c : Combine) (x : List (Option F32)) : Option F32 × Raises :=
  let lanes := (List.range 512).map (fun p =>
    combineList c none ((List.range (cdiv (x.length - p) 512)).map (fun i => x.getD (p + 512 * i) none)))
  let f0 : Raises := (List.range 512).zip (lanes.map (·.2))
  let t := [256, 128, 64, 32, 16, 8, 4, 2, 1].foldl (fun (acc : List (Option F32) × Raises) h =>
    let (s, f) := treeStep c h acc.1
    (s, acc.2 ++ f)) (lanes.map (·.1), f0)
  (t.1.headD none, t.2)

/-- One step of the scan's doubling: v[l] = combine(v[l − d], v[l]) for every l at or above d. -/
def scanStep (c : Combine) (d : Nat) (v : List (Option F32)) : List (Option F32) × Raises :=
  let rs := ((v.drop d).zip v).map (fun e => combine c e.2 e.1)
  (v.take d ++ rs.map (·.1), ((List.range rs.length).map (· + d)).zip (rs.map (·.2)))

/-- scan_row of R128 over chunks of 512; an absent position keeps `none` in the combined values only where nothing
precedes it. Returns the inclusive results. -/
def scanChunks (c : Combine) : Nat → Option F32 → List (Option F32) → List (Option F32) × Raises
  | 0, _, _ => ([], [])
  | fuel + 1, carry, xs =>
    if xs.isEmpty then ([], [])
    else
      let n := min 512 xs.length
      let v0 := xs.take 512 ++ List.replicate (512 - n) none
      let (v, f) := [1, 2, 4, 8, 16, 32, 64, 128, 256].foldl (fun (acc : List (Option F32) × Raises) d =>
        let (w, f) := scanStep c d acc.1
        (w, acc.2 ++ f)) (v0, [])
      let ys := (v.take n).map (fun e => combine c carry e)
      let (carry2, f2) := combine c carry (v.getD 511 none)
      let (rest, f3) := scanChunks c fuel carry2 (xs.drop 512)
      (ys.map (·.1) ++ rest, f ++ (511, f2) :: f3 ++ (List.range n).zip (ys.map (·.2)))

/-- Exclusive results from inclusive ones: each present element takes the previous present element's result. -/
def exclusive (prev : F32) : List (Option F32) → List (Option F32) → List (Option F32)
  | x :: xs, y :: ys =>
    match x with
    | none => none :: exclusive prev xs ys
    | some _ => some prev :: exclusive (y.getD prev) xs ys
  | _, _ => []

/-- A key that SORT and TOPK order: its value, its position, and its source element (none for a padded position). -/
structure SortKey where
  val : F32
  pos : Nat
  src : Option Nat
  deriving DecidableEq, Repr

/-- Key a precedes key b (R130). -/
def SortKey.precedes (ascending : Bool) (a b : SortKey) : Bool :=
  if isNaN32 a.val then isNaN32 b.val && decide (a.pos < b.pos)
  else if isNaN32 b.val then true
  else if fEq a.val b.val then decide (a.pos < b.pos)
  else if ascending then fLt a.val b.val else fLt b.val a.val

def insertKey (ascending : Bool) (k : SortKey) : List SortKey → List SortKey
  | [] => [k]
  | x :: xs => if k.precedes ascending x then k :: x :: xs else x :: insertKey ascending k xs

def sortKeys (ascending : Bool) (ks : List SortKey) : List SortKey := ks.foldr (insertKey ascending) []

/-- NV in the lane of each NaN key (R130, R138). -/
def nanFlags (ks : List SortKey) : Raises := (ks.filter (fun k => isNaN32 k.val)).map (fun k => (k.pos % 512, flagNV))

/-- Keys or payload moved to a destination: bit copies when the formats are equal and not FP4, converted otherwise
(R33). Entries are (destination index, source index or value). -/
def moveElems (rd : Reader) (ln : Nat → Nat) (src dst : Opnd) (xs : List (Nat × Nat)) : VOut × Raises :=
  if src.d.fmt = dst.d.fmt ∧ src.d.fmt ≠ .fp4 then (⟨xs.map (fun e => (e.1, src.bits rd e.2)), []⟩, [])
  else
    let vs := xs.map (fun e => (e.1, src.f32 rd e.2))
    let (o, f) := storeF32 rd ln dst (vs.map (fun e => (e.1, e.2.1)))
    (o, f ++ vs.map (fun e => (ln e.1, e.2.2)))

def VOut.append (a b : VOut) : VOut := ⟨a.elems ++ b.elems, a.scales ++ b.scales⟩

/-- What a vector instruction produces: writes per destination (first, second), the flags of its lanes, and whether an
index was out of range (R132). -/
structure VRes where
  dst : VOut
  dst2 : VOut
  flags : Raises
  range : Bool
  deriving DecidableEq, Repr

def VOut.none : VOut := ⟨[], []⟩

/-- An operand of an elementwise operation: a tensor or an FP32 scalar. -/
inductive VSrc where
  | tensor (o : Opnd)
  | scalar (x : F32)
  | absent
  deriving DecidableEq, Repr

def VSrc.f32 (rd : Reader) (s : VSrc) (l : Nat) : F32 × Flags :=
  match s with
  | .tensor o => o.f32 rd l
  | .scalar x => (x, 0)
  | .absent => (0, 0)

/-- The elementwise operations of Table 04-4, CVT included. -/
def vecElementwise (rd : Reader) (ln : Nat → Nat) (op : VecOp) (n : Nat) (present : Nat → Bool) (dst : Opnd) (a b c : VSrc) : VRes :=
  let rs := ((List.range n).filter present).map (fun l =>
    let (x, f1) := a.f32 rd l
    let (y, f2) := b.f32 rd l
    let (z, f3) := c.f32 rd l
    let (r, f4) := elemOp op x y z
    (l, r, f1 ||| f2 ||| f3 ||| f4))
  let (o, f) := storeF32 rd ln dst (rs.map (fun e => (e.1, e.2.1)))
  ⟨o, .none, rs.map (fun e => (ln e.1, e.2.2)) ++ f, false⟩

/-- SEL (Table 04-4): A where the mask bit is set, B elsewhere. Only the operand it selects is converted, so only that one
raises conversion flags (DESIGN CHOICE, log 95). -/
def vecSel (rd : Reader) (ln : Nat → Nat) (n : Nat) (present : Nat → Bool) (dst : Opnd) (a b : VSrc) (m : Opnd) : VRes :=
  let rs := ((List.range n).filter present).map (fun l => (l, if m.maskBit rd l then a.f32 rd l else b.f32 rd l))
  let (o, f) := storeF32 rd ln dst (rs.map (fun e => (e.1, e.2.1)))
  ⟨o, .none, rs.map (fun e => (ln e.1, e.2.2)) ++ f, false⟩

/-- ISCALE (R41): column scale w[i0], row scale a[r]. -/
def vecIscale (rd : Reader) (ln : Nat → Nat) (n : Nat) (present : Nat → Bool) (dst t w a : Opnd) : VRes :=
  let rs := ((List.range n).filter present).map (fun l =>
    (l, iscale (sext 32 (t.bits rd l)) (w.f32 rd (l % t.d.dim 0)).1 (a.f32 rd (l / t.d.dim 0)).1))
  let (o, f) := storeF32 rd ln dst (rs.map (fun e => (e.1, e.2.1)))
  ⟨o, .none, rs.map (fun e => (ln e.1, e.2.2)) ++ f, false⟩

/-- CMP (R129): whole mask words for the declared element count `all`; bits of absent elements, those past a run-time size
n among them, and bits at or above N are zero. -/
def vecCmp (rd : Reader) (ln : Nat → Nat) (rel n all : Nat) (present : Nat → Bool) (a b : VSrc) : VRes :=
  let one (l : Nat) : Bool × Flags :=
    if l < n && present l then
      let (x, f1) := a.f32 rd l
      let (y, f2) := b.f32 rd l
      let (r, f3) := cmpRel rel x y
      (r, f1 ||| f2 ||| f3)
    else (false, 0)
  let word (i : Nat) : Nat × Raises :=
    (List.range 32).foldl (fun acc k => let (r, f) := one (32 * i + k); (acc.1 + (if r then 2 ^ k else 0), acc.2 ++ [(ln (32 * i + k), f)])) (0, [])
  let ws := (List.range (cdiv all 32)).map (fun i => (i, word i))
  ⟨⟨ws.map (fun e => (e.1, e.2.1)), []⟩, .none, ws.flatMap (fun e => e.2.2), false⟩

/-- The present elements of row r as FP32, with their conversion flags. -/
def rowVals (rd : Reader) (a : Opnd) (mag : Bool) (present : Nat → Bool) (r : Nat) : List (Option F32) × Raises :=
  let n := a.d.dim 0
  let rs := (List.range n).map (fun i =>
    if present (r * n + i) then let (x, f) := a.f32 rd (r * n + i); (some (if mag then fAbs x else x), f) else (none, 0))
  (rs.map (·.1), ((List.range n).map (· % 512)).zip (rs.map (·.2)))

/-- RSUM, RMAX, RMIN, RAMAX (R126, R127). -/
def vecReduce (rd : Reader) (ln : Nat → Nat) (c : Combine) (mag all : Bool) (rows : Nat) (present : Nat → Bool) (dst a : Opnd) : VRes :=
  let rs := (List.range rows).map (fun r =>
    let (xs, f) := rowVals rd a mag present r
    let (y, g) := reduceRow c xs
    (r, y, f ++ g))
  let ident : F32 := if mag then 0 else c.identity
  let f0 := rs.flatMap (fun e => e.2.2)
  let (outs, f1) : List (Nat × F32) × Raises :=
    if all then
      let (y, f) := combineList c none (rs.map (fun e => e.2.1))
      ([(0, y.getD ident)], [(0, f)])
    else (rs.map (fun e => (e.1, e.2.1.getD ident)), [])
  let (o, f2) := storeF32 rd ln dst outs
  ⟨o, .none, f0 ++ f1 ++ f2, false⟩

/-- SCAN (R128). -/
def vecScan (rd : Reader) (ln : Nat → Nat) (c : Combine) (excl : Bool) (rows : Nat) (present : Nat → Bool) (dst a : Opnd) : VRes :=
  let n := a.d.dim 0
  let rs := (List.range rows).map (fun r =>
    let (xs, f) := rowVals rd a false present r
    let (ys, g) := scanChunks c (n / 512 + 1) none xs
    let outs : List (Option F32) := if excl then exclusive c.identity xs ys
      else (xs.zip ys).map (fun (e : Option F32 × Option F32) => match e.1 with
        | none => (none : Option F32)
        | some _ => e.2)
    let idx : List (Nat × F32) := ((List.range n).zip outs).filterMap (fun (e : Nat × Option F32) => e.2.map (fun v => (r * n + e.1, v)))
    (idx, f ++ g))
  let (o, f2) := storeF32 rd ln dst (rs.flatMap (·.1))
  ⟨o, .none, rs.flatMap (·.2) ++ f2, false⟩

/-- Keys of positions lo … lo + g − 1 of row r: present ones, and padded ones past the row's end when TAIL is 1 (R120). -/
def groupKeys (rd : Reader) (k : Opnd) (present : Nat → Bool) (r lo g : Nat) : List SortKey × Raises :=
  let n := k.d.dim 0
  let es : List (SortKey × Flags) := (List.range g).filterMap (fun i =>
    let p := lo + i
    if p < n then
      (if present (r * n + p) then let (x, f) := k.f32 rd (r * n + p); some (SortKey.mk x p (some (r * n + p)), f) else none)
    else if k.d.tail then some (SortKey.mk k.d.pad p none, (0 : Flags)) else none)
  (es.map (·.1), es.map (fun e => (e.1.pos % 512, e.2)))

/-- The keys of every row sorted in groups of g: (destination index, key), for positions below SIZE0. Under a mask the
present keys take the group's leading positions, whatever the mask bits of those positions (DESIGN CHOICE, log 95: R130
puts absent positions after all present ones, and R121's kept value is of a destination that receives no key). -/
def sortedRows (rd : Reader) (k : Opnd) (asc : Bool) (g rows : Nat) (present : Nat → Bool) : List (Nat × SortKey) × Raises :=
  let n := k.d.dim 0
  let groups : List (List (Nat × SortKey) × Raises) := (List.range rows).flatMap (fun r => (List.range (cdiv n g)).map (fun b =>
    let (ks, f) := groupKeys rd k present r (b * g) g
    let s := sortKeys asc ks
    let outs : List (Nat × SortKey) := ((List.range s.length).zip s).filterMap (fun e =>
      if b * g + e.1 < n then some (r * n + b * g + e.1, e.2) else none)
    (outs, f ++ nanFlags ks)))
  (groups.flatMap (·.1), groups.flatMap (·.2))

/-- A sorted key written: its own bits, or PAD converted to the output's format (R120, R130). -/
def keyOut (rd : Reader) (ln : Nat → Nat) (k dst : Opnd) (xs : List (Nat × SortKey)) : VOut × Raises :=
  if k.d.fmt = dst.d.fmt ∧ k.d.fmt ≠ .fp4 then
    let rs : List (Nat × Nat × Flags) := xs.map (fun e => match e.2.src with
      | some l => (e.1, k.bits rd l, (0 : Flags))
      | none => let (b, f) := storeElem rd dst e.1 e.2.val; (e.1, b, f))
    (⟨rs.map (fun e => (e.1, e.2.1)), []⟩, rs.map (fun e => (ln e.1, e.2.2)))
  else storeF32 rd ln dst (xs.map (fun e => (e.1, e.2.val)))

/-- SORT (R130): keys and an optional payload with its own output. A position that a padded key takes keeps its payload;
in an FP4 payload output it keeps its nibble under the scale that the block's other values give (R120; DESIGN CHOICE,
log 95). -/
def vecSort (rd : Reader) (ln : Nat → Nat) (asc : Bool) (g rows : Nat) (present : Nat → Bool) (k kout : Opnd) (pay : Option (Opnd × Opnd)) : VRes :=
  let (xs, f) := sortedRows rd k asc g rows present
  let (o, f1) := keyOut rd ln k kout xs
  match pay with
  | none => ⟨o, .none, f ++ f1, false⟩
  | some (p, pout) =>
    let (o2, f2) := moveElems rd ln p pout (xs.filterMap (fun e => e.2.src.map (fun l => (e.1, l))))
    ⟨o, o2, f ++ f1 ++ f2, false⟩

/-- TOPK (R131): k values and positions per row; −∞ and −1 where fewer keys are present. At RANK 1 a run-time size below k
is the outputs' SIZE0, and the outputs beyond it are absent (R120, R122). -/
def vecTopk (rd : Reader) (ln : Nat → Nat) (k rows : Nat) (present : Nat → Bool) (keys vout : Opnd) : VRes :=
  let n := keys.d.dim 0
  let m := min k (vout.d.dim 0)
  let rs : List (List (Nat × SortKey) × Raises) := (List.range rows).map (fun r =>
    let (ks, f) := groupKeys rd { keys with d := { keys.d with tail := false } } present r 0 n
    let s := (sortKeys false ks).take k
    let outs := (List.range m).map (fun j => (r * m + j, s.getD j ⟨0xFF800000, 0xFFFFFFFF, none⟩))
    (outs, f ++ nanFlags ks))
  let xs := rs.flatMap (·.1)
  let (o, f1) := keyOut rd ln keys vout xs
  ⟨o, ⟨xs.map (fun e => (e.1, e.2.pos)), []⟩, rs.flatMap (·.2) ++ f1, false⟩

/-- Entry r of an index vector as an integer (R132). -/
def Opnd.index (rd : Reader) (o : Opnd) (r : Nat) : Int := sext 32 (o.bits rd r)

/-- One row moved from source row i to destination row j (R33, R132), present elements only. At RANK 1 a run-time size
shortens the row of the side that takes it, and the other side keeps its own row length (Table 04-8). -/
def moveRow (rd : Reader) (ln : Nat → Nat) (src dst : Opnd) (present : Nat → Bool) (i j : Nat) : VOut × Raises :=
  let n := src.d.dim 0
  let m := dst.d.dim 0
  let xs := ((List.range (min n m)).filter (fun e => present (i * n + e))).map (fun e => (j * m + e, i * n + e))
  if src.d.fmt = .fp4 ∧ dst.d.fmt = .fp4 then
    (⟨xs.map (fun e => (e.1, src.bits rd e.2)),
      (List.range (cdiv (min n m) 32)).map (fun b => (j * m / 32 + b, src.scaleByte rd (i * n + 32 * b)))⟩, [])
  else moveElems rd ln src dst xs

/-- GATHER and SCATTER (R132): the rows r that an index entry and a row of the indexed side exist for, in order. -/
def vecGather (rd : Reader) (ln : Nat → Nat) (scatter : Bool) (present : Nat → Bool) (src idx dst : Opnd) : VRes :=
  let rRows := if scatter then src.d.rows else dst.d.rows
  let iRows := if scatter then dst.d.rows else src.d.rows
  (List.range idx.d.count).foldl (fun (acc : VRes) r =>
    let i := idx.index rd r
    if rRows ≤ r ∨ i < 0 ∨ (iRows : Int) ≤ i then { acc with range := true }
    else
      let (o, f) := if scatter then moveRow rd ln src dst present r i.toNat else moveRow rd ln src dst present i.toNat r
      { acc with dst := acc.dst.append o, flags := acc.flags ++ f }) ⟨.none, .none, [], false⟩

/-- Bytes laid over a reader, latest first. -/
def Reader.over (rd : Reader) (ws : List (Space × Nat × Byte)) : Reader := fun sp a =>
  match ws.find? (fun w => w.1 == sp && w.2.1 == a) with
  | some w => w.2.2
  | none => rd sp a

/-- The byte writes of one element's bits. -/
def Opnd.writeBytes (rd : Reader) (o : Opnd) (l bits : Nat) : List (Space × Nat × Byte) :=
  let a := (o.addr l).toNat
  if o.d.fmt.width = 4 then
    let b := (rd o.d.space a).toNat
    let v := if l % o.d.dim 0 % 2 = 0 then b / 16 * 16 + bits % 16 else b % 16 + 16 * (bits % 16)
    [(o.d.space, a, BitVec.ofNat 8 v)]
  else
    let bs := leBytes (o.d.fmt.width / 8) bits
    ((List.range bs.length).zip bs).map (fun e => (o.d.space, a + e.1, e.2))

/-- The byte writes of a destination's elements and scale bytes, later ones over earlier ones (latest first). -/
def Opnd.writes (rd : Reader) (o : Opnd) (v : VOut) : List (Space × Nat × Byte) :=
  let ws := v.elems.foldl (fun (ws : List (Space × Nat × Byte)) e => (o.writeBytes (rd.over ws) e.1 e.2).reverse ++ ws) []
  v.scales.foldl (fun ws e => (Space.sram, (o.d.aux + o.aux + (e.1 : Nat)).toNat, BitVec.ofNat 8 e.2) :: ws) ws

/-- SCATTER_ADD (R132): each source row added in FP32 into its destination row, row after row. The result is the byte
writes, latest first, with flags and the out-of-range mark. -/
def vecScatterAdd (rd : Reader) (ln : Nat → Nat) (present : Nat → Bool) (src idx dst : Opnd) : List (Space × Nat × Byte) × Raises × Bool :=
  let n := src.d.dim 0
  let m := dst.d.dim 0
  (List.range idx.d.count).foldl (fun (acc : List (Space × Nat × Byte) × Raises × Bool) r =>
    let i := idx.index rd r
    if src.d.rows ≤ r ∨ i < 0 ∨ (dst.d.rows : Int) ≤ i then (acc.1, acc.2.1, true)
    else
      let rd2 := rd.over acc.1
      let rs := ((List.range n).filter (fun e => present (r * n + e))).map (fun e =>
        let (x, f1) := dst.f32 rd2 (i.toNat * m + e)
        let (y, f2) := src.f32 rd (r * n + e)
        let (z, f3) := fAdd x y
        (i.toNat * m + e, z, f1 ||| f2 ||| f3))
      let (o, f) := storeF32 rd2 ln dst (rs.map (fun e => (e.1, e.2.1)))
      (dst.writes rd2 o ++ acc.1, acc.2.1 ++ rs.map (fun e => (ln e.1, e.2.2)) ++ f, acc.2.2)) ([], [], false)

/-- The squared distance of R133 with the flags of its roundings. -/
def vqDistance (rd : Reader) (x c : Opnd) (g r k : Nat) : F32 × Flags :=
  (List.range g).foldl (fun (acc : F32 × Flags) e =>
    let (t, f) := fSub (x.f32 rd (r * x.d.dim 0 + e)).1 (c.f32 rd (k * g + e)).1
    let (d, f2) := if e = 0 then fMul t t else fFma t t acc.1
    (d, acc.2 ||| f ||| f2)) (0, 0)

/-- VQNEAR (R133): the lowest entry with the smallest distance; index 0 and NaN when every distance is NaN. A vector whose
row a run-time size shortens below g has absent elements and is skipped. A vector's flags go to lane r mod 512 (DESIGN
CHOICE, log 96). -/
def vecVqnear (rd : Reader) (rows : Nat) (present : Nat → Bool) (x c : Opnd) : VRes :=
  let g := c.d.dim 0
  let whole := (List.range rows).filter (fun r => (List.range g).all (fun e => decide (e < x.d.dim 0) && present (r * x.d.dim 0 + e)))
  let rs := whole.map (fun r =>
    let ds := (List.range c.d.rows).map (fun k => (k, vqDistance rd x c g r k))
    let best := ds.foldl (fun (b : Option (Nat × F32)) e =>
      if isNaN32 e.2.1 then b else match b with
        | none => some (e.1, e.2.1)
        | some v => if fLt e.2.1 v.2 then some (e.1, e.2.1) else b) none
    let f := ds.foldl (fun h e => h ||| e.2.2) (0 : Flags)
    match best with
    | some (k, d) => (r, k, d, f)
    | none => (r, 0, f32nan, f ||| flagNV))
  ⟨⟨rs.map (fun e => (e.1, e.2.1)), []⟩, ⟨rs.map (fun e => (e.1, e.2.2.1.toNat)), []⟩,
    rs.map (fun e => (e.1 % 512, e.2.2.2)), false⟩

end Sys2Proof.Machine
end

