-- ==== Sys2Proof/Machine/Payload.lean ====
section
/-! DEFINITION. Status codes (Table 00-2, Table 13-11), command records (Tables 13-7, 13-8) and their decoder with the
checks of Table 13-10 that need nothing but the record. -/
namespace Sys2Proof.Machine

/-- Statuses (Table 00-2). -/
inductive Status where
  | ok | state | data | timeout | cancelled | capacity | expand | remote | denied | range
  deriving DecidableEq, Repr

/-- Encodings of Table 13-11. -/
def Status.code : Status → Nat
  | .ok => 0 | .state => 1 | .data => 2 | .timeout => 3 | .cancelled => 4 | .capacity => 5 | .expand => 6
  | .remote => 7 | .denied => 8 | .range => 9

/-- Place in the order of R18; OK is last. -/
def Status.rank : Status → Nat
  | .denied => 0 | .range => 1 | .data => 2 | .expand => 3 | .remote => 4 | .timeout => 5 | .capacity => 6
  | .state => 7 | .cancelled => 8 | .ok => 9

/-- The status that a completion record carries of two that apply (R18). -/
def Status.worst (a b : Status) : Status := if a.rank ≤ b.rank then a else b

/-- LAUNCH payload and its own flags (Table 13-8). -/
structure LaunchF where
  prog : Nat
  args : Nat
  batch : Nat
  gen : Nat
  epoch : Nat
  blast : Bool
  train : Bool
  deriving DecidableEq, Repr

structure FenceSignalF where
  fence : Nat
  value : Nat
  create : Bool
  destroy : Bool
  deriving DecidableEq, Repr

structure FenceWaitF where
  fence : Nat
  timeout : Nat
  value : Nat
  deriving DecidableEq, Repr

structure CopyF where
  src : Nat
  dst : Nat
  bytes : Nat
  rate : Nat
  xc : Bool
  deriving DecidableEq, Repr

structure BarrierF where
  bid : Nat
  timeout : Nat
  deriving DecidableEq, Repr

structure KvListF where
  list : Nat
  count : Nat
  deriving DecidableEq, Repr

structure KvForkF where
  parent : Nat
  child : Nat
  p : Nat
  protect : Bool
  deriving DecidableEq, Repr

structure KvPruneF where
  list : Nat
  count : Nat
  t : F32
  k : Nat
  protHead : Nat
  protTail : Nat
  deriving DecidableEq, Repr

structure WgtBuildF where
  pblk : Nat
  inherit : Bool
  compress : Bool
  nogen : Bool
  waitmem : Bool
  deriving DecidableEq, Repr

structure TapSetF where
  tapid : Nat
  dest : Nat
  disarm : Bool
  deriving DecidableEq, Repr

structure RakeF where
  dest : Nat
  bytes : Nat
  deriving DecidableEq, Repr

/-- The command a record spells (Table 13-7). -/
inductive CmdBody where
  | nop
  | launch (f : LaunchF)
  | fenceSignal (f : FenceSignalF)
  | fenceWait (f : FenceWaitF)
  | copy (f : CopyF)
  | barrier (f : BarrierF)
  | kvAppend (f : KvListF)
  | kvFork (f : KvForkF)
  | kvRelease (f : KvListF)
  | kvPrune (f : KvPruneF)
  | wgtBuild (f : WgtBuildF)
  | wgtSwitch (gen : Nat)
  | wgtRetire (gen : Nat)
  | tapSet (f : TapSetF)
  | rake (f : RakeF)
  deriving DecidableEq, Repr

/-- A checked command record: OPCODE, the whole FLAGS byte, SEQ, word 1 and the payload (R374). -/
structure Cmd where
  opcode : Nat
  flags : Nat
  seq : Nat
  word1 : Nat
  body : CmdBody
  deriving DecidableEq, Repr

/-- FLAGS bit 7 (R374). -/
def Cmd.irq (c : Cmd) : Bool := bit c.flags 7

/-- The record field of n bytes at offset o. -/
def recOpcode (bs : List Byte) : Nat := leAt bs 0 1
def recFlags (bs : List Byte) : Nat := leAt bs 1 1
def recSeq (bs : List Byte) : Nat := leAt bs 2 4
def recWord1 (bs : List Byte) : Nat := leAt bs 8 8

/-- FLAGS [5:0] bits listed for an opcode (Table 13-7); none for an unlisted opcode. -/
def listedFlags : Nat → Option Nat
  | 0x00 => some 0 | 0x01 => some 3 | 0x02 => some 3 | 0x03 => some 0 | 0x04 => some 1 | 0x05 => some 0
  | 0x08 => some 0 | 0x09 => some 1 | 0x0A => some 0 | 0x0B => some 0 | 0x10 => some 15 | 0x11 => some 0
  | 0x12 => some 0 | 0x18 => some 1 | 0x19 => some 0 | _ => none

/-- Payload bytes that Table 13-8 lists for an opcode, as (offset, bytes). -/
def listedBytes : Nat → List (Nat × Nat)
  | 0x01 => [(16, 24)]
  | 0x02 => [(16, 2), (24, 8)]
  | 0x03 => [(16, 2), (20, 12)]
  | 0x04 => [(16, 28)]
  | 0x05 => [(16, 2), (20, 4)]
  | 0x08 => [(16, 12)]
  | 0x09 => [(16, 16)]
  | 0x0A => [(16, 12)]
  | 0x0B => [(16, 24)]
  | 0x10 => [(16, 8)]
  | 0x11 => [(16, 2)]
  | 0x12 => [(16, 2)]
  | 0x18 => [(16, 1), (24, 8)]
  | 0x19 => [(16, 16)]
  | _ => []

/-- Every payload byte outside the listed ones is zero (check 3). -/
def reservedZero (bs : List Byte) (listed : List (Nat × Nat)) : Bool :=
  (List.range 64).all (fun o => o < 16 || listed.any (fun r => decide (r.1 ≤ o) && decide (o < r.1 + r.2)) || leAt bs o 1 == 0)

/-- The body of a record whose opcode is listed. -/
def recBody (bs : List Byte) : CmdBody :=
  let fl := recFlags bs
  match recOpcode bs with
  | 0x01 => .launch ⟨leAt bs 16 8, leAt bs 24 8, leAt bs 32 4, leAt bs 36 2, leAt bs 38 2, bit fl 0, bit fl 1⟩
  | 0x02 => .fenceSignal ⟨leAt bs 16 2, leAt bs 24 8, bit fl 0, bit fl 1⟩
  | 0x03 => .fenceWait ⟨leAt bs 16 2, leAt bs 20 4, leAt bs 24 8⟩
  | 0x04 => .copy ⟨leAt bs 16 8, leAt bs 24 8, leAt bs 32 8, leAt bs 40 4, bit fl 0⟩
  | 0x05 => .barrier ⟨leAt bs 16 2, leAt bs 20 4⟩
  | 0x08 => .kvAppend ⟨leAt bs 16 8, leAt bs 24 4⟩
  | 0x09 => .kvFork ⟨leAt bs 16 4, leAt bs 20 4, leAt bs 24 8, bit fl 0⟩
  | 0x0A => .kvRelease ⟨leAt bs 16 8, leAt bs 24 4⟩
  | 0x0B => .kvPrune ⟨leAt bs 16 8, leAt bs 24 4, BitVec.ofNat 32 (leAt bs 28 4), leAt bs 32 4, leAt bs 36 2, leAt bs 38 2⟩
  | 0x10 => .wgtBuild ⟨leAt bs 16 8, bit fl 0, bit fl 1, bit fl 2, bit fl 3⟩
  | 0x11 => .wgtSwitch (leAt bs 16 2)
  | 0x12 => .wgtRetire (leAt bs 16 2)
  | 0x18 => .tapSet ⟨leAt bs 16 1, leAt bs 24 8, bit fl 0⟩
  | 0x19 => .rake ⟨leAt bs 16 8, leAt bs 24 8⟩
  | _ => .nop

/-- Every payload field lies in the range Table 13-8 lists (check 4). -/
def CmdBody.inRange : CmdBody → Bool
  | .nop => true
  | .launch f => f.prog % 64 == 0
  | .fenceSignal f => decide (f.fence ≤ 511)
  | .fenceWait f => decide (f.fence ≤ 511)
  | .copy f => decide (1 ≤ f.bytes) && decide (f.bytes ≤ 2 ^ 40) && (!f.xc || f.bytes % 64 == 0)
  | .barrier f => decide (f.bid ≤ 63)
  | .kvAppend f => f.list % 16 == 0 && decide (1 ≤ f.count) && decide (f.count ≤ 65536)
  | .kvFork f => decide (f.parent < 2 ^ 18) && decide (f.child < 2 ^ 18) && decide (f.p < 2 ^ 40)
  | .kvRelease f => decide (1 ≤ f.count) && decide (f.count ≤ 65536)
  | .kvPrune f => decide (1 ≤ f.count) && decide (f.count ≤ 65536)
  | .wgtBuild f => f.pblk % 64 == 0
  | .wgtSwitch g => decide (g ≤ 0xFFFE)
  | .wgtRetire g => decide (g ≤ 0xFFFE)
  | .tapSet f => decide (f.tapid ≤ 63)
  | .rake f => decide (4096 ≤ f.bytes) && decide (f.bytes ≤ 2 ^ 32) && f.bytes % 4096 == 0

/-- Listed flag conflicts (check 2). -/
def CmdBody.conflict : CmdBody → Bool
  | .fenceSignal f => f.create && f.destroy
  | .wgtBuild f => f.nogen && !f.compress
  | _ => false

/-- The first check of Table 13-10 below 5 that a record fails, 0 when it passes them. `sysCtx` is, for a system queue,
whether word 1 names a context the trellis image defines; none for a user queue. -/
def recordCheck (bs : List Byte) (sysCtx : Option Bool) : Nat :=
  match listedFlags (recOpcode bs) with
  | none => 1
  | some mask =>
    let fl := recFlags bs
    let body := recBody bs
    if (fl % 64 &&& (63 - mask)) ≠ 0 ∨ bit fl 6 ∨ body.conflict then 2
    else if leAt bs 6 2 ≠ 0 ∨ (sysCtx.isSome ∧ recWord1 bs / 64 ≠ 0) ∨ !(reservedZero bs (listedBytes (recOpcode bs))) then 3
    else if !body.inRange ∨ sysCtx = some false then 4
    else 0

/-- The command of a record. -/
def recCmd (bs : List Byte) : Cmd := ⟨recOpcode bs, recFlags bs, recSeq bs, recWord1 bs, recBody bs⟩

/-- System queues that accept an opcode (Table 13-7), system queue number 0 to 3. -/
def systemAccepts (sysq opcode : Nat) : Bool :=
  match opcode with
  | 0x00 | 0x02 | 0x03 | 0x04 => true
  | 0x01 | 0x05 => sysq == 0
  | 0x08 | 0x09 | 0x0A | 0x0B => sysq == 0 || sysq == 2
  | 0x10 | 0x11 | 0x12 => sysq == 0 || sysq == 1
  | 0x18 | 0x19 => sysq == 0 || sysq == 3
  | _ => false

/-- Queue q accepts the opcode: a user queue takes every one but RAKE (R375). -/
def queueAccepts (q opcode : Nat) : Bool := if q < 512 then opcode != 0x19 else systemAccepts (q - 512) opcode

end Sys2Proof.Machine
end

