-- ==== Sys2Proof/Machine/RegionState.lean ====
section
/-! DEFINITION. The state of one region (chapters 03, 05, 06): program stores, sequencer, blocks, SRAM, receive slots,
run cache and lookaside cache. -/
namespace Sys2Proof.Machine

/-- A program store: a validated instruction list and descriptor table (R143). -/
structure ProgStore where
  instrs : List RInstr
  descs : List Desc
  deriving DecidableEq, Repr

/-- A loop whose body is running: index of the LOOP, iteration, trip count and index register (R163). -/
structure LoopFrame where
  at_ : Nat
  iter : Nat
  trip : Nat
  bodylen : Nat
  idxreg : Nat
  deriving DecidableEq, Repr

/-- A unit that executes instructions in issue order (Table 05-4). -/
inductive RUnit where
  | block (b : Nat)
  | engine
  | dma
  deriving DecidableEq, Repr

/-- A tap statistics area (R571): its capacity in records and its physical spans, 64-bit address and bytes. -/
structure TapArea where
  cap : Nat
  spans : List (Nat × Nat)
  deriving DecidableEq, Repr

/-- An accepted row of an APPEND that has not been written (R221, R222): its sequence and logical page, the copy that the
page takes first (source and destination frame, frames), the byte offset of its key in the page's frames, and its key and
value. -/
structure KvAct where
  seq : Nat
  lp : Nat
  copy : Option (Nat × Nat × Nat)
  off : Nat
  key : List Byte
  val : List Byte
  deriving DecidableEq, Repr

/-- What an unretired instruction still waits for before it can retire. -/
inductive Pending where
  | none
  | round                                   -- a PLACE waits for its placement round (R242)
  | cow (acts : List KvAct)                 -- rows of an APPEND, the first of which waits for a page copy (R221, R222)
  | tapArea (area : TapArea) (body : List Byte)   -- a TAP's record for the area read at issue (R572)
  deriving DecidableEq, Repr

/-- What a check finds while an instruction executes (R96, R110, R139, R176): a cell check in logical cell (row, col) of a
block, the failed mark of a weight set with its cell, a bank word's double-bit or single-bit error, a vector lane, a
double-bit or single-bit error in an SRAM operand at a region byte offset, or a program store word with a parity error and
whether its re-read succeeds. -/
inductive RetireFault where
  | cell (block row col : Nat)
  | setFailed (block row col : Nat)
  | bank (block entry col : Nat)
  | bankSingle (block entry col : Nat)
  | lane (lane : Nat)
  | sram (offset : Nat)
  | sramSingle (offset : Nat)
  | store (reread : Bool)
  deriving DecidableEq, Repr

/-- A span with the unit that reads or writes it; none is the sequencer. -/
structure USpan where
  unit : Option RUnit
  span : Span
  deriving DecidableEq, Repr

/-- An issued instruction that has not retired: its list index, units, spans, the flag sets of its lanes (by lane) or
accumulator columns (by 128 b + n for column n of block b) (R62, R63), the failure it reports at retirement (R111), a
status that the command takes without a failure (R132), the checks that failed while it ran (R110), what it waits for, and
how many of its records and remote requests are still on their way (R346). -/
structure Issued where
  id : Nat
  index : Nat
  instr : RInstr
  units : List RUnit
  spans : List USpan
  flags : FlagSets
  fail : Status
  note : Status
  bad : List RetireFault
  pend : Pending
  owed : Nat
  deriving DecidableEq, Repr

/-- A SYNC instruction that waits: when it issued (its TIMEOUT runs from there) and whether an RBAR has arrived. -/
structure SyncWait where
  since : Nat
  arrived : Bool
  deriving DecidableEq, Repr

/-- A receive slot (R185 to R187): bound, its landing order, the rows landed as (group × SIZE1 + row), and the arrival
count. The landing tensor is the program's descriptor of the slot's number. -/
structure RSlot where
  bound : Bool
  arrivalOrder : Bool
  landed : List Nat
  count : Nat
  deriving DecidableEq, Repr

def RSlot.unbound : RSlot := ⟨false, false, [], 0⟩

/-- A range entry (Table 12-3); `start`, `length` and `pbase` in 4 KiB granules. -/
structure RangeEntry where
  v : Bool
  r : Bool
  w : Bool
  p : Bool
  hint : Nat
  start : Nat
  length : Nat
  pbase : Nat
  cidx : Nat
  deriving DecidableEq, Repr

/-- A cached range entry with its tag: a context, or a partition and generation for weight ranges (R353). -/
structure CachedRange where
  weight : Bool
  tag : Nat
  gen : Nat
  entry : RangeEntry
  deriving DecidableEq, Repr

/-- A piece of a translated access: virtual address, 64-bit physical address, bytes, and the range entry. -/
structure Piece where
  va : Nat
  pa : Nat
  len : Nat
  entry : RangeEntry
  deriving DecidableEq, Repr

/-- Accesses of the next instruction under translation (R351, R354): the rows asked for, what is left of them, the pieces
of the row being translated, the rows translated, and the status with which a row failed. -/
structure Plan where
  rows : List (Nat × Nat)
  todo : List (Nat × Nat)
  part : List Piece
  got : List (List Piece)
  fail : Option Status
  deriving DecidableEq, Repr

/-- A region. `plans` holds what the next instruction's accesses have been translated to, `walk` the address of a
lookaside miss that the walker has. `firstIssue` is the device time of the command's first issue; `clkUnits` counts the
region-control cycles from it to `clkAt` in units of 1/16,000 of a cycle, and `clkLost` what stretched cycles took (R482,
Table 05-10). -/
structure Region where
  stores : List ProgStore
  cur : Nat
  running : Bool
  stopped : Bool
  pc : Nat
  regs : Tab Word
  loops : List LoopFrame
  issued : List Issued
  nextId : Nat
  wait : Option SyncWait
  skip : Bool
  fail : Status
  failOrder : Nat
  flags : Flags
  firstIssue : Option Nat
  clkAt : Nat
  clkUnits : Nat
  clkLost : Nat
  rbars : Tab Nat
  places : Nat
  taps : Nat
  blocks : List Block
  sram : Memory
  sramMark : Tab Bool
  sramCorrected : Nat
  slots : Tab RSlot
  rlc : List CachedRange
  plans : List Plan
  walk : Option Nat
  runCache : List (Nat × Nat)
  deriving DecidableEq, Repr

def Region.reset : Region :=
  { stores := [⟨[], []⟩, ⟨[], []⟩], cur := 0, running := false, stopped := false, pc := 0, regs := [], loops := [],
    issued := [], nextId := 0, wait := none, skip := false, fail := .ok, failOrder := 0, flags := 0, firstIssue := none,
    clkAt := 0, clkUnits := 0, clkLost := 0, rbars := [], places := 0, taps := 0, blocks := List.replicate 6 Block.reset,
    sram := [], sramMark := [], sramCorrected := 0, slots := [], rlc := [], plans := [], walk := none, runCache := [] }

def Region.store (r : Region) : ProgStore := r.stores.getD r.cur ⟨[], []⟩
def Region.block (r : Region) (b : Nat) : Block := r.blocks.getD b Block.reset
def Region.setBlock (r : Region) (b : Nat) (x : Block) : Region := { r with blocks := r.blocks.set b x }
def Region.slot (r : Region) (k : Nat) : RSlot := Tab.get RSlot.unbound r.slots k

/-- Scalar register n; s0 reads as zero (R144). -/
def Region.reg (r : Region) (n : Nat) : Word := if n = 0 then 0 else Tab.get 0 r.regs n
/-- Scalar register n written; a write to s0 is discarded (R144). -/
def Region.setReg (r : Region) (n : Nat) (v : Word) : Region :=
  if n = 0 then r else { r with regs := Tab.set 0 r.regs n v }

end Sys2Proof.Machine
end

