-- ==== Sys2Proof/Machine/FrontState.lean ====
section
/-! DEFINITION. The state of the front end and of partitions (chapters 08, 13, 14): queues, fences, slots, the running
LAUNCH of each partition, its holding area, placement rounds and cancelled-batch filter. -/
namespace Sys2Proof.Machine

/-- Queue states (Table 13-14). -/
inductive QState where
  | disabled | idle | active | held | complBlocked | fetchBlocked | aborting | stopped
  deriving DecidableEq, Repr

def QState.code : QState → Nat
  | .disabled => 0 | .idle => 1 | .active => 2 | .held => 3 | .complBlocked => 4 | .fetchBlocked => 5 | .aborting => 6
  | .stopped => 7

/-- FE_Q_RING and FE_Q_CRING (Table 13-2); `base` is the 4 KiB aligned byte address. -/
structure RingReg where
  loc : Bool
  sizelog : Nat
  base : Nat
  deriving DecidableEq, Repr

def RingReg.reset : RingReg := ⟨false, 4, 0⟩
def RingReg.size (r : RingReg) : Nat := 2 ^ r.sizelog

/-- A dispatched command: its checked record, lane (slot, or 32 + system queue), times, watchdog expiry, progress and
what it has gathered for its completion record. `moves` holds the pieces that a COPY's source and destination were
translated to (R351); `gen` is the generation that a LAUNCH's batch was bound to at dispatch (R316), none when that
failed. `rt` is the release time of a BARRIER that it follows (R466); `owed` counts its remote writes without an answer; `ending` is the
completion time of a command that only waits for them. -/
structure Running where
  cmd : Cmd
  lane : Nat
  tReady : Nat
  tSel : Nat
  tDisp : Nat
  wdog : Option Nat
  started : Bool
  waitUntil : Option Nat
  status : Status
  first : Nat
  dropped : Nat
  flags : Flags
  sel : List Nat
  latch : List Nat
  energy0 : Nat
  owed : Nat
  ending : Option Nat
  moves : Option (List Piece × List Piece)
  gen : Option Nat
  rt : Option Nat
  deriving DecidableEq, Repr

/-- A completion write in flight or shadowed: its 32 bytes, whether its vector is due, and whether it carried STATE. -/
structure ComplWrite where
  bytes : List Byte
  irq : Bool
  state : Bool
  deriving DecidableEq, Repr

/-- The batch a queue has bound: batch ID, partition, generation, LAUNCHes of it not yet complete (R315, R316). -/
structure Batch where
  id : Nat
  part : Nat
  gen : Nat
  open_ : Nat
  deriving DecidableEq, Repr

/-- A queue (R370 to R400). `fetched` holds the raw records read and not yet dispatched, oldest first; `pass` is the
tail the fetcher's current pass runs to, none while it is idle; `staged` says that the oldest fetched record has passed
its checks; `prior` is the state that COMPLETION_BLOCKED interrupted, `fprior` the one that FETCH_BLOCKED did; `rt` the release time of its last
BARRIER while no command has followed it; `enable` is FE_Q_CTRL.ENABLE. -/
structure Queue where
  ring : RingReg
  cring : RingReg
  tail : Nat
  fidx : Nat
  head : Nat
  ctail : Nat
  chead : Nat
  phase : Bool
  rung : Bool
  pass : Option Nat
  state : QState
  prior : QState
  fprior : QState
  fetched : List (List Byte)
  staged : Bool
  seqNext : Option Nat
  tReady : Option Nat
  running : Option Running
  inflight : List ComplWrite
  shadow : List ComplWrite
  abortTail : Option Nat
  batch : Option Batch
  granted : Bool
  rt : Option Nat
  enable : Bool
  deriving DecidableEq, Repr

/-- A queue at power-on (R373). -/
def Queue.reset : Queue :=
  { ring := .reset, cring := .reset, tail := 0, fidx := 0, head := 0, ctail := 0, chead := 0, phase := true,
    rung := false, pass := none, state := .disabled, prior := .disabled, fprior := .disabled, fetched := [], staged := false,
    seqNext := none, tReady := none, running := none, inflight := [], shadow := [], abortTail := none, batch := none,
    granted := false, rt := none, enable := false }

/-- A hardware slot: SLOT_CFG (Table 14-2), its selected or running queue with the selection time, and the counters of
Table 14-5. -/
structure Slot where
  part : Nat
  en : Bool
  sel : Option Nat
  tSel : Nat
  cmds : Word
  act : Word
  est : Word
  wait : Word
  miss : Word
  deriving DecidableEq, Repr

def Slot.reset : Slot := ⟨0, false, none, 0, 0, 0, 0, 0, 0⟩

/-- SLOT_QMAP of a user queue (Table 14-3). -/
structure QMap where
  slot : Nat
  ctx : Nat
  tune : Bool
  assigned : Bool
  deriving DecidableEq, Repr

def QMap.reset : QMap := ⟨0, 0, false, false⟩

/-- The LAUNCH that a partition runs. `epoch` is its current placement epoch (R416); `cancelled` is the status with which
its regions were told to stop (R176, R394); its first issue is not before `notBefore` (R466); `irq` is FLAGS bit 7. -/
structure LaunchRun where
  queue : Nat
  ctx : Nat
  batch : Nat
  gen : Nat
  epoch : Nat
  train : Bool
  blast : Bool
  estimate : Nat
  aligned : Bool
  cancelled : Option Status
  notBefore : Nat
  irq : Bool
  deriving DecidableEq, Repr

/-- A record that waits in the holding area (R190): target region and slot, bytes, arrival time. -/
structure HeldRec where
  region : Nat
  slot : Nat
  bytes : List Byte
  time : Nat
  deriving DecidableEq, Repr

/-- One region's submission to a placement round (R238): its region index and number, whether it carries rows, the
register values, return slot and choices it carries, and the issued PLACE that waits. -/
structure Submission where
  index : Nat
  region : Nat
  id : Nat
  slot : Nat
  rows : Bool
  k : Nat
  t : Nat
  experts : Nat
  cap : Nat
  pool : Nat
  strict : Bool
  renorm : Bool
  choices : List Int
  deriving DecidableEq, Repr

/-- A placement round entry (R241): its number in the command, batch, submissions, whether it was placed, and the
placed choices not yet settled. -/
structure RoundEntry where
  number : Nat
  batch : Nat
  subs : List Submission
  placed : Bool
  unsettled : Nat
  cancelledAt : Option Nat
  deriving DecidableEq, Repr

/-- A partition's run-time state. `fenceBy` is the queue of each fence's last signal; `taps` the armed taps' areas and
`tapCnt` each area's COUNT and LOST, keyed by the physical address of its header. -/
structure Part where
  launch : Option LaunchRun
  counters : Tab Nat
  epochResult : Nat
  partialStale : Nat
  held : List HeldRec
  rounds : List RoundEntry
  dropped : Nat
  filter : List (Nat × Nat)
  rteDiscarded : Nat
  rteStale : Nat
  fences : Tab (Option Nat)
  fenceBy : Tab Nat
  taps : Tab (Option TapArea)
  tapCnt : Tab (Nat × Nat)
  needAlign : Bool
  paceCap : Nat
  deriving DecidableEq, Repr

def Part.reset : Part :=
  { launch := none, counters := [], epochResult := 0, partialStale := 0, held := [], rounds := [], dropped := 0,
    filter := [], rteDiscarded := 0, rteStale := 0, fences := [], fenceBy := [], taps := [], tapCnt := [], needAlign := false, paceCap := 15 }

/-- FE_WDOG (Table 13-16). -/
structure Wdog where
  base : Nat
  perIssue : Nat
  long : Nat
  deriving DecidableEq, Repr

def Wdog.reset : Wdog := ⟨0x3E8, 0x64, 0x927C0⟩

end Sys2Proof.Machine
end

