-- ==== Sys2Proof/Machine/MemState.lean ====
section
/-! DEFINITION. The state of memory and translation (chapter 12), the key-value cache (chapter 07) and the weight unit
(chapters 09, 10). -/
namespace Sys2Proof.Machine

/-- Error-range log entry (Table 12-10); `last` is the time of the latest error merged into it. -/
structure ErrEntry where
  addr : Nat
  units : Nat
  tier : Nat
  source : Nat
  part : Option Nat
  seq : Nat
  queue : Nat
  hits : Nat
  time : Nat
  last : Nat
  deriving DecidableEq, Repr

/-- A range operation in progress (R350): context, OP (0 INSERT … 3 FLUSH), DRAIN and the data words. -/
structure RangeOp where
  ctx : Nat
  op : Nat
  drain : Bool
  data : List Nat
  deriving DecidableEq, Repr

/-- A local write of the module that waits for the host's answer about a line it writes (R365), and the queue whose command
waits for it. -/
structure HeldWrite where
  addr : Nat
  bytes : List Byte
  queue : Option Nat
  deriving DecidableEq, Repr

/-- Memory, translation and hot segments. Local memory is HBM and cellar by local address; `bad` lists the 64-byte
units with an uncorrectable error; `host` is the host's memory as the module reaches it over CXL.cache; `tables` holds
each context's valid range entries sorted by START; `hot` the hot-segment counters keyed context × 262,144 + index;
`hdm` the committed HDM decoders as (base, size) and `hdmSet` what their registers hold; `snoop` the lines the host may hold, newest first; `snooping` the lines whose
snoop the host has not answered; `held` the module's writes, and `cxlWait` the host's reads, that wait for such answers;
`hotSince` the start of the present epoch (R357). -/
structure Mem where
  loc : Memory
  bad : List Nat
  host : Memory
  hostUnmapped : List (Nat × Nat)
  tables : Tab (List RangeEntry)
  rtCtx : Nat
  rtOp : Nat
  rtDrain : Bool
  rtData : List Word
  rtBusy : Option RangeOp
  rtResult : Nat
  rtCount : Nat
  hot : Tab Nat
  hotThresh : Nat
  hotEpoch : Nat
  hotEn : Bool
  hotBase : Nat
  hotSizelog : Nat
  hotHead : Nat
  hotTail : Nat
  hotLost : Nat
  errlog : List ErrEntry
  errLost : Nat
  correctedHbm : Nat
  correctedCel : Nat
  hdm : List (Nat × Nat)
  hdmSet : List (Nat × Nat)
  snoop : List Nat
  snooping : List Nat
  held : List HeldWrite
  cxlWait : List (Nat × Nat)
  hotSince : Nat
  selfRefresh : Bool
  wokenUntil : Option Nat
  deriving DecidableEq, Repr

def Mem.reset : Mem :=
  { loc := [], bad := [], host := [], hostUnmapped := [], tables := [], rtCtx := 0, rtOp := 0, rtDrain := false,
    rtData := [0, 0, 0, 0], rtBusy := none, rtResult := 0, rtCount := 0, hot := [], hotThresh := 0x1000, hotEpoch := 6,
    hotEn := false, hotBase := 0, hotSizelog := 8, hotHead := 0, hotTail := 0, hotLost := 0, errlog := [], errLost := 0,
    correctedHbm := 0, correctedCel := 0, hdm := List.replicate 8 (0, 0), hdmSet := List.replicate 8 (0, 0), snoop := [], snooping := [],
    held := [], cxlWait := [], hotSince := 0,
    selfRefresh := false, wokenUntil := none }

/-- Sequence states (Table 07-1). -/
inductive SeqState where
  | free | live | releasing | mirror
  deriving DecidableEq, Repr

def SeqState.code : SeqState → Nat
  | .free => 0 | .live => 1 | .releasing => 2 | .mirror => 3

/-- CSTATE of a page run (Table 07-5). -/
inductive PageState where
  | priv | shared | evicted
  deriving DecidableEq, Repr

def PageState.code : PageState → Nat
  | .priv => 0 | .shared => 1 | .evicted => 2

/-- A page run (Table 07-5). -/
structure PageRun where
  lpage : Nat
  count : Nat
  frame : Nat
  st : PageState
  prot : Bool
  deriving DecidableEq, Repr

/-- A sequence descriptor (Table 07-2) with its run list and score array. `scores` lists the scored groups; an unlisted
one holds the canonical NaN (R216). -/
structure Seq where
  st : SeqState
  part : Nat
  gidx : Nat
  spread : Nat
  closed : Bool
  decay : F32
  geom : Word
  length : Nat
  pos0 : Nat
  replpos : Nat
  runs : List PageRun
  runFrames : List Nat
  scoreFrame : Option Nat
  scores : Tab (Option F32)
  evicted : Nat
  deriving DecidableEq, Repr

/-- A FREE descriptor reads as all zeros (R201). -/
def Seq.free : Seq :=
  { st := .free, part := 0, gidx := 0, spread := 0, closed := false, decay := 0, geom := 0, length := 0, pos0 := 0,
    replpos := 0, runs := [], runFrames := [], scoreFrame := none, scores := [], evicted := 0 }

/-- The key-value cache: sequence table, frame reference counts, and geometry templates keyed 16 × partition + template. -/
structure Kv where
  seqs : Tab Seq
  refs : Tab Nat
  geomA : Tab Word
  geomB : Tab Word
  deriving DecidableEq, Repr

def Kv.reset : Kv := ⟨[], [], [], []⟩

/-- Generation states (Table 10-6). -/
inductive GenState where
  | free | building | ready | current | draining
  deriving DecidableEq, Repr

def GenState.code : GenState → Nat
  | .free => 0 | .building => 1 | .ready => 2 | .current => 3 | .draining => 4

/-- A graft held by a generation: slot, its HBM spans and bytes, and whether it is local. -/
structure GraftHold where
  slot : Nat
  spans : List (Nat × Nat)
  bytes : Nat
  loc : Bool
  deriving DecidableEq, Repr

/-- A generation entry (Table 10-5) with its weight range entries and grafts. `root` is its rootstock table entry, 16
while it has none; `bind` the binding table entry that it uses. -/
structure Gen where
  gen : Nat
  st : GenState
  inherited : Bool
  loc : Bool
  refs : Nat
  root : Nat
  ranges : List RangeEntry
  grafts : List GraftHold
  hbmChg : Nat
  celChg : Nat
  tReady : Nat
  bind : Option Nat
  deriving DecidableEq, Repr

def Gen.free : Gen := ⟨0, .free, false, false, 0, 0, [], [], 0, 0, 0, none⟩

/-- A module rootstock table entry (R309). Its data lies in the HBM spans `hbm0` (die 0) and `hbm1` (die 1); the cellar
spans `cel` are charged for the rest, and its codes lie at their front. `loader` is the queue of the build that loads it,
none once it is loaded. -/
structure Root where
  used : Bool
  pubdig : List Byte
  compdig : List Byte
  hsplit : Nat
  dsplit : Nat
  databytes : Nat
  cloche : Option Nat
  hbm0 : List (Nat × Nat)
  hbm1 : List (Nat × Nat)
  cel : List (Nat × Nat)
  loader : Option Nat
  deriving DecidableEq, Repr

def Root.free : Root := ⟨false, [], [], 0, 0, 0, none, [], [], [], none⟩

/-- A binding table entry (R279, R280): compressed digest, the binding record, and the partitions that use it. -/
structure Binding where
  compdig : List Byte
  record : List Byte
  mask : List Nat
  deriving DecidableEq, Repr

/-- An image that a build loads when its checks 1 to 6 have passed: source address, its header, the binding record of
form 1, and whether this build's compress pass wrote it. -/
structure ImageSrc where
  va : Nat
  hdr : List Byte
  record : List Byte
  own : Bool
  deriving DecidableEq, Repr

/-- A graft that a build loads: where it goes, its source, and its header when it is no local graft. -/
structure GraftSrc where
  hold : GraftHold
  va : Nat
  hdr : Option (List Byte)
  deriving DecidableEq, Repr

/-- What a build has still to load (R312 step 3). -/
structure BuildPlan where
  root : Option ImageSrc
  grafts : List GraftSrc
  deriving DecidableEq, Repr

/-- A weight build that has begun and not ended (R312): its queue, context, partition and generation entry, its flags
and parameter block, whether its compress pass is over, and its plan once checks 1 to 6 have passed. -/
structure Build where
  queue : Nat
  ctx : Nat
  part : Nat
  entry : Nat
  f : WgtBuildF
  pblk : List Byte
  packed : Bool
  plan : Option BuildPlan
  deriving DecidableEq, Repr

/-- A codebook block that an expander holds for a command (R276): expander, address, queue of the command, its bytes.
Expanders 0 and 1 are the shed-to-die receivers of die 0 and 1; 2 and 3 the receivers of the other die's HBM. -/
structure Codebook where
  expander : Nat
  addr : Nat
  queue : Nat
  bytes : List Byte
  deriving DecidableEq, Repr

/-- A compressed transfer from another module in progress (R267): source and plot, the address its next message has,
where its next elements go, the bytes not yet a whole structure, how far the payload has been read, and the last 16
codebook blocks with their places in the payload, newest first (R276). -/
structure XferIn where
  src : Nat
  plot : Nat
  next : Nat
  out : Nat
  buf : List Byte
  pos : Nat
  blocks : List (Nat × List Byte)
  deriving DecidableEq, Repr

/-- The weight unit: eight generation entries per partition keyed 8 × partition + entry, the rootstock table, the
binding table, the builds running, the expanders' codebook caches (R276) and the compressed transfers arriving. -/
structure Wgt where
  gens : Tab Gen
  roots : List Root
  binds : List (Option Binding)
  builds : List Build
  caches : List Codebook
  xfers : List XferIn
  deriving DecidableEq, Repr

def Wgt.reset : Wgt := ⟨[], List.replicate 16 .free, List.replicate 64 none, [], [], []⟩

end Sys2Proof.Machine
end

