-- ==== Sys2Proof/Machine/TrellisState.lean ====
section
/-! DEFINITION. The trellis image in force and the loader (chapter 19). -/
namespace Sys2Proof.Machine

/-- A repair entry (Table 19-4): physical unit number (R519) and ACTION. -/
structure RepairEntry where
  unit : Nat
  action : Nat
  deriving DecidableEq, Repr

/-- A trim entry (Table 19-4): island number and trim in 2.5 mV steps. -/
structure TrimEntry where
  island : Nat
  trim : Nat
  deriving DecidableEq, Repr

/-- Partition record (Table 19-7). `regions` holds one bit per logical region. -/
structure PartRec where
  valid : Bool
  det : Bool
  lgraft : Bool
  clocheOk : Bool
  maxlvl : Nat
  regions : Nat
  seqBase : Nat
  seqCount : Nat
  limit : Nat
  nomAdd : Nat
  deriving DecidableEq, Repr

def PartRec.none : PartRec := ⟨false, false, false, false, 0, 0, 0, 0, 0, 0⟩

/-- Context record (Table 19-8). -/
structure CtxRec where
  valid : Bool
  part : Nat
  sramOff : Nat
  sramSize : Nat
  bank0 : Nat
  bankN : Nat
  wbase : Nat
  deriving DecidableEq, Repr

def CtxRec.none : CtxRec := ⟨false, 0, 0, 0, 0, 0, 0⟩

/-- MODULE record (Table 19-9). -/
structure ModRec where
  parent : Nat
  root : Bool
  uncoreMax : Nat
  shedMax : Nat
  sustMax : Nat
  sust : Nat
  peak : Nat
  coef : List Nat
  deriving DecidableEq, Repr

def ModRec.none : ModRec := ⟨0, false, 0, 0, 0, 0, 0, List.replicate 11 0⟩

/-- Memory span (Table 19-10). -/
structure SpanRec where
  kind : Nat
  owner : Nat
  base : Nat
  size : Nat
  deriving DecidableEq, Repr

/-- Routing record of a plot (Table 19-3 ROUTING): plot, route entry, barrier configuration and membership map. -/
structure RoutingRec where
  plot : Nat
  route : Nat
  bar : Nat
  members : List Nat
  deriving DecidableEq, Repr

/-- Trust record (Table 19-3 TRUST). -/
structure TrustRec where
  kind : Nat
  parts : Nat
  digest : List Byte
  deriving DecidableEq, Repr

/-- The structure in force: everything the image gives that is not an LK register elsewhere. `ports` holds EFT_PORT0 to
EFT_PORT15 and `shares` each physical port's 64 share bytes. -/
structure TStruct where
  repair : List Byte
  entries : List RepairEntry
  trims : List TrimEntry
  modrec : ModRec
  clocks : List Nat
  parts : List PartRec
  ctxs : List CtxRec
  spans : List SpanRec
  ports : List Nat
  shares : List (List Nat)
  routing : List RoutingRec
  trust : List TrustRec
  queues : List Nat
  slotCfg : List Nat
  deriving DecidableEq, Repr

def TStruct.empty : TStruct :=
  { repair := [], entries := [], trims := [], modrec := .none, clocks := List.replicate 112 0,
    parts := List.replicate 8 .none, ctxs := List.replicate 64 .none, spans := [], ports := List.replicate 16 0,
    shares := List.replicate 18 (List.replicate 64 0), routing := [], trust := [], queues := List.replicate 512 0,
    slotCfg := List.replicate 32 0 }

/-- A checked patch that waits for its conditions (R526): the new structure, the digest it will set, the partitions that
must be between commands, and the (section, index) pairs of its records. -/
structure Patch where
  next : TStruct
  digest : List Byte
  hold : List Nat
  names : List (Nat × Nat)
  deriving DecidableEq, Repr

/-- The trellis loader: staging area, TRL_CTRL.BYTES, TRL_STAT, the trellis digest and the structure in force. -/
structure Trl where
  staging : Memory
  bytes : Nat
  loaded : Bool
  busy : Option Patch
  result : Nat
  section_ : Nat
  record : Nat
  phase : Nat
  patches : Nat
  tdig : List Byte
  st : TStruct
  deriving DecidableEq, Repr

def Trl.reset : Trl := ⟨[], 0, false, none, 0, 0, 0, 0, 0, List.replicate 64 0, .empty⟩

end Sys2Proof.Machine
end

