-- ==== Sys2Proof/Machine/LinkState.lean ====
section
/-! DEFINITION. The state of the Eften links, the twin pair, device time, barriers and the sync trace (chapters 15, 16). -/
namespace Sys2Proof.Machine

/-- A message: its header (Table 15-8), its LEN data bytes, and for an ENC message what follows them: the rest of their
last slot and the 32 bytes of the GCM slot (Table 20-13). -/
structure LinkMsg where
  typ : Nat
  cls : Nat
  vc : Nat
  xc : Bool
  enc : Bool
  plot : Nat
  hops : Nat
  src : Nat
  dst : Nat
  tag : Nat
  status : Nat
  addr : Nat
  aux : Nat
  data : List Byte
  gcm : List Byte
  deriving DecidableEq, Repr

/-- Link states (Table 15-5). -/
inductive LinkSt where
  | down | training | up | retrain | failed | loopback
  deriving DecidableEq, Repr

def LinkSt.code : LinkSt → Nat
  | .down => 0 | .training => 1 | .up => 2 | .retrain => 3 | .failed => 4 | .loopback => 5

/-- Causes of Table 15-7. -/
inductive LinkCause where
  | none | retrain | cabling | reach | lanes | disable
  deriving DecidableEq, Repr

def LinkCause.code : LinkCause → Nat
  | .none => 0 | .retrain => 1 | .cabling => 2 | .reach => 3 | .lanes => 4 | .disable => 5

/-- A message queued for transmission, with the port and sub-share of the receiver buffer that it still holds when it
is forwarded. -/
structure TxMsg where
  msg : LinkMsg
  hold : Option (Nat × Nat)
  deriving DecidableEq, Repr

/-- A DATA frame in the replay buffer (R430): sequence, time of its first transmission, FIRST field, the messages that
end in it and its slot bytes. -/
structure TxFrame where
  fseq : Nat
  sentAt : Nat
  first : Nat
  msgs : List LinkMsg
  slots : List Byte
  deriving DecidableEq, Repr

/-- A message in a receiver's buffer with the sub-share whose slots it holds (none for class 2). -/
structure RxMsg where
  share : Option Nat
  msg : LinkMsg
  deriving DecidableEq, Repr

/-- A physical port: EFT_LINK_CTRL and EFT_LINK_STAT, the sender (replay buffer, queued messages, slots sent and the
last COUNT returned per sub-share, messages that each sub-share may still send in the present round, and the sub-share
served last) and the receiver (next sequence, whether the present gap was NAKed, the bytes of the
message in assembly, the buffer, the slots freed per sub-share and the sub-shares to return, the next one first). A sub-share is numbered
8 × plot + 2 × class + VC. `cable` and `active` are the levels of CBL_PRSNT_N and CBL_ACTIVE_N (true when grounded). -/
structure Link where
  disable : Bool
  clrbad : Bool
  lthresh : Nat
  st : LinkSt
  cause : LinkCause
  good : Nat
  farmod : Nat
  farport : Nat
  retrains : Nat
  failedRetrains : Nat
  prior : LinkSt
  priorCause : LinkCause
  cable : Bool
  active : Bool
  nextFseq : Nat
  replay : List TxFrame
  txq : List TxMsg
  sent : Tab Nat
  returned : Tab Nat
  quota : Tab Nat
  served : Nat
  expected : Nat
  lastRx : Option Nat
  naked : Bool
  rxBytes : List Byte
  rxMsgs : List RxMsg
  freed : Tab Nat
  changed : List Nat
  deriving DecidableEq, Repr

/-- A port at power-on (Tables 15-6, 15-7). -/
def Link.reset : Link :=
  { disable := false, clrbad := false, lthresh := 0x0400, st := .down, cause := .none, good := 511, farmod := 0,
    farport := 0, retrains := 0, failedRetrains := 0, prior := .down, priorCause := .none, cable := false,
    active := false, nextFseq := 0, replay := [], txq := [], sent := [], returned := [], quota := [], served := 0, expected := 0, lastRx := none, naked := false,
    rxBytes := [], rxMsgs := [], freed := [], changed := [] }

/-- Who waits for a remote request's response: an issued instruction's writes, a region's instruction at issue that
needs remote data, or a queue's command. -/
inductive ReqOwner where
  | instr (region : Nat) (id : Nat)
  | region (region : Nat)
  | cmd (queue : Nat)
  deriving DecidableEq, Repr

/-- A remote request that has had no response (R346): tag, destination, when it was sent, its owner, and for an RD the
physical address and byte count it reads. -/
structure RemoteReq where
  tag : Nat
  dst : Nat
  sentAt : Nat
  owner : ReqOwner
  read : Option (Nat × Nat)
  deriving DecidableEq, Repr

/-- Remote data that has arrived for an owner, by physical address, with the status of its response code. -/
structure Fetched where
  owner : ReqOwner
  pa : Nat
  status : Nat
  bytes : List Byte
  deriving DecidableEq, Repr

/-- EFT_COORD (Table 15-2). -/
structure Coord where
  modid : Nat
  valid : Bool
  usz : Nat
  vsz : Nat
  twin : Bool
  deriving DecidableEq, Repr

def Coord.reset : Coord := ⟨0, false, 0, 0, false⟩

/-- The twin pair: EFT_TWIN_CTRL.AUTO, EFT_TWIN_STAT, arrival times of the two heartbeats, the heartbeat count sent, the
start of a takeover that has not completed, LOSTSEEN of the latest heartbeat, and whether REJOIN is due since the twin
declared this module lost (Table 15-16). -/
structure Twin where
  auto : Bool
  lost : Bool
  altonly : Bool
  taken : Bool
  back : Bool
  replbrk : Bool
  lastHbt : Option Nat
  lastAlt : Option Nat
  hbBase : Nat
  count : Nat
  takeover : Option Nat
  lostSeen : Bool
  mustRejoin : Bool
  deriving DecidableEq, Repr

def Twin.reset : Twin :=
  { auto := true, lost := false, altonly := false, taken := false, back := false, replbrk := false, lastHbt := none,
    lastAlt := none, hbBase := 0, count := 0, takeover := none, lostSeen := false, mustRejoin := false }

/-- The links of a module and what they carry for it. `parts` holds the parts of replicated pages that have arrived, as
(sequence, page, offset, bytes). -/
structure Eft where
  coord : Coord
  links : List Link
  twin : Twin
  reqs : List RemoteReq
  fetched : List Fetched
  nextTag : Nat
  parts : List (Nat × Nat × Nat × List Byte)
  orate : Tab Nat
  deriving DecidableEq, Repr

def Eft.reset : Eft := ⟨.reset, List.replicate 18 .reset, .reset, [], [], 0, [], []⟩

/-- Time states (Table 16-1). -/
inductive TimeSt where
  | free | locking | locked | holdover
  deriving DecidableEq, Repr

def TimeSt.code : TimeSt → Nat
  | .free => 0 | .locking => 1 | .locked => 2 | .holdover => 3

/-- Device time (R453 to R458): the count, the time state, the last measured offset in 1/64 ns, DEPTH, consecutive
exchanges within 1 ns, arrival of the last TRESP, the exchange in progress (number and t1), the last TREQ's time, and the time until which
the count is held (Table 16-1, HOLDOVER). -/
structure TimeSync where
  now : Nat
  st : TimeSt
  offset : Int
  depth : Nat
  good : Nat
  lastResp : Nat
  xchg : Nat
  t1 : Option Nat
  lastReq : Option Nat
  hold : Nat
  deriving DecidableEq, Repr

def TimeSync.reset : TimeSync := ⟨0, .free, 0, 0, 0, 0, 0, none, none, 0⟩

/-- A release that waits for its time (R463, R464). -/
structure Rel where
  rt : Nat
  strag : Nat
  stragV : Bool
  pace : Nat
  late : Bool
  deriving DecidableEq, Repr

/-- One generation of a barrier at this module (R460 to R464): the queue and time of its own arrival, the members
arrived in the subtree, the children whose ARRIVE is in, earliest and latest arrival, the module that arrived last and its block power level, whether the
ARRIVE has been sent, and the release. -/
structure BarGen where
  gen : Nat
  queue : Option Nat
  own : Bool
  members : Nat
  kids : List Nat
  earliest : Nat
  latest : Nat
  last : Nat
  level : Nat
  sent : Bool
  rel : Option Rel
  deriving DecidableEq, Repr

/-- A barrier: how many arrivals this module has dispatched (the next generation number) and its open generations. -/
structure Bar where
  next : Nat
  gens : List BarGen
  deriving DecidableEq, Repr

def Bar.reset : Bar := ⟨0, []⟩

/-- Sync trace entry (Table 16-8). -/
structure STrace where
  time : Nat
  kind : Nat
  part : Nat
  late : Bool
  id : Nat
  who : Nat
  queue : Nat
  level : Nat
  skew : Nat
  deriving DecidableEq, Repr

/-- Barriers keyed 64 × plot + BID, and the sync trace, newest first. -/
structure Sync where
  bars : Tab Bar
  trace : List STrace
  count : Nat
  deriving DecidableEq, Repr

def Sync.reset : Sync := ⟨[], [], 0⟩

end Sys2Proof.Machine
end

