-- ==== Sys2Proof/Machine/PowerState.lean ====
section
/-! DEFINITION. The state of power, thermal control and energy (chapter 17) and of reliability (chapter 18). -/
namespace Sys2Proof.Machine

/-- Trim log entry (Table 17-12). -/
structure TrimLog where
  time : Nat
  island : Nat
  old : Nat
  new : Nat
  slack : Int
  deriving DecidableEq, Repr

/-- Overwintering states (Table 17-16). -/
inductive OwState where
  | serving | entering | overwintering | waking
  deriving DecidableEq, Repr

def OwState.code : OwState → Nat
  | .serving => 0 | .entering => 1 | .overwintering => 2 | .waking => 3

/-- The power manager. Groups are numbered as PWR_LEVELn (0 to 7 partitions, 8 and 9 die uncore, 10 shed); the thermal
domains are die 0, die 1 and the shed. `mgr` is a group's manager level and `level` the level in effect. Estimates and
energies are in units of 1/256 pJ; `k` is Q2.14. `limitDrop` holds
the time of each partition's last drop under its own limit. `sensors` holds the last readings: 64 compute die sensors, 8 shed
sensors, 12 stacks. -/
structure Pwr where
  sust : Nat
  peak : Nat
  plimit : List Nat
  coef : List Nat
  meas : Nat
  ctrl : Nat
  diverge : Bool
  excurSince : Option Nat
  excurEnd : Option Nat
  telemlost : Bool
  vra : Bool
  vrHold : Bool
  vrRelease : Option Nat
  vrcount : Nat
  k : Nat
  mLast : Nat
  eLast : Nat
  ewSum : Nat
  ewSteps : Nat
  divStreak : Nat
  okStreak : Nat
  missed : Nat
  mgr : List Nat
  level : List Nat
  lastDrop : Nat
  limitDrop : Tab Nat
  lastRise : Nat
  lowSince : Option Nat
  partAcc : List Nat
  partPower : List Nat
  therm : List Nat
  thermAt : List Nat
  tripped : List Bool
  throttle : Nat
  trip : Nat
  sensors : List Nat
  critseen : Bool
  refresh2x : List Bool
  halved : List Bool
  vin : Nat
  wakedb : Bool
  ow : OwState
  stretched : Tab Nat
  trims : Tab Nat
  trimLog : List TrimLog
  enQ : Tab Nat
  enP : List Nat
  enIdle : List Nat
  enMod : Nat
  visQ : Tab Nat
  visP : List Nat
  visIdle : List Nat
  visMeas : Nat
  visCtrl : Nat
  deriving DecidableEq, Repr

/-- Power at power-on (Tables 17-4 to 17-16). -/
def Pwr.reset : Pwr :=
  { sust := 0x7D0, peak := 0x960, plimit := List.replicate 8 0, coef := List.replicate 11 0, meas := 0, ctrl := 0,
    diverge := false, excurSince := none, excurEnd := none, telemlost := false, vra := false, vrHold := false,
    vrRelease := none, vrcount := 0, k := 0x4000, mLast := 0, eLast := 0, ewSum := 0, ewSteps := 0, divStreak := 0,
    okStreak := 0, missed := 0, mgr := List.replicate 11 0, level := List.replicate 11 0, lastDrop := 0, limitDrop := [], lastRise := 0,
    lowSince := none, partAcc := List.replicate 8 0, partPower := List.replicate 8 0, therm := List.replicate 3 15,
    thermAt := List.replicate 3 0, tripped := List.replicate 3 false, throttle := 0x5F, trip := 0x69,
    sensors := List.replicate 84 25, critseen := false, refresh2x := List.replicate 12 false,
    halved := List.replicate 12 false, vin := 0, wakedb := true, ow := .serving, stretched := [],
    trims := [], trimLog := [], enQ := [], enP := List.replicate 8 0, enIdle := List.replicate 8 0, enMod := 0,
    visQ := [], visP := List.replicate 8 0, visIdle := List.replicate 8 0, visMeas := 0, visCtrl := 0 }

/-- Pending repair list entry (Table 18-5). -/
structure PendRepair where
  time : Nat
  kind : Nat
  st : Nat
  count : Nat
  unit : Nat
  deriving DecidableEq, Repr

/-- A device reset's cause and triggers (Tables 13-17, 18-9), BUSY, whether the reset waits for firmware (R513), and the
queue and SEQ that the last reset named (R514). -/
structure Resets where
  cause : Nat
  queue : Nat
  seq : Nat
  trig : Nat
  detail : Nat
  busy : Bool
  waitFw : Bool
  lastNamed : Option (Nat × Nat)
  deriving DecidableEq, Repr

def Resets.reset : Resets := ⟨0, 0, 0, 0, 0, false, false, none⟩

/-- Fault counts by unit with the times of the faults in the 24 h window, the pending repair list oldest first, the
self-test with the units in service that it found bad, bad lanes by die-to-die link, and retries of the die network by
segment. -/
structure Rel18 where
  faults : Tab (List Nat)
  pending : List PendRepair
  exhaust : Bool
  full : Bool
  applied : Nat
  stEn : Bool
  stPeriod : Nat
  slices : Nat
  fails : Nat
  last : Nat
  failedUnits : List Nat
  dieBad : Tab Nat
  retries : Tab Nat
  resets : Resets
  deriving DecidableEq, Repr

def Rel18.reset : Rel18 :=
  { faults := [], pending := [], exhaust := false, full := false, applied := 0, stEn := true,
    stPeriod := 0x3E8, slices := 0, fails := 0, last := 0, failedUnits := [], dieBad := [], retries := [],
    resets := .reset }

end Sys2Proof.Machine
end

