-- ==== Sys2Proof/Machine/SecureState.lean ====
section
/-! DEFINITION. The state of security (chapter 20), observation and management (chapter 21), the host's view
(chapter 22) and the board (chapter 23). -/
namespace Sys2Proof.Machine

/-- A key slot in the fuses: digest and revoked bit. -/
structure KeySlot where
  digest : List Byte
  revoked : Bool
  deriving DecidableEq, Repr

def KeySlot.blank : KeySlot := ⟨List.replicate 64 0, false⟩

/-- A slot whose digest is all zero is unprogrammed (Table 20-4). -/
def KeySlot.programmed (k : KeySlot) : Bool := k.digest.any (· != 0)

/-- The fuses (Table 20-4), but for the UDS, which nothing reads (R537) and which is `Config.uds`. `svn` is the count of
SVN bits set; `unlocks` the unlocks accepted since manufacture (Table 20-5). -/
structure Fuses where
  vendor : List KeySlot
  owner : List KeySlot
  svn : Nat
  stepping : Nat
  privlock : Bool
  opened : Bool
  unlocks : Nat
  deriving DecidableEq, Repr

/-- Fuses of a part that has left the factory: Sharuene's key digests, which no rule states, and no owner key. -/
def Fuses.factory : Fuses :=
  ⟨[⟨Config.vendorDigest 0, false⟩, ⟨Config.vendorDigest 1, false⟩], List.replicate 4 .blank, 0, 0x41, true, false, 0⟩

/-- Cloche states (Table 20-9). -/
inductive ClocheSt where
  | off | entering | locked | admitted
  deriving DecidableEq, Repr

def ClocheSt.code : ClocheSt → Nat
  | .off => 0 | .entering => 1 | .locked => 2 | .admitted => 3

/-- SEC_CLOCHEn and the session in which the partition was admitted. `teardown` says that a teardown's scrub will
leave the partition OFF (R549); `scrubSpans` are the spans that the running scrub overwrites (R553). -/
structure Cloche where
  st : ClocheSt
  scrub : Bool
  scrubSpans : List (Nat × Nat)
  ide : Bool
  tsp : Bool
  session : Option Nat
  teardown : Bool
  deriving DecidableEq, Repr

def Cloche.off : Cloche := ⟨.off, false, [], false, false, none, false⟩

/-- An SPDM session: its identifier, whether FINISH has completed, whether it runs over Data Object Exchange, and how
often its keys were updated. -/
structure Session where
  id : Nat
  up : Bool
  doe : Bool
  updates : Nat
  deriving DecidableEq, Repr

/-- The SPDM responder: how far the connection has been negotiated (0 none, 1 version, 2 capabilities, 3 algorithms),
the sessions, the large request in assembly and the rest of the large response. -/
structure Spdm where
  stage : Nat
  sessions : List Session
  nextId : Nat
  chunkIn : Option (List Byte)
  chunkOut : Option (List Byte)
  chunkSeq : Nat
  deriving DecidableEq, Repr

def Spdm.reset : Spdm := ⟨0, [], 0, none, none, 0⟩

/-- Security. Plot keys are keyed 2 × plot + KID; `kid` is the KID a plot's sender uses and `ctr` its message counter
(R550, R551). `fwStage` is the firmware staging area. -/
structure Sec where
  fuses : Fuses
  fwok : Bool
  fwresult : Nat
  runSvn : Nat
  fwdig : List Byte
  privopen : Bool
  cloche : List Cloche
  spdm : Spdm
  keys : Tab (Option (List Byte))
  kid : Tab Nat
  ctr : Tab Nat
  fwStage : Memory
  fwBytes : Nat
  unlockStage : Memory
  akSvn : Nat
  deriving DecidableEq, Repr

def Sec.reset : Sec :=
  { fuses := .factory, fwok := false, fwresult := 0, runSvn := 0, fwdig := List.replicate 64 0, privopen := false,
    cloche := List.replicate 8 .off, spdm := .reset, keys := [], kid := [], ctr := [], fwStage := [], fwBytes := 0,
    unlockStage := [], akSvn := 0 }

/-- A notification that waits for its acknowledgement (R559). -/
structure Notice where
  nseq : Nat
  code : Nat
  part : Nat
  time : Nat
  data : Nat
  tries : Nat
  sentAt : Nat
  deriving DecidableEq, Repr

/-- A bulk data port channel: BDP_ADDRc, BDP_STATc and the window bytes accessed as a bit mask (R561). -/
structure BdpCh where
  space : Nat
  offset : Nat
  status : Nat
  err : Bool
  erroff : Nat
  seen : Nat
  deriving DecidableEq, Repr

def BdpCh.reset : BdpCh := ⟨0, 0, 0, false, 0, 0⟩

/-- Event entry (Table 21-11). -/
structure Event where
  time : Nat
  code : Nat
  part : Option Nat
  queue : Option Nat
  data : Nat
  deriving DecidableEq, Repr

/-- An event ring: WCOUNT and the last 256 entries, newest first (R569). -/
structure Ring where
  wcount : Nat
  entries : List Event
  deriving DecidableEq, Repr

def Ring.reset : Ring := ⟨0, []⟩

/-- Observation and management. Event rings are keyed by island number; snapshots by index modulo 16,384; SLOT_CNT and
SLOT_CSEL by 16 × lane + k. `rake` is the queue whose RAKE runs. -/
structure Obs where
  i3c : Option Nat
  endpoint : Option Nat
  nseq : Nat
  notices : List Notice
  nlost : Nat
  bdp : List BdpCh
  rings : Tab Ring
  snaps : Tab (List Byte)
  snapCnt : Nat
  cnt : Tab Word
  csel : Tab Nat
  rrBusy : Bool
  rrDone : Bool
  record : Memory
  rake : Option Nat
  dbgen : Bool
  deriving DecidableEq, Repr

def Obs.reset : Obs :=
  { i3c := none, endpoint := none, nseq := 0, notices := [], nlost := 0, bdp := List.replicate 3 .reset, rings := [],
    snaps := [], snapCnt := 0, cnt := [], csel := [], rrBusy := false, rrDone := false, record := [], rake := none,
    dbgen := false }

/-- A requester of register accesses (R581). -/
inductive Requester where
  | host | mgmt | bdp (c : Nat)
  deriving DecidableEq, Repr

/-- A requester's held low half and read latch, each with the register's offset (R581). -/
structure Halves where
  held : Option (Nat × Nat)
  latch : Option (Nat × Nat)
  deriving DecidableEq, Repr

def Halves.none : Halves := ⟨Option.none, Option.none⟩

/-- An MSI-X table entry. -/
structure Msix where
  addr : Nat
  data : Nat
  mask : Bool
  deriving DecidableEq, Repr

def Msix.reset : Msix := ⟨0, 0, true⟩

/-- The CXL port and the host's view. `halves` is keyed 0 host, 1 management controller, 2 + c channel c. `vectors`
holds the vectors due while none may be sent (R589). -/
structure HostPort where
  irqStat : Nat
  msix : Tab Msix
  msixPend : Tab Bool
  msixEn : Bool
  fmask : Bool
  bar0 : Nat
  halves : Tab Halves
  perst : Bool
  deriving DecidableEq, Repr

def HostPort.reset : HostPort :=
  { irqStat := 0, msix := [], msixPend := [], msixEn := false, fmask := false, bar0 := 0, halves := [],
    perst := false }

/-- A loopback (Tables 23-10, 23-11). -/
structure Loopback where
  iface : Nat
  unit : Nat
  depth : Nat
  started : Nat
  dur : Nat
  deriving DecidableEq, Repr

/-- The board: whether the input is at or above 44 V, the rails, consecutive phase 0 failures and whether they hold the
rails off, SYS_RESET_N, the timebase source, and the test access port. `wir` and `wdr` hold what was last shifted into
each stack's IEEE 1500 registers. -/
structure Board where
  input : Bool
  rails : Bool
  railFails : Nat
  heldOff : Bool
  critOff : Bool
  sysReset : Bool
  sysResetAt : Nat
  tbLocal : Bool
  ir : Nat
  boundary : Nat
  driven : Nat
  lbcfg : Nat
  lbState : Nat
  lbErrors : Nat
  lbBits : Nat
  lb : Option Loopback
  hbmsel : Option Nat
  wir : Tab Nat
  wdr : Tab Nat
  deriving DecidableEq, Repr

def Board.reset : Board :=
  { input := false, rails := false, railFails := 0, heldOff := false, critOff := false, sysReset := false,
    sysResetAt := 0, tbLocal := false, ir := 0x02, boundary := 0, driven := 0, lbcfg := 0, lbState := 0, lbErrors := 0,
    lbBits := 0, lb := none, hbmsel := none, wir := [], wdr := [] }

/-- What the SPDM responder answers (Table 20-7). -/
inductive SpdmResp where
  | version (v : List Nat)
  | capabilities
  | algorithms
  | digests (d : List Byte)
  | certificate (bytes : List Byte) (remainder : Nat)
  | challengeAuth (chainDigest nonce signature : List Byte)
  | measurements (blocks : List (Nat × List Byte)) (nonce signature : List Byte)
  | large (size : Nat)
  | keyExchange (session : Nat)
  | finish
  | heartbeatAck
  | keyUpdateAck
  | endSessionAck
  | chunkSendAck
  | chunk (seq : Nat) (last : Bool) (bytes : List Byte)
  | vendor
  | error (code : Nat)
  deriving DecidableEq, Repr

/-- What the module drives across its boundary. -/
inductive Out where
  | train (port modid : Nat)
  | frame (port : Nat) (block : List Byte)
  | vector (v : Nat)
  | snoop (line : Nat)
  | cxlData (bytes : List Byte) (uncorrectable : Bool)
  | config (value : Option Nat)
  | regData (value : Nat)
  | windowData (bytes : List Byte)
  | mgmt (cmd tag status : Nat) (payload : List Byte)
  | notify (nseq code part time data : Nat)
  | bulk (op tag status : Nat) (data : List Byte)
  | pldm (reading : Option Nat)
  | spdm (r : SpdmResp)
  | tdo (value : Nat)
  | ibi (address : Nat)
  deriving DecidableEq, Repr

end Sys2Proof.Machine
end

