-- ==== Sys2Proof/Machine/Events.lean ====
section
/-! DEFINITION. Operands of the commands that are not region instructions or command records: what a frame, a sensor, a
checker or the host brings with the event. -/
namespace Sys2Proof.Machine

/-- A lane row of a load that failed parity as it latched (R110): the failing cell, and whether the row's rewrite failed
too. -/
structure RowFault where
  row : Nat
  col : Nat
  twice : Bool
  deriving DecidableEq, Repr

/-- A frame as it arrives (R426): whether its RS(544,512) code decodes, and the block (Table 15-3) that it decodes to. -/
structure FrameIn where
  decodes : Bool
  block : List Byte
  deriving DecidableEq, Repr

/-- What a training or a retrain found (R422, R425, R431, R433): the far end, the round trip in ns, and the good lanes of
each direction. -/
structure Training where
  farmod : Nat
  farport : Nat
  rtt : Nat
  good : Nat
  goodTx : Nat
  deriving DecidableEq, Repr

/-- The tag of counted activity (R483). -/
inductive PTag where
  | queue (q : Nat)
  | idle (p : Nat)
  | module_
  deriving DecidableEq, Repr

/-- Events counted in one 100 ns window: tag, level group, kind of Table 17-3, count. Kinds 0 and 1 stand in the blocks
(R102). -/
structure PCount where
  tag : PTag
  group : Nat
  kind : Nat
  count : Nat
  deriving DecidableEq, Repr

/-- A word that is uncorrectable when a repair copies storage into a spare (R506): a 64-byte unit of a region's SRAM, or a
bank word. -/
inductive CopyLoss where
  | sram (region off : Nat)
  | bank (region block entry col : Nat)
  deriving DecidableEq, Repr

/-- A CXL configuration-space request (R528, R576, R586). -/
inductive CfgReq where
  | read (offset : Nat)
  | bar0 (base : Nat)
  | msixControl (enable fmask : Bool)
  deriving DecidableEq, Repr

/-- An error that a read of a shed unit's hub SRAM finds (R360, R503, Table 18-1), with the unit's number: one bit; two bits in
mirrored state, or in a doubled line of the reference-count cache; two bits in both copies, or in state that has no
mirror. -/
inductive HubFault where
  | single (unit : Nat)
  | restored (unit : Nat)
  | lost (unit : Nat)
  deriving DecidableEq, Repr

def HubFault.unit : HubFault → Nat
  | .single u | .restored u | .lost u => u

/-- What a controller finds in a unit that it reads in the background (R362). -/
inductive MemOutcome where
  | good | corrected | uncorrectable
  deriving DecidableEq, Repr

/-- A record on its way to a receive window (R184 to R187): target region and slot, its bytes, and who waits for it: an
issued instruction of a region, or a remote sender (source module, tag, plot). -/
inductive RecOwner where
  | none
  | instr (region id : Nat)
  | remote (src tag plot : Nat)
  deriving DecidableEq, Repr

structure TransitRec where
  region : Nat
  slot : Nat
  bytes : List Byte
  owner : RecOwner
  deriving DecidableEq, Repr

/-- The header of a management message besides its CMD (R558): TAG, the reserved fields of header and payload, and the bytes
of the payload. -/
structure MgmtHdr where
  tag : Nat
  rsvd : Nat
  bytes : Nat
  deriving DecidableEq, Repr

/-- The message has nothing in a reserved field and its payload n bytes. -/
def MgmtHdr.fits (h : MgmtHdr) (n : Nat) : Bool := h.rsvd == 0 && h.bytes == n

/-- The header of a bulk-lane frame besides its OP (R564): whether its CRC matches, TAG, and the window offset. -/
structure BulkHdr where
  crcOk : Bool
  tag : Nat
  offset : Nat
  deriving DecidableEq, Repr

end Sys2Proof.Machine
end

