-- ==== Sys2Proof/Syntax.lean ====
section
/-! DEFINITION. The commands of the block: one constructor per row of the opcode table, in the table's order. A region
instruction names its region and carries its decoded fields; a command record names its queue and carries its payload;
an event names the unit it happens in. -/
namespace Sys2Proof
open Machine

/-- The commands that the block takes. -/
inductive Instr where
  /-- NOP (R375). -/
  | nop (q : Nat)
  /-- LAUNCH (R141). -/
  | launch (q : Nat) (f : LaunchF)
  /-- FENCE_SIGNAL (R390). -/
  | fenceSignal (q : Nat) (f : FenceSignalF)
  /-- FENCE_WAIT (R390). -/
  | fenceWait (q : Nat) (f : FenceWaitF)
  /-- COPY (R409). -/
  | copy (q : Nat) (f : CopyF)
  /-- BARRIER (R460). -/
  | barrier (q : Nat) (f : BarrierF)
  /-- KV_APPEND (R216). -/
  | kvAppend (q : Nat) (f : KvListF)
  /-- KV_FORK (R218). -/
  | kvFork (q : Nat) (f : KvForkF)
  /-- KV_RELEASE (R219). -/
  | kvRelease (q : Nat) (f : KvListF)
  /-- KV_PRUNE (R229). -/
  | kvPrune (q : Nat) (f : KvPruneF)
  /-- WGT_BUILD (R312). -/
  | wgtBuild (q : Nat) (f : WgtBuildF)
  /-- WGT_SWITCH (R313). -/
  | wgtSwitch (q gen : Nat)
  /-- WGT_RETIRE (R314). -/
  | wgtRetire (q gen : Nat)
  /-- TAP_SET (R571). -/
  | tapSet (q : Nat) (f : TapSetF)
  /-- RAKE (R570). -/
  | rake (q : Nat) (f : RakeF)
  /-- MAT_MUL (R152). -/
  | matMul (r : Nat) (f : MulF)
  /-- LOADW (R154). -/
  | loadw (r : Nat) (f : LoadwF)
  /-- PRELOAD (R155). -/
  | preload (r : Nat) (f : PreloadF)
  /-- BSTORE (R156). -/
  | bstore (r : Nat) (f : BankF)
  /-- BLOAD (R156). -/
  | bload (r : Nat) (f : BankF)
  /-- BCLEAR (R156). -/
  | bclear (r : Nat) (f : BankF)
  /-- VEC_ADD (R123). -/
  | vecAdd (r : Nat) (f : VecF)
  /-- VEC_SUB (R123). -/
  | vecSub (r : Nat) (f : VecF)
  /-- VEC_MUL (R123). -/
  | vecMul (r : Nat) (f : VecF)
  /-- VEC_FMA (R123). -/
  | vecFma (r : Nat) (f : VecF)
  /-- VEC_DIV (R123). -/
  | vecDiv (r : Nat) (f : VecF)
  /-- VEC_SQRT (R123). -/
  | vecSqrt (r : Nat) (f : VecF)
  /-- VEC_MIN (R61). -/
  | vecMin (r : Nat) (f : VecF)
  /-- VEC_MAX (R61). -/
  | vecMax (r : Nat) (f : VecF)
  /-- VEC_ABS (R123). -/
  | vecAbs (r : Nat) (f : VecF)
  /-- VEC_NEG (R123). -/
  | vecNeg (r : Nat) (f : VecF)
  /-- VEC_CVT (R46). -/
  | vecCvt (r : Nat) (f : VecF)
  /-- VEC_RCP (R125). -/
  | vecRcp (r : Nat) (f : VecF)
  /-- VEC_RSQ (R125). -/
  | vecRsq (r : Nat) (f : VecF)
  /-- VEC_EXP (R125). -/
  | vecExp (r : Nat) (f : VecF)
  /-- VEC_LOG (R125). -/
  | vecLog (r : Nat) (f : VecF)
  /-- VEC_SIN (R125). -/
  | vecSin (r : Nat) (f : VecF)
  /-- VEC_COS (R125). -/
  | vecCos (r : Nat) (f : VecF)
  /-- VEC_CMP (R129). -/
  | vecCmp (r : Nat) (f : VecF)
  /-- VEC_SEL (R123). -/
  | vecSel (r : Nat) (f : VecF)
  /-- ISCALE (R41). -/
  | iscale (r : Nat) (f : VecF)
  /-- RSUM (R126). -/
  | rsum (r : Nat) (f : VecF)
  /-- RMAX (R126). -/
  | rmax (r : Nat) (f : VecF)
  /-- RMIN (R126). -/
  | rmin (r : Nat) (f : VecF)
  /-- RAMAX (R126). -/
  | ramax (r : Nat) (f : VecF)
  /-- SCAN (R128). -/
  | scan (r : Nat) (f : VecF)
  /-- SORT (R130). -/
  | sort (r : Nat) (f : VecF)
  /-- TOPK (R131). -/
  | topk (r : Nat) (f : VecF)
  /-- GATHER (R132). -/
  | gather (r : Nat) (f : VecF)
  /-- SCATTER (R132). -/
  | scatter (r : Nat) (f : VecF)
  /-- SCATTER_ADD (R132). -/
  | scatterAdd (r : Nat) (f : VecF)
  /-- VQNEAR (R133). -/
  | vqnear (r : Nat) (f : VecF)
  /-- MOV_SET (R158). -/
  | movSet (r : Nat) (f : MovF)
  /-- MOV_ADD (R158). -/
  | movAdd (r : Nat) (f : MovF)
  /-- MOV_SUB (R158). -/
  | movSub (r : Nat) (f : MovF)
  /-- MOV_MUL (R158). -/
  | movMul (r : Nat) (f : MovF)
  /-- MOV_AND (R158). -/
  | movAnd (r : Nat) (f : MovF)
  /-- MOV_OR (R158). -/
  | movOr (r : Nat) (f : MovF)
  /-- MOV_XOR (R158). -/
  | movXor (r : Nat) (f : MovF)
  /-- SHL (R158). -/
  | shl (r : Nat) (f : MovF)
  /-- SHR (R158). -/
  | shr (r : Nat) (f : MovF)
  /-- MINU (R158). -/
  | minu (r : Nat) (f : MovF)
  /-- MAXU (R158). -/
  | maxu (r : Nat) (f : MovF)
  /-- LD (R159). -/
  | ld (r : Nat) (f : MovF)
  /-- LD32 (R159). -/
  | ld32 (r : Nat) (f : MovF)
  /-- ST (R159). -/
  | st (r : Nat) (f : MovF)
  /-- SPEC (R158). -/
  | spec (r : Nat) (f : MovF)
  /-- DMAIN (R160). -/
  | dmain (r : Nat) (f : MovF)
  /-- DMAOUT (R160). -/
  | dmaout (r : Nat) (f : MovF)
  /-- LOOP (R163). -/
  | loop (r : Nat) (f : LoopF)
  /-- WAITALL (R166). -/
  | waitall (r : Nat) (f : SyncF)
  /-- RBAR (R166). -/
  | rbar (r : Nat) (f : SyncF)
  /-- POST (R166). -/
  | post (r : Nat) (f : SyncF)
  /-- WAITGE (R166). -/
  | waitge (r : Nat) (f : SyncF)
  /-- RECV (R166). -/
  | recv (r : Nat) (f : SyncF)
  /-- SYNC_WAIT_END (R166). -/
  | syncWaitEnd (r : Nat)
  /-- SYNC_TIMEOUT (R167). -/
  | syncTimeout (r : Nat)
  /-- APPEND (R224). -/
  | append (r : Nat) (f : KvF)
  /-- KV_READ (R225). -/
  | kvRead (r : Nat) (f : KvF)
  /-- SCORE (R228). -/
  | score (r : Nat) (f : KvF)
  /-- LEN (R223). -/
  | len (r : Nat) (f : KvF)
  /-- PLACE (R238). -/
  | place (r : Nat) (f : RouteF)
  /-- SEND (R254). -/
  | send (r : Nat) (f : RouteF)
  /-- RETURN_SLOT (R255). -/
  | returnSlot (r : Nat) (f : RouteF)
  /-- RETURN_ACC (R255). -/
  | returnAcc (r : Nat) (f : RouteF)
  /-- TAP (R572). -/
  | tap (r : Nat) (f : TapF)
  /-- INSTRUCTION_RETIRE (R149). -/
  | instructionRetire (r : Nat) (u : RUnit) (fault : Option RetireFault)
  /-- WEIGHT_SET_READY (R78). -/
  | weightSetReady (r b set : Nat) (parity : Option RowFault)
  /-- WEIGHT_SET_FREE (R78). -/
  | weightSetFree (r b set : Nat)
  /-- COW_COPY_DONE (R221). -/
  | cowCopyDone (r : Nat)
  /-- SEQUENCE_FREE (R219). -/
  | sequenceFree (n : Nat)
  /-- ROUND_PLACE (R243). -/
  | roundPlace (p round : Nat)
  /-- ROUND_ENTRY_EXPIRE (R260). -/
  | roundEntryExpire (p round : Nat)
  /-- CANCEL_FILTER_EXPIRE (R259). -/
  | cancelFilterExpire (p batch : Nat)
  /-- RECORD_LAND (R187). -/
  | recordLand (t : TransitRec)
  /-- ROUTE_RECORD_LAND (R253). -/
  | routeRecordLand (t : TransitRec)
  /-- HELD_RECORD_EXPIRE (R190). -/
  | heldRecordExpire (p : Nat)
  /-- DOORBELL (R380). -/
  | doorbell (rq : Requester) (q tail : Nat) (stores : List Host.Cell)
  /-- RING_FETCH (R381). -/
  | ringFetch (q : Nat) (good : Bool)
  /-- SLOT_SELECT (R408). -/
  | slotSelect (s : Nat)
  /-- COMMAND_DISPATCH (R409). -/
  | commandDispatch (q : Nat) (hub : Option HubFault)
  /-- REGION_GRANT (R410). -/
  | regionGrant (p : Nat)
  /-- LAUNCH_COMPLETE (R176). -/
  | launchComplete (p : Nat)
  /-- COPY_DONE (R385). -/
  | copyDone (q : Nat)
  /-- WGT_BUILD_DONE (R312). -/
  | wgtBuildDone (q : Nat)
  /-- COMPLETION_WRITE_ACK (R588). -/
  | completionWriteAck (q : Nat)
  /-- COMPLETION_WRITE_FAILED (R395). -/
  | completionWriteFailed (q : Nat)
  /-- FENCE_WAIT_TIMEOUT (R390). -/
  | fenceWaitTimeout (q : Nat)
  /-- FE_Q_RING (R373). -/
  | feQRing (rq : Requester) (q : Nat) (v : Word)
  /-- FE_Q_CRING (R373). -/
  | feQCring (rq : Requester) (q : Nat) (v : Word)
  /-- FE_Q_CHEAD (R384). -/
  | feQChead (rq : Requester) (q : Nat) (v : Word)
  /-- QUEUE_ENABLE (R392). -/
  | queueEnable (rq : Requester) (q good : Nat)
  /-- QUEUE_DISABLE (R392). -/
  | queueDisable (rq : Requester) (q : Nat)
  /-- SKIP (R393). -/
  | skip (rq : Requester) (q : Nat)
  /-- ABORT (R394). -/
  | abort (rq : Requester) (q : Nat)
  /-- RESUME (R395). -/
  | resume (rq : Requester) (q good : Nat)
  /-- ZERO (R373). -/
  | zero (rq : Requester) (q : Nat)
  /-- WATCHDOG_EXPIRE (R399). -/
  | watchdogExpire (q : Nat)
  /-- FW_WATCHDOG_EXPIRE (R511). -/
  | fwWatchdogExpire (core : Nat)
  /-- CANCEL_STOP_TIMEOUT (R501). -/
  | cancelStopTimeout (r : Nat)
  /-- FE_DEVRESET (R511). -/
  | feDevreset (rq : Requester) (key : Word)
  /-- DEVICE_RESET (R512). -/
  | deviceReset (fwGood : Bool)
  /-- RT_INSERT (R350). -/
  | rtInsert (rq : Requester) (ctx : Nat) (drain : Bool)
  /-- RT_REMOVE (R350). -/
  | rtRemove (rq : Requester) (ctx : Nat) (drain : Bool)
  /-- RT_REPLACE (R350). -/
  | rtReplace (rq : Requester) (ctx : Nat) (drain : Bool)
  /-- RT_FLUSH (R350). -/
  | rtFlush (rq : Requester) (ctx : Nat) (drain : Bool)
  /-- RT_OP_DONE (R351). -/
  | rtOpDone
  /-- RLC_WALK_DONE (R353). -/
  | rlcWalkDone (r va : Nat)
  /-- HOT_BASE_WRITE (R358). -/
  | hotBaseWrite (rq : Requester) (v : Word)
  /-- HOT_EPOCH_HALVE (R357). -/
  | hotEpochHalve
  /-- CXL_MEM_READ (R367). -/
  | cxlMemRead (addr bytes : Nat)
  /-- CXL_MEM_WRITE (R366). -/
  | cxlMemWrite (addr : Nat) (data : List Byte)
  /-- BI_SNOOP_RESPONSE (R365). -/
  | biSnoopResponse (line : Nat)
  /-- BACKGROUND_READ (R362). -/
  | backgroundRead (addr : Nat) (found : MemOutcome)
  /-- REMOTE_TIMEOUT (R346). -/
  | remoteTimeout (tag : Nat)
  /-- EPOCH_RAISE (R417). -/
  | epochRaise (rq : Requester) (batch epoch part : Nat)
  /-- SLOT_QMAP_WRITE (R406). -/
  | slotQmapWrite (rq : Requester) (q slot : Nat)
  /-- DATA_FRAME (R428). -/
  | dataFrame (port : Nat) (f : FrameIn)
  /-- IDLE_FRAME (R429). -/
  | idleFrame (port : Nat) (f : FrameIn)
  /-- NAK (R430). -/
  | nak (port : Nat) (f : FrameIn)
  /-- TRAIN_FRAME (R425). -/
  | trainFrame (port farmod farport : Nat)
  /-- ACK_TIMEOUT (R431). -/
  | ackTimeout (port : Nat)
  /-- RETRAIN_DONE (R431). -/
  | retrainDone (port : Nat) (t : Option Training)
  /-- LINK_TRAIN_DONE (R425). -/
  | linkTrainDone (port : Nat) (t : Training)
  /-- LANE_BAD (R433). -/
  | laneBad (port lane : Nat) (corrected : Option Nat)
  /-- LINK_RETRAIN (R431). -/
  | linkRetrain (rq : Requester) (port : Nat)
  /-- CLRBAD (R433). -/
  | clrbad (rq : Requester) (port : Nat)
  /-- LINK_DISABLE (R431). -/
  | linkDisable (rq : Requester) (port : Nat) (v : Bool)
  /-- CABLE_PRESENT_CHANGE (R593). -/
  | cablePresentChange (port : Nat) (present active : Bool)
  /-- WR (R437). -/
  | wr (port : Nat) (m : LinkMsg)
  /-- RD (R437). -/
  | rd (port : Nat) (m : LinkMsg)
  /-- WRACK (R346). -/
  | wrack (port : Nat) (m : LinkMsg)
  /-- RDDATA (R346). -/
  | rddata (port : Nat) (m : LinkMsg)
  /-- HBT (R448). -/
  | hbt (port : Nat) (m : LinkMsg)
  /-- HBT_ALT (R448). -/
  | hbtAlt (port : Nat) (m : LinkMsg)
  /-- HBT_SEND (R448). -/
  | hbtSend
  /-- TWIN_LOST (R449). -/
  | twinLost
  /-- TAKEOVER (R449). -/
  | takeover (rq : Requester)
  /-- TAKEOVER_DONE (R449). -/
  | takeoverDone
  /-- REJOIN (R451). -/
  | rejoin (rq : Requester)
  /-- REPL_OPEN (R233). -/
  | replOpen (port : Nat) (m : LinkMsg)
  /-- REPL_PAGE (R233). -/
  | replPage (port : Nat) (m : LinkMsg)
  /-- REPL_FORK (R233). -/
  | replFork (port : Nat) (m : LinkMsg)
  /-- REPL_EVICT (R233). -/
  | replEvict (port : Nat) (m : LinkMsg)
  /-- REPL_RELEASE (R233). -/
  | replRelease (port : Nat) (m : LinkMsg)
  /-- REPL_ACK (R234). -/
  | replAck (port : Nat) (m : LinkMsg)
  /-- TIME_EXCHANGE (R455). -/
  | timeExchange (t1 : Nat)
  /-- TREQ (R455). -/
  | treq (port : Nat) (m : LinkMsg) (t2 t3 : Nat)
  /-- TRESP (R455). -/
  | tresp (port : Nat) (m : LinkMsg) (t4 : Nat)
  /-- HOLDOVER_TIMEOUT (R456). -/
  | holdoverTimeout
  /-- ARRIVE (R462). -/
  | arrive (port : Nat) (m : LinkMsg)
  /-- RELEASE (R463). -/
  | release (port : Nat) (m : LinkMsg)
  /-- RELEASE_APPLY (R464). -/
  | releaseApply (plot bid : Nat)
  /-- BARRIER_TIMEOUT (R467). -/
  | barrierTimeout (q : Nat)
  /-- ALIGNMENT (R470). -/
  | alignment (p : Nat)
  /-- SPARE_COLUMN_MAP (R108). -/
  | spareColumnMap (die region block : Nat)
  /-- POWER_STEP (R488). -/
  | powerStep (counts : List PCount)
  /-- TELEMETRY_WINDOW (R484). -/
  | telemetryWindow (power vin : Nat)
  /-- TELEMETRY_LOST (R484). -/
  | telemetryLost
  /-- COEF_WRITE (R483). -/
  | coefWrite (rq : Requester) (k : Nat) (v : Word)
  /-- DROOP_DETECT (R482). -/
  | droopDetect (island shortfall : Nat)
  /-- DROOP_PERSIST (R482). -/
  | droopPersist (island : Nat)
  /-- VR_ALERT_ASSERT (R490). -/
  | vrAlertAssert
  /-- VR_ALERT_RELEASE (R490). -/
  | vrAlertRelease
  /-- VR_HOLD_EXPIRE (R490). -/
  | vrHoldExpire
  /-- THERMAL_THROTTLE (R491). -/
  | thermalThrottle (sensor reading : Nat)
  /-- THERMAL_CAP_RISE (R491). -/
  | thermalCapRise (domain : Nat) (readings : List Nat)
  /-- THERMAL_TRIP (R491). -/
  | thermalTrip (sensor reading : Nat)
  /-- THERMAL_TRIP_CLEAR (R491). -/
  | thermalTripClear (domain : Nat) (readings : List Nat)
  /-- ANALOG_TRIP (R492). -/
  | analogTrip (sensor reading : Nat)
  /-- AGEING_TRIM (R493). -/
  | ageingTrim (island steps : Nat) (slack : Int)
  /-- OW_ENTER (R497). -/
  | owEnter (rq : Requester)
  /-- OVERWINTER_REACHED (R497). -/
  | overwinterReached
  /-- WAKE (R499). -/
  | wake (rq : Requester)
  /-- WAKE_COMPLETE (R499). -/
  | wakeComplete
  /-- RETENTION_SCRUB (R497). -/
  | retentionScrub (bad : List (Nat × Nat)) (corrected : Nat)
  /-- SELF_REFRESH_REENTER (R498). -/
  | selfRefreshReenter
  /-- REPAIR_DECIDE (R504). -/
  | repairDecide (unit hard soft : Nat)
  /-- SELFTEST_SLICE (R509). -/
  | selftestSlice (unit : Nat) (pass : Bool)
  /-- DIE_LINK_LANE_SPARE (R501). -/
  | dieLinkLaneSpare (link lane : Nat)
  /-- DIE_NETWORK_RETRY (R501). -/
  | dieNetworkRetry (die segment attempts : Nat)
  /-- TRELLIS_GO (R524). -/
  | trellisGo (rq : Requester)
  /-- PATCH_COMMIT (R526). -/
  | patchCommit (lost : List CopyLoss)
  /-- POWER_ON (R595). -/
  | powerOn (millivolts : Nat)
  /-- RAIL_TIMEOUT (R595). -/
  | railTimeout (step : Nat)
  /-- POWER_LOSS (R596). -/
  | powerLoss (millivolts : Nat)
  /-- SYS_RESET_N (R597). -/
  | sysResetN (low : Bool) (nanoseconds : Nat)
  /-- PERST_N_ASSERT (R598). -/
  | perstNAssert
  /-- PERST_N_RELEASE (R598). -/
  | perstNRelease
  /-- TB_REF_LOSS (R599). -/
  | tbRefLoss
  /-- TB_REF_RETURN (R599). -/
  | tbRefReturn
  /-- FW_GO (R565). -/
  | fwGo (rq : Requester)
  /-- COORD (R530). -/
  | coord (h : MgmtHdr) (modid usz vsz twin : Nat)
  /-- START (R530). -/
  | start (h : MgmtHdr) (time : Nat)
  /-- REG_READ (R558). -/
  | regRead (h : MgmtHdr) (offset words : Nat)
  /-- REG_WRITE (R558). -/
  | regWrite (h : MgmtHdr) (offset : Nat) (words : List Word)
  /-- BDP_SET (R561). -/
  | bdpSet (h : MgmtHdr) (v : Word)
  /-- BDP_WRITE (R561). -/
  | bdpWrite (h : MgmtHdr) (offset : Nat) (data : List Byte)
  /-- BDP_READ (R561). -/
  | bdpRead (h : MgmtHdr) (offset length : Nat)
  /-- MGT_RESET (R511). -/
  | mgtReset (h : MgmtHdr) (key : Nat)
  /-- MGT_WAKE (R499). -/
  | mgtWake (h : MgmtHdr)
  /-- ENROL (R538). -/
  | enrol (h : MgmtHdr) (slot : Nat) (digest : List Byte)
  /-- REVOKE (R538). -/
  | revoke (h : MgmtHdr) (owner : Bool) (slot : Nat)
  /-- NOTIFY_ACK (R559). -/
  | notifyAck (nseq : Nat)
  /-- NOTIFY_RESEND (R559). -/
  | notifyResend (nseq : Nat)
  /-- GET_SENSOR_READING (R560). -/
  | getSensorReading (sensor : Nat)
  /-- SETADDR (R564). -/
  | setaddr (h : BulkHdr) (v : Word)
  /-- BULK_WRITE (R564). -/
  | bulkWrite (h : BulkHdr) (data : List Byte)
  /-- BULK_READ (R564). -/
  | bulkRead (h : BulkHdr) (length : Nat)
  /-- ECHO (R564). -/
  | echo (h : BulkHdr) (data : List Byte)
  /-- BDP_WINDOW_ACCESS (R561). -/
  | bdpWindowAccess (offset length : Nat) (data : Option (List Byte))
  /-- BDP_ADDR_WRITE (R561). -/
  | bdpAddrWrite (rq : Requester) (c : Nat) (v : Word)
  /-- CAPTURE (R574). -/
  | capture (rq : Requester)
  /-- RETURN_RECORD_DONE (R574). -/
  | returnRecordDone
  /-- CLOCHE_ENTER (R545). -/
  | clocheEnter (rq : Requester) (p : Nat)
  /-- SCRUB_DONE (R553). -/
  | scrubDone (p : Nat)
  /-- CLOCHE_WIPE_DONE (R545). -/
  | clocheWipeDone (p : Nat)
  /-- CLOCHE_ADMIT (R546). -/
  | clocheAdmit (p session : Nat)
  /-- ADMISSION_LOST (R546). -/
  | admissionLost (p : Nat) (ide tsp : Bool)
  /-- SVNCOMMIT (R535). -/
  | svncommit (rq : Requester)
  /-- UNLOCK (R540). -/
  | unlock (bytes : Nat)
  /-- GET_VERSION (R542). -/
  | getVersion
  /-- GET_CAPABILITIES (R542). -/
  | getCapabilities
  /-- NEGOTIATE_ALGORITHMS (R542). -/
  | negotiateAlgorithms (dhe aead sig hash : Bool)
  /-- GET_DIGESTS (R542). -/
  | getDigests
  /-- GET_CERTIFICATE (R542). -/
  | getCertificate (slot offset length : Nat)
  /-- CHALLENGE (R542). -/
  | challenge (slot : Nat) (nonce : List Byte)
  /-- GET_MEASUREMENTS (R542). -/
  | getMeasurements (block : Nat) (nonce : List Byte)
  /-- KEY_EXCHANGE (R542). -/
  | keyExchange (doe : Bool)
  /-- FINISH (R542). -/
  | finish (session : Nat) (verified : Bool)
  /-- HEARTBEAT (R542). -/
  | heartbeat (session : Nat)
  /-- KEY_UPDATE (R542). -/
  | keyUpdate (session : Nat)
  /-- END_SESSION (R542). -/
  | endSession (session : Nat)
  /-- CHUNK_SEND (R542). -/
  | chunkSend (seq : Nat) (last : Bool) (data : List Byte)
  /-- CHUNK_GET (R542). -/
  | chunkGet (seq : Nat)
  /-- PLOT_KEY (R550). -/
  | plotKey (session plot kid : Nat) (key : List Byte)
  /-- LOOPBACK_GO (R604). -/
  | loopbackGo (v : Word)
  /-- LOOPBACK_END (R604). -/
  | loopbackEnd (errors bits : Nat) (partner : Bool)
  /-- EXTEST (R603). -/
  | extest (shift : Nat)
  /-- SAMPLE_PRELOAD (R603). -/
  | samplePreload (shift : Nat)
  /-- IDCODE (R602). -/
  | idcode
  /-- LBRES (R604). -/
  | lbres
  /-- HBMSEL (R602). -/
  | hbmsel (shift : Nat)
  /-- HBMWIR (R602). -/
  | hbmwir (shift : Nat)
  /-- HBMWDR (R602). -/
  | hbmwdr (shift : Nat)
  /-- BYPASS (R602). -/
  | bypass (shift : Nat)
  /-- MSIX_UNMASK (R586). -/
  | msixUnmask (v : Nat)
  /-- REGISTER_WRITE (R581). -/
  | registerWrite (rq : Requester) (offset width : Nat) (v : Word)
  /-- FIRMWARE_FATAL (R511). -/
  | firmwareFatal (code : Nat)
  /-- INPUT_OVERVOLTAGE (R477). -/
  | inputOvervoltage (millivolts : Nat)
  /-- PHASE0_RESTART (R595). -/
  | phase0Restart
  /-- BARRIER_FIRST_ISSUE (R466). -/
  | barrierFirstIssue (p : Nat)
  /-- RAKE_DONE (R570). -/
  | rakeDone (q : Nat)
  /-- TEST_LOGIC_RESET (R602). -/
  | testLogicReset
  /-- ENTDAA (R557). -/
  | entdaa (address : Nat)
  /-- CONFIGURATION_REQUEST (R576). -/
  | configurationRequest (c : CfgReq)
  deriving DecidableEq, Repr

end Sys2Proof
end

