-- ==== Sys2Proof/WellFormed.lean ====
section
/-! DEFINITION. Which commands are well-formed: every operand in the range that its table gives it. -/
namespace Sys2Proof
open Machine

/-- Queue, region, partition and port numbers (R370, R401, R420). -/
def queueOk (q : Nat) : Bool := decide (q < 516)
def regionOk (r : Nat) : Bool := decide (r < 16)
def partOk (p : Nat) : Bool := decide (p < 8)
def portOk (p : Nat) : Bool := decide (p < 18)

/-- A requester of register accesses (R581). -/
def requesterOk : Requester → Bool
  | .bdp c => decide (c < 3)
  | _ => true

/-- The payload fields fit the bytes of Table 13-8. -/
def Machine.CmdBody.fits : CmdBody → Bool
  | .nop => true
  | .launch f => fieldsFit [(64, f.prog), (64, f.args), (32, f.batch), (16, f.gen), (16, f.epoch)]
  | .fenceSignal f => fieldsFit [(16, f.fence), (64, f.value)]
  | .fenceWait f => fieldsFit [(16, f.fence), (32, f.timeout), (64, f.value)]
  | .copy f => fieldsFit [(64, f.src), (64, f.dst), (64, f.bytes), (32, f.rate)]
  | .barrier f => fieldsFit [(16, f.bid), (32, f.timeout)]
  | .kvAppend f => fieldsFit [(64, f.list), (32, f.count)]
  | .kvFork f => fieldsFit [(32, f.parent), (32, f.child), (64, f.p)]
  | .kvRelease f => fieldsFit [(64, f.list), (32, f.count)]
  | .kvPrune f => fieldsFit [(64, f.list), (32, f.count), (32, f.k), (16, f.protHead), (16, f.protTail)]
  | .wgtBuild f => fieldsFit [(64, f.pblk)]
  | .wgtSwitch g => fieldsFit [(16, g)]
  | .wgtRetire g => fieldsFit [(16, g)]
  | .tapSet f => fieldsFit [(8, f.tapid), (64, f.dest)]
  | .rake f => fieldsFit [(64, f.dest), (64, f.bytes)]

/-- A command's payload passes checks 2 and 4 of Table 13-10. -/
def cmdOk (b : CmdBody) : Bool := b.fits && b.inRange && !b.conflict

/-- A region instruction passes check 2 of Table 05-15. -/
def instrOk (r : Nat) (b : RBody) : Bool := regionOk r && RInstr.wf ⟨false, b⟩

/-- A unit of a region (Table 05-4). -/
def unitOk : RUnit → Bool
  | .block b => decide (b < 6)
  | _ => true

/-- An island number (R519). -/
def islandOk (i : Nat) : Bool := decide (i < 2 ^ 16)

/-- A tag of a management message, and the header of a bulk-lane frame (R558, R564). -/
def tagOk (t : Nat) : Bool := decide (t < 256)
def mgmtHdrOk (h : MgmtHdr) : Bool := tagOk h.tag && decide (h.rsvd < 2 ^ 8)
def headerOk (h : BulkHdr) : Bool := tagOk h.tag && decide (h.offset < 2 ^ 16)

/-- The fields of a message header fit Table 15-8. -/
def messageOk (m : LinkMsg) : Bool :=
  fieldsFit [(8, m.typ), (2, m.cls), (1, m.vc), (6, m.plot), (8, m.hops), (15, m.src), (15, m.dst), (16, m.tag), (64, m.addr)]
  && decide (m.data.length < 2 ^ 16)

/-- The command is well-formed. -/
def Instr.wf : Instr → Bool
  | .nop q => queueOk q
  | .launch q f => queueOk q && cmdOk (.launch f)
  | .fenceSignal q f => queueOk q && cmdOk (.fenceSignal f)
  | .fenceWait q f => queueOk q && cmdOk (.fenceWait f)
  | .copy q f => queueOk q && cmdOk (.copy f)
  | .barrier q f => queueOk q && cmdOk (.barrier f)
  | .kvAppend q f => queueOk q && cmdOk (.kvAppend f)
  | .kvFork q f => queueOk q && cmdOk (.kvFork f)
  | .kvRelease q f => queueOk q && cmdOk (.kvRelease f)
  | .kvPrune q f => queueOk q && cmdOk (.kvPrune f)
  | .wgtBuild q f => queueOk q && cmdOk (.wgtBuild f)
  | .wgtSwitch q gen => queueOk q && cmdOk (.wgtSwitch gen)
  | .wgtRetire q gen => queueOk q && cmdOk (.wgtRetire gen)
  | .tapSet q f => queueOk q && cmdOk (.tapSet f)
  | .rake q f => queueOk q && cmdOk (.rake f)
  | .matMul r f => instrOk r (.mul f)
  | .loadw r f => instrOk r (.loadw f)
  | .preload r f => instrOk r (.preload f)
  | .bstore r f => instrOk r (.bank .bstore f)
  | .bload r f => instrOk r (.bank .bload f)
  | .bclear r f => instrOk r (.bank .bclear f)
  | .vecAdd r f => instrOk r (.vec .add f)
  | .vecSub r f => instrOk r (.vec .sub f)
  | .vecMul r f => instrOk r (.vec .mul f)
  | .vecFma r f => instrOk r (.vec .fma f)
  | .vecDiv r f => instrOk r (.vec .div f)
  | .vecSqrt r f => instrOk r (.vec .sqrt f)
  | .vecMin r f => instrOk r (.vec .min f)
  | .vecMax r f => instrOk r (.vec .max f)
  | .vecAbs r f => instrOk r (.vec .abs f)
  | .vecNeg r f => instrOk r (.vec .neg f)
  | .vecCvt r f => instrOk r (.vec .cvt f)
  | .vecRcp r f => instrOk r (.vec .rcp f)
  | .vecRsq r f => instrOk r (.vec .rsq f)
  | .vecExp r f => instrOk r (.vec .exp f)
  | .vecLog r f => instrOk r (.vec .log f)
  | .vecSin r f => instrOk r (.vec .sin f)
  | .vecCos r f => instrOk r (.vec .cos f)
  | .vecCmp r f => instrOk r (.vec .cmp f)
  | .vecSel r f => instrOk r (.vec .sel f)
  | .iscale r f => instrOk r (.vec .iscale f)
  | .rsum r f => instrOk r (.vec .rsum f)
  | .rmax r f => instrOk r (.vec .rmax f)
  | .rmin r f => instrOk r (.vec .rmin f)
  | .ramax r f => instrOk r (.vec .ramax f)
  | .scan r f => instrOk r (.vec .scan f)
  | .sort r f => instrOk r (.vec .sort f)
  | .topk r f => instrOk r (.vec .topk f)
  | .gather r f => instrOk r (.vec .gather f)
  | .scatter r f => instrOk r (.vec .scatter f)
  | .scatterAdd r f => instrOk r (.vec .scatterAdd f)
  | .vqnear r f => instrOk r (.vec .vqnear f)
  | .movSet r f => instrOk r (.mov .set f)
  | .movAdd r f => instrOk r (.mov .add f)
  | .movSub r f => instrOk r (.mov .sub f)
  | .movMul r f => instrOk r (.mov .mul f)
  | .movAnd r f => instrOk r (.mov .and f)
  | .movOr r f => instrOk r (.mov .or f)
  | .movXor r f => instrOk r (.mov .xor f)
  | .shl r f => instrOk r (.mov .shl f)
  | .shr r f => instrOk r (.mov .shr f)
  | .minu r f => instrOk r (.mov .minu f)
  | .maxu r f => instrOk r (.mov .maxu f)
  | .ld r f => instrOk r (.mov .ld f)
  | .ld32 r f => instrOk r (.mov .ld32 f)
  | .st r f => instrOk r (.mov .st f)
  | .spec r f => instrOk r (.mov .spec f)
  | .dmain r f => instrOk r (.mov .dmain f)
  | .dmaout r f => instrOk r (.mov .dmaout f)
  | .loop r f => instrOk r (.loop f)
  | .waitall r f => instrOk r (.sync .waitall f)
  | .rbar r f => instrOk r (.sync .rbar f)
  | .post r f => instrOk r (.sync .post f)
  | .waitge r f => instrOk r (.sync .waitge f)
  | .recv r f => instrOk r (.sync .recv f)
  | .syncWaitEnd r => regionOk r
  | .syncTimeout r => regionOk r
  | .append r f => instrOk r (.kv .append f)
  | .kvRead r f => instrOk r (.kv .read f)
  | .score r f => instrOk r (.kv .score f)
  | .len r f => instrOk r (.kv .len f)
  | .place r f => instrOk r (.route .place f)
  | .send r f => instrOk r (.route .send f)
  | .returnSlot r f => instrOk r (.route .returnSlot f)
  | .returnAcc r f => instrOk r (.route .returnAcc f)
  | .tap r f => instrOk r (.tap f)
  | .instructionRetire r u _ => regionOk r && unitOk u
  | .weightSetReady r b set f => regionOk r && decide (b < 6) && decide (set < 4) && (match f with
      | some e => decide (e.row < 8) && decide (e.col < 8)
      | none => true)
  | .weightSetFree r b set => regionOk r && decide (b < 6) && decide (set < 4)
  | .cowCopyDone r => regionOk r
  | .sequenceFree n => decide (n < 262144)
  | .roundPlace p _ => partOk p
  | .roundEntryExpire p _ => partOk p
  | .cancelFilterExpire p batch => partOk p && decide (batch < 2 ^ 32)
  | .recordLand t => regionOk t.region && decide (t.slot < 256)
  | .routeRecordLand t => regionOk t.region && decide (t.slot < 256)
  | .heldRecordExpire p => partOk p
  | .doorbell rq q tail _ => requesterOk rq && queueOk q && decide (tail < 2 ^ 16)
  | .ringFetch q _ => queueOk q
  | .slotSelect s => decide (s < 32)
  | .commandDispatch q hub => queueOk q && (match hub with
    | some h => decide (h.unit < 26)
    | none => true)
  | .regionGrant p => partOk p
  | .launchComplete p => partOk p
  | .copyDone q => queueOk q
  | .wgtBuildDone q => queueOk q
  | .completionWriteAck q => queueOk q
  | .completionWriteFailed q => queueOk q
  | .fenceWaitTimeout q => queueOk q
  | .feQRing rq q _ => requesterOk rq && queueOk q
  | .feQCring rq q _ => requesterOk rq && queueOk q
  | .feQChead rq q _ => requesterOk rq && queueOk q
  | .queueEnable rq q _ => requesterOk rq && queueOk q
  | .queueDisable rq q => requesterOk rq && queueOk q
  | .skip rq q => requesterOk rq && queueOk q
  | .abort rq q => requesterOk rq && queueOk q
  | .resume rq q _ => requesterOk rq && queueOk q
  | .zero rq q => requesterOk rq && queueOk q
  | .watchdogExpire q => queueOk q
  | .fwWatchdogExpire _ => true
  | .cancelStopTimeout r => regionOk r
  | .feDevreset rq _ => requesterOk rq
  | .deviceReset _ => true
  | .rtInsert rq ctx _ => requesterOk rq && decide (ctx < 64)
  | .rtRemove rq ctx _ => requesterOk rq && decide (ctx < 64)
  | .rtReplace rq ctx _ => requesterOk rq && decide (ctx < 64)
  | .rtFlush rq ctx _ => requesterOk rq && decide (ctx < 64)
  | .rtOpDone => true
  | .rlcWalkDone r va => regionOk r && decide (va < 2 ^ 57)
  | .hotBaseWrite rq _ => requesterOk rq
  | .hotEpochHalve => true
  | .cxlMemRead addr bytes => decide (addr + bytes ≤ 2 ^ 48)
  | .cxlMemWrite addr data => decide (addr + data.length ≤ 2 ^ 48)
  | .biSnoopResponse _ => true
  | .backgroundRead addr _ => decide (addr < 2 ^ 48)
  | .remoteTimeout _ => true
  | .epochRaise rq batch epoch part => requesterOk rq && decide (batch < 2 ^ 32) && decide (epoch < 2 ^ 16) && partOk part
  | .slotQmapWrite rq q slot => requesterOk rq && decide (q < 512) && decide (slot < 32)
  | .dataFrame port f => portOk port && f.block.length == 640
  | .idleFrame port f => portOk port && f.block.length == 640
  | .nak port f => portOk port && f.block.length == 640
  | .trainFrame port farmod farport => portOk port && decide (farmod < 2 ^ 15) && decide (farport < 32)
  | .ackTimeout port => portOk port
  | .retrainDone port _ => portOk port
  | .linkTrainDone port _ => portOk port
  | .laneBad port lane _ => portOk port && decide (lane < 9)
  | .linkRetrain rq port => requesterOk rq && portOk port
  | .clrbad rq port => requesterOk rq && portOk port
  | .linkDisable rq port _ => requesterOk rq && portOk port
  | .cablePresentChange port _ _ => portOk port
  | .wr port m => portOk port && messageOk m
  | .rd port m => portOk port && messageOk m
  | .wrack port m => portOk port && messageOk m
  | .rddata port m => portOk port && messageOk m
  | .hbt port m => portOk port && messageOk m
  | .hbtAlt port m => portOk port && messageOk m
  | .hbtSend => true
  | .twinLost => true
  | .takeover rq => requesterOk rq
  | .takeoverDone => true
  | .rejoin rq => requesterOk rq
  | .replOpen port m => portOk port && messageOk m
  | .replPage port m => portOk port && messageOk m
  | .replFork port m => portOk port && messageOk m
  | .replEvict port m => portOk port && messageOk m
  | .replRelease port m => portOk port && messageOk m
  | .replAck port m => portOk port && messageOk m
  | .timeExchange _ => true
  | .treq port m _ _ => portOk port && messageOk m
  | .tresp port m _ => portOk port && messageOk m
  | .holdoverTimeout => true
  | .arrive port m => portOk port && messageOk m
  | .release port m => portOk port && messageOk m
  | .releaseApply plot bid => decide (plot < 64) && decide (bid < 64)
  | .barrierTimeout q => queueOk q
  | .alignment p => partOk p
  | .spareColumnMap die region block => decide (die < 2) && decide (region < 9) && decide (block < 7)
  | .powerStep counts => counts.all (fun c => decide (c.group < 11) && decide (2 ≤ c.kind ∧ c.kind < 11))
  | .telemetryWindow _ _ => true
  | .telemetryLost => true
  | .coefWrite rq k _ => requesterOk rq && decide (k < 11)
  | .droopDetect island _ => islandOk island
  | .droopPersist island => islandOk island
  | .vrAlertAssert => true
  | .vrAlertRelease => true
  | .vrHoldExpire => true
  | .thermalThrottle sensor _ => decide (sensor < 84)
  | .thermalCapRise domain _ => decide (domain < 3)
  | .thermalTrip sensor _ => decide (sensor < 84)
  | .thermalTripClear domain _ => decide (domain < 3)
  | .analogTrip sensor _ => decide (sensor < 84)
  | .ageingTrim island _ _ => islandOk island
  | .owEnter rq => requesterOk rq
  | .overwinterReached => true
  | .wake rq => requesterOk rq
  | .wakeComplete => true
  | .retentionScrub _ _ => true
  | .selfRefreshReenter => true
  | .repairDecide unit _ _ => decide (1 ≤ unit / 2 ^ 28) && decide (unit / 2 ^ 28 ≤ 8)
  | .selftestSlice unit _ => decide (unit < 2 ^ 32)
  | .dieLinkLaneSpare link _ => decide (link < 3)
  | .dieNetworkRetry die segment _ => decide (die < 2) && decide (segment < 9)
  | .trellisGo rq => requesterOk rq
  | .patchCommit _ => true
  | .powerOn _ => true
  | .railTimeout _ => true
  | .powerLoss _ => true
  | .sysResetN _ _ => true
  | .perstNAssert => true
  | .perstNRelease => true
  | .tbRefLoss => true
  | .tbRefReturn => true
  | .fwGo rq => requesterOk rq
  | .coord h modid usz vsz twin => mgmtHdrOk h && decide (modid < 2 ^ 16) && decide (usz < 16) && decide (vsz < 16) && decide (twin < 256)
  | .start h time => mgmtHdrOk h && decide (time < 2 ^ 64)
  | .regRead h _ words => mgmtHdrOk h && decide (words < 256)
  | .regWrite h _ _ => mgmtHdrOk h
  | .bdpSet h _ => mgmtHdrOk h
  | .bdpWrite h offset _ => mgmtHdrOk h && decide (offset < 2 ^ 16)
  | .bdpRead h offset _ => mgmtHdrOk h && decide (offset < 2 ^ 16)
  | .mgtReset h key => mgmtHdrOk h && decide (key < 2 ^ 16)
  | .mgtWake h => mgmtHdrOk h
  | .enrol h _ digest => mgmtHdrOk h && digest.length == 64
  | .revoke h _ slot => mgmtHdrOk h && decide (slot < 4)
  | .notifyAck nseq => decide (nseq < 2 ^ 32)
  | .notifyResend nseq => decide (nseq < 2 ^ 32)
  | .getSensorReading _ => true
  | .setaddr h _ => headerOk h
  | .bulkWrite h data => headerOk h && decide (data.length < 2 ^ 16)
  | .bulkRead h length => headerOk h && decide (length < 2 ^ 16)
  | .echo h data => headerOk h && decide (data.length < 2 ^ 16)
  | .bdpWindowAccess offset length data => decide (offset < 4096) && (match data with | some bs => bs.length == length | none => true)
  | .bdpAddrWrite rq c _ => requesterOk rq && decide (c < 3)
  | .capture rq => requesterOk rq
  | .returnRecordDone => true
  | .clocheEnter rq p => requesterOk rq && partOk p
  | .scrubDone p => partOk p
  | .clocheWipeDone p => partOk p
  | .clocheAdmit p _ => partOk p
  | .admissionLost p _ _ => partOk p
  | .svncommit rq => requesterOk rq
  | .unlock _ => true
  | .getVersion => true
  | .getCapabilities => true
  | .negotiateAlgorithms _ _ _ _ => true
  | .getDigests => true
  | .getCertificate _ _ _ => true
  | .challenge _ nonce => nonce.length == 32
  | .getMeasurements _ nonce => nonce.length == 32
  | .keyExchange _ => true
  | .finish _ _ => true
  | .heartbeat _ => true
  | .keyUpdate _ => true
  | .endSession _ => true
  | .chunkSend _ _ _ => true
  | .chunkGet _ => true
  | .plotKey _ plot kid key => decide (plot < 64) && decide (kid < 2) && key.length == 32
  | .loopbackGo _ => true
  | .loopbackEnd _ _ _ => true
  | .extest _ => true
  | .samplePreload _ => true
  | .idcode => true
  | .lbres => true
  | .hbmsel _ => true
  | .hbmwir _ => true
  | .hbmwdr _ => true
  | .bypass _ => true
  | .msixUnmask v => decide (v < 2048)
  | .registerWrite rq offset _ _ => requesterOk rq && decide (offset < 2 ^ 32)
  | .firmwareFatal _ => true
  | .inputOvervoltage _ => true
  | .phase0Restart => true
  | .barrierFirstIssue p => partOk p
  | .rakeDone q => queueOk q
  | .testLogicReset => true
  | .entdaa address => decide (address < 128)
  | .configurationRequest _ => true

end Sys2Proof
end

