-- ==== Sys2Proof/Decode.lean ====
section
/-! DEFINITION. The opcode table gives no row any bits, so no word spells a command. -/
namespace Sys2Proof

/-- The command that the low `nbits` bits of `w` spell by the opcode table: none, since its rows have no fields. -/
def decodeTableWord (_nbits _w : Nat) : Option Instr := none

end Sys2Proof
end

