-- ==== Sys2Proof/Machine/State.lean ====
section
/-! DEFINITION. The whole state of the module as plain data, its value at reset, and the reasons a step can stop. -/
namespace Sys2Proof.Machine

/-- Why the machine stops with a fault. -/
inductive Fault where
  /-- Raised by no command: every effect of the spec leaves a next state. It stands for an access outside the address
  space, which the spec answers with a status; safe. -/
  | noSuchAddress (a : Nat)
  deriving DecidableEq, Repr

/-- Why a command has no meaning in the model. -/
inductive Refusal where
  /-- A command that is not modelled; safe, since nothing is then claimed of it. -/
  | notModelled (mnemonic : String)
  deriving DecidableEq, Repr

/-- The front end's global registers: FE_WDOG, and the operands of SLOT_EPOCH_CMD (Table 14-7). -/
structure Front where
  wdog : Wdog
  epochBatch : Nat
  epochEpoch : Nat
  epochPart : Nat
  deriving DecidableEq, Repr

def Front.reset : Front := ⟨.reset, 0, 0, 0⟩

/-- The state of the module, by unit, with the commands that wait. `transit` holds records on their way to receive
windows, `fresh` counts the open values drawn (the model's own field),
and `out` lists what the module has driven across its boundary, latest first. -/
structure State where
  time : TimeSync
  front : Front
  queues : Tab Queue
  slots : List Slot
  qmap : Tab QMap
  parts : List Part
  regions : List Region
  transit : List TransitRec
  mem : Mem
  kv : Kv
  wgt : Wgt
  trl : Trl
  eft : Eft
  sync : Sync
  pwr : Pwr
  rel : Rel18
  sec : Sec
  obs : Obs
  host : HostPort
  board : Board
  fresh : Nat
  out : List Out
  pending : List Instr
  deriving DecidableEq, Repr

/-- The module before input power: every field at its Reset value (R13, Table 18-8). -/
def State.reset : State :=
  { time := .reset, front := .reset, queues := [], slots := List.replicate 32 .reset, qmap := [],
    parts := List.replicate 8 .reset, regions := List.replicate 16 .reset, transit := [], mem := .reset,
    kv := .reset, wgt := .reset, trl := .reset, eft := .reset, sync := .reset, pwr := .reset, rel := .reset,
    sec := .reset, obs := .reset, host := .reset, board := .reset, fresh := 0, out := [], pending := [] }

end Sys2Proof.Machine
end

