-- ==== Sys2Proof/Machine/Ops.lean ====
section
/-! DEFINITION. Named operations over the state that every family shares: access to one unit, lookups in the structure in
force, event rings, interrupts, notifications, the error-range log, the sync trace, and the slot counters. -/
namespace Sys2Proof.Machine

/-- The answer of a meaning. -/
abbrev Res := Host.Outcome State Fault Refusal

def State.now (s : State) : Nat := s.time.now
def State.queue (s : State) (q : Nat) : Queue := Tab.get .reset s.queues q
def State.setQueue (s : State) (q : Nat) (x : Queue) : State := { s with queues := Tab.set .reset s.queues q x }
def State.slot (s : State) (i : Nat) : Slot := s.slots.getD i .reset
def State.setSlot (s : State) (i : Nat) (x : Slot) : State := { s with slots := s.slots.set i x }
def State.part (s : State) (p : Nat) : Part := s.parts.getD p .reset
def State.setPart (s : State) (p : Nat) (x : Part) : State := { s with parts := s.parts.set p x }
def State.region (s : State) (r : Nat) : Region := s.regions.getD r .reset
def State.setRegion (s : State) (r : Nat) (x : Region) : State := { s with regions := s.regions.set r x }
def State.link (s : State) (p : Nat) : Link := s.eft.links.getD p .reset
def State.setLink (s : State) (p : Nat) (x : Link) : State :=
  { s with eft := { s.eft with links := s.eft.links.set p x } }
def State.seq (s : State) (n : Nat) : Seq := Tab.get .free s.kv.seqs n

/-- A page run entry of a run list (Table 07-5). -/
def PageRun.bytes (r : PageRun) : List Byte :=
  leBytes 16 (r.lpage % 2 ^ 36 + r.count % 2 ^ 16 * 2 ^ 36 + r.frame % 2 ^ 26 * 2 ^ 52 + r.st.code * 2 ^ 78 + (if r.prot then 2 ^ 80 else 0))
/-- A score as its frame holds it; the canonical NaN marks an unscored group (R216). -/
def scoreBytes (x : Option F32) : List Byte := leBytes 4 (x.getD 0x7FC00000).toNat
/-- What the run-list frames of a sequence take when its runs change (R212). -/
def runWrites (o x : Seq) : List (Nat × List Byte) :=
  (List.range x.runs.length).filterMap (fun i =>
    match x.runFrames[i / 4096]?, x.runs[i]? with
    | some f, some r => if o.runFrames[i / 4096]? = some f ∧ o.runs[i]? = some r then none else some (65536 * f + 16 * (i % 4096), r.bytes)
    | _, _ => none)
/-- What its score frame takes: all 16,384 entries when it is new, the scores that changed after that (R216, R228). -/
def scoreWrites (o x : Seq) : List (Nat × List Byte) :=
  match x.scoreFrame with
  | none => []
  | some f =>
    if o.scoreFrame = some f then
      ((o.scores ++ x.scores).map (·.1)).eraseDups.filterMap (fun k =>
        if Tab.get none o.scores k = Tab.get none x.scores k then none else some (65536 * f + 4 * k, scoreBytes (Tab.get none x.scores k)))
    else [(65536 * f, (List.range 16384).flatMap (fun k => scoreBytes (Tab.get none x.scores k)))]
/-- Sequence n becomes x, and its run-list and score frames take what changed; a unit written whole loses its
uncorrectable error (R361). -/
def State.setSeq (s : State) (n : Nat) (x : Seq) : State :=
  let ws := runWrites (s.seq n) x ++ scoreWrites (s.seq n) x
  { s with
    kv := { s.kv with seqs := Tab.set .free s.kv.seqs n x },
    mem := { s.mem with
      loc := ws.foldl (fun (m : Memory) w => m.store w.1 w.2) s.mem.loc,
      bad := s.mem.bad.filter (fun u => !(ws.any (fun w => decide (w.1 ≤ 64 * u) && decide (64 * u + 64 ≤ w.1 + w.2.length)))) } }
def State.gen (s : State) (p e : Nat) : Gen := Tab.get .free s.wgt.gens (8 * p + e)
def State.setGen (s : State) (p e : Nat) (g : Gen) : State :=
  { s with wgt := { s.wgt with gens := Tab.set .free s.wgt.gens (8 * p + e) g } }
def State.cloche (s : State) (p : Nat) : Cloche := s.sec.cloche.getD p .off
def State.setCloche (s : State) (p : Nat) (c : Cloche) : State :=
  { s with sec := { s.sec with cloche := s.sec.cloche.set p c } }
def State.emit (s : State) (o : Out) : State := { s with out := o :: s.out }
def State.modid (s : State) : Nat := s.eft.coord.modid

/-- Draw one open value: nothing constrains it. -/
def State.draw (s : State) : Word × State := (Config.freeValue s.fresh, { s with fresh := s.fresh + 1 })

/-- Every queue number (R370). -/
def allQueues : List Nat := List.range 516

def State.partRec (s : State) (p : Nat) : PartRec := s.trl.st.parts.getD p .none
def State.ctxRec (s : State) (c : Nat) : CtxRec := s.trl.st.ctxs.getD c .none

/-- The partition of a context the structure defines. -/
def State.partOfCtx (s : State) (c : Nat) : Option Nat :=
  if (s.ctxRec c).valid && decide (c < 64) then some (s.ctxRec c).part else none

/-- The partition that holds a region (R401). -/
def State.partOfRegion (s : State) (r : Nat) : Option Nat :=
  (List.range 8).find? (fun p => (s.partRec p).valid && bit (s.partRec p).regions r)

/-- The regions of a partition in region number order. -/
def State.regionsOf (s : State) (p : Nat) : List Nat :=
  if (s.partRec p).valid then (List.range 16).filter (fun r => bit (s.partRec p).regions r) else []

/-- Position of a region within its partition (Table 05-2 s1). -/
def State.regionIndex (s : State) (p r : Nat) : Nat := ((s.regionsOf p).takeWhile (· != r)).length

/-- A context's carve-outs (R402). -/
def CtxRec.carve (c : CtxRec) : Carve := ⟨c.sramOff, c.sramSize, c.bank0, c.bankN⟩

/-- SLOT_QMAP of a user queue: what software wrote or the structure gave. -/
def State.qmapOf (s : State) (q : Nat) : QMap := Tab.get .reset s.qmap q

/-- The context in which a command of queue q acts: its queue's for a user queue, word 1 of the record for a system
queue (R371, R374). -/
def State.ctxOf (s : State) (q word1 : Nat) : Nat := if q < 512 then (s.qmapOf q).ctx else word1 % 64

/-- The partition of a user queue's context. -/
def State.partOfQueue (s : State) (q : Nat) : Option Nat :=
  if q < 512 ∧ (s.qmapOf q).assigned then s.partOfCtx (s.qmapOf q).ctx else none

/-- The partition is in a Cloche state other than OFF. -/
def State.inCloche (s : State) (p : Nat) : Bool := (s.cloche p).st != .off
/-- Cloche protections hold and admission does not (R547). -/
def State.clocheShut (s : State) (p : Nat) : Bool := (s.cloche p).st != .off && (s.cloche p).st != .admitted

/-- Between step 2 of a device reset and its ready point (R584, R589). -/
def State.inReset (s : State) : Bool := s.rel.resets.busy

/-! Island numbers (R519). -/

/-- The physical unit that serves logical unit j where entry `f` is replaced (R520). -/
def shifted (f : Option Nat) (j : Nat) : Nat :=
  match f with
  | some x => if j < x then j else j + 1
  | none => j

/-- The ACTION 0 entry of a kind among a parent's units: its index field. -/
def State.replaced (s : State) (kind mask value lo hi : Nat) : Option Nat :=
  (s.trl.st.entries.find? (fun e => e.action == 0 && bits e.unit 31 28 == kind && (e.unit &&& mask) == value)).map
    (fun e => bits e.unit hi lo)

/-- Physical region of a logical region number (die = r / 8). -/
def State.physRegion (s : State) (r : Nat) : Nat :=
  shifted (s.replaced 3 0x08000000 (r / 8 * 2 ^ 27) 23 26) (r % 8)

/-- Physical block of a logical block of a region. -/
def State.physBlock (s : State) (r b : Nat) : Nat :=
  shifted (s.replaced 2 0x0F800000 (r / 8 * 2 ^ 27 + s.physRegion r * 2 ^ 23) 20 22) b

/-- Physical cell column of logical cell column j of a block (R107). -/
def State.physCol (s : State) (r b j : Nat) : Nat :=
  shifted (s.replaced 1 0x0FF00000 (r / 8 * 2 ^ 27 + s.physRegion r * 2 ^ 23 + s.physBlock r b * 2 ^ 20) 16 19) j

def islandBlock (die pr pb : Nat) : Nat := die * 2 ^ 11 + pr * 2 ^ 7 + pb * 2 ^ 4
def islandVector (die pr : Nat) : Nat := 2 ^ 12 + die * 2 ^ 11 + pr * 2 ^ 7
def islandRegion (die pr : Nat) : Nat := 2 * 2 ^ 12 + die * 2 ^ 11 + pr * 2 ^ 7
def islandSegment (die n : Nat) : Nat := 3 * 2 ^ 12 + die * 2 ^ 11 + n * 2 ^ 7
def islandHbm (die n : Nat) : Nat := 4 * 2 ^ 12 + die * 2 ^ 11 + n * 2 ^ 7
def islandShed (n : Nat) : Nat := 5 * 2 ^ 12 + n

def State.blockIsland (s : State) (r b : Nat) : Nat := islandBlock (r / 8) (s.physRegion r) (s.physBlock r b)
def State.regionIsland (s : State) (r : Nat) : Nat := islandRegion (r / 8) (s.physRegion r)

/-- The 200 units that keep an event ring, in ascending island number (R569). -/
def ringUnits : List Nat :=
  (List.range 2).flatMap (fun d => (List.range 9).flatMap (fun r => (List.range 7).map (fun b => islandBlock d r b)))
  ++ (List.range 2).flatMap (fun d => (List.range 9).map (fun r => islandRegion d r))
  ++ (List.range 2).flatMap (fun d => (List.range 9).map (fun n => islandSegment d n))
  ++ (List.range 2).flatMap (fun d => (List.range 6).map (fun n => islandHbm d n))
  ++ (List.range 26).map islandShed

/-- The partition whose regions a block, vector or region-control island belongs to. -/
def State.partOfIsland (s : State) (island : Nat) : Option Nat :=
  if island / 2 ^ 12 ≤ 2 then
    ((List.range 16).find? (fun r => decide (r / 8 = island / 2 ^ 11 % 2) && decide (s.physRegion r = island / 2 ^ 7 % 16))).bind
      s.partOfRegion
  else none

/-! Event rings (R569). -/

/-- An entry in a ring: the newest first, 256 kept. -/
def Ring.push (r : Ring) (e : Event) : Ring := ⟨(r.wcount + 1) % 2 ^ 32, (e :: r.entries).take 256⟩

/-- An event withheld because its partition is not OFF in Cloche (R569). -/
def State.withheld (s : State) (island : Nat) (part : Option Nat) : Bool :=
  (match part with
   | some p => s.inCloche p
   | none => false)
  || (match s.partOfIsland island with
      | some p => s.inCloche p
      | none => false)

/-- One event written to a unit's ring. -/
def State.event (s : State) (island code : Nat) (part queue : Option Nat) (data : Nat) : State :=
  if s.withheld island part then s
  else { s with obs := { s.obs with rings := Tab.modify .reset s.obs.rings island (fun r => r.push ⟨s.now, code, part, queue, data⟩) } }

/-- An event of the front end's ring (unit 20 of the shed). -/
def State.feEvent (s : State) (code q : Nat) : State :=
  s.event (islandShed 20) code none (some q) (q + 2 ^ 10 * (s.queue q).state.code)

/-- The shed unit whose ring records a discarded write to an offset (R527, R580, R583). -/
def shedUnitOf (offset : Nat) : Nat :=
  if offset < 0x20000 then 0
  else if offset < 0x60000 then 20
  else if offset < 0x80000 then 21
  else if offset < 0xA0000 then 20
  else if offset < 0xC0000 then 22
  else if offset < 0xE0000 then 1
  else if offset < 0x100000 then 24
  else if offset < 0x120000 then 23
  else 25

/-- A register write discarded: CODE 0x20 unlisted, 0x21 wrong state, 0x22 LK after load, 0x23 before LOADED. -/
def State.discard (s : State) (code offset : Nat) : State :=
  s.event (islandShed (shedUnitOf offset)) code none none (offset % 2 ^ 32)

/-! Interrupts (R586 to R589). -/

/-- A vector raised: sent, or pending while it is masked, disabled or held back by a device reset. -/
def State.vector (s : State) (v : Nat) : State :=
  if s.host.msixEn && !s.host.fmask && !(Tab.get .reset s.host.msix v).mask && !s.inReset then s.emit (.vector v)
  else { s with host := { s.host with msixPend := Tab.set false s.host.msixPend v true } }

/-- A global cause: its bit is set, and its vector sent when the bit was 0 (R587). -/
def State.irq (s : State) (b : Nat) : State :=
  if bit s.host.irqStat b then s
  else ({ s with host := { s.host with irqStat := s.host.irqStat + 2 ^ b } } : State).vector (1032 + b)

/-- A state vector of a queue (Table 22-10). -/
def State.stateVector (s : State) (q : Nat) : State := s.vector (516 + q)

/-! Notifications (R559). -/

/-- A notification sent on the management connector. -/
def State.sendNotice (s : State) (n : Notice) : State :=
  let s := match s.obs.i3c with
    | some a => s.emit (.ibi a)
    | none => s
  match s.obs.endpoint with
  | some _ => s.emit (.notify n.nseq n.code n.part n.time n.data)
  | none => s

/-- A notification raised: at most 16 wait, and an overflow is dropped and counted. -/
def State.notify (s : State) (code : Nat) (part : Option Nat) (data : Nat) : State :=
  let n : Notice := ⟨s.obs.nseq, code, part.getD 0xFF, s.now, data, 1, s.now⟩
  if 16 ≤ s.obs.notices.length then
    { s with obs := { s.obs with nseq := (s.obs.nseq + 1) % 2 ^ 32, nlost := (s.obs.nlost + 1) % 2 ^ 32 } }
  else
    ({ s with obs := { s.obs with nseq := (s.obs.nseq + 1) % 2 ^ 32, notices := s.obs.notices ++ [n] } } : State).sendNotice n

/-! The error-range log (R363). -/

/-- An error joins the newest entry (R363): one granule, one SOURCE, within 1 ms of the last error recorded. -/
def ErrEntry.joins (e : ErrEntry) (addr tier source now : Nat) : Bool :=
  e.addr / 4096 == addr / 4096 && e.source == source && e.tier == tier && decide (now ≤ e.last + 1000000)

/-- The entry with one more unit. -/
def ErrEntry.extend (e : ErrEntry) (addr now : Nat) : ErrEntry :=
  let lo := min e.addr addr
  let hi := max (e.addr + 64 * e.units) (addr + 64)
  { e with addr := lo, units := (hi - lo) / 64, hits := min 65535 (e.hits + 1), last := now }

/-- The ring that records a memory error: the HBM controller's, the region's, or the cellar controllers'. -/
def State.errIsland (s : State) (addr tier : Nat) : Nat :=
  match tier with
  | 1 => islandHbm (addr / 0x4800000000) (addr / 256 % 6)
  | 3 => s.regionIsland (addr / 0x4000000 % 16)
  | 4 => s.regionIsland (bits addr 15 12)
  | _ => islandShed 19

/-- An error logged, with an event in the ring of an island. Every new entry raises the memory-error interrupt. -/
def State.logErrorAt (s : State) (island addr tier source : Nat) (part : Option Nat) (ctx seq queue : Nat) : State :=
  let s1 := s.event island 0x80 part none (tier + 8 * ctx)
  match s.mem.errlog with
  | e :: rest =>
    if e.joins addr tier source s.now then { s1 with mem := { s1.mem with errlog := e.extend addr s.now :: rest } }
    else
      let full := decide (1024 ≤ s.mem.errlog.length)
      ({ s1 with mem := { s1.mem with
          errlog := (⟨addr, 1, tier, source, part, seq, queue, 1, s.now, s.now⟩ :: s.mem.errlog).take 1024,
          errLost := if full then (s.mem.errLost + 1) % 2 ^ 32 else s.mem.errLost } } : State).irq 0
  | [] => ({ s1 with mem := { s1.mem with errlog := [⟨addr, 1, tier, source, part, seq, queue, 1, s.now, s.now⟩] } } : State).irq 0

/-- An error logged, its event in the ring of the unit that holds the memory. -/
def State.logError (s : State) (addr tier source : Nat) (part : Option Nat) (ctx seq queue : Nat) : State :=
  s.logErrorAt (s.errIsland addr tier) addr tier source part ctx seq queue

/-! The sync trace (R475). -/

/-- An entry added to the sync trace. -/
def State.pushTrace (s : State) (e : STrace) : State :=
  { s with sync := { s.sync with trace := (e :: s.sync.trace).take 65536, count := (s.sync.count + 1) % 2 ^ 64 } }

/-- An entry of the sync trace that concerns a partition; none is written for a Cloche partition. -/
def State.straceEntry (s : State) (e : STrace) : State := if s.inCloche e.part then s else s.pushTrace e

def State.strace (s : State) (kind part id who queue : Nat) : State :=
  s.straceEntry ⟨s.now, kind, part, false, id, who, queue, 0, 0⟩

/-! Slot counters (R566). -/

/-- Event code `code` counted n times on a lane: every counter whose selection in force names it. -/
def State.bumpLane (s : State) (lane : Nat) (sel : List Nat) (code n : Nat) : State :=
  let c := (List.range 16).foldl (fun t k =>
    if sel.getD k 0 = code then Tab.modify 0 t (16 * lane + k) (· + BitVec.ofNat 64 n) else t) s.obs.cnt
  { s with obs := { s.obs with cnt := c } }

/-- Event code `code` counted n times for the command that queue q runs; commands of Cloche partitions are not counted. -/
def State.bump (s : State) (q code n : Nat) : State :=
  match (s.queue q).running with
  | none => s
  | some x =>
    match s.partOfCtx (s.ctxOf q x.cmd.word1) with
    | some p => if s.inCloche p then s else s.bumpLane x.lane x.sel code n
    | none => s

/-- Event code counted for the LAUNCH that partition p runs. -/
def State.bumpPart (s : State) (p code n : Nat) : State :=
  match (s.part p).launch with
  | some l => s.bump l.queue code n
  | none => s

/-- The lane's selections now (SLOT_CSEL). -/
def State.selOf (s : State) (lane : Nat) : List Nat := (List.range 16).map (fun k => Tab.get 0 s.obs.csel (16 * lane + k))
/-- The lane's counters now (SLOT_CNT). -/
def State.cntOf (s : State) (lane : Nat) : List Nat := (List.range 16).map (fun k => (Tab.get 0 s.obs.cnt (16 * lane + k)).toNat)

/-! Device reset triggers (R399, R511). -/

/-- A device reset begins: the cause is recorded, BUSY is set, and the interrupt causes start again (R589). A trigger
during a reset takes the first one's place in FE_RESET_TRIG and does not restart it (R515). -/
def State.startReset (s : State) (cause check q seq trig detail : Nat) : State :=
  let r := s.rel.resets
  if r.busy then
    { s with rel := { s.rel with resets := { r with trig := trig, detail := detail % 4096 } } }
  else
    { s with host := { s.host with irqStat := 0 }, rel := { s.rel with resets := { r with
        cause := cause + 16 * check, queue := if cause = 3 then 0 else q, seq := if cause = 3 then 0 else seq,
        trig := if cause = 3 then trig else 0, detail := if cause = 3 then detail % 4096 else 0, busy := true } } }

/-- A trigger of Table 18-3. -/
def State.trigger (s : State) (trig detail : Nat) : State := s.startReset 3 0 0 0 trig detail

/-! Physical units (Table 19-5) and their fault counts (R504). -/

def unitColumn (die region block col : Nat) : Nat := 2 ^ 28 + die * 2 ^ 27 + region * 2 ^ 23 + block * 2 ^ 20 + col * 2 ^ 16
def unitBlock (die region block : Nat) : Nat := 2 * 2 ^ 28 + die * 2 ^ 27 + region * 2 ^ 23 + block * 2 ^ 20
def unitRegion (die region : Nat) : Nat := 3 * 2 ^ 28 + die * 2 ^ 27 + region * 2 ^ 23
def unitSramRow (die region bank row : Nat) : Nat := 4 * 2 ^ 28 + die * 2 ^ 27 + region * 2 ^ 23 + bank * 2 ^ 17 + row

/-- What Table 18-2 counts beside a unit's own failures has a key of its own: the failed retests of a block, and the
corrected errors of an SRAM row. -/
def besideKey (unit : Nat) : Nat := unit + 2 ^ 32

/-- A fault counted against a unit, with the faults of the last 24 h kept (R504). A shed unit and a vector engine count under
their island numbers. -/
def State.countFault (s : State) (unit : Nat) : State :=
  { s with rel := { s.rel with faults := Tab.modify [] s.rel.faults unit (fun ts =>
      s.now :: ts.filter (fun t => decide (s.now ≤ t + 86400000000000))) } }

/-- Faults counted under a key in the last 24 h. -/
def State.faults24 (s : State) (key : Nat) : List Nat :=
  (Tab.get [] s.rel.faults key).filter (fun t => decide (s.now ≤ t + 86400000000000))

/-- The block that holds a column, and the nine columns of a block. -/
def blockOfUnit (u : Nat) : Nat := 2 * 2 ^ 28 + u % 2 ^ 28 / 2 ^ 20 * 2 ^ 20
def columnsOf (u : Nat) : List Nat := (List.range 9).map (fun c => 2 ^ 28 + u % 2 ^ 28 / 2 ^ 20 * 2 ^ 20 + c * 2 ^ 16)

/-- A cell check failure of a block is 1 s old and no retest has followed it (R505). -/
def State.retestDue (s : State) (block : Nat) : Bool :=
  s.rel.stEn && (columnsOf block).any (fun c => (Tab.get [] s.rel.faults c).any (fun t =>
    decide (t + 1000000000 ≤ s.now) && !((Tab.get [] s.rel.faults (besideKey block)).any (fun r => decide (t ≤ r)))))

/-- The shed holds dispatch to partition p for the retest of one of its blocks (R505). -/
def State.retestHolds (s : State) (p : Nat) : Bool :=
  (s.regionsOf p).any (fun r => (List.range 6).any (fun b => s.retestDue (unitBlock (r / 8) (s.physRegion r) (s.physBlock r b))))

/-- What an error in hub SRAM does (R503, Table 18-1). Every write of mirrored state goes to both copies before it takes
effect, so a word restored is the word that the state holds: the error is corrected, counted and, when two bits were wrong,
logged with TIER 5. Hub SRAM has no local address: ADDR is an open value. With no good copy device reset trigger 2
follows. -/
def State.hubFound (s : State) (f : HubFault) : State :=
  let s := s.countFault (islandShed f.unit)
  match f with
  | .single _ => s
  | .restored u => let (w, s) := s.draw; s.logErrorAt (islandShed u) (w.toNat % 2 ^ 42 * 64) 5 1 none 0 0 0
  | .lost u => s.trigger 2 u

end Sys2Proof.Machine
end

