-- ==== Sys2Proof/Machine/Complete.lean ====
section
/-! DEFINITION. The life of a queue between a fetched record and its completion record (R378 to R397): staging, readiness,
completion records, snapshots, the abort tail and the queue states. -/
namespace Sys2Proof.Machine

/-- Entries of the completion ring written, shadowed or in flight since CHEAD (R384). -/
def Queue.unconsumed (x : Queue) : Nat :=
  (x.ctail + x.cring.size - x.chead) % x.cring.size + x.shadow.length + x.inflight.length

/-- The completion ring has a free entry (R384). -/
def Queue.ringFree (x : Queue) : Bool := decide (x.unconsumed < x.cring.size - 1)

/-- Ring index of the oldest record that is not yet in a completion record. -/
def Queue.nextIndex (x : Queue) : Nat := (x.head + x.inflight.length + x.shadow.length) % x.ring.size

/-- Whether the context that word 1 of a system-queue record names is defined (check 4). -/
def State.sysCtx (s : State) (q : Nat) (bs : List Byte) : Option Bool :=
  if q < 512 then none else some (s.partOfCtx (recWord1 bs % 64)).isSome

/-- The check of Table 13-10 that a record fails, 0 when it passes all. -/
def State.malformed (s : State) (q : Nat) (bs : List Byte) : Nat :=
  let c := recordCheck bs (s.sysCtx q bs)
  if c ≠ 0 then c
  else match (s.queue q).seqNext with
    | some n => if recSeq bs = n then 0 else 5
    | none => 0

/-- The oldest fetched record is checked and staged when the queue may run it (R379, R393). -/
def State.stage (s : State) (q : Nat) : State :=
  let x := s.queue q
  match x.fetched with
  | bs :: _ =>
    if x.staged || x.state != .active || s.inReset then s
    else
      let c := s.malformed q bs
      if c = 0 then s.setQueue q { x with staged := true } else s.startReset 1 c q (recSeq bs) 0 0
  | [] => s

/-- The oldest record is ready for its slot (R407). -/
def Queue.ready (x : Queue) : Bool :=
  x.state == .active && x.running.isNone && x.staged && x.ringFree

/-- T_READY set when the record became ready; a record that is ready no longer gives up T_READY and regions granted to it. -/
def State.noteReady (s : State) (q : Nat) : State :=
  let x := s.queue q
  if x.ready then
    match x.tReady with
    | none => s.setQueue q { x with tReady := some s.now }
    | some _ => s
  else s.setQueue q { x with tReady := none, granted := x.granted && x.running.isSome }

/-- ACTIVE becomes IDLE when the fetcher is idle and nothing runs or waits (Table 13-14). -/
def State.noteIdle (s : State) (q : Nat) : State :=
  let x := s.queue q
  if x.state = .active ∧ x.running = none ∧ x.fetched = [] ∧ x.pass = none ∧ x.fidx = x.tail ∧ ¬x.rung then
    s.setQueue q { x with state := .idle }
  else s

/-- A 32-byte completion record (Table 13-12); PHASE is put in when it is written. -/
def complRecord (seq status info ratio energy dropped snap opcode first tend : Nat) : List Byte :=
  leBytes 4 seq ++ leBytes 1 status ++ leBytes 1 info ++ leBytes 2 ratio ++ leBytes 4 energy ++ leBytes 4 dropped
  ++ leBytes 4 snap ++ leBytes 1 opcode ++ leBytes 1 0 ++ leBytes 2 first ++ leBytes 8 tend

/-- The state a queue takes when a blocked state ends, once a record that carried STATE is among those concerned: HELD
(R393, R395), but for a queue whose abort goes on. -/
def QState.heldBy (q : QState) (carried : Bool) : QState := if carried && q != .aborting then .held else q

/-- The write of a completion record issued: in flight, or behind the shadow while the queue is COMPLETION_BLOCKED. -/
def Queue.pushCompletion (x : Queue) (w : ComplWrite) : Queue :=
  if x.state = .complBlocked then
    { x with shadow := x.shadow ++ [w], prior := x.prior.heldBy w.state }
  else { x with inflight := x.inflight ++ [w] }

/-- One record up to the abort tail completes with CANCELLED, its SEQ and OPCODE copied, every other field zero (R394).
It is not checked, so it sets no base for check 5 where ENABLE or ZERO left none. -/
def Queue.cancelOne (x : Queue) (bs : List Byte) : Queue :=
  ({ x with fetched := x.fetched.tail, staged := false, seqNext := x.seqNext.map (fun _ => (recSeq bs + 1) % 2 ^ 32) } : Queue).pushCompletion
    ⟨complRecord (recSeq bs) Status.cancelled.code 0 0 0 0 0 (recOpcode bs) 0 0, bit (recFlags bs) 7, false⟩

/-- The atomic steps of the fetch loop: a finished pass ends, or begins again at the present tail (R381). -/
def Queue.advance (x : Queue) : Queue :=
  match x.pass with
  | none => if x.fidx ≠ x.tail ∨ x.rung then { x with pass := some x.tail, rung := false } else x
  | some t => if x.fidx ≠ t then x
    else if !x.rung && decide (x.fidx = x.tail) then { x with pass := none }
    else { x with pass := some x.tail, rung := false }

/-- The end of a pass that fetched nothing is noted at once. -/
def Queue.advance2 (x : Queue) : Queue := x.advance.advance

/-- The fetcher has something to read, or a doorbell to answer. -/
def Queue.calls (x : Queue) : Bool := x.rung || x.fidx != x.tail || x.fetched != []

/-- Cancelling as far as the records read, the ring and the eight unacknowledged writes allow (R394). -/
def Queue.drain : Nat → Queue → Queue
  | 0, x => x
  | fuel + 1, x =>
    match x.state, x.abortTail with
    | .aborting, some t =>
      if x.running.isSome then x
      else if x.nextIndex = t then
        if x.calls then ({ x with abortTail := none, state := .active } : Queue).advance2 else { x with abortTail := none, state := .idle }
      else match x.fetched with
        | bs :: _ => if x.ringFree && decide (x.inflight.length < 8) then (x.cancelOne bs).drain fuel else x
        | [] => x
    | _, _ => x

/-- Everything that follows from a change of a queue: the abort goes on, the next record is staged, readiness and IDLE
are noted. -/
def State.settle (s : State) (q : Nat) : State :=
  (((s.setQueue q ((s.queue q).drain 16)).stage q).noteReady q).noteIdle q

/-- The lane of a queue's commands: the slot of a user queue, 32 + n of system queue n (R566). -/
def State.laneOf (s : State) (q : Nat) : Nat := if q < 512 then (s.qmapOf q).slot else 32 + (q - 512)

/-- µJ tagged with a queue since power-on (R495). -/
def State.energyQ (s : State) (q : Nat) : Nat := Tab.get 0 s.pwr.enQ q / 256000000

/-- The flags of a command summary, [4:0] (R64). -/
def flagBits (f : Flags) : Nat := f.toNat % 32

/-- A snapshot record (Table 21-10). -/
def State.snapRecord (s : State) (q : Nat) (x : Running) (tend : Nat) : List Byte :=
  let now := s.cntOf x.lane
  let delta := (List.range 16).map (fun k => (now.getD k 0 + 2 ^ 64 - x.latch.getD k 0) % 2 ^ 64)
  leBytes 4 (s.obs.snapCnt % 2 ^ 32) ++ leBytes 2 q ++ leBytes 1 x.lane ++ leBytes 1 x.cmd.opcode ++ leBytes 4 x.cmd.seq
  ++ leBytes 1 (flagBits x.flags) ++ leBytes 3 0 ++ leBytes 8 x.tDisp ++ leBytes 8 tend
  ++ (x.sel.map (fun c => BitVec.ofNat 8 c)) ++ delta.flatMap (leBytes 8) ++ leBytes 16 0

/-- The snapshot of a completed command, unless its partition is in Cloche (R567). -/
def State.snapshot (s : State) (q : Nat) (x : Running) (cloche : Bool) (tend : Nat) : State :=
  if cloche then s
  else
    let snaps := Tab.set [] s.obs.snaps (s.obs.snapCnt % 16384) (s.snapRecord q x tend)
    { s with obs := { s.obs with snaps := snaps, snapCnt := s.obs.snapCnt + 1 } }

/-- ACT in region-control cycles at level 15 (R412). -/
def actCycles (t0 t1 : Nat) : Nat := (t1 - t0) * 3 / 2

/-- RATIO (R412). -/
def ratioOf (act estimate : Nat) : Nat := if estimate = 0 then 0 else min 0xFFFF (act * 256 / estimate)

/-- The slot's counters after a completion (R413). -/
def Slot.count (t : Slot) (launch : Bool) (act estimate : Nat) (late : Bool) : Slot :=
  let t := if late then { t with miss := t.miss + 1 } else t
  if launch ∧ estimate ≠ 0 then { t with act := t.act + BitVec.ofNat 64 act, est := t.est + BitVec.ofNat 64 estimate } else t

/-- The slot is given up by a queue that held it. -/
def State.freeSlot (s : State) (q : Nat) : State :=
  { s with slots := s.slots.map (fun t => if t.sel = some q then { t with sel := none } else t) }

/-- The command of queue q completes at `tend`: snapshot, slot counters, completion record, and the queue's next state
(R383, R387, R389, R393). A STATE in FETCH_BLOCKED holds the queue once RESUME has ended that state. `estimate` is that of the LAUNCH's image. -/
def State.finish (s : State) (q tend estimate : Nat) : State :=
  match (s.queue q).running with
  | none => s
  | some x =>
    let ctx := s.ctxOf q x.cmd.word1
    let cloche := match s.partOfCtx ctx with
      | some p => s.inCloche p
      | none => false
    let launch := x.cmd.opcode == 1
    let act := actCycles x.tReady tend
    let snap := s.obs.snapCnt % 2 ^ 32
    let used := s.energyQ q - x.energy0
    let energy := if cloche then min 0xFFFFFFFF used / 10000 * 10000 else min 0xFFFFFFFF used
    let bytes := complRecord x.cmd.seq x.status.code (if cloche then 0 else 2)
      (if cloche || !launch then 0 else ratioOf act estimate) energy (min 0xFFFFFFFF x.dropped)
      (if cloche then 0 else snap) x.cmd.opcode x.first tend
    let s := s.snapshot q x cloche tend
    let late := q < 512 && x.cmd.word1 != 2 ^ 64 - 1 && decide (x.cmd.word1 < tend)
    let s := if x.lane < 32 && !cloche then s.setSlot x.lane ((s.slot x.lane).count launch act estimate late) else s
    let s := s.freeSlot q
    let s := { s with wgt := { s.wgt with caches := s.wgt.caches.filter (fun c => c.queue != q) } }
    let bad := x.status == .state
    let y := s.queue q
    let y := { y with running := none, granted := false }
    let y := y.pushCompletion ⟨bytes, x.cmd.irq, bad⟩
    let hold := bad && y.state == .active
    let s := s.setQueue q (if hold then { y with state := .held, staged := false } else { y with fprior := y.fprior.heldBy bad })
    let s := if hold then s.stateVector q else s
    s.settle q

/-- The command completes at `tend` once its remote writes have been answered (R346). -/
def State.endCmdAt (s : State) (q tend estimate : Nat) : State :=
  match (s.queue q).running with
  | none => s
  | some x =>
    if x.owed = 0 then s.finish q tend estimate
    else s.setQueue q { s.queue q with running := some { x with ending := some tend } }

def State.modRunning (s : State) (q : Nat) (f : Running → Running) : State :=
  match (s.queue q).running with
  | none => s
  | some x => s.setQueue q { s.queue q with running := some (f x) }

/-- The command of queue q completes now with a status (worst of it and what it has gathered) and FIRST. -/
def State.complete (s : State) (q : Nat) (st : Status) (first : Nat) : State :=
  (s.modRunning q (fun x => { x with status := x.status.worst st, first := first, started := true })).endCmdAt q s.now 0

/-- The command of queue q completes now, no entry to name. -/
def State.completeOk (s : State) (q : Nat) (st : Status) : State := s.complete q st 0xFFFF

/-- The command that a row names is dispatched on queue q, accepted, and has not taken its effect. -/
def State.enabledCmd (s : State) (q : Nat) (b : CmdBody) : Bool :=
  match (s.queue q).running with
  | some x => x.cmd.body == b && !x.started
  | none => false

/-- Run a command's effect in its context and partition when it is enabled; a queue that does not accept the opcode gets
DENIED (R375). -/
def State.runCmd (s : State) (q : Nat) (b : CmdBody) (f : Running → Nat → Nat → State) : Res :=
  if s.enabledCmd q b then
    match (s.queue q).running with
    | none => .next s
    | some x =>
      let ctx := s.ctxOf q x.cmd.word1
      if !queueAccepts q x.cmd.opcode then .next (s.completeOk q .denied)
      else match s.partOfCtx ctx with
        | some p => .next (f x ctx p)
        | none => .next (s.completeOk q .denied)
  else .next s

end Sys2Proof.Machine
end

