-- ==== Sys2Proof/Machine/Frames.lean ====
section
/-! DEFINITION. The block of an Eften frame (R426, Tables 15-3 and 15-4): what a sender builds and what a receiver reads. -/
namespace Sys2Proof.Machine

/-- One bit of CRC-64, most significant bit first (polynomial 0x42F0E1EBA9EA3693). -/
def crc64Bit (c : Nat) : Nat := if c < 2 ^ 63 then 2 * c else (2 * c - 2 ^ 64) ^^^ 0x42F0E1EBA9EA3693

/-- One byte of CRC-64. -/
def crc64Byte (c : Nat) (b : Byte) : Nat := (List.range 8).foldl (fun c _ => crc64Bit c) (c ^^^ (b.toNat * 2 ^ 56))

/-- CRC-64 with the ECMA-182 polynomial. PRESUMED (log entry 104): the register starts at 0 and nothing is inverted, as
ECMA-182 has it. -/
def crc64 (bs : List Byte) : Nat := bs.foldl crc64Byte 0

/-- A credit return (Table 15-4) of a sub-share, which is numbered 8 × plot + 2 × class + VC. -/
def credWord (k count : Nat) : Nat := k / 8 % 64 + 2 ^ 6 * (k / 2 % 4) + 2 ^ 8 * (k % 2) + 2 ^ 9 + 2 ^ 10 * (count % 65536)

/-- CRED0 or CRED1 of a frame that carries some returns. -/
def credField (creds : List (Nat × Nat)) (i : Nat) : Nat :=
  match creds[i]? with
  | some c => credWord c.1 c.2
  | none => 0

/-- Bytes 0 to 23 of a frame block (Table 15-3). -/
def frameHead (kind fseq : Nat) (ack : Option Nat) (creds : List (Nat × Nat)) (first : Nat) : List Byte :=
  leBytes 2 fseq ++ leBytes 2 (ack.getD 0) ++ leBytes 1 kind ++ leBytes 1 (if ack.isSome then 1 else 0) ++ leBytes 1 first
    ++ leBytes 1 0 ++ leBytes 4 (credField creds 0) ++ leBytes 4 (credField creds 1) ++ leBytes 8 0

/-- The 19 slots of a frame block; those not used are zero. -/
def frameSlots (slots : List Byte) : List Byte := (slots ++ List.replicate 608 0).take 608

/-- A frame block, with the CRC over the rest of it. -/
def frameBlock (kind fseq : Nat) (ack : Option Nat) (creds : List (Nat × Nat)) (first : Nat) (slots : List Byte) : List Byte :=
  let b := frameHead kind fseq ack creds first ++ frameSlots slots
  b ++ leBytes 8 (crc64 b)

/-- A frame arrived intact: its code decodes and its CRC matches (R428). -/
def FrameIn.good (f : FrameIn) : Bool := f.decodes && f.block.length == 640 && leAt f.block 632 8 == crc64 (f.block.take 632)

def FrameIn.fseq (f : FrameIn) : Nat := leAt f.block 0 2
def FrameIn.kind (f : FrameIn) : Nat := leAt f.block 4 1

/-- ACKSEQ, when ACKV is 1. -/
def FrameIn.ack (f : FrameIn) : Option Nat := if bit (leAt f.block 5 1) 0 then some (leAt f.block 2 2) else none

/-- A credit return read: sub-share and COUNT, when VALID. -/
def credOf (w : Nat) : Option (Nat × Nat) :=
  if bit w 9 then some (8 * bits w 5 0 + 2 * bits w 7 6 + bits w 8 8, bits w 25 10) else none

/-- The valid credit returns of a frame. -/
def FrameIn.creds (f : FrameIn) : List (Nat × Nat) := [leAt f.block 8 4, leAt f.block 12 4].filterMap credOf

def FrameIn.slots (f : FrameIn) : List Byte := (f.block.drop 24).take 608

end Sys2Proof.Machine
end

