-- ==== Sys2Proof/Machine/Links.lean ====
section
/-! DEFINITION. Sending on the Eften links (chapter 15): messages and slots, credits, the replay buffer, member choice,
routing, encryption of a Cloche plot, and the answers to remote requests. -/
namespace Sys2Proof.Machine

/-! Messages as bytes (Table 15-8). -/

def boolNat (b : Bool) : Nat := if b then 1 else 0

/-- The 32-byte header. -/
def LinkMsg.header (m : LinkMsg) : List Byte :=
  leBytes 1 m.typ ++ leBytes 1 (m.cls + 4 * m.vc + 8 * boolNat m.xc + 16 * boolNat m.enc) ++ leBytes 1 m.plot
  ++ leBytes 1 m.hops ++ leBytes 2 m.src ++ leBytes 2 m.dst ++ leBytes 2 m.data.length ++ leBytes 2 m.tag
  ++ leBytes 1 m.status ++ leBytes 3 0 ++ leBytes 8 m.addr ++ leBytes 8 m.aux

/-- Zero bytes up to a multiple of n. -/
def padTo (n : Nat) (bs : List Byte) : List Byte := bs ++ List.replicate (cdiv bs.length n * n - bs.length) 0

/-- The slots of a message as bytes: header, padded data, GCM slot (R434). -/
def LinkMsg.bytes (m : LinkMsg) : List Byte :=
  m.header ++ (if m.enc then m.data ++ m.gcm else padTo 32 m.data)

/-- Slots a message fills. -/
def LinkMsg.slots (m : LinkMsg) : Nat := 1 + cdiv m.data.length 32 + boolNat m.enc

/-- Class of a message type (Tables 15-9, 16-4). -/
def typeClass (t : Nat) : Nat :=
  if t ≤ 2 then 0 else if t ≤ 4 ∨ t = 0x35 then 1 else if t < 0x30 then 2 else 3

/-- Types of Tables 15-9 and 16-4. -/
def listedType (t : Nat) : Bool :=
  (decide (1 ≤ t) && decide (t ≤ 4)) || (decide (0x10 ≤ t) && decide (t ≤ 0x13)) || t == 0x20 || t == 0x21
  || (decide (0x30 ≤ t) && decide (t ≤ 0x35))

/-- A header is well formed (R16, Table 15-8): a listed TYPE in its class, reserved bits zero, LEN at most 8,192, and STATUS
zero outside responses. DESIGN CHOICE (log entry 101): chapter 15 states the consequence of an unlisted TYPE only, and every
other malformed header has the same one here. -/
def headerOk (bs : List Byte) : Bool :=
  let ctrl := leAt bs 1 1
  let typ := leAt bs 0 1
  listedType typ && bits ctrl 1 0 == typeClass typ && ctrl / 32 == 0 && leAt bs 2 1 / 64 == 0 && !(bit (leAt bs 4 2) 15)
  && !(bit (leAt bs 6 2) 15) && decide (leAt bs 8 2 ≤ 8192) && leAt bs 13 3 == 0 && (typeClass typ == 1 || leAt bs 12 1 == 0)

/-- The message whose header begins a byte list, whether that header is well formed, and the bytes after the message; none
while it is not complete. -/
def LinkMsg.parse (bs : List Byte) : Option ((LinkMsg × Bool) × List Byte) :=
  let len := leAt bs 8 2
  let ctrl := leAt bs 1 1
  let need := 32 + cdiv len 32 * 32 + (if bit ctrl 4 then 32 else 0)
  if bs.length < 32 ∨ bs.length < need then none
  else
    some ((⟨leAt bs 0 1, bits ctrl 1 0, bits ctrl 2 2, bit ctrl 3, bit ctrl 4, leAt bs 2 1 % 64, leAt bs 3 1, leAt bs 4 2 % 2 ^ 15,
      leAt bs 6 2 % 2 ^ 15, leAt bs 10 2, leAt bs 12 1, leAt bs 16 8, leAt bs 24 8, (bs.drop 32).take len,
      if bit ctrl 4 then (bs.take need).drop (32 + len) else []⟩, headerOk bs), bs.drop need)

/-- The complete messages at the front of a slot stream, each with whether its header is well formed, and the rest (R427: a
first byte of 0 is a pad slot). -/
def parseSlots : Nat → List Byte → List (LinkMsg × Bool) × List Byte
  | 0, bs => ([], bs)
  | fuel + 1, bs =>
    if bs.length < 32 then ([], bs)
    else if leAt bs 0 1 = 0 then parseSlots fuel (bs.drop 32)
    else match LinkMsg.parse bs with
      | none => ([], bs)
      | some (m, rest) =>
        let (ms, r) := parseSlots fuel rest
        (m :: ms, r)

/-- Sub-share number of a plot, class and VC. -/
def subShare (plot cls vc : Nat) : Nat := 8 * plot + 2 * cls + vc
/-- The sub-share whose credits a message uses; class 2 uses none (R439). -/
def LinkMsg.share (m : LinkMsg) : Option Nat := if m.cls = 2 then none else some (subShare m.plot m.cls m.vc)

/-! Ports, shares and routes. -/

/-- Axis numbers of Table 15-10: 0 t, 1 u, 2 v, 3 x, 4 y, 5 z. Coordinate of a module on an axis (R423). -/
def coordOf (m axis : Nat) : Nat :=
  match axis with
  | 0 => bits m 14 14 | 1 => bits m 13 10 | 2 => bits m 9 6 | 3 => bits m 5 4 | 4 => bits m 3 2 | _ => bits m 1 0

/-- Ring size of an axis (R424). -/
def Coord.ring (c : Coord) (axis : Nat) : Nat :=
  match axis with
  | 0 => 2 | 1 => c.usz + 1 | 2 => c.vsz + 1 | _ => 4

/-- The module with coordinate `axis` replaced. -/
def withCoord (m axis v : Nat) : Nat :=
  match axis with
  | 0 => setBits m 14 14 v | 1 => setBits m 13 10 v | 2 => setBits m 9 6 v | 3 => setBits m 5 4 v
  | 4 => setBits m 3 2 v | _ => setBits m 1 0 v

/-- The logical port with an axis and direction (R441), as its member physical ports in ascending order. -/
def State.members (s : State) (axis dir : Nat) : Option (List Nat) :=
  (s.trl.st.ports.find? (fun w => bit w 22 && bits w 20 18 == axis && bits w 21 21 == dir)).map
    (fun w => (List.range 18).filter (fun p => bit w p))

/-- The role of a physical port: its logical port's axis and direction. -/
def State.roleOf (s : State) (port : Nat) : Option (Nat × Nat) :=
  (s.trl.st.ports.find? (fun w => bit w 22 && bit w port)).map (fun w => (bits w 20 18, bits w 21 21))

/-- The physical ports of port t (both directions of axis t). -/
def State.isPortT (s : State) (port : Nat) : Bool :=
  match s.roleOf port with
  | some (a, _) => a == 0
  | none => false

/-- The share of a plot on a physical link in slots (R438). -/
def State.shareOf (s : State) (port plot : Nat) : Nat := 2048 * (s.trl.st.shares.getD port []).getD plot 0

/-- Size of a sub-share in slots (R438). -/
def State.subSize (s : State) (port key : Nat) : Nat :=
  let sh := s.shareOf port (key / 8)
  let cls := key / 2 % 4
  let vc := key % 2
  if s.isPortT port then
    if vc = 1 then 0 else if cls = 3 then sh / 2 else if cls ≤ 1 then sh / 4 else 0
  else if cls ≤ 1 then sh / 4 else 0

/-- Slots of credit a sender holds in a sub-share of its far receiver (R439). -/
def State.credits (s : State) (port key : Nat) : Nat :=
  let l := s.link port
  s.subSize port key - (Tab.get 0 l.sent key + 65536 - Tab.get 0 l.returned key) % 65536

/-- The route record of a plot, when its entry is VALID (Table 15-11). -/
def State.routeOf (s : State) (plot : Nat) : Option RoutingRec :=
  s.trl.st.routing.find? (fun r => r.plot == plot && bit r.route 104)

def RoutingRec.member (r : RoutingRec) : Bool := bit r.route 98
def RoutingRec.part (r : RoutingRec) : Nat := bits r.route 101 99
def RoutingRec.cloche (r : RoutingRec) : Bool := bit r.route 102
def RoutingRec.shared (r : RoutingRec) : Bool := bit r.route 103
/-- TRANSIT on an axis. -/
def RoutingRec.transit (r : RoutingRec) (axis : Nat) : Bool := bit r.route (92 + axis)

/-- The action for a destination coordinate on an axis: 0 HERE, 1 PLUS, 2 MINUS, 3 NONE (R443). -/
def RoutingRec.action (r : RoutingRec) (axis c : Nat) : Nat :=
  let base := match axis with
    | 0 => 0 | 1 => 4 | 2 => 36 | 3 => 68 | 4 => 76 | _ => 84
  bits r.route (base + 2 * c + 1) (base + 2 * c)

/-- The plot that a partition belongs to (R443). -/
def State.plotOf (s : State) (p : Nat) : Option RoutingRec :=
  s.trl.st.routing.find? (fun r => bit r.route 104 && r.member && r.part == p)

/-- The first axis whose action is not HERE, with its action (R444). -/
def RoutingRec.firstAxis (r : RoutingRec) (dst : Nat) : Option (Nat × Nat) :=
  (List.range 6).findSome? (fun a => let x := r.action a (coordOf dst a); if x = 0 then none else some (a, x))

/-- The VC on which a message leaves (R444): VC 1 across the wrap and after it on that axis, VC 0 on a new axis and on t. -/
def State.nextVc (s : State) (axis dir vc : Nat) (sameAxis : Bool) : Nat :=
  let c := coordOf s.modid axis
  let size := s.eft.coord.ring axis
  if axis = 0 then 0
  else if (dir = 0 ∧ c + 1 = size) ∨ (dir = 1 ∧ c = 0) then 1
  else if sameAxis then vc else 0

/-- The member link for a message (R442). -/
def State.chooseMember (s : State) (ports : List Nat) (m : LinkMsg) : Option Nat :=
  let ups := ports.filter (fun p => (s.link p).st != .failed)
  match ups with
  | [] => none
  | p0 :: rest =>
    if m.typ = 1 ∧ m.addr % 2 ^ 48 < 0x30000000000 then
      some (rest.foldl (fun b p => if s.credits b (subShare m.plot m.cls m.vc) < s.credits p (subShare m.plot m.cls m.vc) then p else b) p0)
    else some (ups.getD ((m.src ^^^ m.dst ^^^ m.plot ^^^ m.cls) % ups.length) p0)

/-- How a message leaves: through a physical link with its VC, or a status of Table 15-12 checks 6 and 7. -/
def State.outPort (s : State) (r : RoutingRec) (m : LinkMsg) (arrived : Option Nat) : Except Status (Nat × LinkMsg) :=
  match r.firstAxis m.dst with
  | none => .error .remote
  | some (axis, act) =>
    if act = 3 then .error .remote
    else
      let dir := act - 1
      let same := match arrived with
        | some a => a == axis
        | none => false
      let m := { m with vc := s.nextVc axis dir m.vc same }
      match s.members axis dir with
      | none => .error .remote
      | some ports =>
        match s.chooseMember ports m with
        | none => .error .remote
        | some p => if s.shareOf p m.plot = 0 then .error .denied else .ok (p, m)

/-! Transmission. -/

/-- Two credit returns for a frame (R426): the sub-shares whose counts have changed since training go round robin. COUNT is
cumulative and every one of them keeps its turn, so a return lost with its frame is made good. -/
def Link.takeCreds (l : Link) : List (Nat × Nat) × Link :=
  ((l.changed.take 2).map (fun k => (k, Tab.get 0 l.freed k % 65536)), { l with changed := l.changed.drop 2 ++ l.changed.take 2 })

/-- A frame that carries no message: kind 1 IDLE, 2 NAK, with acknowledgement and credits (R428, R429). -/
def State.idleFrame (s : State) (port kind : Nat) : State :=
  let (cr, l) := (s.link port).takeCreds
  (s.setLink port l).emit (.frame port (frameBlock kind l.nextFseq l.lastRx cr 0xFF []))

/-- IDLE frames up to the one that carries a sub-share's credit return. -/
def State.idleFrames (s : State) (port key : Nat) : State :=
  (List.range (((s.link port).changed.takeWhile (· != key)).length / 2 + 1)).foldl (fun (s : State) _ => s.idleFrame port 1) s

/-- A slot freed in the receiver buffer of a port (R439). -/
def Link.free (l : Link) (key n : Nat) : Link :=
  { l with freed := Tab.modify 0 l.freed key (fun x => (x + n) % 65536), changed := if l.changed.contains key then l.changed else l.changed ++ [key] }

/-- Slots freed in the receiver of a port, and the return offered in IDLE frames (R429, R439). -/
def State.freeRx (s : State) (port : Nat) (share : Option Nat) (n : Nat) : State :=
  match share with
  | none => s
  | some k =>
    let s := s.setLink port ((s.link port).free k n)
    if (s.link port).st = .up then s.idleFrames port k else s

/-! The choice of the next message (R436, R440). -/

/-- A WR to HBM or cellar. -/
def LinkMsg.memWrite (m : LinkMsg) : Bool := m.typ == 1 && decide (m.addr % 2 ^ 48 < 0x30000000000)

/-- Message x must go, and be dealt with, before a later m (R436); compressed data reaches its expander in the sender's order
(R269). -/
def LinkMsg.before (x m : LinkMsg) : Bool :=
  x.src == m.src && x.dst == m.dst && x.plot == m.plot && x.cls == m.cls && !(x.memWrite && m.memWrite && !(x.xc && m.xc))

/-- The logical port of a physical port with a limit on what this module originates, and the limit (Table 15-10 ORATE). -/
def State.orateOf (s : State) (port : Nat) : Option (Nat × Nat) :=
  ((List.range 16).find? (fun i => let w := s.trl.st.ports.getD i 0; bit w 22 && bit w port && bits w 31 24 != 0)).map
    (fun i => (i, bits (s.trl.st.ports.getD i 0) 31 24))

/-- ORATE lets a message go now. The limit is kept by a gap after each originated message (log entry 101). -/
def State.rateOk (s : State) (port : Nat) (t : TxMsg) : Bool :=
  t.hold.isSome || (match s.orateOf port with
    | none => true
    | some (i, _) => decide (Tab.get 0 s.eft.orate i ≤ 1000 * s.now))

/-- An originated message counted against ORATE: 8 bytes a nanosecond and unit, the gap in picoseconds. -/
def State.countRate (s : State) (port : Nat) (t : TxMsg) : State :=
  match t.hold, s.orateOf port with
  | none, some (i, r) =>
    { s with eft := { s.eft with orate := Tab.modify 0 s.eft.orate i (fun x => max x (1000 * s.now) + cdiv (32 * t.msg.slots * 125) r) } }
  | _, _ => s

/-- The queued messages that hold credits, that ORATE lets go and that no earlier one must precede, in order. -/
def State.sendable (s : State) (port : Nat) : List TxMsg → List TxMsg → List TxMsg
  | _, [] => []
  | seen, t :: ts =>
    let ok := (match t.msg.share with
      | none => true
      | some k => decide (t.msg.slots ≤ s.credits port k)) && s.rateOk port t && !(seen.any (fun x => x.msg.before t.msg))
    (if ok then [t] else []) ++ s.sendable port (seen ++ [t]) ts

/-- A plot's messages in a round of the weighted round robin: its share in units of 2,048 slots (R440). -/
def State.weight (s : State) (port key : Nat) : Nat := s.shareOf port (key / 8) / 2048

/-- The message that a link sends next, and the state of the round robin after it (R440): class 2 first, else one of the next
sub-share in number order, after the one served last, that may still send in this round. A round gives each sub-share as many
messages as its plot's weight; when none that has a message ready may send, a new round begins. -/
def State.pick (s : State) (port : Nat) : Option (TxMsg × Tab Nat × Nat) :=
  let l := s.link port
  let ts := s.sendable port [] l.txq
  match ts.find? (fun t => t.msg.cls == 2) with
  | some t => some (t, l.quota, l.served)
  | none =>
    let keys := (ts.filterMap (fun t => t.msg.share)).eraseDups
    let open_ := keys.filter (fun k => decide (0 < Tab.get 0 l.quota k))
    let quota := if open_ = [] then keys.foldl (fun (t : Tab Nat) k => Tab.set 0 t k (max 1 (s.weight port k))) [] else l.quota
    let open_ := if open_ = [] then keys else open_
    let dist (k : Nat) : Nat := (k + 512 - l.served - 1) % 512
    match open_ with
    | [] => none
    | k0 :: rest =>
      let k := rest.foldl (fun b x => if dist x < dist b then x else b) k0
      (ts.find? (fun t => t.msg.share == some k)).map (fun t => (t, Tab.modify 0 quota k (· - 1), k))

/-- The first occurrence of a queued message removed. -/
def dropTx (t : TxMsg) : List TxMsg → List TxMsg
  | [] => []
  | x :: xs => if x = t then xs else x :: dropTx t xs

/-! Frames (R426, R427). -/

/-- A DATA frame being filled: slots used, sync slots among them, FIRST, the messages that end in it, its bytes. -/
structure Filling where
  used : Nat
  sync : Nat
  first : Nat
  msgs : List LinkMsg
  slots : List Byte
  deriving DecidableEq, Repr

def Filling.empty : Filling := ⟨0, 0, 0xFF, [], []⟩

/-- A message's slots put into frames from the one being filled on, `n` still to go: those filled and the one that is left.
The message ends in the frame that holds its last slot. -/
def Filling.put (m : LinkMsg) : Nat → Bool → List Byte → Filling → List Filling × Filling
  | 0, _, _, x => ([], x)
  | n + 1, start, bs, x =>
    let y : Filling :=
      { x with
        used := x.used + 1, sync := x.sync + boolNat (m.cls == 2), first := if start && x.first == 0xFF then x.used else x.first,
        msgs := if n = 0 then x.msgs ++ [m] else x.msgs, slots := x.slots ++ padTo 32 (bs.take 32) }
    if y.used = 19 then
      let (fs, z) := Filling.put m n false (bs.drop 32) .empty
      (y :: fs, z)
    else Filling.put m n false (bs.drop 32) y

/-- Messages put into frames back to back, in transmission order; no frame takes more than two sync slots (R427). -/
def fillFrames : List LinkMsg → Filling → List Filling
  | [], x => if x.used = 0 then [] else [x]
  | m :: ms, x =>
    if m.cls = 2 ∧ 2 < x.sync + m.slots ∧ x.used ≠ 0 then
      let (fs, y) := Filling.put m m.slots true m.bytes .empty
      (x :: fs) ++ fillFrames ms y
    else
      let (fs, y) := Filling.put m m.slots true m.bytes x
      fs ++ fillFrames ms y

/-- The frames of a list of messages from sequence f on. -/
def framesOf (ms : List LinkMsg) (now f : Nat) : List TxFrame :=
  (fillFrames ms .empty).mapIdx (fun i x => ⟨(f + i) % 65536, now, x.first, x.msgs, padTo 608 x.slots⟩)

/-- The messages that an UP link may send now, taken from its queue in the order of R440, with the credits that they use, as
long as the replay buffer has room for their frames. -/
def State.takeAll (port : Nat) : Nat → List TxMsg → State → List TxMsg × State
  | 0, ts, s => (ts, s)
  | fuel + 1, ts, s =>
    let l := s.link port
    match s.pick port with
    | none => (ts, s)
    | some (t, quota, served) =>
      if 1024 < l.replay.length + (framesOf ((ts ++ [t]).map (·.msg)) 0 0).length then (ts, s)
      else
        let l := { l with
          txq := dropTx t l.txq, quota := quota, served := served,
          sent := match t.msg.share with
            | none => l.sent
            | some k => Tab.modify 0 l.sent k (fun x => (x + t.msg.slots) % 65536) }
        State.takeAll port fuel (ts ++ [t]) ((s.setLink port l).countRate port t)

/-- A frame of the replay buffer sent, with acknowledgement and credits. -/
def State.sendFrame (s : State) (port : Nat) (f : TxFrame) : State :=
  let (cr, l) := (s.link port).takeCreds
  (s.setLink port l).emit (.frame port (frameBlock 0 f.fseq l.lastRx cr f.first f.slots))

/-- Send what an UP link may send: the messages become DATA frames in the replay buffer, and what forwarded ones held in
their receivers is freed (R427 to R430, R439). `fuel` bounds the messages. -/
def State.pump (port fuel : Nat) (s : State) : State :=
  if (s.link port).st ≠ .up then s
  else
    let (ts, s) := State.takeAll port fuel [] s
    let l := s.link port
    let fs := framesOf (ts.map (·.msg)) s.now l.nextFseq
    let s := s.setLink port { l with nextFseq := (l.nextFseq + fs.length) % 65536, replay := l.replay ++ fs }
    let s := fs.foldl (fun (s : State) f => s.sendFrame port f) s
    ts.foldl (fun (s : State) t => match t.hold with
      | some (rp, k) => s.freeRx rp (some k) t.msg.slots
      | none => s) s

/-- Queue a message on a physical link and send what may be sent. -/
def State.transmit (s : State) (port : Nat) (t : TxMsg) : State :=
  let l := s.link port
  State.pump port (l.txq.length + 1) (s.setLink port { l with txq := l.txq ++ [t] })

/-- The header with HOPS and VC read as zero: the additional data of R551. -/
def LinkMsg.aad (m : LinkMsg) : List Byte := ({ m with hops := 0, vc := 0 } : LinkMsg).header

/-- Encrypt a message that this module originates in a Cloche plot (R445, R551); none while the plot has no key under the KID
that new messages use. -/
def State.encrypt (s : State) (m : LinkMsg) : Option (LinkMsg × State) :=
  let kid := Tab.get 0 s.sec.kid m.plot
  let ctr := Tab.get 0 s.sec.ctr m.plot
  match Tab.get none s.sec.keys (2 * m.plot + kid) with
  | none => none
  | some key =>
    let iv := leBytes 2 (m.src + 2 ^ 15 * kid) ++ leBytes 10 ctr
    let m1 := { m with enc := true }
    let (ct, tag) := Config.gcmSeal key iv m1.aad (padTo 32 m.data)
    some ({ m1 with data := ct.take m.data.length, gcm := ct.drop m.data.length ++ iv ++ tag ++ leBytes 4 0 },
     { s with sec := { s.sec with ctr := Tab.set 0 s.sec.ctr m.plot (ctr + 1) } })

/-- A message as it leaves its originating module: encrypted in a Cloche plot. -/
def State.seal (s : State) (r : RoutingRec) (m : LinkMsg) : Option (LinkMsg × State) := if r.cloche then s.encrypt m else some (m, s)

/-- Originate a message in a plot: none when it is on its way, or the status with which it fails at once (R444, R445). One
that a Cloche plot has no key to encrypt with is not sent: DENIED, the outcome of check 5 that it would meet (DEDUCED, log
entry 107). -/
def State.originate (s : State) (m : LinkMsg) : Option Status × State :=
  match s.routeOf m.plot with
  | none => (some .denied, s)
  | some r =>
    match s.outPort r m none with
    | .error st => (some st, s)
    | .ok (p, m) =>
      match s.seal r m with
      | none => (some .denied, s)
      | some (m, s) =>
        let s := match s.plotOf r.part with
          | some _ => s.bumpPart r.part 0x1B 1
          | none => s
        (none, s.transmit p ⟨m, none⟩)

/-- The response to a class 0 message (R437): WRACK to a WR, RDDATA to an RD. -/
def LinkMsg.reply (m : LinkMsg) (own : Nat) (st : Status) (data : List Byte) : LinkMsg :=
  { typ := if m.typ = 2 then 4 else 3, cls := 1, vc := 0, xc := false, enc := false, plot := m.plot, hops := 0, src := own,
    dst := m.src, tag := m.tag, status := st.code, addr := 0, aux := 0, data := data, gcm := [] }

/-- Send a response; one that no route carries is lost, and the source fails the request under R346. -/
def State.respond (s : State) (m : LinkMsg) (st : Status) (data : List Byte) : State :=
  if m.cls = 0 then (s.originate (m.reply s.modid st data)).2 else s

/-! Answers to this module's own remote requests. -/

/-- The status of a STATUS byte (Table 13-11). DESIGN CHOICE (log entry 101): chapter 15 states no consequence of an unlisted
encoding in a response; the request that waits for it gets RANGE. -/
def Status.ofCode : Nat → Status
  | 0 => .ok | 1 => .state | 2 => .data | 3 => .timeout | 4 => .cancelled | 5 => .capacity | 6 => .expand
  | 7 => .remote | 8 => .denied | _ => .range

/-- An issued instruction of a region changed. -/
def State.modIssued (s : State) (r id : Nat) (f : Issued → Issued) : State :=
  let x := s.region r
  s.setRegion r { x with issued := x.issued.map (fun i => if i.id = id then f i else i) }

/-- A write that queue q's command waited for is over, with a status; a command that only waited for it completes. -/
def State.writeDone (s : State) (q : Nat) (st : Status) : State :=
  let s := s.modRunning q (fun y => { y with owed := y.owed - 1, status := y.status.worst st })
  match (s.queue q).running with
  | some y =>
    match y.ending with
    | some t => if y.owed = 0 then s.finish q t 0 else s
    | none => s
  | none => s

/-- The outcome of a remote request: a read's data is kept for its owner, a write's status is noted where its owner
waits for it, and a command that only waited completes. -/
def State.settleOne (s : State) (x : RemoteReq) (st : Status) (data : List Byte) : State :=
  let s := { s with eft := { s.eft with reqs := s.eft.reqs.erase x } }
  match x.read with
  | some (pa, _) => { s with eft := { s.eft with fetched := s.eft.fetched ++ [⟨x.owner, pa, st.code, data⟩] } }
  | none =>
    match x.owner with
    | .instr r id => s.modIssued r id (fun i => { i with owed := i.owed - 1, fail := i.fail.worst st })
    | .region _ => s
    | .cmd q => s.writeDone q st

/-- The request with a tag settled; none where no request waits under it. -/
def State.settleReq (s : State) (tag : Nat) (st : Status) (data : List Byte) : State :=
  match s.eft.reqs.find? (fun x => x.tag == tag) with
  | none => s
  | some x => s.settleOne x st data

/-- Send a WR or RD for an owner. A request that fails at once is settled at once. -/
def State.request (s : State) (owner : ReqOwner) (plot : Nat) (pa : Nat) (xc : Bool) (write : Option (List Byte)) (n : Nat) : State :=
  let tag := s.eft.nextTag
  let dst := pa / 2 ^ 48 % 2 ^ 15
  let m : LinkMsg :=
    { typ := if write.isSome then 1 else 2, cls := 0, vc := 0, xc := xc, enc := false, plot := plot, hops := 0,
      src := s.modid, dst := dst, tag := tag, status := 0, addr := pa % 2 ^ 48,
      aux := if write.isSome then 0 else n, data := write.getD [], gcm := [] }
  let req : RemoteReq := ⟨tag, dst, s.now, owner, if write.isSome then none else some (pa, n)⟩
  let s := { s with eft := { s.eft with nextTag := (tag + 1) % 65536, reqs := s.eft.reqs ++ [req] } }
  match s.originate m with
  | (none, s) => s
  | (some st, s) => s.settleOne req st []

end Sys2Proof.Machine
end

