-- ==== Sys2Proof/Machine/Access.lean ====
section
/-! DEFINITION. Memory and translation (chapter 12): the local map, range lookup, the access checks of Table 12-6, reads
and writes of device memory, hot-segment counting and the snoop filter. -/
namespace Sys2Proof.Machine

/-- Rows of Table 12-1. -/
inductive MapRow where
  | hbm | cellar | regionWin | recvWin | regs | host | reserved
  deriving DecidableEq, Repr

/-- The row of a local address (R342). -/
def mapRow (a : Nat) : MapRow :=
  if a < 0x9000000000 then .hbm
  else if 0x10000000000 ≤ a ∧ a < 0x30000000000 then .cellar
  else if 0x40000000000 ≤ a ∧ a < 0x40040000000 then .regionWin
  else if 0x50000000000 ≤ a ∧ a < 0x50010000000 then .recvWin
  else if 0x60000000000 ≤ a ∧ a < 0x60100000000 then .regs
  else if 0x800000000000 ≤ a ∧ a < 0x1000000000000 then .host
  else .reserved

/-- Rows of Table 12-1 one by one: two addresses lie in one row, with no other row between them, exactly when this is the
same. -/
def rowNumber (a : Nat) : Nat :=
  if a < 0x4800000000 then 0
  else if a < 0x9000000000 then 1
  else if a < 0x10000000000 then 2
  else if a < 0x30000000000 then 3
  else if a < 0x40000000000 then 4
  else if a < 0x40040000000 then 5
  else if a < 0x50000000000 then 6
  else if a < 0x50010000000 then 7
  else if a < 0x60000000000 then 8
  else if a < 0x60100000000 then 9
  else if a < 0x800000000000 then 10
  else 11

/-- Where the system area holds the count of a frame, a context's i-th range entry, and a context's i-th hot-segment counter
(Table 12-2). -/
def sysCount (frame : Nat) : Nat := 0x8FC0000000 + (if frame < 0x1000000 then 2 * frame else 2 * (9437184 + frame - 0x1000000))
def sysRange (ctx i : Nat) : Nat := 0x8FC0000000 + 0x6000000 + ctx * 0x20000 + 32 * i
def sysHot (ctx i : Nat) : Nat := 0x8FC0000000 + 0x7000000 + ctx * 0x80000 + 2 * i

/-- The system area (R343). -/
def inSystemArea (a n : Nat) : Bool := decide (a < 0x9000000000) && decide (0x8FC0000000 < a + n)

/-- Two spans overlap. -/
def overlaps (a n b m : Nat) : Bool := decide (a < b + m) && decide (b < a + n)
/-- Span (a, n) lies in span (b, m). -/
def within (a n b m : Nat) : Bool := decide (b ≤ a) && decide (a + n ≤ b + m)

/-- Memory spans of a kind and owner (Table 19-11). -/
def State.spansOf (s : State) (kind owner : Nat) : List SpanRec :=
  s.trl.st.spans.filter (fun x => x.kind == kind && x.owner == owner)

/-- Spans (base, size) that may adjoin hold every byte of a … a + n − 1; fuel: one step for each span passed. -/
def covers (xs : List (Nat × Nat)) : Nat → Nat → Nat → Bool
  | _, _, 0 => true
  | 0, _, _ => false
  | fuel + 1, a, n + 1 =>
    match xs.find? (fun x => decide (x.1 ≤ a) && decide (a < x.1 + x.2)) with
    | none => false
    | some x => let k := min (n + 1) (x.1 + x.2 - a); covers xs fuel (a + k) (n + 1 - k)

/-- A span lies within the partition's spans of a kind, in one or in several that adjoin. -/
def State.inSpans (s : State) (kind p a n : Nat) : Bool :=
  let xs := (s.spansOf kind p).map (fun x => (x.base, x.size))
  covers xs xs.length a n

/-- A host physical span lies in the partition's host windows (R372); addresses compare by bits [46:0]. -/
def State.inHostWindow (s : State) (kind p a n : Nat) : Bool :=
  let xs := (s.spansOf kind p).map (fun x => (x.base % 2 ^ 47, x.size))
  covers xs xs.length (a % 2 ^ 47) n

/-- Host memory that the host has unmapped, or a CXL port that is held in reset, fails an access. -/
def State.hostFails (s : State) (a n : Nat) : Bool :=
  s.host.perst || s.mem.hostUnmapped.any (fun x => overlaps (a % 2 ^ 47) n x.1 x.2)

/-- The start of a rising list of 64-byte units that an access touches. -/
def unitsOf (a n : Nat) : List Nat := if n = 0 then [] else (List.range ((a + n - 1) / 64 - a / 64 + 1)).map (· + a / 64)

/-- An access touches a unit with an uncorrectable error: its address. -/
def State.badUnit (s : State) (a n : Nat) : Option Nat :=
  (s.mem.bad.find? (fun u => decide (a < 64 * u + 64) && decide (64 * u < a + n))).map (64 * ·)

/-- A write covers part, not all, of a unit with an uncorrectable error (R361). -/
def State.badPartial (s : State) (a n : Nat) : Option Nat :=
  (s.mem.bad.find? (fun u => decide (a < 64 * u + 64) && decide (64 * u < a + n) && !(decide (a ≤ 64 * u) && decide (64 * u + 64 ≤ a + n)))).map (64 * ·)

/-- Bytes at a local address. -/
def State.readLocal (s : State) (a n : Nat) : List Byte :=
  if mapRow a = .host then s.mem.host.load (a % 2 ^ 47) n else s.mem.loc.load a n

/-- Bytes stored at a local address; units written whole lose their uncorrectable error (R361). -/
def State.writeLocal (s : State) (a : Nat) (bs : List Byte) : State :=
  if mapRow a = .host then { s with mem := { s.mem with host := s.mem.host.store (a % 2 ^ 47) bs } }
  else { s with mem := { s.mem with
          loc := s.mem.loc.store a bs,
          bad := s.mem.bad.filter (fun u => !(decide (a ≤ 64 * u) && decide (64 * u + 64 ≤ a + bs.length))) } }

def Piece.module_ (p : Piece) : Nat := p.pa / 2 ^ 48 % 2 ^ 15
def Piece.loc (p : Piece) : Nat := p.pa % 2 ^ 48

/-- Kinds of access (Table 12-6 row 2). -/
inductive AccKind where
  | read | write | program
  deriving DecidableEq, Repr

/-- Through which tables an access translates: a context, and for an instruction of a LAUNCH the bound generation's
entry of a partition (R294). -/
structure Via where
  ctx : Nat
  part : Nat
  gen : Option Nat
  deriving DecidableEq, Repr

/-- The entry that covers granule g. -/
def coverOf (es : List RangeEntry) (g : Nat) : Option RangeEntry :=
  es.find? (fun e => e.v && decide (e.start ≤ g) && decide (g < e.start + e.length))

/-- The address lies in the context's weight window (R293). -/
def State.inWindow (s : State) (ctx va : Nat) : Bool :=
  let w := (s.ctxRec ctx).wbase
  decide (w ≤ va) && decide (va < w + 2 ^ 44)

/-- The entry and the offset base that translate an address: the bound generation's in the weight window, the context's
table elsewhere (R294, R347). -/
def State.entryFor (s : State) (v : Via) (va : Nat) : Option (RangeEntry × Nat) :=
  if 2 ^ 57 ≤ va then none
  else if s.inWindow v.ctx va then
    match v.gen with
    | some e => (coverOf (s.gen v.part e).ranges ((va - (s.ctxRec v.ctx).wbase) / 4096)).map (fun x => (x, (s.ctxRec v.ctx).wbase))
    | none => none
  else (coverOf (Tab.get [] s.mem.tables v.ctx) (va / 4096)).map (fun x => (x, 0))

/-- The pieces of an access of n bytes, one for each range it touches (R354); none where no range covers a byte. -/
def State.pieces (s : State) (v : Via) : Nat → Nat → Nat → Option (List Piece)
  | _, _, 0 => some []
  | 0, _, _ => none
  | fuel + 1, va, n =>
    match s.entryFor v va with
    | none => none
    | some (e, base) =>
      let off := va - base
      let left := (e.start + e.length) * 4096 - off
      let k := min left n
      match s.pieces v fuel (va + k) (n - k) with
      | none => none
      | some ps => some (⟨va, e.pbase * 4096 + (off - e.start * 4096), k, e⟩ :: ps)

/-- The target module of a remote piece may be reached (R344). -/
def State.remoteOk (s : State) (p : Nat) (x : Piece) : Bool :=
  match s.plotOf p with
  | none => false
  | some r => r.members.contains x.module_ && (match mapRow x.loc with
    | .hbm | .cellar | .recvWin => true
    | _ => false)

def Piece.remote (x : Piece) (s : State) : Bool := x.module_ != s.modid

/-- An access touches a span that a scrub overwrites: it is refused (R553). -/
def State.scrubHit (s : State) (a n : Nat) : Bool :=
  s.sec.cloche.any (fun c => c.scrub && c.scrubSpans.any (fun x => overlaps a n x.1 x.2))

/-- Checks 2 to 5 of Table 12-6 on the pieces, in order: the first that fails decides. -/
def State.accessFail (s : State) (p : Nat) (k : AccKind) (ps : List Piece) : Option Status :=
  if ps.any (fun x => match k with
      | .read => !x.entry.r
      | .write => !x.entry.w
      | .program => !(x.entry.r && x.entry.p)) then some .denied
  else if ps.any (fun x => x.remote s && !(s.remoteOk p x)) then some .denied
  else if ps.any (fun x => !(x.remote s) && mapRow x.loc == .host && (!(s.inHostWindow 7 p x.loc x.len) || s.clocheShut p || s.hostFails x.loc x.len)) then some .denied
  else if ps.any (fun x => !(x.remote s) && (match mapRow x.loc with
      | .hbm | .cellar | .recvWin | .host => false
      | _ => true)) then some .range
  else if ps.any (fun x => !(x.remote s) && s.scrubHit x.loc x.len) then some .denied
  else none

/-- A range entry that the pieces were translated by lies in a unit of the system area with an uncorrectable error: the walk
that read it fails with DATA (R343, R353, R361). Weight range entries lie outside that area. -/
def State.walkBad (s : State) (v : Via) (ps : List Piece) : Option Nat :=
  ps.findSome? (fun x => if s.inWindow v.ctx x.va then none
    else s.badUnit (sysRange v.ctx ((Tab.get [] s.mem.tables v.ctx).takeWhile (· != x.entry)).length) 32)

/-- Translate an access: its pieces, or the status with which it fails (Table 12-6 rows 1 to 5; a write into the weight
window by an instruction is DENIED, R294). -/
def State.translate (s : State) (v : Via) (k : AccKind) (va n : Nat) : Except Status (List Piece) :=
  if k = .write ∧ v.gen.isSome ∧ va < 2 ^ 57 ∧ s.inWindow v.ctx va then .error .denied
  else match s.pieces v (n / 4096 + 2) va n with
    | none => .error .range
    | some ps => match s.accessFail v.part k ps with
      | some st => .error st
      | none => if (s.walkBad v ps).isSome then .error .data else .ok ps

/-! Hot segments (R356 to R358). -/

/-- The tier a piece lies in: 0 host aperture, 1 HBM, 2 cellar, 3 remote (Table 12-8). A local receive window lies in no
tier of that table. -/
def State.tierOf (s : State) (x : Piece) : Option Nat :=
  if x.remote s then some 3
  else match mapRow x.loc with
    | .host => some 0 | .hbm => some 1 | .cellar => some 2 | _ => none

/-- A log entry written to the hot-segment ring, or dropped and counted (R358). -/
def State.hotLog (s : State) (word0 : Nat) : State :=
  let m := s.mem
  let size := 2 ^ m.hotSizelog
  let full := (m.hotHead + 1) % size == m.hotTail
  let a := m.hotBase + 16 * m.hotHead
  let s := if full || s.hostFails a 16 then { s with mem := { m with hotLost := (m.hotLost + 1) % 2 ^ 32 } }
    else { s with mem := { m with host := m.host.store (a % 2 ^ 47) (leBytes 8 word0 ++ leBytes 8 s.now), hotHead := (m.hotHead + 1) % size } }
  s.irq 1

/-- One segment's counter raised by the 256-byte units that an access moves in it. A counter in a unit of the system area
with an uncorrectable error keeps its contents (R361). NOW of a receive window is an open value. -/
def State.hotBump (s : State) (ctx : Nat) (e : RangeEntry) (seg n : Nat) (now : Option Nat) : State :=
  let key := ctx * 262144 + e.cidx + seg
  let old := Tab.get 0 s.mem.hot key
  let new := min 65535 (old + n)
  if (s.badUnit (sysHot ctx (e.cidx + seg)) 2).isSome then s
  else
    let s := { s with mem := { s.mem with hot := Tab.set 0 s.mem.hot key new } }
    if old < s.mem.hotThresh ∧ s.mem.hotThresh ≤ new then
      let (t, s) := match now with
        | some t => (t, s)
        | none => let (w, s) := s.draw; (w.toNat % 4, s)
      s.hotLog ((e.start * 4096 + seg * 2 ^ 21) / 2 ^ 21 % 2 ^ 36 + ctx * 2 ^ 36 + e.hint * 2 ^ 42 + t * 2 ^ 44 + new * 2 ^ 48)
    else s

/-- The segments of bytes off … off + n − 1 of a range, each with one count for every 256 bytes, or part of 256 bytes, moved
in it. -/
def segCounts : Nat → Nat → Nat → List (Nat × Nat)
  | 0, _, _ => []
  | _, _, 0 => []
  | fuel + 1, off, n =>
    let k := min n (2 ^ 21 - off % 2 ^ 21)
    (off / 2 ^ 21, cdiv k 256) :: segCounts fuel (off + k) (n - k)

/-- Count one translated access (R356): only ranges whose HINT names another tier, and no Cloche partition. -/
def State.hotCount (s : State) (v : Via) (ps : List Piece) : State :=
  if !s.mem.hotEn || s.inCloche v.part then s
  else ps.foldl (fun (s : State) x =>
    if x.entry.hint = 0 ∨ x.entry.hint = 3 ∨ s.tierOf x = some x.entry.hint then s
    else (segCounts (x.len / 2 ^ 21 + 2) (x.va - x.entry.start * 4096) x.len).foldl
      (fun (s : State) c => s.hotBump v.ctx x.entry c.1 c.2 (s.tierOf x)) s) s

/-! The snoop filter (R365). -/

/-- Lines the host may hold among the local pieces. -/
def State.heldLines (s : State) (ps : List Piece) : List Nat :=
  s.mem.snoop.filter (fun l => ps.any (fun x => !(x.remote s) && decide (x.loc < 64 * l + 64) && decide (64 * l < x.loc + x.len)))

/-- Back-invalidate snoops issued for lines; the access waits until the host has answered. -/
def State.snoopLines (s : State) (ls : List Nat) : State :=
  ls.foldl (fun (s : State) l =>
    if s.mem.snooping.contains l then s
    else ({ s with mem := { s.mem with snooping := s.mem.snooping ++ [l] } } : State).emit (.snoop l)) s

/-- Local lines among bytes a … a + n − 1 that the host may hold. -/
def State.heldLocal (s : State) (a n : Nat) : List Nat := s.mem.snoop.filter (fun l => overlaps a n (64 * l) 64)

/-- A local write made once the host has answered for its lines; the command of a queue waits for it. -/
def State.deferWrite (s : State) (q : Option Nat) (a : Nat) (bs : List Byte) : State :=
  let s := s.snoopLines (s.heldLocal a bs.length)
  let s := { s with mem := { s.mem with held := s.mem.held ++ [⟨a, bs, q⟩] } }
  match q with
  | some q => s.modRunning q (fun x => { x with owed := x.owed + 1 })
  | none => s

/-! Reads and writes through translation. -/

/-- What an access found: it is done, it waits for the host or a remote module, or it fails. -/
inductive Got (α : Type) where
  | done (x : α)
  | wait
  | fail (st : Status)

/-- The pieces that ranges map from the start of an access on, as far as they reach without a gap, the last one taken to
the end of the access. -/
def State.reach (s : State) (v : Via) : Nat → Nat → Nat → List Piece
  | _, _, 0 => []
  | 0, _, _ => []
  | fuel + 1, va, n =>
    match s.entryFor v va with
    | none => []
    | some (e, base) =>
      let off := va - base
      let k := min ((e.start + e.length) * 4096 - off) n
      let pa := e.pbase * 4096 + (off - e.start * 4096)
      match s.reach v fuel (va + k) (n - k) with
      | [] => [⟨va, pa, n, e⟩]
      | ps => ⟨va, pa, k, e⟩ :: ps

/-- Split bytes a … a + n − 1 at every 8 KiB boundary (R435). -/
def split8k : Nat → Nat → Nat → List (Nat × Nat)
  | 0, _, _ => []
  | _, _, 0 => []
  | fuel + 1, a, n =>
    let k := min n (8192 - a % 8192)
    (a, k) :: split8k fuel (a + k) (n - k)

/-- The remote parts of pieces as (physical address, bytes), split. -/
def State.remoteParts (s : State) (ps : List Piece) : List (Nat × Nat) :=
  (ps.filter (fun x => x.remote s)).flatMap (fun x => split8k (x.len / 8192 + 2) x.pa x.len)

/-- Data that has arrived for an owner at a physical address. -/
def State.arrivedAt (s : State) (o : ReqOwner) (pa n : Nat) : Option Fetched :=
  s.eft.fetched.find? (fun f => f.owner == o && f.pa == pa && (f.status != 0 || f.bytes.length == n))

/-- The RD messages still to send for an owner. -/
def State.missing (s : State) (o : ReqOwner) (parts : List (Nat × Nat)) : List (Nat × Nat) :=
  parts.filter (fun x => (s.arrivedAt o x.1 x.2).isNone && !(s.eft.reqs.any (fun r => r.owner == o && r.read == some x)))

/-- A read of pieces for an owner: it waits for back-invalidate snoops and for remote data, fails with the worst status
of its parts, logs an uncorrectable error (R361), and otherwise gives its bytes. -/
def State.readPieces (s : State) (o : ReqOwner) (v : Via) (source seq queue : Nat) (ps : List Piece) : Got (List Byte) × State :=
  let held := s.heldLines ps
  if held ≠ [] then (.wait, s.snoopLines held)
  else
    let parts := s.remoteParts ps
    let plot := match s.plotOf v.part with
      | some r => r.plot
      | none => 0
    let s := (s.missing o parts).foldl (fun (s : State) x => s.request o plot x.1 false none x.2) s
    if parts.any (fun x => (s.arrivedAt o x.1 x.2).isNone) then (.wait, s)
    else
      let bad := parts.foldl (fun w x => match s.arrivedAt o x.1 x.2 with
        | some f => Status.worst w (Status.ofCode f.status)
        | none => w) Status.ok
      match ps.findSome? (fun x => if x.remote s then none else s.badUnit x.loc x.len) with
      | some a => (.fail (bad.worst .data), s.logError a (if a < 0x9000000000 then 1 else 2) source (some v.part) v.ctx seq queue)
      | none =>
        if bad ≠ .ok then (.fail bad, s)
        else
          let bytes := ps.flatMap (fun x =>
            if x.remote s then
              (split8k (x.len / 8192 + 2) x.pa x.len).flatMap (fun y => match s.arrivedAt o y.1 y.2 with
                | some f => f.bytes
                | none => [])
            else s.readLocal x.loc x.len)
          (.done bytes, s.hotCount v ps)

/-- The data an owner had fetched is used up. -/
def State.dropFetched (s : State) (o : ReqOwner) : State :=
  { s with eft := { s.eft with fetched := s.eft.fetched.filter (fun f => f.owner != o) } }

/-- The walk of an access that met an error in the system area leaves its entry in the error-range log. -/
def State.logWalk (s : State) (v : Via) (source seq queue va n : Nat) : State :=
  match s.walkBad v (s.reach v (n / 4096 + 2) va n) with
  | some a => s.logError a 1 source (some v.part) v.ctx seq queue
  | none => s

/-- Translate and read n bytes for an owner. -/
def State.devRead (s : State) (o : ReqOwner) (v : Via) (k : AccKind) (source seq queue va n : Nat) : Got (List Byte) × State :=
  match s.translate v k va n with
  | .error st => (.fail st, if st = .data then s.logWalk v source seq queue va n else s)
  | .ok ps => s.readPieces o v source seq queue ps

/-- Write bytes over pieces: local ones at once, remote ones as WR messages of an owner. The result is the number of
remote writes sent. A partial write to a unit with an uncorrectable error fails before any byte is written (R361). -/
def State.writePieces (s : State) (o : ReqOwner) (v : Via) (source seq queue : Nat) (xc : Bool) (ps : List Piece) (bs : List Byte) :
    Got Nat × State :=
  let held := s.heldLines ps
  if held ≠ [] then (.wait, s.snoopLines held)
  else match ps.findSome? (fun x => if x.remote s || mapRow x.loc == .host then none else s.badPartial x.loc x.len) with
    | some a => (.fail .data, s.logError a (if a < 0x9000000000 then 1 else 2) source (some v.part) v.ctx seq queue)
    | none =>
      let plot := match s.plotOf v.part with
        | some r => r.plot
        | none => 0
      let (s, sent, _) := ps.foldl (fun (acc : State × Nat × List Byte) x =>
        let (s, n, bs) := acc
        if x.remote s then
          let (s, n, _) := (split8k (x.len / 8192 + 2) x.pa x.len).foldl (fun (a : State × Nat × List Byte) y =>
            (a.1.request o plot y.1 xc (some (a.2.2.take y.2)) 0, a.2.1 + 1, a.2.2.drop y.2)) (s, n, bs)
          (s, n, bs.drop x.len)
        else (s.writeLocal x.loc (bs.take x.len), n, bs.drop x.len)) (s, 0, bs)
      (.done sent, s.hotCount v ps)

/-- Translate and write for an owner. A receive window takes no write but a record's (R184). -/
def State.devWrite (s : State) (o : ReqOwner) (v : Via) (source seq queue va : Nat) (bs : List Byte) : Got Nat × State :=
  match s.translate v .write va bs.length with
  | .error st => (.fail st, if st = .data then s.logWalk v source seq queue va bs.length else s)
  | .ok ps =>
    if ps.any (fun x => mapRow x.loc == .recvWin) then (.fail .range, s)
    else s.writePieces o v source seq queue false ps bs

/-- Remote writes that a command of queue q waits for. -/
def State.owe (s : State) (q n : Nat) : State := s.modRunning q (fun x => { x with owed := x.owed + n })

/-- A read by the command of queue q through its context (R355). -/
def State.cmdRead (s : State) (q ctx p : Nat) (k : AccKind) (va n : Nat) : Got (List Byte) × State :=
  let seq := match (s.queue q).running with
    | some x => x.cmd.seq
    | none => 0
  s.devRead (.cmd q) ⟨ctx, p, none⟩ k 1 seq q va n

/-- A write by the command of queue q through its context. -/
def State.cmdWrite (s : State) (q ctx p va : Nat) (bs : List Byte) : Got Unit × State :=
  let seq := match (s.queue q).running with
    | some x => x.cmd.seq
    | none => 0
  match s.devWrite (.cmd q) ⟨ctx, p, none⟩ 1 seq q va bs with
  | (.done n, s) => (.done (), s.owe q n)
  | (.wait, s) => (.wait, s)
  | (.fail st, s) => (.fail st, s)

/-! Region SRAM with its written marks (R554). -/

/-- One byte of region SRAM: zero in a line that is not marked written. -/
def Region.sramByte (r : Region) (a : Nat) : Byte := if Tab.get false r.sramMark (a / 64) then r.sram.byte a else 0

/-- A byte written: the rest of an unwritten line becomes zero, and the line is marked. -/
def Region.sramPut (r : Region) (a : Nat) (b : Byte) : Region :=
  if Tab.get false r.sramMark (a / 64) then { r with sram := r.sram.put a b }
  else { r with sram := (r.sram.clear (a / 64 * 64) 64).put a b, sramMark := Tab.set false r.sramMark (a / 64) true }

def Region.sramStore (r : Region) (a : Nat) : List Byte → Region
  | [] => r
  | b :: bs => Region.sramStore (r.sramPut a b) (a + 1) bs

def Region.sramLoad (r : Region) (a : Nat) : Nat → List Byte
  | 0 => []
  | n + 1 => r.sramByte a :: Region.sramLoad r (a + 1) n

/-- The marks of a carve-out's lines cleared: it starts unwritten (R555). -/
def Region.sramUnwrite (r : Region) (a n : Nat) : Region :=
  { r with sramMark := Tab.dropWhere (fun k => decide (a / 64 ≤ k) && decide (k < (a + n) / 64)) r.sramMark }

/-- A context's carve-outs in every region of its partition start unwritten (R93, R555). -/
def State.unwriteCtx (s : State) (ctx : Nat) : State :=
  let c := s.ctxRec ctx
  (s.regionsOf c.part).foldl (fun (s : State) r =>
    let x := s.region r
    s.setRegion r { x.sramUnwrite c.sramOff c.sramSize with blocks := x.blocks.map (fun b => b.unwrite c.bank0 c.bankN) }) s

end Sys2Proof.Machine
end

