-- ==== Sys2Proof/Machine/Gate.lean ====
section
/-! DEFINITION. Who may write which register when (R527, R581 to R584): the gate that every register write passes. -/
namespace Sys2Proof.Machine

/-- Blocks of BAR 0 (Table 22-1). -/
inductive Block22 where
  | component | msix | fe | feq (q : Nat) | slot | mmu | kv | eft | pwr | sec | mgt | bdp | bdpWin | dbg | trl
  | genWin | ringWin | seqWin | reserved
  deriving DecidableEq, Repr

/-- The block of an offset (Table 22-1). -/
def blockOf (o : Nat) : Block22 :=
  if o < 0x10000 then .component
  else if o < 0x18100 then .msix
  else if o < 0x20000 then .reserved
  else if o < 0x40000 then .fe
  else if o < 0x48100 then .feq ((o - 0x40000) / 64)
  else if o < 0x60000 then .reserved
  else if o < 0x80000 then .slot
  else if o < 0xA0000 then .mmu
  else if o < 0xC0000 then .kv
  else if o < 0xE0000 then .eft
  else if o < 0x100000 then .pwr
  else if o < 0x120000 then .sec
  else if o < 0x140000 then .mgt
  else if o < 0x141000 then .bdp
  else if o < 0x142000 then .bdpWin
  else if o < 0x160000 then .reserved
  else if o < 0x180000 then .dbg
  else if o < 0x1A0000 then .trl
  else if 0x200000 ≤ o ∧ o < 0x201000 then .genWin
  else if 0x300000 ≤ o ∧ o < 0x3C8000 then .ringWin
  else if 0x4000000 ≤ o ∧ o < 0x6000000 then .seqWin
  else .reserved

/-- The key of a requester's halves. -/
def Requester.key : Requester → Nat
  | .host => 0 | .mgmt => 1 | .bdp c => 2 + c

/-- The host, or channel 2, which is the host's window, count as the host only for CXL.io accesses (Table 22-3). -/
def Requester.isHost : Requester → Bool
  | .host => true
  | _ => false

def State.halves (s : State) (rq : Requester) : Halves := Tab.get .none s.host.halves rq.key
def State.setHalves (s : State) (rq : Requester) (h : Halves) : State :=
  { s with host := { s.host with halves := Tab.set .none s.host.halves rq.key h } }

/-- A held low half is discarded by any other access of its requester (R581). -/
def State.dropHeld (s : State) (rq : Requester) : State :=
  match (s.halves rq).held with
  | some (off, _) => (s.setHalves rq { s.halves rq with held := none }).discard 0x21 off
  | none => s

/-- Registers that may be written before the trellis image (Table 19-16). -/
def writableUnloaded (o : Nat) : Bool :=
  match blockOf o with
  | .mgt | .bdp | .bdpWin | .sec | .trl | .component | .msix => true
  | _ => o == 0xE0010

/-- Registers that may be written between step 2 of a device reset and its ready point (R584). -/
def writableInReset (o : Nat) : Bool :=
  match blockOf o with
  | .pwr | .sec | .mgt => true
  | _ => o == 0x20010 || o == 0x20020

/-- The reach of Table 22-3 allows the write. -/
def State.reaches (s : State) (rq : Requester) (o : Nat) : Bool :=
  match blockOf o with
  | .component | .msix => rq.isHost
  | .feq q => rq.isHost || decide (512 ≤ q)
  | .kv => let p := (o - 0xA0000) / 256
      if s.inCloche p then rq.isHost && (s.cloche p).st == .admitted else true
  | .mgt => !rq.isHost || o == 0x120000 || o == 0x120008
  | .bdp => let c := (o - 0x140000) / 8 % 8
      if rq.isHost then c == 2 else c != 2
  | .bdpWin => rq.isHost
  | .genWin | .ringWin | .seqWin => false
  | _ => true

/-- The CODE with which a write at an offset is discarded, none when it may act. -/
def State.gateCode (s : State) (rq : Requester) (o : Nat) : Option Nat :=
  if !s.trl.loaded && !(writableUnloaded o) then some 0x23
  else if s.inReset && !(writableInReset o) then some 0x21
  else if !(s.reaches rq o) then some 0x21
  else none

/-- A requester's accesses reach the module: it has power, and the host's CXL.io port runs, from phase 3 (R531) and not
while PERST_N holds it in reset (R598). -/
def State.portUp (s : State) (rq : Requester) : Bool :=
  s.board.rails && (!rq.isHost || (!s.host.perst && decide (3 ≤ s.trl.phase)))

/-- A whole 64-bit write of a register by a requester: its held half is dropped, and the write acts when the gate lets
it. -/
def State.regWrite (s : State) (rq : Requester) (o : Nat) (f : State → State) : State :=
  if !(s.portUp rq) then s
  else
    let s := s.dropHeld rq
    match s.gateCode rq o with
    | some c => s.discard c o
    | none => f s

end Sys2Proof.Machine
end

