-- ==== Sys2Proof/Machine/Levels.lean ====
section
/-! DEFINITION. Power levels of the groups (R478 to R481, R489): their caps, the level in effect, forced levels, and the
restore ramp. Groups are numbered as PWR_LEVELn. -/
namespace Sys2Proof.Machine

/-- Trellis maximum of a group. -/
def State.groupMax (s : State) (n : Nat) : Nat :=
  if n < 8 then (s.partRec n).maxlvl else if n < 10 then s.trl.st.modrec.uncoreMax else s.trl.st.modrec.shedMax

/-- Thermal domains of a group: 0 and 1 the compute dies, 2 the shed. -/
def State.domainsOf (s : State) (n : Nat) : List Nat :=
  if n < 8 then ((s.regionsOf n).map (· / 8)).eraseDups else if n = 8 then [0] else if n = 9 then [1] else [2]

/-- Thermal cap of a group: the lower cap where a partition lies on both dies (R491). -/
def State.thermCap (s : State) (n : Nat) : Nat := (s.domainsOf n).foldl (fun m d => min m (s.pwr.therm.getD d 15)) 15

/-- The lowest of a group's caps under R478, the manager level apart. -/
def State.groupCap (s : State) (n : Nat) : Nat :=
  min (min (s.groupMax n) (s.thermCap n)) (if n < 8 then (s.part n).paceCap else 15)

/-- A group that the structure in force defines. -/
def State.groupOn (s : State) (n : Nat) : Bool := decide (8 ≤ n) || (s.partRec n).valid

/-- Level 0 is forced: VR_ALERT_N and the 100 µs after it, a thermal trip, or islands that are off (R478, R490, R491,
R497). -/
def State.forced (s : State) (n : Nat) : Bool :=
  s.pwr.vra || s.pwr.vrHold || (s.domainsOf n).any (fun d => s.pwr.tripped.getD d false)
  || s.pwr.ow == .overwintering || s.pwr.ow == .waking

/-- The level that a group is to have. -/
def State.levelTarget (s : State) (n : Nat) : Nat :=
  if s.forced n || !(s.groupOn n) then 0 else min (s.pwr.mgr.getD n 0) (s.groupCap n)

/-- The level in effect. -/
def State.level (s : State) (n : Nat) : Nat := s.pwr.level.getD n 0

/-- Clock of the region-control islands of partition p at its present level, in units of 62.5 kHz (Table 19-3 CLOCKS, kind
2 of Table 01-6). -/
def State.regionClock (s : State) (p : Nat) : Nat := s.trl.st.clocks.getD (16 * 2 + s.level p) 0 % 65536

/-- The region-control cycles up to now are counted at a clock; a clock of c × 62.5 kHz makes c units of 1/16,000 of a cycle
in a nanosecond. -/
def Region.countClock (x : Region) (now clk : Nat) : Region := { x with clkUnits := x.clkUnits + (now - x.clkAt) * clk, clkAt := now }

/-- Region-control cycles since the command's first issue in region r of partition p (Table 05-10). A stretched cycle counts
as one cycle (R482), so what the stretches took is no cycle. -/
def State.regionCycles (s : State) (p r : Nat) : Nat :=
  let x := (s.region r).countClock s.now (s.regionClock p)
  (x.clkUnits - x.clkLost) / 16000

/-- Every region of a partition counts its cycles up to now, before its clock changes. -/
def State.countClocks (s : State) (n : Nat) : State :=
  if n < 8 then (s.regionsOf n).foldl (fun (s : State) r => s.setRegion r ((s.region r).countClock s.now (s.regionClock n))) s else s

/-- The command waits outside its slot: a FENCE_WAIT or BARRIER that could not complete at once (R411). -/
def Running.outside (x : Running) : Bool :=
  x.started && (match x.cmd.body with
    | .fenceWait _ | .barrier _ => true
    | _ => false)

/-- A command of the partition runs (R470, R471, Table 19-15). DEDUCED (log entry 102): one that waits outside its slot is not
counted, since the command that ends its wait is dispatched to the same partition. -/
def State.partRuns (s : State) (p : Nat) : Bool :=
  (s.part p).launch.isSome || allQueues.any (fun q => match (s.queue q).running with
    | some x => !x.outside && s.partOfCtx (s.ctxOf q x.cmd.word1) == some p
    | none => false)

/-- The partition is in deterministic mode and runs a command. -/
def State.detRuns (s : State) (n : Nat) : Bool := decide (n < 8) && (s.partRec n).det && s.partRuns n

/-- A level change of an aligned partition waits for its running commands, and dispatch to it is held until it is made
(R471, R481). -/
def State.levelHeld (s : State) (n : Nat) : Bool := decide (n < 8) && (s.partRec n).det && s.level n != s.levelTarget n

/-- A deterministic partition is to be aligned before its next command (R472). -/
def State.loseAlign (s : State) (p : Nat) : State := s.setPart p { s.part p with needAlign := true }

/-- A group's level brought to its target. A forced change acts on a running command of an aligned partition at once and
leaves ALIGNLOST in the sync trace; any other waits for the command to end (R472, R481). -/
def State.refreshLevel (s : State) (n : Nat) : State :=
  let t := s.levelTarget n
  if s.level n = t then s
  else if s.detRuns n && !(s.forced n) then s
  else
    let s := s.countClocks n
    let s := { s with pwr := { s.pwr with level := s.pwr.level.set n t } }
    if n < 8 ∧ (s.partRec n).det then
      match (s.part n).launch with
      | some l =>
        let s := if l.aligned then s.strace 9 n 0 0 l.queue else s
        (s.setPart n { s.part n with launch := some { l with aligned := false } }).loseAlign n
      | none => s.loseAlign n
    else s

/-- Every group's level brought to its target. -/
def State.refreshLevels (s : State) : State := (List.range 11).foldl (fun (s : State) n => s.refreshLevel n) s

/-- Supply voltage of an island kind at a level, in mV (Table 19-3 CLOCKS; kinds in the row order of Table 01-6). -/
def State.supply (s : State) (kind level : Nat) : Nat := bits (s.trl.st.clocks.getD (16 * kind + level) 0) 25 16

/-- P_S and P_X, and a power of w watts, as energy in a 100 ns window, in 1/256 pJ. -/
def wattEnergy (w : Nat) : Nat := w * 25600000

/-- The control power of an idle module at a level: every group's static energy times K. -/
def State.idlePower (s : State) (level : Nat) : Nat :=
  (List.range 11).foldl (fun e n => if s.groupOn n then e + Config.staticEnergy n (min level (s.groupCap n)) else e) 0 * s.pwr.k / 2 ^ 14

/-- The level at which the restore ramp ends: it goes up one level at a time until P_c exceeds 0.95 × P_S (R489). -/
def State.rampEnd (s : State) : Nat → Nat → Nat
  | 0, l => l
  | fuel + 1, l =>
    if 15 ≤ l ∨ 95 * wattEnergy s.pwr.sust < 100 * s.idlePower l then l else s.rampEnd fuel (l + 1)

/-- The restore ramp: all groups together from level 0 toward the lowest of their caps. -/
def State.ramp (s : State) : State :=
  let l := s.rampEnd 15 0
  ({ s with pwr := { s.pwr with
      mgr := (List.range 11).map (fun n => min l (s.groupCap n)), lastRise := s.now, lowSince := none } } : State).refreshLevels

end Sys2Proof.Machine
end

