-- ==== Sys2Proof/Machine/Queues.lean ====
section
/-! DEFINITION. The front end (chapters 13, 14): doorbells, the fetcher, queue registers and actions, completion writes,
slots, selection, dispatch and the grant of regions. -/
namespace Sys2Proof.Machine

/-- Offset of a queue's register (Table 13-1). -/
def qOff (q reg : Nat) : Nat := 0x40000 + 64 * q + reg

/-- The module serves: start-up phase 9 (R29, Table 19-17). -/
def State.serving (s : State) : Bool := s.trl.phase == 9

/-! The fetcher (R380 to R382). -/

/-- The host's stores that reached host memory before its doorbell (R382). -/
def State.hostStores (s : State) (cs : List Host.Cell) : State :=
  cs.foldl (fun (s : State) c => { s with mem := { s.mem with host := s.mem.host.put (c.1 % 2 ^ 47) c.2 } }) s

/-- A wake trigger (R499): entry is abandoned and the module wakes. -/
def State.wakeUp (s : State) : State :=
  match s.pwr.ow with
  | .entering | .overwintering => { s with pwr := { s.pwr with ow := .waking } }
  | _ => s

/-- DOORBELL (R380, R392, Table 13-19). -/
def execDoorbell (rq : Requester) (q tail : Nat) (stores : List Host.Cell) (s : State) : Res :=
  .next ((s.hostStores stores).regWrite rq (qOff q 0x10) (fun s =>
    let x := s.queue q
    if 516 ≤ q then s
    else if x.ring.size ≤ tail then s.discard 0x20 (qOff q 0x10)
    else if x.state = .disabled then s.feEvent 0x30 q
    else
      let s := if s.pwr.wakedb then s.wakeUp else s
      let x := { x with tail := tail, rung := true }
      match x.state with
      | .idle => (s.setQueue q ({ x with state := .active } : Queue).advance2).settle q
      | .active | .held => (s.setQueue q x.advance2).settle q
      | _ => s.setQueue q x))

/-- A ring access of n bytes at an address may be made (R372, R547): local HBM or cellar, or host memory within the
partition's windows (a system queue: the system window) while the partition's accesses are not refused. -/
def State.ringOk (s : State) (q : Nat) (g : RingReg) (a n : Nat) : Bool :=
  if g.loc then
    (match mapRow a with
     | .hbm => !(inSystemArea a n)
     | .cellar => true
     | _ => false)
  else !(s.hostFails a n) &&
    (match s.partOfQueue q with
     | some p => s.inHostWindow 7 p a n && !(s.clocheShut p)
     | none => decide (512 ≤ q) && s.inHostWindow 8 0 a n)

/-- Bytes of a ring. -/
def State.ringRead (s : State) (g : RingReg) (a n : Nat) : List Byte :=
  if g.loc then s.mem.loc.load a n else s.mem.host.load (a % 2 ^ 47) n

/-- A ring read failed: FETCH_BLOCKED (R396). -/
def State.fetchFailed (s : State) (q : Nat) : State :=
  let x := s.queue q
  ((s.setQueue q { x with state := .fetchBlocked, fprior := x.state }).noteReady q).stateVector q

/-- The fetcher may read: the state lets it and it holds fewer than eight records (R382, Table 13-14). -/
def Queue.mayFetch (x : Queue) : Bool :=
  (match x.state with
   | .active | .held | .aborting => true
   | _ => false)
  && decide (x.fetched.length < 8) && (match x.pass with
    | some t => x.fidx != t
    | none => false)

/-- RING_FETCH: one command-ring read returns (R381, R396); in a local ring, when the host has given up the line (R365). -/
def execRingFetch (q : Nat) (good : Bool) (s : State) : Res :=
  let x := s.queue q
  if s.inReset || !x.mayFetch then .next s
  else
    let a := x.ring.base + 64 * x.fidx
    let bad := x.ring.loc && (s.badUnit a 64).isSome
    let held := if x.ring.loc then s.heldLocal a 64 else []
    if held ≠ [] then .next (s.snoopLines held)
    else if !good || bad || !(s.ringOk q x.ring a 64) then .next (s.fetchFailed q)
    else
      let x := { x with fetched := x.fetched ++ [s.ringRead x.ring a 64], fidx := (x.fidx + 1) % x.ring.size }
      .next ((s.setQueue q x.advance2).settle q)

/-! Completion writes (R388, R395). -/

/-- One completion record written at CTAIL: PHASE, the index, HEAD and the vector (R374, R388, R588). -/
def State.writeRecord (s : State) (q : Nat) (w : ComplWrite) : State :=
  let x := s.queue q
  let a := x.cring.base + 32 * x.ctail
  let bs := w.bytes.set 5 (w.bytes.getD 5 0 ||| (if x.phase then 1 else 0))
  let ct := (x.ctail + 1) % x.cring.size
  let x := { x with ctail := ct, phase := if ct = 0 then !x.phase else x.phase, head := (x.head + 1) % x.ring.size }
  let s := if x.cring.loc then s.writeLocal a bs
    else { s with mem := { s.mem with host := s.mem.host.store (a % 2 ^ 47) bs } }
  let s := s.setQueue q x
  if w.irq then s.vector q else s

/-- The next completion write may reach its ring. -/
def State.complOk (s : State) (q : Nat) : Bool :=
  let x := s.queue q
  s.ringOk q x.cring (x.cring.base + 32 * x.ctail) 32

/-- Every write in flight goes into the shadow, and the queue is COMPLETION_BLOCKED (R395). -/
def State.blockCompletion (s : State) (q : Nat) : State :=
  let x := s.queue q
  if x.inflight = [] then s
  else
    let carried := x.inflight.any (·.state)
    ((s.setQueue q { x with
      shadow := x.shadow ++ x.inflight, inflight := [], prior := x.state.heldBy carried, state := .complBlocked }).noteReady q).stateVector q

/-- COMPLETION_WRITE_ACK (R388, R588). A write outside the windows of R372 cannot be acknowledged: it fails. -/
def execCompletionWriteAck (q : Nat) (s : State) : Res :=
  let x := s.queue q
  match x.inflight with
  | [] => .next s
  | w :: rest =>
    let held := if x.cring.loc then s.heldLocal (x.cring.base + 32 * x.ctail) 32 else []
    if s.inReset then .next s
    else if held ≠ [] then .next (s.snoopLines held)
    else if !(s.complOk q) then .next (s.blockCompletion q)
    else .next (((s.setQueue q { x with inflight := rest }).writeRecord q w).settle q)

/-- COMPLETION_WRITE_FAILED (R395). -/
def execCompletionWriteFailed (q : Nat) (s : State) : Res := .next (s.blockCompletion q)

/-- Shadowed records written in order from CTAIL, as many as succeed (R395). -/
def State.writeShadow (q : Nat) : Nat → State → State
  | 0, s => s
  | n + 1, s =>
    let x := s.queue q
    match x.shadow with
    | [] => s
    | w :: rest => if s.complOk q then State.writeShadow q n ((s.setQueue q { x with shadow := rest }).writeRecord q w) else s

/-! Queue registers. -/

/-- A write of a ring register (Table 13-2): each field that holds a listed encoding takes its value (R15). LOC and BASE
are judged together: a local BASE has bits [63:48] zero. The second component says that every field was listed. -/
def RingReg.put (g : RingReg) (v : Nat) : RingReg × Bool :=
  let n := bits v 5 1
  let size := decide (4 ≤ n) && decide (n ≤ 16)
  let place := !(bit v 0) || bits v 63 48 == 0
  (⟨if place then bit v 0 else g.loc, if size then n else g.sizelog, if place then v / 4096 * 4096 else g.base⟩, size && place)

/-- FE_Q_RING (R373). -/
def execFeQRing (rq : Requester) (q : Nat) (v : Word) (s : State) : Res :=
  .next (s.regWrite rq (qOff q 0x00) (fun s =>
    if 516 ≤ q then s
    else if (s.queue q).state ≠ .disabled then s.discard 0x21 (qOff q 0x00)
    else
      let g := (s.queue q).ring.put v.toNat
      let s := s.setQueue q { s.queue q with ring := g.1 }
      if g.2 then s else s.discard 0x20 (qOff q 0x00)))

/-- FE_Q_CRING (R373). -/
def execFeQCring (rq : Requester) (q : Nat) (v : Word) (s : State) : Res :=
  .next (s.regWrite rq (qOff q 0x08) (fun s =>
    if 516 ≤ q then s
    else if (s.queue q).state ≠ .disabled then s.discard 0x21 (qOff q 0x08)
    else
      let g := (s.queue q).cring.put v.toNat
      let s := s.setQueue q { s.queue q with cring := g.1 }
      if g.2 then s else s.discard 0x20 (qOff q 0x08)))

/-- FE_Q_CHEAD (Table 13-4): accepted when the value, counted forward from CHEAD, goes no further than CTAIL. -/
def execFeQChead (rq : Requester) (q : Nat) (v : Word) (s : State) : Res :=
  .next (s.regWrite rq (qOff q 0x18) (fun s =>
    let x := s.queue q
    let n := x.cring.size
    let c := v.toNat % 2 ^ 16
    if 516 ≤ q then s
    else if n ≤ c ∨ (x.ctail + n - x.chead) % n < (c + n - x.chead) % n then s.discard 0x20 (qOff q 0x18)
    else (s.setQueue q { x with chead := c }).settle q))

/-- A queue of a partition whose memory is being scrubbed, or that the structure leaves unassigned, takes no ENABLE. -/
def State.enableOk (s : State) (q : Nat) : Bool :=
  s.serving && !s.inReset &&
    (if q < 512 then (match s.partOfQueue q with
      | some p => !(s.cloche p).scrub
      | none => false)
     else true)

/-- The fetch of a STOPPED queue begins again at HEAD (R397). -/
def Queue.restart (x : Queue) : Queue :=
  { x with fidx := x.nextIndex, fetched := [], staged := false, seqNext := none, pass := none, rung := true }

/-- QUEUE_ENABLE (R392, R397, R553): both states write the shadow first and fetch from HEAD. -/
def execQueueEnable (rq : Requester) (q good : Nat) (s : State) : Res :=
  .next (s.regWrite rq (qOff q 0x20) (fun s =>
    let x := s.queue q
    if 516 ≤ q then s
    else if !(s.enableOk q) then s.feEvent 0x32 q
    else match x.state with
      | .disabled =>
        let s := State.writeShadow q good s
        let x := s.queue q
        let x := { x with fidx := x.nextIndex, seqNext := none, enable := true }
        if x.shadow = [] then s.setQueue q { x with state := .idle }
        else (s.setQueue q { x with state := .complBlocked, prior := .idle }).stateVector q
      | .stopped =>
        let s := State.writeShadow q good (s.setQueue q x.restart)
        let x := s.queue q
        if x.shadow = [] then (s.setQueue q ({ x with state := .active, enable := true } : Queue).advance2).settle q
        else (s.setQueue q { x with state := .complBlocked, prior := .active, enable := true }).stateVector q
      | _ => s.feEvent 0x32 q))

/-- QUEUE_DISABLE (Table 13-5). -/
def execQueueDisable (rq : Requester) (q : Nat) (s : State) : Res :=
  .next (s.regWrite rq (qOff q 0x20) (fun s =>
    let x := s.queue q
    if 516 ≤ q then s
    else match x.state with
      | .idle | .stopped => s.setQueue q { x with state := .disabled, enable := false }
      | _ => s.feEvent 0x32 q))

/-- SKIP (R393). -/
def execSkip (rq : Requester) (q : Nat) (s : State) : Res :=
  .next (s.regWrite rq (qOff q 0x20) (fun s =>
    let x := s.queue q
    if 516 ≤ q then s
    else match x.state with
      | .held => (s.setQueue q { x with state := .active }).settle q
      | _ => s.feEvent 0x31 q))

/-- A blocked queue returns to the state `st` that the failure interrupted: an IDLE one to ACTIVE when a doorbell was recorded
meanwhile (R400), and a FETCH_BLOCKED one still waits for its own RESUME. Entering HELD raises the state vector
(Table 22-10). -/
def State.unblock (s : State) (q : Nat) (st : QState) : State :=
  let x := s.queue q
  if st = .fetchBlocked then s.setQueue q { x with state := st }
  else
    let st := if st = .idle ∧ x.calls = true then .active else st
    let s := (s.setQueue q ({ x with state := st } : Queue).advance2).settle q
    if st = .held then s.stateVector q else s

/-- RESUME (R395, R396): the shadow is written, `good` records succeeding, or the failed ring read is repeated. -/
def execResume (rq : Requester) (q good : Nat) (s : State) : Res :=
  .next (s.regWrite rq (qOff q 0x20) (fun s =>
    let x := s.queue q
    if 516 ≤ q then s
    else match x.state with
      | .complBlocked =>
        let s := State.writeShadow q good s
        if (s.queue q).shadow = [] then s.unblock q x.prior else s
      | .fetchBlocked => s.unblock q x.fprior
      | _ => s.feEvent 0x31 q))

/-- ZERO (Table 13-5). -/
def execZero (rq : Requester) (q : Nat) (s : State) : Res :=
  .next (s.regWrite rq (qOff q 0x20) (fun s =>
    let x := s.queue q
    if 516 ≤ q then s
    else match x.state with
      | .disabled => s.setQueue q { x with
          head := 0, fidx := 0, tail := 0, ctail := 0, phase := true, shadow := [], seqNext := none, rung := false, pass := none,
          fetched := [], staged := false }
      | _ => s.feEvent 0x31 q))

/-- WATCHDOG_EXPIRE (R398, R399). -/
def execWatchdogExpire (q : Nat) (s : State) : Res :=
  match (s.queue q).running with
  | some x =>
    match x.wdog with
    | some t => if t ≤ s.now then .next (s.startReset 2 0 q x.cmd.seq 0 0) else .next s
    | none => .next s
  | none => .next s

/-! Slots (R405 to R409). -/

/-- The deadline of the oldest record. -/
def Queue.deadline (x : Queue) : Nat :=
  match x.fetched with
  | bs :: _ => recWord1 bs
  | [] => 2 ^ 64 - 1

def Queue.headOpcode (x : Queue) : Option Nat := x.fetched.head?.map recOpcode

/-- A command of a non-tuning queue of partition p is ready, or selected or running in a slot (R325, R408). One that waits
outside its slot is none of these (R411). -/
def State.otherBusy (s : State) (p : Nat) : Bool :=
  (List.range 512).any (fun q => !(s.qmapOf q).tune && s.partOfQueue q == some p &&
    ((s.queue q).ready || s.slots.any (fun t => t.sel == some q)))

/-- A command of a tuning queue must wait for the serving ones of its partition (R325, R408). -/
def State.tuneBarred (s : State) (q : Nat) : Bool :=
  decide (q < 512) && (s.qmapOf q).tune && (match s.partOfQueue q with
    | some p => s.otherBusy p
    | none => true)

/-- The user queues a slot may select from now (R408). -/
def State.eligible (s : State) (slot : Nat) : List Nat :=
  (List.range 512).filter (fun q => (s.qmapOf q).assigned && (s.qmapOf q).slot == slot && (s.queue q).ready
    && !(s.slots.any (fun t => t.sel == some q)) && !(s.tuneBarred q))

/-- The queue with the earliest deadline, the lower number on equal ones. -/
def State.earliest (s : State) (qs : List Nat) : Option Nat :=
  qs.foldl (fun (b : Option Nat) q => match b with
    | none => some q
    | some c => if (s.queue q).deadline < (s.queue c).deadline then some q else b) none

/-- SLOT_SELECT (R408). -/
def execSlotSelect (i : Nat) (s : State) : Res :=
  let t := s.slot i
  if !t.en || t.sel.isSome || decide (32 ≤ i) || s.inReset then .next s
  else match s.earliest (s.eligible i) with
    | some q => .next (s.setSlot i { t with sel := some q, tSel := s.now })
    | none => .next s

/-- The command of queue q is selected: in a slot, or ready in a system queue's lane (R371). -/
def State.selected (s : State) (q : Nat) : Bool :=
  (s.queue q).ready && (decide (512 ≤ q) || s.slots.any (fun t => t.sel == some q))

/-- The context and partition of the oldest record of a queue. -/
def State.headPart (s : State) (q : Nat) : Option Nat :=
  match (s.queue q).fetched with
  | bs :: _ => s.partOfCtx (s.ctxOf q (recWord1 bs))
  | [] => none

/-- New dispatch to a partition is held: overwintering (R497), a level change (R481), an alignment that is due (R472), a
retest that is due (R505), or a patch that waits for the partition (R506, R526). -/
def State.dispatchHeld (s : State) (p : Nat) : Bool :=
  s.pwr.ow != .serving || (s.part p).needAlign && (s.partRec p).det || s.levelHeld p || s.retestHolds p
  || (match s.trl.busy with
      | some b => b.hold.contains p
      | none => false)

/-- A LAUNCH of a queue waits for the regions of partition p. -/
def State.waitsRegions (s : State) (p q : Nat) : Bool :=
  s.selected q && (s.queue q).headOpcode == some 1 && s.headPart q == some p && !(s.queue q).granted

/-- A queue holds a grant of partition p's regions that it has not used. -/
def State.grantOut (s : State) (p : Nat) : Bool :=
  allQueues.any (fun q => (s.queue q).granted && (match (s.queue q).running with
    | some x => s.partOfCtx (s.ctxOf q x.cmd.word1) == some p
    | none => s.headPart q == some p))

/-- The slot number that holds a queue. -/
def State.slotHolding (s : State) (q : Nat) : Nat := (s.slots.takeWhile (fun t => t.sel != some q)).length

/-- The LAUNCH that gets a partition's regions (R410). -/
def State.grantee (s : State) (p : Nat) : Option Nat :=
  let sys := [512, 513, 514, 515].find? (s.waitsRegions p)
  match sys with
  | some q => some q
  | none =>
    let ws := (List.range 512).filter (s.waitsRegions p)
    let main := ws.filter (fun q => !(s.qmapOf q).tune)
    let ws := if main = [] then ws else main
    ws.foldl (fun (b : Option Nat) q => match b with
      | none => some q
      | some c =>
        let dq := (s.queue q).deadline
        let dc := (s.queue c).deadline
        if dq < dc ∨ (dq = dc ∧ s.slotHolding q < s.slotHolding c) then some q else b) none

/-- REGION_GRANT (R404, R410). -/
def execRegionGrant (p : Nat) (s : State) : Res :=
  if (s.part p).launch.isSome || s.grantOut p || s.inReset || s.regionsOf p == [] then .next s
  else match s.grantee p with
    | some q => .next (s.setQueue q { s.queue q with granted := true })
    | none => .next s

/-! Dispatch (R398, R409). -/

/-- COPYs running on the module. -/
def State.copies (s : State) : Nat :=
  (allQueues.filter (fun q => match (s.queue q).running with
    | some x => x.cmd.opcode == 4
    | none => false)).length

/-- The watchdog expiry of a command dispatched now (Table 13-15); a LAUNCH's is set when its image is known. -/
def State.budget (s : State) (opcode : Nat) : Option Nat :=
  let w := s.front.wdog
  match opcode with
  | 0x04 | 0x08 | 0x09 | 0x0A | 0x0B | 0x10 | 0x19 => if w.long = 0 then none else some (s.now + w.long * 1000000)
  | 0x00 | 0x02 | 0x11 | 0x12 | 0x18 => if w.base = 0 then none else some (s.now + w.base * 1000)
  | _ => none

/-- The generation entry of a partition with a number in a state that batches may bind to (R316). -/
def State.findGen (s : State) (p gen : Nat) : Option Nat :=
  (List.range 8).find? (fun e =>
    let g := s.gen p e
    if gen = 0xFFFF then g.st == .current else g.gen == gen && (g.st == .ready || g.st == .current))

/-- The entry whose number is `gen` and that is not FREE. -/
def State.entryOf (s : State) (p gen : Nat) : Option Nat :=
  (List.range 8).find? (fun e => (s.gen p e).st != .free && (s.gen p e).gen == gen)

def GenState.live : GenState → Bool
  | .free => false
  | _ => true

/-- A generation is freed (R304): its entry is FREE, its rootstock unreferenced when no generation uses it, and the
partition leaves the masks of bindings that only this generation used. -/
def State.freeGen (s : State) (p e : Nat) : State :=
  let g := s.gen p e
  let s := s.setGen p e .free
  let used := (List.range 64).any (fun k => let x := Tab.get .free s.wgt.gens k; x.st.live && x.root == g.root)
  let binds := match g.bind with
    | none => s.wgt.binds
    | some b =>
      if (List.range 8).any (fun k => let x := s.gen p k; x.st.live && x.bind == some b) then s.wgt.binds
      else match s.wgt.binds.getD b none with
        | none => s.wgt.binds
        | some x =>
          let m := x.mask.filter (· != p)
          s.wgt.binds.set b (if m = [] then none else some { x with mask := m })
  let roots := if used then s.wgt.roots else s.wgt.roots.set g.root .free
  let regions := s.regions.map (fun x => { x with rlc := x.rlc.filter (fun c => !(c.weight && c.tag == p && c.gen == g.gen)) })
  { s with wgt := { s.wgt with binds := binds, roots := roots }, regions := regions }

/-- One batch less is bound to a generation; a DRAINING one with none left becomes FREE, with an event (R314). -/
def State.unbind (s : State) (p gen : Nat) : State :=
  match s.entryOf p gen with
  | none => s
  | some e =>
    let g := s.gen p e
    let g := { g with refs := g.refs - 1 }
    let s := s.setGen p e g
    if g.st = .draining ∧ g.refs = 0 then (s.freeGen p e).event (islandShed 20) 0xA0 (some p) none g.gen else s

/-- The batch of a queue ends (R315). -/
def State.endBatch (s : State) (q : Nat) : State :=
  match (s.queue q).batch with
  | none => s
  | some b => (s.setQueue q { s.queue q with batch := none }).unbind b.part b.gen

/-- The generation a LAUNCH runs on, after binding its batch when it is the first of one (R315 to R317); none is STATE. -/
def State.bind (s : State) (q p : Nat) (f : LaunchF) : Option Nat × State :=
  let s := match (s.queue q).batch with
    | some b => if (b.id ≠ f.batch ∨ b.part ≠ p) ∧ b.open_ = 0 then s.endBatch q else s
    | none => s
  match (s.queue q).batch with
  | some b =>
    if b.id = f.batch ∧ b.part = p then
      if f.gen = 0xFFFF ∨ f.gen = b.gen then (some b.gen, s.setQueue q { s.queue q with batch := some { b with open_ := b.open_ + 1 } })
      else (none, s)
    else (none, s)
  | none =>
    match s.findGen p f.gen with
    | none => (none, s)
    | some e =>
      let g := s.gen p e
      (some g.gen, (s.setGen p e { g with refs := g.refs + 1 }).setQueue q { s.queue q with batch := some ⟨f.batch, p, g.gen, 1⟩ })

/-- The slot's counters at a dispatch (R413). -/
def Slot.dispatched (t : Slot) (now : Nat) : Slot :=
  { t with cmds := t.cmds + 1, wait := t.wait + BitVec.ofNat 64 (actCycles t.tSel now) }

/-- The queue's oldest record becomes its running command, its watchdog started. -/
def State.take (s : State) (q : Nat) (bs : List Byte) : State :=
  let x := s.queue q
  let c := recCmd bs
  let lane := if 512 ≤ q then s.laneOf q else s.slotHolding q
  let cloche := match s.headPart q with
    | some p => s.inCloche p
    | none => false
  let s := if lane < 32 then
      let t := s.slot lane
      if cloche then s else s.setSlot lane (t.dispatched s.now)
    else s
  s.setQueue q { x with
    fetched := x.fetched.tail, staged := false, tReady := none, seqNext := some ((c.seq + 1) % 2 ^ 32),
    running := some { cmd := c, lane := lane, tReady := x.tReady.getD s.now, tSel := s.now, tDisp := s.now, wdog := s.budget c.opcode,
                      started := false, waitUntil := none, status := .ok, first := 0xFFFF, dropped := 0, flags := 0,
                      sel := s.selOf lane, latch := s.cntOf lane, energy0 := s.energyQ q, owed := 0, ending := none, moves := none, gen := none, rt := x.rt },
    rt := none }

/-- A dispatched LAUNCH binds its batch, before any later command can change the generations (R316, R318, R409). -/
def State.bindRun (s : State) (q : Nat) : State :=
  match (s.queue q).running with
  | none => s
  | some x =>
    match x.cmd.body, s.partOfCtx (s.ctxOf q x.cmd.word1) with
    | .launch f, some p =>
      if queueAccepts q x.cmd.opcode then
        let (gen, s) := s.bind q p f
        s.modRunning q (fun y => { y with gen := gen })
      else s
    | _, _ => s

/-- The fence that a fence command names. -/
def CmdBody.fence : CmdBody → Option Nat
  | .fenceSignal f => some f.fence
  | .fenceWait f => some f.fence
  | _ => none

/-- A fence command of partition p on a fence has been dispatched and has not acted yet. -/
def State.fencePending (s : State) (p f : Nat) : Bool :=
  allQueues.any (fun q => match (s.queue q).running with
    | some x => !x.started && x.cmd.body.fence == some f && s.partOfCtx (s.ctxOf q x.cmd.word1) == some p
    | none => false)

/-- The executor takes the oldest record of queue q now (Table 14-4): a LAUNCH that has been granted its regions, a COPY in
one of eight places, and a fence command once the one dispatched before it on its fence has acted, so that the fence is as
dispatch found it (R383). -/
def State.accepts (s : State) (q : Nat) (bs : List Byte) : Bool :=
  let op := recOpcode bs
  if op = 1 then (s.queue q).granted || !(queueAccepts q op)
  else if op = 4 then decide (s.copies < 8)
  else match (recCmd bs).body.fence, s.headPart q with
    | some f, some p => !(s.fencePending p f)
    | _, _ => true

/-- COMMAND_DISPATCH: the executor accepts the selected command (R371, R383, R409), and no more than seven completion writes
of its queue are unacknowledged (R395). A tuning command that is barred by now gives up its slot and its grant (R325): a
serving command may be waiting for that very slot. `hub` is the error that reading the shed's state for the command finds
(R503); with no good copy of it the command is not dispatched. -/
def execCommandDispatch (q : Nat) (hub : Option HubFault) (s : State) : Res :=
  let x := s.queue q
  match x.fetched with
  | [] => .next s
  | bs :: _ =>
    let held := match s.headPart q with
      | some p => s.dispatchHeld p
      | none => s.pwr.ow != .serving
    if !(s.selected q) || s.inReset || held || decide (8 ≤ x.inflight.length) then .next s
    else if s.tuneBarred q then .next ((s.setQueue q { x with granted := false }).freeSlot q)
    else if s.accepts q bs then
      match hub with
      | some (.lost u) => .next (s.hubFound (.lost u))
      | some f => .next (((s.hubFound f).take q bs).bindRun q)
      | none => .next ((s.take q bs).bindRun q)
    else .next s

end Sys2Proof.Machine
end

