-- ==== Sys2Proof/Machine/Digest.lean ====
section
/-! DEFINITION. SHA3-512 (FIPS 202) and CRC-32C (RFC 3720), which the spec names for its digests and check fields. -/
namespace Sys2Proof.Machine

/-- Lane (x, y) of a Keccak state. -/
def lane (a : List Word) (x y : Nat) : Word := a.getD (x % 5 + 5 * (y % 5)) 0

/-- Rotation offsets of Keccak, lane x + 5 y. -/
def keccakRot : List Nat := [0, 1, 62, 28, 27, 36, 44, 6, 55, 20, 3, 10, 43, 25, 39, 41, 45, 15, 21, 8, 18, 2, 61, 56, 14]

/-- Round constants of Keccak-f[1600]. -/
def keccakRc : List Word :=
  [0x0000000000000001, 0x0000000000008082, 0x800000000000808A, 0x8000000080008000, 0x000000000000808B, 0x0000000080000001,
   0x8000000080008081, 0x8000000000008009, 0x000000000000008A, 0x0000000000000088, 0x0000000080008009, 0x000000008000000A]
  ++ [0x000000008000808B, 0x800000000000008B, 0x8000000000008089, 0x8000000000008003, 0x8000000000008002, 0x8000000000000080,
   0x000000000000800A, 0x800000008000000A, 0x8000000080008081, 0x8000000000008080, 0x0000000080000001, 0x8000000080008008]

/-- One round: theta, rho and pi, chi, iota. -/
def keccakRound (a : List Word) (rc : Word) : List Word :=
  let c := (List.range 5).map (fun x => lane a x 0 ^^^ lane a x 1 ^^^ lane a x 2 ^^^ lane a x 3 ^^^ lane a x 4)
  let d := (List.range 5).map (fun x => c.getD ((x + 4) % 5) 0 ^^^ (c.getD ((x + 1) % 5) 0).rotateLeft 1)
  let t := (List.range 25).map (fun i => a.getD i 0 ^^^ d.getD (i % 5) 0)
  -- lane (x, y) of the result of pi comes from lane (x + 3 y, x)
  let b := (List.range 25).map (fun i =>
    let x := i % 5
    let y := i / 5
    let j := (x + 3 * y) % 5 + 5 * x
    (t.getD j 0).rotateLeft (keccakRot.getD j 0))
  (List.range 25).map (fun i =>
    let x := i % 5
    let y := i / 5
    let v := lane b x y ^^^ ((~~~ lane b (x + 1) y) &&& lane b (x + 2) y)
    if i = 0 then v ^^^ rc else v)

/-- Keccak-f[1600]. -/
def keccakF (a : List Word) : List Word := keccakRc.foldl keccakRound a

/-- Absorb a padded message, 72 bytes at a time. -/
def absorb : Nat → List Word → List Byte → List Word
  | 0, a, _ => a
  | fuel + 1, a, bs =>
    match bs with
    | [] => a
    | _ =>
      let blk := bs.take 72
      let a := (List.range 25).map (fun i =>
        if i < 9 then a.getD i 0 ^^^ BitVec.ofNat 64 (leNat ((blk.drop (8 * i)).take 8)) else a.getD i 0)
      absorb fuel (keccakF a) (bs.drop 72)

/-- The pad of SHA-3: 0x06, zeros, 0x80 (in one byte 0x86). -/
def sha3Pad (bs : List Byte) : List Byte :=
  let n := 72 - bs.length % 72
  bs ++ (if n = 1 then [0x86] else (0x06 : Byte) :: List.replicate (n - 2) 0 ++ [0x80])

/-- SHA3-512. -/
def sha3 (bs : List Byte) : List Byte :=
  let m := sha3Pad bs
  let a := absorb (m.length / 72 + 1) (List.replicate 25 0) m
  (a.take 8).flatMap (fun w => leBytes 8 w.toNat)

/-- One byte of CRC-32C (reflected polynomial 0x82F63B78). -/
def crcByte (c : Nat) (b : Byte) : Nat :=
  (List.range 8).foldl (fun c _ => if c % 2 = 1 then (c / 2) ^^^ 0x82F63B78 else c / 2) (c ^^^ b.toNat)

/-- CRC-32C. -/
def crc32c (bs : List Byte) : Nat := (bs.foldl crcByte 0xFFFFFFFF) ^^^ 0xFFFFFFFF

end Sys2Proof.Machine
end

