-- ==== Sys2Proof/Machine/Expander.lean ====
section
/-! DEFINITION. Vector-quantised weights (chapter 09): codebook blocks, code streams, the expanders' checks and what
they write. -/
namespace Sys2Proof.Machine

/-! Structures of a compressed payload (Tables 09-2, 09-3). -/

/-- Code width b of a BITS field and elements g of a G field. -/
def vqBits (params : Nat) : Nat := 4 + 2 * bits params 1 0
def vqG (params : Nat) : Nat := if bit params 2 then 8 else 4

/-- Output format of an OUTFMT field. -/
def vqOut (params : Nat) : Option Fmt :=
  match bits params 6 3 with
  | 2 => some .bf16 | 3 => some .fp16 | 4 => some .e4m3 | 5 => some .e5m2 | _ => none

/-- Bytes of a codebook block, padding included (R271). -/
def blockLen (b g : Nat) : Nat := cdiv (64 + 2 ^ b * 2 * g) 64 * 64
/-- Bytes of a code stream of n codes, padding included (R272). -/
def streamLen (b n : Nat) : Nat := cdiv (64 + cdiv (n * b) 8) 64 * 64

/-- A code stream's header. -/
structure StreamHdr where
  b : Nat
  g : Nat
  out : Fmt
  n : Nat
  crc : Nat
  cboff : Int
  tag : List Byte
  segment : Nat
  stream : Nat
  deriving DecidableEq, Repr

def StreamHdr.len (h : StreamHdr) : Nat := streamLen h.b h.n

/-- Bytes o … o + n − 1 are zero. -/
def zeros (bs : List Byte) (o n : Nat) : Bool := ((bs.drop o).take n).all (· == 0)

/-- Bytes o … o + n − 1 read as zero. -/
def blanked (bs : List Byte) (o n : Nat) : List Byte := bs.take o ++ List.replicate n 0 ++ bs.drop (o + n)

/-- Check 1 of Table 09-4 on a header's 64 bytes. -/
def StreamHdr.parse (bs : List Byte) : Option StreamHdr :=
  let params := leAt bs 6 2
  let n := leAt bs 8 4
  if leAt bs 0 4 ≠ 0x4B325653 ∨ leAt bs 4 2 ≠ 1 ∨ bits params 1 0 = 3 ∨ params / 128 ≠ 0 ∨ n = 0 ∨ 2 ^ 20 < n ∨ !(zeros bs 40 24) then
    none
  else
    (vqOut params).map (fun f =>
      ⟨vqBits params, vqG params, f, n, leAt bs 12 4, sext 64 (leAt bs 16 8), (bs.drop 24).take 8, leAt bs 32 4, leAt bs 36 4⟩)

/-- A codebook block's own conditions: KIND, VERSION, PARAMS, reserved bytes, CRC (Table 09-2). -/
def blockWf (bs : List Byte) : Bool :=
  let params := leAt bs 6 2
  leAt bs 0 4 == 0x4B324342 && leAt bs 4 2 == 1 && bits params 1 0 != 3 && params / 8 == 0 && zeros bs 16 48
  && decide (bs.length = blockLen (vqBits params) (vqG params))
  && zeros bs (64 + 2 ^ vqBits params * 2 * vqG params) 64
  && leAt bs 12 4 == crc32c (blanked bs 12 4)

/-- Check 4: the block fits the stream. -/
def StreamHdr.blockOk (h : StreamHdr) (bs : List Byte) : Bool :=
  blockWf bs && vqBits (leAt bs 6 2) == h.b && vqG (leAt bs 6 2) == h.g && leAt bs 8 4 == h.segment

/-- CBOFF is a negative multiple of 64. -/
def StreamHdr.offOk (h : StreamHdr) : Bool := decide (h.cboff < 0) && decide (h.cboff % 64 = 0)

/-- Code i of a packing of b-bit codes (R43): bits b·i + b − 1 to b·i of the little-endian bytes. -/
def vqCode (b : Nat) (codes : List Byte) (i : Nat) : Nat := leAt codes (b * i / 8) 2 / 2 ^ (b * i % 8) % 2 ^ b

/-- Element e of codebook entry c in the output format (R44). -/
def vqElem (h : StreamHdr) (block : List Byte) (c e : Nat) : Nat :=
  (f32ToFmt h.out (toF32 (FloatFmt.bf16.value (leAt block (64 + c * 2 * h.g + 2 * e) 2))).1).1

/-- The elements a stream expands to, in linear-index order (R273). -/
def StreamHdr.expand (h : StreamHdr) (block stream : List Byte) : List Nat :=
  let codes := stream.drop 64
  (List.range h.n).flatMap (fun i => let c := vqCode h.b codes i; (List.range h.g).map (vqElem h block c))

/-- Elements as bytes. -/
def elemBytes (f : Fmt) (xs : List Nat) : List Byte := xs.flatMap (leBytes (f.width / 8))

/-- Check 6: the stream's CRC is correct, and its padding is zero. -/
def StreamHdr.tailOk (h : StreamHdr) (stream : List Byte) : Bool :=
  let codes := leNat (stream.drop 64)
  codes / 2 ^ (h.b * h.n) == 0 && h.crc == crc32c (blanked stream 12 4)

/-! Checks against the binding table. -/

/-- Checks 2 and 3: a valid entry matches IMGTAG, and the partition is in its mask (R280). -/
def State.tagCheck (s : State) (p : Nat) (h : StreamHdr) : Option Status :=
  match s.wgt.binds.findSome? (fun b => match b with
    | some x => if x.compdig.take 8 == h.tag then some x else none
    | none => none) with
  | none => some .expand
  | some x => if x.mask.contains p then none else some .denied

/-! Transfers (R267). -/

/-- What an expander does with a transfer: expand into HBM, or store checked structures unexpanded in the cellar. -/
inductive XcMode where
  | expand | store
  deriving DecidableEq, Repr

/-- A compressed payload being read: its unread bytes, place in the payload, where the next output goes, the codebook
blocks read with their places, newest first, the writes made, the failure, and whether it waits for a block. -/
structure XcRun where
  rest : List Byte
  pos : Nat
  out : Nat
  blocks : List (Nat × List Byte)
  writes : List (Nat × List Byte)
  fail : Option Status
  waits : Bool
  deriving DecidableEq, Repr

/-- A payload at its first byte. -/
def XcRun.of (bs : List Byte) : XcRun := ⟨bs, 0, 0, [], [], none, false⟩

/-- The way a transfer takes: the partition of its command, what happens to bytes pos … pos + n − 1 of the payload whose
output takes bytes out … out + k − 1 of the destination (R267), and a codebook block that the payload read so far does
not hold, by its place and length. -/
structure XcPath where
  part : Nat
  mode : Nat → Nat → Nat → Nat → Except Status XcMode
  fetch : Int → Nat → State → Got (List Byte) × State

/-- One stream of a transfer (Table 09-4, R275). -/
def XcPath.stream (w : XcPath) (h : StreamHdr) (x : XcRun) (s : State) : XcRun × State :=
  let bs := x.rest.take h.len
  match s.tagCheck w.part h, w.mode x.pos h.len x.out 1 with
  | some st, _ => ({ x with fail := some st }, s)
  | none, .error st => ({ x with fail := some st }, s)
  | none, .ok mode =>
    if !h.offOk then ({ x with fail := some .expand }, s)
    else
      let at_ := (x.pos : Int) + h.cboff
      let found : Got (List Byte) × State := match x.blocks.find? (fun b => (b.1 : Int) == at_) with
        | some b => (.done b.2, s)
        | none => w.fetch at_ (blockLen h.b h.g) s
      match found with
      | (.wait, s) => ({ x with waits := true }, s)
      | (.fail st, s) => ({ x with fail := some st }, s)
      | (.done block, s) =>
        if !(h.blockOk block) then ({ x with fail := some .expand }, s)
        else
          let data := match mode with
            | .expand => elemBytes h.out (h.expand block bs)
            | .store => bs
          match w.mode x.pos h.len x.out data.length with
          | .error st => ({ x with fail := some st }, s)
          | .ok _ => ({ x with
              rest := x.rest.drop h.len, pos := x.pos + h.len, out := x.out + data.length, writes := x.writes ++ [(x.out, data)],
              fail := if h.tailOk bs then none else some .expand }, s)

/-- One codebook block of a transfer: kept, and stored with its streams where they are stored. -/
def XcPath.block (w : XcPath) (n : Nat) (x : XcRun) : XcRun :=
  let bs := x.rest.take n
  let y := { x with rest := x.rest.drop n, pos := x.pos + n, blocks := (x.pos, bs) :: x.blocks }
  match w.mode x.pos n x.out n with
  | .error st => { x with fail := some st }
  | .ok .expand => y
  | .ok .store => if blockWf bs then { y with out := x.out + n, writes := x.writes ++ [(x.out, bs)] } else { x with fail := some .expand }

/-- One structure of a transfer; none when it is not whole yet. -/
def XcPath.one (w : XcPath) (x : XcRun) (s : State) : Option (XcRun × State) :=
  if x.rest.length < 64 then none
  else if leAt x.rest 0 4 = 0x4B324342 then
    let params := leAt x.rest 6 2
    let n := blockLen (vqBits params) (vqG params)
    if bits params 1 0 = 3 then some ({ x with fail := some .expand }, s)
    else if x.rest.length < n then none
    else some (w.block n x, s)
  else
    match StreamHdr.parse (x.rest.take 64) with
    | none => some ({ x with fail := some .expand }, s)
    | some h => if x.rest.length < h.len then none else some (w.stream h x s)

/-- Every whole structure of a transfer, up to the first failure or wait. -/
def XcPath.all (w : XcPath) : Nat → XcRun → State → XcRun × State
  | 0, x, s => (x, s)
  | fuel + 1, x, s =>
    if x.fail.isSome || x.waits then (x, s)
    else match w.one x s with
      | none => (x, s)
      | some (y, s) => XcPath.all w fuel y s

/-- A whole payload read from its first byte: bytes left over make no structure (R267). -/
def XcPath.payload (w : XcPath) (bs : List Byte) (s : State) : XcRun × State :=
  let (x, s) := w.all (bs.length / 64 + 1) (.of bs) s
  (if x.fail.isNone && !x.waits && x.rest != [] then { x with fail := some .expand } else x, s)

/-! At use by a DMAIN (R268, R274 to R276). -/

/-- Which die-to-die receiver a stream for region r crosses: none for a source that crosses none (R268). -/
def State.expanderFor (s : State) (r : Nat) (x : Piece) : Option Nat :=
  let die := r / 8
  if x.remote s then none
  else match mapRow x.loc with
    | .cellar => some die
    | .hbm => if x.loc / 0x4800000000 = die then none else some (2 + die)
    | _ => none

/-- The cached block of a command at an address. -/
def State.cachedBlock (s : State) (e q a : Nat) : Option (List Byte) :=
  (s.wgt.caches.find? (fun c => c.expander == e && c.queue == q && c.addr == a)).map (·.bytes)

/-- An expander has all 16 entries held (R276). -/
def State.cacheFull (s : State) (e : Nat) : Bool := decide (16 ≤ (s.wgt.caches.filter (fun c => c.expander == e)).length)

/-- Expanders that a transfer crosses from pieces of its source into HBM of this module: 0 to 3, the die-to-die
receivers (Table 09-1). -/
def State.crossed (s : State) (src dst : List Piece) : List Nat :=
  (src.flatMap (fun a => dst.filterMap (fun b => if b.remote s then none else s.expanderFor (8 * (b.loc / 0x4800000000)) a))).eraseDups

def State.cacheBlock (s : State) (e q a : Nat) (bs : List Byte) : State :=
  { s with wgt := { s.wgt with caches := s.wgt.caches ++ [⟨e, a, q, bs⟩] } }

end Sys2Proof.Machine
end

