-- ==== Sys2Proof/Machine/FrontCmds.lean ====
section
/-! DEFINITION. Commands that the front end and the copy engine execute: NOP, fences, COPY, TAP_SET and RAKE, with the
events that end them (chapters 13, 21), and the writes of SLOT_QMAP and SLOT_EPOCH_CMD. -/
namespace Sys2Proof.Machine

/-- NOP (R375, Table 14-4). -/
def execNop (q : Nat) (s : State) : Res := s.runCmd q .nop (fun _ _ _ => s.completeOk q .ok)

/-! Fences (R390, R391). -/

def Part.fence (x : Part) (f : Nat) : Option Nat := Tab.get none x.fences f

/-- Queues whose FENCE_WAIT on fence f of partition p waits, with the value awaited. -/
def State.fenceWaiters (s : State) (p f : Nat) : List (Nat × Nat) :=
  allQueues.filterMap (fun q => match (s.queue q).running with
    | some x =>
      (match x.cmd.body with
       | .fenceWait w => if x.started && w.fence == f && s.partOfCtx (s.ctxOf q x.cmd.word1) == some p then some (q, w.value) else none
       | _ => none)
    | none => none)

/-- A waiting FENCE_WAIT of queue w ends with a status; `by_` is the queue whose signal satisfied it. -/
def State.endFenceWait (s : State) (p f w by_ : Nat) (st : Status) : State := (s.strace 1 p f by_ w).completeOk w st

/-- FENCE_SIGNAL (Table 13-13). -/
def execFenceSignal (q : Nat) (f : FenceSignalF) (s : State) : Res :=
  s.runCmd q (.fenceSignal f) (fun _ _ p =>
    let x := s.part p
    let set (v : Option Nat) : State :=
      (s.setPart p { x with fences := Tab.set none x.fences f.fence v, fenceBy := Tab.set 0 x.fenceBy f.fence q }).strace 2 p f.fence 0 q
    match x.fence f.fence with
    | none => if f.create then (set (some f.value)).completeOk q .ok else s.completeOk q .state
    | some v =>
      if f.create then s.completeOk q .state
      else if f.destroy then
        let s1 := set none
        ((s1.fenceWaiters p f.fence).foldl (fun (s : State) w => s.endFenceWait p f.fence w.1 0 .state) s1).completeOk q .ok
      else if v < f.value then
        let s1 := set (some f.value)
        (((s1.fenceWaiters p f.fence).filter (fun w => decide (w.2 ≤ f.value))).foldl
          (fun (s : State) w => s.endFenceWait p f.fence w.1 q .ok) s1).completeOk q .ok
      else s.completeOk q .state)

/-- A wait outside its slot: the command has started, waits until an optional time, and holds no slot (R411). -/
def State.waitOutside (s : State) (q timeout : Nat) : State :=
  (s.modRunning q (fun x => { x with
    started := true, waitUntil := if timeout = 0 then none else some (s.now + timeout * 1000) })).freeSlot q

/-- FENCE_WAIT (Table 13-13). -/
def execFenceWait (q : Nat) (f : FenceWaitF) (s : State) : Res :=
  s.runCmd q (.fenceWait f) (fun _ _ p =>
    let s1 := s.strace 0 p f.fence 0 q
    match (s.part p).fence f.fence with
    | none => s1.endFenceWait p f.fence q 0 .state
    | some v =>
      if f.value ≤ v then s1.endFenceWait p f.fence q (Tab.get 0 (s.part p).fenceBy f.fence) .ok
      else s1.waitOutside q f.timeout)

/-- The time at which a started wait of queue q ends has come. -/
def State.waitOver (s : State) (x : Running) : Bool :=
  x.started && (match x.waitUntil with
    | some t => decide (t ≤ s.now)
    | none => false)

/-- FENCE_WAIT_TIMEOUT (Table 13-13). -/
def execFenceWaitTimeout (q : Nat) (s : State) : Res :=
  match (s.queue q).running with
  | some x =>
    match x.cmd.body, s.partOfCtx (s.ctxOf q x.cmd.word1) with
    | .fenceWait f, some p => .next (if s.waitOver x then s.endFenceWait p f.fence q 0 .timeout else s)
    | _, _ => .next s
  | none => .next s

/-! COPY (R184, R266 to R268, R309, R385). -/

/-- The parts of pieces that bytes off … off + n − 1 of their access lie in. -/
def cutPieces : List Piece → Nat → Nat → List Piece
  | [], _, _ => []
  | x :: xs, off, n =>
    if n = 0 then []
    else if x.len ≤ off then cutPieces xs (off - x.len) n
    else
      let k := min n (x.len - off)
      { x with va := x.va + off, pa := x.pa + off, len := k } :: cutPieces xs 0 (n - k)

/-- What happens to compressed data that goes from source pieces to destination pieces (R266, R267): expansion into HBM
behind an expander, storing in the cellar behind an expander of the shed, and EXPAND for any other path. -/
def State.xcWay (s : State) (src dst : List Piece) : Except Status XcMode :=
  let outside (x : Piece) : Bool := x.remote s || mapRow x.loc == .host
  let row (r : MapRow) : Bool := dst.all (fun y => !(y.remote s) && mapRow y.loc == r)
  if row .hbm && src.all (fun x => outside x || mapRow x.loc == .cellar
      || (mapRow x.loc == .hbm && dst.all (fun y => x.loc / 0x4800000000 != y.loc / 0x4800000000))) then .ok .expand
  else if row .cellar && src.all outside then .ok .store
  else .error .expand

/-- Pieces of an access that a COPY makes; RANGE where it touches a receive window (R184). -/
def State.copySide (s : State) (v : Via) (k : AccKind) (va n : Nat) : Except Status (List Piece) :=
  if (s.reach v (n / 4096 + 2) va n).any (fun x => mapRow x.loc == .recvWin) then .error .range else s.translate v k va n

/-- The checks a COPY makes before it moves a byte, and what its two sides are translated to; of two that fail the first
in R18 order decides. How far expanded data reaches is known later: of its destination the first byte is translated. -/
def State.copyPlan (s : State) (ctx p : Nat) (f : CopyF) : Except Status (List Piece × List Piece) :=
  let v : Via := ⟨ctx, p, none⟩
  let dst : Except Status (List Piece) := match s.copySide v .write f.dst 1 with
    | .error d => .error d
    | .ok d => if f.xc && d.all (fun y => !(y.remote s)) then .ok d else s.copySide v .write f.dst f.bytes
  match s.copySide v .read f.src f.bytes, dst with
  | .error e, .error d => .error (e.worst d)
  | .error e, .ok _ => .error e
  | .ok _, .error d => .error d
  | .ok a, .ok b =>
    if f.xc && b.all (fun y => !(y.remote s)) then
      match s.xcWay (a.take 1) b with
      | .error d => .error d
      | .ok _ => .ok (a, b)
    else if f.xc && b.any (fun y => !(y.remote s)) then .error .expand
    else .ok (a, b)

/-- COPY: accepted, checked and translated; it moves its bytes until COPY_DONE. -/
def execCopy (q : Nat) (f : CopyF) (s : State) : Res :=
  s.runCmd q (.copy f) (fun _ ctx p =>
    match s.copyPlan ctx p f with
    | .error e => s.completeOk q e
    | .ok m => s.modRunning q (fun x => { x with started := true, moves := some m }))

/-- The writes of a copy made in order, up to the first that fails. -/
def State.copyWrites (q ctx p : Nat) : List (Nat × List Byte) → State → Got Unit × State
  | [], s => (.done (), s)
  | (a, bs) :: ws, s =>
    match s.cmdWrite q ctx p a bs with
    | (.done _, s) => State.copyWrites q ctx p ws s
    | r => r

/-- The path of a COPY's compressed data into this module: each part of the source and the destination that it takes. -/
def State.copyPath (s : State) (q ctx p : Nat) (f : CopyF) (src : List Piece) : XcPath where
  part := p
  mode := fun pos n out k =>
    match s.copySide ⟨ctx, p, none⟩ .write (f.dst + out) (max k 1) with
    | .error e => .error e
    | .ok d => s.xcWay (cutPieces src pos n) d
  fetch := fun at_ n s => s.cmdRead q ctx p .read ((f.src : Int) + at_).toNat n

/-- A COPY ends: what it fetched is used up. -/
def State.copyEnd (s : State) (q : Nat) (st : Status) : State := (s.dropFetched (.cmd q)).completeOk q st

/-- Compressed data expanded or stored in this module; it waits while every cache entry of an expander that it crosses
is held (R276). An output that no range maps, or that a receive window maps, is RANGE before a byte is written (R184;
DESIGN CHOICE for the first, log entry 105). -/
def State.copyXc (s : State) (q ctx p : Nat) (f : CopyF) (src dst : List Piece) (bs : List Byte) : State :=
  if (s.crossed src dst).any s.cacheFull then s
  else
    let (x, s) := (s.copyPath q ctx p f src).payload bs s
    if x.waits then s
    else
      let ws := if x.fail = some .range then [] else x.writes.map (fun w => (f.dst + w.1, w.2))
      let held := s.heldLines (ws.flatMap (fun w => s.reach ⟨ctx, p, none⟩ (w.2.length / 4096 + 2) w.1 w.2.length))
      if held ≠ [] then s.snoopLines held
      else match State.copyWrites q ctx p ws s with
        | (.fail e, s) => s.copyEnd q ((x.fail.getD .ok).worst e)
        | (_, s) => s.copyEnd q (x.fail.getD .ok)

/-- The end of a COPY's data: every byte read, then written where it was translated to; compressed data for another
module goes there unexpanded. -/
def State.copyRun (s : State) (q ctx p : Nat) (f : CopyF) (src dst : List Piece) : State :=
  let seq := match (s.queue q).running with
    | some x => x.cmd.seq
    | none => 0
  match s.readPieces (.cmd q) ⟨ctx, p, none⟩ 1 seq q src with
  | (.wait, s) => s
  | (.fail e, s) => s.copyEnd q e
  | (.done bs, s) =>
    if f.xc && dst.all (fun y => !(y.remote s)) then s.copyXc q ctx p f src dst bs
    else match s.writePieces (.cmd q) ⟨ctx, p, none⟩ 1 seq q f.xc dst bs with
      | (.done n, s) => (s.owe q n).copyEnd q .ok
      | (.wait, s) => s
      | (.fail e, s) => s.copyEnd q e

/-- COPY_DONE: the copy engine has moved the last byte. -/
def execCopyDone (q : Nat) (s : State) : Res :=
  match (s.queue q).running with
  | some x =>
    match x.cmd.body, s.partOfCtx (s.ctxOf q x.cmd.word1), x.moves with
    | .copy f, some p, some (src, dst) =>
      .next (if x.started && x.ending.isNone then s.copyRun q (s.ctxOf q x.cmd.word1) p f src dst else s)
    | _, _, _ => .next s
  | none => .next s

/-! Taps (R571). -/

/-- Bytes off … off + n − 1 of a list of physical spans. -/
def sliceSpans : List (Nat × Nat) → Nat → Nat → List (Nat × Nat)
  | [], _, _ => []
  | (a, m) :: r, off, n =>
    if n = 0 then []
    else if m ≤ off then sliceSpans r (off - m) n
    else
      let k := min n (m - off)
      (a + off, k) :: sliceSpans r 0 (n - k)

def RangeEntry.blank : RangeEntry := ⟨false, false, false, false, 0, 0, 0, 0, 0⟩

/-- Bytes written at a physical place: a local one at once, or when the host has answered for its lines (R365), and a remote
one as a message that nobody waits for. -/
def State.areaPut (s : State) (p r a : Nat) (bs : List Byte) : State :=
  match s.writePieces (.region r) ⟨64, p, none⟩ 0 0 0 false [⟨0, a, bs.length, .blank⟩] bs with
  | (.wait, s) => s.deferWrite none (a % 2 ^ 48) bs
  | (_, s) => s

/-- Bytes written into a physical area at an offset. -/
def State.areaWrite (s : State) (p r : Nat) (spans : List (Nat × Nat)) (off : Nat) (bs : List Byte) : State :=
  ((sliceSpans spans off bs.length).foldl (fun (a : State × List Byte) x => (a.1.areaPut p r x.1 (a.2.take x.2), a.2.drop x.2)) (s, bs)).1

/-- TAP_SET (R571). -/
def execTapSet (q : Nat) (f : TapSetF) (s : State) : Res :=
  s.runCmd q (.tapSet f) (fun _ ctx p =>
    let v : Via := ⟨ctx, p, none⟩
    let x := s.part p
    if f.disarm then (s.setPart p { x with taps := Tab.set none x.taps f.tapid none }).completeOk q .ok
    else match s.translate v .write f.dest 64 with
      | .error e => s.completeOk q e
      | .ok hd =>
        match s.readPieces (.cmd q) v 1 0 q hd with
        | (.wait, s) => s
        | (.fail e, s) => (s.dropFetched (.cmd q)).completeOk q e
        | (.done bs, s) =>
          let s := s.dropFetched (.cmd q)
          let cap := leAt bs 0 4
          if cap = 0 ∨ 2 ^ 20 < cap then s.completeOk q .range
          else match s.translate v .write f.dest (64 + 64 * cap) with
            | .error e => s.completeOk q e
            | .ok ps =>
              if ps.any (fun y => mapRow y.loc == .recvWin) then s.completeOk q .range
              else match s.cmdWrite q ctx p (f.dest + 4) (List.replicate 8 0) with
                | (.wait, s) => s
                | (.fail e, s) => s.completeOk q e
                | (.done _, s) =>
                  let spans := ps.map (fun y => (y.pa, y.len))
                  let head := (spans.headD (0, 0)).1
                  let x := s.part p
                  (s.setPart p { x with
                    taps := Tab.set none x.taps f.tapid (some ⟨cap, spans⟩), tapCnt := Tab.set (0, 0) x.tapCnt head (0, 0) }).completeOk q .ok)

/-! RAKE (R569, R570). -/

/-- The 16 bytes of an event entry (Table 21-11). -/
def Event.bytes (e : Event) : List Byte :=
  leBytes 8 e.time ++ leBytes 4 (e.code % 256 + (e.part.getD 0) % 8 * 2 ^ 8 + (if e.part.isSome then 2 ^ 11 else 0)
    + (e.queue.getD 0) % 1024 * 2 ^ 12 + (if e.queue.isSome then 2 ^ 22 else 0)) ++ leBytes 4 e.data

/-- A ring's 256 entries in index order: entry n lies at n mod 256. -/
def Ring.bytes (r : Ring) : List Byte :=
  (List.range 256).flatMap (fun i =>
    match r.entries[(r.wcount + 255 - i) % 256]? with
    | some e => e.bytes
    | none => List.replicate 16 0)

/-- The rings gathered: the header and the first n blocks (R570). -/
def State.rakeBytes (s : State) (n : Nat) : List Byte :=
  let units := ringUnits
  let ring (u : Nat) : Ring := Tab.get .reset s.obs.rings u
  let pairs := ((List.range 200).zip units).flatMap (fun x => leBytes 4 x.2 ++ leBytes 4 (if x.1 < n then (ring x.2).wcount else 0))
  let head := leBytes 4 0x4B32524B ++ leBytes 4 n ++ leBytes 8 s.now ++ pairs
  head ++ List.replicate (4096 - head.length) 0 ++ (units.take n).flatMap (fun u => (ring u).bytes)

/-- RAKE: one runs at a time (R570). -/
def execRake (q : Nat) (f : RakeF) (s : State) : Res :=
  s.runCmd q (.rake f) (fun _ _ _ =>
    match s.obs.rake with
    | some _ => s
    | none => ({ s with obs := { s.obs with rake := some q } } : State).modRunning q (fun x => { x with started := true }))

/-- The gathered rings written to DEST. -/
def State.rakeRun (s : State) (q ctx p : Nat) (f : RakeF) : State :=
  let n := min 200 (f.bytes / 4096 - 1)
  match s.cmdWrite q ctx p f.dest (s.rakeBytes n) with
  | (.wait, s) => s
  | (r, s) =>
    let st := match r with
      | .fail e => e
      | _ => if f.bytes < 823296 then .range else .ok
    ({ s with obs := { s.obs with rake := none } } : State).completeOk q st

/-- RAKE_DONE (R570). -/
def execRakeDone (q : Nat) (s : State) : Res :=
  match (s.queue q).running with
  | some x =>
    match x.cmd.body, s.partOfCtx (s.ctxOf q x.cmd.word1) with
    | .rake f, some p =>
      .next (if x.started && x.ending.isNone && s.obs.rake == some q then s.rakeRun q (s.ctxOf q x.cmd.word1) p f else s)
    | _, _ => .next s
  | none => .next s

/-! SLOT registers. -/

/-- An epoch is newer than another (R415). -/
def newer (a b : Nat) : Bool := let d := (a + 65536 - b) % 65536; decide (1 ≤ d) && decide (d ≤ 32767)

/-- EPOCH_RAISE: SLOT_EPOCH_CMD written with GO (R417, R418). -/
def execEpochRaise (rq : Requester) (batch epoch part : Nat) (s : State) : Res :=
  .next (s.regWrite rq 0x62000 (fun s =>
    let p := part % 8
    let s := { s with front := { s.front with epochBatch := batch % 2 ^ 32, epochEpoch := epoch % 2 ^ 16, epochPart := p } }
    let x := s.part p
    match x.launch with
    | some l =>
      if l.batch ≠ batch % 2 ^ 32 then s.setPart p { x with epochResult := 1 }
      else if newer (epoch % 2 ^ 16) l.epoch then
        s.setPart p { x with launch := some { l with epoch := epoch % 2 ^ 16 }, epochResult := 0 }
      else s.setPart p { x with epochResult := 2 }
    | none => s.setPart p { x with epochResult := 1 }))

/-- SLOT of SLOT_QMAP may become this slot: it is in use and serves the partition of the queue's context (R406). -/
def State.slotFits (s : State) (q slot : Nat) : Bool :=
  (s.slot slot).en && decide (slot < 32) && s.partOfQueue q == some (s.slot slot).part

/-- SLOT_QMAP_WRITE: the SLOT field of a user queue's SLOT_QMAP (R406). -/
def execSlotQmapWrite (rq : Requester) (q slot : Nat) (s : State) : Res :=
  .next (s.regWrite rq (0x61000 + 8 * q) (fun s =>
    if 512 ≤ q then s
    else if s.slotFits q slot then { s with qmap := Tab.set .reset s.qmap q { s.qmapOf q with slot := slot } }
    else s.discard 0x20 (0x61000 + 8 * q)))

end Sys2Proof.Machine
end

