-- ==== Sys2Proof/Machine/Flags.lean ====
section
/-! DEFINITION. Exception-flag summaries (R62 to R66): of an instruction, of a region, of a command. -/
namespace Sys2Proof.Machine

/-- An instruction's summary joins the summary of its region at retirement (R63, R64). -/
def Region.orFlags (x : Region) (f : Flags) : Region := { x with flags := x.flags ||| f }

/-- The command's summary: the summaries of every region of its partition (R64). -/
def State.orRegions (s : State) (p : Nat) : Flags := (s.regionsOf p).foldl (fun f r => f ||| (s.region r).flags) 0

end Sys2Proof.Machine
end

