-- ==== Sys2Proof/Machine/Validate.lean ====
section
/-! DEFINITION. Load-time validation of a program image (R141, R172, Table 05-15). -/
namespace Sys2Proof.Machine

/-- Whether a field must name a descriptor, may, or must hold 0x3FF (Tables 05-7, 07-8, 08-1). -/
inductive Need where
  | req | opt | no
  deriving DecidableEq, Repr

/-- A descriptor field of an instruction: its value, need, use, and the offset register that goes with it. -/
structure DField where
  idx : Nat
  need : Need
  use : DescUse := {}
  off : Nat := 0

/-- An operation takes SRCB as a tensor source. -/
def VecOp.takesB : VecOp → Need
  | .add | .sub | .mul | .fma | .div | .min | .max | .cmp | .sel | .iscale | .gather | .scatter | .scatterAdd | .vqnear => .req
  | .sort => .opt
  | _ => .no

/-- An operation takes SRCC. -/
def VecOp.takesC : VecOp → Need
  | .fma | .sel | .iscale | .topk | .vqnear => .req
  | .sort => .opt
  | _ => .no

/-- SRCC is a second destination (Table 05-7). -/
def VecOp.dest2 : VecOp → Bool
  | .sort | .topk | .vqnear => true
  | _ => false

/-- The elementwise operations of R123 and R124, CMP apart. -/
def VecOp.elementwise : VecOp → Bool
  | .add | .sub | .mul | .fma | .div | .sqrt | .min | .max | .abs | .neg | .cvt | .rcp | .rsq | .exp | .log | .sin | .cos
  | .sel | .iscale => true
  | _ => false

/-- SRCB as an instruction uses it: a descriptor that a scalar replaces is ignored (R157). -/
def VecF.needB (f : VecF) (op : VecOp) : Option Need := if f.scalsel = 1 then none else some op.takesB
def VecF.needC (f : VecF) (op : VecOp) : Option Need := if f.scalsel = 2 then none else some op.takesC

/-- The descriptor fields of a VEC instruction. -/
def VecF.fieldsOf (f : VecF) (op : VecOp) (train : Bool) : List DField :=
  [⟨f.dst, .req, { dest := true, train := train }, f.offd⟩, ⟨f.srca, .req, { sortKey := op == .sort }, f.offa⟩]
  ++ (match f.needB op with
      | some n => [⟨f.srcb, n, {}, f.offb⟩]
      | none => [])
  ++ (match f.needC op with
      | some n => [⟨f.srcc, n, { dest := op.dest2, train := train && op.dest2 }, f.offc⟩]
      | none => [])
  ++ [⟨f.mask, .opt, {}, 0⟩]

/-- The descriptor fields of an instruction. -/
def RBody.dfields (train : Bool) : RBody → List DField
  | .mul f => [⟨f.adesc, .req, {}, f.offa⟩]
  | .loadw f => [⟨f.wdesc, .req, {}, f.offw⟩]
  | .preload f => [⟨f.sdesc, .req, {}, f.off⟩]
  | .bank .bclear f => [⟨f.sdesc, .no, {}, f.off⟩]
  | .bank _ f => [⟨f.sdesc, .req, {}, f.off⟩]
  | .vec op f => f.fieldsOf op train
  | .mov .dmain f | .mov .dmaout f => [⟨f.desc, .req, {}, f.off⟩]
  | .mov _ _ => []
  | .loop _ => []
  | .sync .recv f => [⟨f.id, .opt, {}, 0⟩]
  | .sync _ _ => []
  | .kv .append f => [⟨f.seqd, .req, {}, 0⟩, ⟨f.kd, .req, {}, f.offreg⟩, ⟨f.vd, .req, {}, f.offreg⟩, ⟨f.auxd, .req, {}, 0⟩]
  | .kv .read f => [⟨f.seqd, .req, {}, 0⟩, ⟨f.kd, .req, {}, f.offreg⟩, ⟨f.vd, .req, {}, f.offreg⟩, ⟨f.auxd, .req, {}, 0⟩]
  | .kv .score f => [⟨f.seqd, .req, {}, 0⟩, ⟨f.kd, .req, {}, f.offreg⟩, ⟨f.vd, .no, {}, 0⟩, ⟨f.auxd, .req, {}, 0⟩]
  | .kv .len f => [⟨f.seqd, .req, {}, 0⟩, ⟨f.kd, .no, {}, 0⟩, ⟨f.vd, .no, {}, 0⟩, ⟨f.auxd, .req, {}, 0⟩]
  | .route .place f => [⟨f.choice, .req, {}, 0⟩, ⟨f.weight, .req, {}, 0⟩, ⟨f.token, .no, {}, 0⟩, ⟨f.out, .req, {}, 0⟩, ⟨f.idx, .req, {}, 0⟩]
  | .route .send f =>
    [⟨f.choice, .req, {}, 0⟩, ⟨f.weight, .req, {}, 0⟩, ⟨f.token, .req, {}, f.offreg⟩, ⟨f.out, .req, {}, 0⟩, ⟨f.idx, .req, {}, 0⟩]
  | .route _ f =>
    [⟨f.choice, .no, {}, 0⟩, ⟨f.weight, .no, {}, 0⟩, ⟨f.token, .req, {}, f.offreg⟩, ⟨f.out, .no, {}, 0⟩, ⟨f.idx, .req, {}, 0⟩]
  | .tap f => [⟨f.desc, .req, {}, f.offreg⟩]

/-- A RECV's slot number need not be a descriptor's number (R185): one at or above DCOUNT names none. -/
def RBody.recvs : RBody → Bool
  | .sync .recv _ => true
  | _ => false

/-- Check 3 of Table 05-15 for one field. -/
def DField.indexOk (d : DField) (recv : Bool) (dcount : Nat) : Bool :=
  match d.need with
  | .req => decide (d.idx < dcount)
  | .opt => recv || decide (d.idx < dcount) || d.idx == noDesc
  | .no => d.idx == noDesc

/-- The descriptor that a field names. -/
def findDesc (ds : List (Option Desc)) (i : Nat) : Option Desc := ds.getD i none

/-! Shapes (check 5). -/

/-- Same RANK and SIZE values (R123). -/
def Desc.sameShape (a b : Desc) : Bool := a.rank == b.rank && a.size == b.size

/-- A mask for n elements (R121). -/
def Desc.maskFor (m : Desc) (n : Nat) : Bool := m.fmt == .int32 && m.rank == 1 && m.space == .sram && decide (cdiv n 32 ≤ m.dim 0)

/-- Byte intervals of a descriptor's rows, and of its scale array where it is read or written (R117, R124). -/
def Desc.byteSpans (d : Desc) (dest : Bool) : List (Space × Int × Int) :=
  (List.range d.rows).map (fun r => (d.space, d.base + d.rowOff r, d.base + d.rowOff r + d.rowBytes - 1))
  ++ (match d.auxExtent 0 with
      | some x => if d.fmt == .fp4 || !dest then [(Space.sram, x.1, x.2)] else []
      | none => [])

/-- Two descriptors share a byte. -/
def Desc.overlapsDesc (x y : Desc) (yDest : Bool) : Bool :=
  (x.byteSpans true).any (fun a => (y.byteSpans yDest).any (fun b => a.1 == b.1 && decide (a.2.1 ≤ b.2.2) && decide (b.2.1 ≤ a.2.2)))

/-- Exactly equal operands (R124). -/
def Desc.equalOperand (x y : Desc) (ox oy : Nat) : Bool :=
  x.space == y.space && x.base == y.base && x.aux == y.aux && x.size == y.size && x.stride == y.stride && x.fmt == y.fmt && ox == oy

/-- R124 for a destination and every other operand: (descriptor, offset register, is a destination). -/
def overlapOk (elementwise : Bool) (d : Desc × Nat) (others : List (Desc × Nat × Bool)) : Bool :=
  others.all (fun o => !(d.1.overlapsDesc o.1 o.2.2) || (elementwise && !o.2.2 && d.1.equalOperand o.1 d.2 o.2.1))

/-- R121, R123, R130 to R133 for a VEC instruction whose descriptors are known. -/
def vecShape (op : VecOp) (f : VecF) (d a : Desc) (b c m : Option Desc) : Bool :=
  let n := a.count
  let same (x : Option Desc) : Bool := match x with
    | some x => x.sameShape d
    | none => true
  let maskOk := match m with
    | some m => m.maskFor n && d.fmt != .fp4 && !(op.dest2 && (match c with
        | some c => c.fmt == .fp4
        | none => false))
    | none => true
  maskOk && (match op with
    | .sel => a.sameShape d && same b && (match c with
        | some m => m.maskFor n
        | none => false)
    | .iscale =>
      (match b, c with
       | some w, some r =>
         a.fmt == .int32 && (match a.space with
           | .bank _ => true
           | .sram => false)
         && a.sameShape d && w.fmt == .fp32 && r.fmt == .fp32 && w.rank == 1 && r.rank == 1 && w.space == .sram && r.space == .sram
         && decide (a.dim 0 ≤ w.dim 0) && decide (a.rows ≤ r.dim 0)
       | _, _ => false)
    | .cmp => (match b with
        | some b => b.sameShape a
        | none => true) && d.maskFor n
    | .rsum | .rmax | .rmin | .ramax => d.dim 0 == 1 && d.count == (if bit f.auxop 0 then 1 else a.rows)
    | .scan => a.sameShape d
    | .sort => a.sameShape d && b.isSome == c.isSome && same b && same c
    | .topk =>
      let k := f.auxop % 64 + 1
      (match c with
       | some c => decide (k ≤ a.dim 0) && d.dim 0 == k && c.dim 0 == k && c.fmt == .int32 && d.rows == a.rows && c.rows == a.rows
       | none => false)
    | .gather | .scatter | .scatterAdd =>
      (match b with
       | some b => d.dim 0 == a.dim 0 && b.fmt == .int32
       | none => false)
    | .vqnear =>
      (match b, c with
       | some b, some c =>
         (a.fmt == .fp32 || a.fmt == .bf16) && (a.dim 0 == 4 || a.dim 0 == 8) && b.fmt == .bf16 && b.dim 0 == a.dim 0
         && decide (b.rows ≤ 256) && d.fmt == .int32 && c.fmt == .fp32 && d.count == a.rows && c.count == a.rows
       | _, _ => false)
    | _ => a.sameShape d && same b && same c)

/-- R124 for a VEC instruction. -/
def vecOverlap (op : VecOp) (f : VecF) (d a : Desc) (b c m : Option Desc) : Bool :=
  let opt (x : Option Desc) (off : Nat) (dest : Bool) : List (Desc × Nat × Bool) := match x with
    | some x => [(x, off, dest)]
    | none => []
  let srcs := (a, f.offa, false) :: opt b f.offb false ++ opt m 0 false
  let e := op.elementwise
  if op.dest2 then
    overlapOk e (d, f.offd) (srcs ++ opt c f.offc true) && (match c with
      | some c => overlapOk e (c, f.offc) srcs
      | none => true)
  else overlapOk e (d, f.offd) (srcs ++ opt c f.offc false)

/-- What the list so far has loaded: (block, set) to the format of the last LOADW, and each block's last MUL mode. -/
structure Seen where
  loads : List (Nat × Nat × Fmt)
  modes : List (Nat × Nat)

def Seen.none : Seen := ⟨[], []⟩
def Seen.fmtOf (s : Seen) (b set : Nat) : Option Fmt := (s.loads.find? (fun x => x.1 == b && x.2.1 == set)).map (·.2.2)
def Seen.modeOf (s : Seen) (b : Nat) : Option Nat := (s.modes.find? (fun x => x.1 == b)).map (·.2)

/-- The blocks that a BLOCKS field names. -/
def blocksOf (m : Nat) : List Nat := (List.range 6).filter (bit m)

def Fmt.is4 (f : Fmt) : Bool := f == .fp4 || f == .int4

/-- The row width of Table 03-2, or of window mode, for a weight and activation format (R152). -/
def rowWidth (f : MulF) (w a : Fmt) : Nat :=
  let base := if f.rbm = 2 then 8 / 2 ^ f.seg * 2 ^ f.shift else 128
  if w == a && w.is4 then 2 * base else base

/-- R51, R90, R105, R152 and check 5 for a MUL. The format of a set is that of the latest LOADW before it in list order. In
the ordinary direction a floating format with an integer one is refused (R51); a transposed MUL of an integer set fails at
issue (R105). -/
def mulShape (f : MulF) (a : Desc) (seen : Seen) : Bool :=
  let ws := (blocksOf f.blocks).filterMap (fun b => seen.fmtOf b f.set)
  (f.rbm == 2 || (f.shift == 0 && f.seg == 0 && f.wstart == 0))
  && (f.dir == 0 || f.rbm == 0)
  && a.fmt != .int32 && a.space == .sram && a.rank == 2 && (!a.fmt.isInt || a.aux == 0)
  && (f.half == 0 || (f.dir == 1 && ws.all Fmt.is4))
  && (if f.dir = 1 then a.dim 0 == 128 else ws.all (fun w => w.isInt == a.fmt.isInt && a.dim 0 == rowWidth f w a.fmt))

/-- R154. -/
def loadwShape (f : LoadwF) (w : Desc) : Bool :=
  w.fmt != .int32 && w.space == .sram && w.rank == 2 && w.dim 1 == 128
  && (if f.two = 1 then w.fmt.is4 && w.dim 0 % 2 == 0 && decide (w.dim 0 ≤ 256) else decide (w.dim 0 ≤ 128))

/-- R155. -/
def preloadShape (f : PreloadF) (d : Desc) : Bool :=
  d.space == .sram && (if f.two = 1 then d.fmt.is4 && d.dim 0 == 32 else d.dim 0 == 16 || (d.fmt == .fp4 && d.dim 0 == 32))

/-- R156. -/
def bankShape (d : Desc) : Bool := d.space == .sram && (d.fmt == .fp32 || d.fmt == .int32) && d.dim 0 == 128

/-- R237, Table 08-1. -/
def routeShape (op : RouteOp) (f : RouteF) (ch wt tk out idx : Option Desc) : Bool :=
  match op, ch, wt, out, idx with
  | .place, some ch, some wt, some out, some idx =>
    f.offreg == 0 && ch.fmt == .int32 && ch.rank == 2 && decide (ch.dim 0 ≤ 64) && decide (ch.dim 0 * ch.dim 1 ≤ 65535)
    && wt.fmt == .fp32 && wt.sameShape ch && out.fmt == .int32 && out.rank == 1
    && idx.fmt == .int32 && idx.rank == 3 && idx.dim 0 == ch.dim 0 && idx.dim 1 == ch.dim 1 && idx.dim 2 == 2
  | .send, some ch, some wt, some out, some idx =>
    ch.fmt == .int32 && ch.rank == 2 && decide (ch.dim 0 ≤ 64) && decide (ch.dim 0 * ch.dim 1 ≤ 65535)
    && wt.fmt == .fp32 && wt.sameShape ch && out.fmt == .int32 && out.rank == 1
    && idx.fmt == .int32 && idx.rank == 3 && idx.dim 0 == ch.dim 0 && idx.dim 1 == ch.dim 1 && idx.dim 2 == 2
    && (match tk with
        | some t => t.rank == 2 && t.dim 1 == ch.dim 1
        | none => false)
  | .place, _, _, _, _ | .send, _, _, _, _ => false
  | _, _, _, _, some idx =>
    idx.fmt == .fp32 && idx.rank == 2 && decide (8 ≤ idx.dim 0) && (match tk with
      | some t => t.fmt == .fp32 && t.rank == 2
      | none => false)
  | _, _, _, _, none => false

/-- Check 5 of an instruction whose descriptor indices are in range. -/
def RBody.shapeOk (ds : List (Option Desc)) (seen : Seen) : RBody → Bool
  | .mul f => (match findDesc ds f.adesc with
      | some a => mulShape f a seen
      | none => false)
  | .loadw f => (match findDesc ds f.wdesc with
      | some w => loadwShape f w
      | none => false)
  | .preload f => (match findDesc ds f.sdesc with
      | some d => preloadShape f d
      | none => false)
  | .bank .bclear _ => true
  | .bank _ f => (match findDesc ds f.sdesc with
      | some d => bankShape d
      | none => false)
  | .vec op f =>
    let b := if f.scalsel = 1 then none else findDesc ds f.srcb
    let c := if f.scalsel = 2 then none else findDesc ds f.srcc
    (match findDesc ds f.dst, findDesc ds f.srca with
     | some d, some a => vecShape op f d a b c (findDesc ds f.mask) && vecOverlap op f d a b c (findDesc ds f.mask)
     | _, _ => false)
  | .mov .dmain f | .mov .dmaout f => (match findDesc ds f.desc with
      | some d => d.space == .sram
      | none => false)
  | .route op f => routeShape op f (findDesc ds f.choice) (findDesc ds f.weight) (findDesc ds f.token) (findDesc ds f.out) (findDesc ds f.idx)
  | _ => true

/-- Check 6 (R92): entries within 512 and the bank carve-out. -/
def RBody.entriesOk (ds : List (Option Desc)) (c : Carve) : RBody → Bool
  | .mul f => (match findDesc ds f.adesc with
      | some a => decide (f.e0 + a.dim 1 ≤ min 512 c.bankCount)
      | none => true)
  | .bank _ f => decide (f.e0 + f.count ≤ min 512 c.bankCount)
  | _ => true

/-- Check 7 (R83, R88). -/
def RBody.orderOk (seen : Seen) : RBody → Bool
  | .mul f => (blocksOf f.blocks).all (fun b => (seen.fmtOf b f.set).isSome && (f.wstart != 1 || seen.modeOf b == some 2))
  | _ => true

/-- What an instruction adds to the list's history. -/
def RBody.note (ds : List (Option Desc)) (seen : Seen) : RBody → Seen
  | .loadw f => (match findDesc ds f.wdesc with
      | some w => { seen with loads := (blocksOf f.blocks).map (fun b => (b, f.set, w.fmt)) ++ seen.loads }
      | none => seen)
  | .mul f => { seen with modes := (blocksOf f.blocks).map (fun b => (b, f.rbm)) ++ seen.modes }
  | _ => seen

/-! Loops (R164, R165). -/

/-- Loops open at an instruction: (index of the body's last instruction, product of MAXTRIPs). -/
abbrev LoopStack := List (Nat × Nat)

/-- Check 8 for a LOOP at index i of a list of n instructions. -/
def LoopF.loopOk (f : LoopF) (i n : Nat) (st : LoopStack) : Bool :=
  let end_ := i + f.bodylen
  decide (end_ < n) && (match st with
    | [] => true
    | t :: _ => decide (end_ ≤ t.1)) && decide (st.length < 8) && !(f.src == 0 && decide (f.maxtrip < f.trip))

/-! The checks over the whole image. -/

/-- Failures found so far: of a rule, of a range check; and the worst-case issue count (R165). -/
structure Verdict where
  rule : Bool
  range : Bool
  count : Nat
  deriving DecidableEq, Repr

def Verdict.addRule (v : Verdict) (ok : Bool) : Verdict := { v with rule := v.rule || !ok }
def Verdict.addRange (v : Verdict) (ok : Bool) : Verdict := { v with range := v.range || !ok }

/-- Check 4 for one named descriptor. -/
def checkDesc (ds : List (Option Desc)) (c : Carve) (d : DField) (v : Verdict) : Verdict :=
  if ds.length ≤ d.idx then v
  else match findDesc ds d.idx with
    | none => v.addRule false
    | some x => (v.addRule (x.ruleOk d.use)).addRange (x.fits c 0 0 true)

/-- Every check of one instruction at index i. -/
def checkInstr (ds : List (Option Desc)) (c : Carve) (train det : Bool) (seen : Seen) (x : RInstr) (v : Verdict) : Verdict :=
  let fs := x.body.dfields train
  let v := v.addRule (x.mv == x.body.mayVary && !(det && x.mv))                        -- check 9
  if !(fs.all (fun d => d.indexOk x.body.recvs ds.length)) then v.addRule false       -- check 3
  else
    let v := fs.foldl (fun v d => checkDesc ds c d v) v                               -- checks 4 and 10
    ((v.addRule (x.body.shapeOk ds seen)).addRange (x.body.entriesOk ds c)).addRule (x.body.orderOk seen)

/-- The checks of the list from index i on. -/
def checkList (ds : List (Option Desc)) (c : Carve) (train det : Bool) (n : Nat) :
    Nat → LoopStack → Seen → List (Option RInstr) → Verdict → Verdict
  | _, _, _, [], v => v
  | i, st, seen, x :: xs, v =>
    let st := st.dropWhile (fun t => decide (t.1 < i))
    let mult := match st with
      | [] => 1
      | t :: _ => t.2
    let v := { v with count := v.count + mult }
    match x with
    | none => checkList ds c train det n (i + 1) st seen xs (v.addRule false)          -- check 2
    | some x =>
      let v := checkInstr ds c train det seen x v
      let seen := x.body.note ds seen
      match x.body with
      | .loop f => checkList ds c train det n (i + 1) ((i + f.bodylen, mult * f.maxtrip) :: st) seen xs (v.addRule (f.loopOk i n st))
      | _ => checkList ds c train det n (i + 1) st seen xs v

/-- The header of an image (Table 05-1). -/
structure ImageHdr where
  icount : Nat
  dcount : Nat
  ioff : Nat
  doff : Nat
  estimate : Nat
  deriving DecidableEq, Repr

/-- Check 1 of Table 05-15 on the 64 header bytes. The image ends where its last list ends. -/
def ImageHdr.parse (bs : List Byte) : Option ImageHdr :=
  let h : ImageHdr := ⟨leAt bs 8 4, leAt bs 12 4, leAt bs 16 4, leAt bs 20 4, leAt bs 32 8⟩
  if leAt bs 0 4 ≠ 0x4B325047 ∨ leAt bs 4 2 ≠ 1 ∨ leAt bs 6 2 ≠ 0 ∨ leAt bs 24 8 ≠ 0 ∨ leAt bs 40 24 ≠ 0
      ∨ h.icount = 0 ∨ 8192 < h.icount ∨ 1023 < h.dcount ∨ h.ioff % 16 ≠ 0 ∨ h.doff % 64 ≠ 0 then none
  else some h

/-- The instruction list of its bytes. -/
def parseInstrs : Nat → List Byte → List (Option RInstr)
  | 0, _ => []
  | n + 1, bs => RInstr.decode (leAt bs 0 16) :: parseInstrs n (bs.drop 16)

/-- The descriptor table of its bytes. -/
def parseDescs : Nat → List Byte → List (Option Desc)
  | 0, _ => []
  | n + 1, bs => Desc.decode (bs.take 64) :: parseDescs n (bs.drop 64)

/-- Validation of an image's lists (R165, R172). -/
def validate (is : List (Option RInstr)) (ds : List (Option Desc)) (c : Carve) (train det : Bool) : Verdict :=
  let v := checkList ds c train det is.length 0 [] .none is ⟨false, false, 0⟩
  v.addRule (decide (v.count ≤ 2 ^ 36))

/-- The status of a LAUNCH whose image fails (R172). -/
def Verdict.status (v : Verdict) : Status := if v.rule then .denied else if v.range then .range else .ok

/-! Receive slots (R185, R186). -/

/-- Descriptor k has the form of a receive slot. -/
def Desc.slotForm (d : Desc) : Bool := d.fmt == .fp32 && d.space == .sram && d.rank == 3 && decide (8 < d.dim 0)

/-- The first RECV in list order that names slot k: its ORDER. -/
def slotOrder (is : List RInstr) (k : Nat) : Option Bool :=
  is.findSome? (fun x => match x.body with
    | .sync .recv f => if f.id = k then some (f.order == 1) else none
    | _ => none)

/-- Slots bound in ascending order within 262,144 rows and 8,192 groups of ORDER 1. -/
def bindSlots (p : ProgStore) : Nat → Nat → Nat → Nat → Tab RSlot
  | 0, _, _, _ => []
  | fuel + 1, k, rows, groups =>
    match slotOrder p.instrs k, p.descs[k]? with
    | some o, some d =>
      if d.slotForm then
        let rows2 := rows + d.dim 1 * d.dim 2
        let groups2 := if o then groups + d.dim 2 else groups
        if rows2 ≤ 262144 ∧ groups2 ≤ 8192 then (k, ⟨true, o, [], 0⟩) :: bindSlots p fuel (k + 1) rows2 groups2
        else bindSlots p fuel (k + 1) rows groups
      else bindSlots p fuel (k + 1) rows groups
    | _, _ => bindSlots p fuel (k + 1) rows groups

end Sys2Proof.Machine
end

