-- ==== Sys2Proof/Machine/Operands.lean ====
section
/-! DEFINITION. Region instructions (chapter 05): the sequencer's position, operands with their offset registers, spans,
issue, failure and skip mode, and device accesses through the lookaside cache. -/
namespace Sys2Proof.Machine

/-- The LAUNCH that region r runs, with its partition. -/
def State.regRun (s : State) (r : Nat) : Option (Nat × LaunchRun) :=
  match s.partOfRegion r with
  | some p => ((s.part p).launch).map (fun l => (p, l))
  | none => none

/-- The carve-outs that a region's program uses: those of the LAUNCH's context. -/
def State.regCarve (s : State) (r : Nat) : Carve :=
  match s.regRun r with
  | some (_, l) => (s.ctxRec l.ctx).carve
  | none => ⟨0, 0, 0, 0⟩

/-- One byte of a context's carve-out (R91 to R93, R159). -/
def Region.view (x : Region) (c : Carve) : Reader := fun sp a =>
  match sp with
  | .sram => x.sramByte (c.sramBase + a)
  | .bank b => BitVec.ofNat 8 (((x.block b).word (c.bankFirst + a / 512) (a % 512 / 4)).toNat / 256 ^ (a % 4))

/-- One byte of a context's carve-out written. -/
def Region.poke (c : Carve) (x : Region) (w : Space × Nat × Byte) : Region :=
  match w with
  | (.sram, a, v) => x.sramPut (c.sramBase + a) v
  | (.bank b, a, v) =>
    let e := c.bankFirst + a / 512
    let n := a % 512 / 4
    let k := 8 * (a % 4)
    let old := ((x.block b).word e n).toNat
    x.setBlock b ((x.block b).putWord e n (BitVec.ofNat 32 (setBits old (k + 7) k v.toNat)))

/-- Byte writes, latest first, made in order. -/
def Region.pokes (c : Carve) (x : Region) (ws : List (Space × Nat × Byte)) : Region := ws.foldr (fun w x => x.poke c w) x

/-- Bytes laid out at a byte offset of a space. -/
def byteWrites (sp : Space) (a : Nat) (bs : List Byte) : List (Space × Nat × Byte) :=
  ((List.range bs.length).zip bs).map (fun e => (sp, a + e.1, e.2))

/-! Operands. -/

/-- The descriptor that an instruction names. -/
def Region.desc (x : Region) (i : Nat) : Option Desc := x.store.descs[i]?

/-- A descriptor with the offsets of a register value (R145). -/
def Desc.at_ (d : Desc) (s : Word) : Opnd := ⟨d, offBase s, offAux s⟩

/-- A descriptor operand with its offset register; the value 0 adds nothing. -/
def Region.opnd (x : Region) (i off : Nat) : Option Opnd := (x.desc i).map (fun d => d.at_ (x.reg off))

/-- Every byte of the operand lies in the carve-out (R159). -/
def Opnd.ok (o : Opnd) (c : Carve) (aux : Bool) : Bool := o.d.fits c o.off o.aux aux

/-- Spans that every one of these units has; with no unit, the sequencer's. -/
def bySpan (units : List RUnit) (spans : List Span) : List USpan :=
  if units.isEmpty then spans.map (fun a => ⟨none, a⟩) else units.flatMap (fun u => spans.map (fun a => ⟨some u, a⟩))

/-- The spans of an operand (R149). -/
def Opnd.spans (o : Opnd) (aux write : Bool) : List Span := o.d.spans o.off o.aux aux write

/-- The size that R122 takes from a register: none named, or a value. -/
def Region.sizeOverride (x : Region) (szreg : Nat) : Option Nat := if szreg = 0 then none else some (x.reg szreg).toNat

/-! The sequencer. -/

/-- Loops whose body ends before the next index: the body runs again, or the loop ends (R163). -/
def Region.loopBack : Nat → Region → Region
  | 0, x => x
  | fuel + 1, x =>
    match x.loops with
    | [] => x
    | t :: rest =>
      if x.pc ≠ t.at_ + t.bodylen + 1 then x
      else if t.iter + 1 < t.trip then
        ({ x with pc := t.at_ + 1, loops := { t with iter := t.iter + 1 } :: rest } : Region).setReg t.idxreg (BitVec.ofNat 64 (t.iter + 1))
      else ({ x with loops := rest } : Region).loopBack fuel

/-- The next instruction in list order. -/
def Region.goto (x : Region) (pc : Nat) : Region := ({ x with pc := pc, plans := [], walk := none } : Region).loopBack 9
def Region.advance (x : Region) : Region := x.goto (x.pc + 1)

/-- The sequencer has issued its last instruction, or has stopped (R176). -/
def Region.ended (x : Region) : Bool := x.stopped || (decide (x.store.instrs.length ≤ x.pc) && x.wait.isNone)

/-- A status joins those of the command (R18). The order number tells which region's status came first. -/
def State.noteStatus (s : State) (r : Nat) (st : Status) : State :=
  let x := s.region r
  let w := x.fail.worst st
  let order := (s.regions.foldl (fun m y => max m y.failOrder) 0) + 1
  s.setRegion r { x with fail := w, failOrder := if w = x.fail then x.failOrder else order }

/-- An instruction fails: its status joins those of the command, and the region enters skip mode (R175). -/
def State.failRegion (s : State) (r : Nat) (st : Status) : State :=
  let s := s.noteStatus r st
  s.setRegion r { s.region r with skip := true }

/-- The instruction at the sequencer's position fails at issue and takes no effect (R159, R122, R153). -/
def State.failIssue (s : State) (r : Nat) (st : Status) : State :=
  let s := s.failRegion r st
  s.setRegion r (s.region r).advance

/-- The instruction retires at issue without effect. -/
def State.passOver (s : State) (r : Nat) : State := s.setRegion r (s.region r).advance

/-- A span of an unretired instruction of another unit holds one of these spans back (R149). -/
def Region.heldBack (x : Region) (spans : List USpan) : Bool :=
  x.issued.any (fun i => i.spans.any (fun a => spans.any (fun b => a.unit != b.unit && a.span.conflicts b.span)))

/-- The table of 64 issued instructions is full: issue stops (R149). -/
def Region.tableFull (x : Region) : Bool := decide (64 ≤ x.issued.length)

/-- What an instruction leaves behind when it issues: its flags, failure, status without failure, failed checks, what it
waits for, and requests still open. -/
structure Tail where
  flags : FlagSets := []
  fail : Status := .ok
  note : Status := .ok
  bad : List RetireFault := []
  pend : Pending := .none
  owed : Nat := 0

/-- An instruction issues to its units. -/
def Region.issue (x : Region) (units : List RUnit) (spans : List USpan) (t : Tail) : Region :=
  match x.store.instrs[x.pc]? with
  | none => x
  | some i =>
    ({ x with
        issued := x.issued ++ [⟨x.nextId, x.pc, i, units, spans, t.flags, t.fail, t.note, t.bad, t.pend, t.owed⟩],
        nextId := x.nextId + 1 } : Region).advance

/-- The region sequencer's next instruction is this one, in a region that runs and whose table of issued instructions has
room (R147, R149). -/
def State.atInstr (s : State) (r : Nat) (b : RBody) : Bool :=
  let x := s.region r
  decide (r < 16) && x.running && !x.stopped && x.wait.isNone && !s.inReset && !x.tableFull && x.store.instrs[x.pc]? == some ⟨b.mayVary, b⟩

/-- The first issue of the command in this region is noted, and its cycles count from there (Table 05-10). -/
def Region.noteFirst (x : Region) (now : Nat) : Region :=
  match x.firstIssue with
  | some _ => x
  | none => { x with firstIssue := some now, clkAt := now, clkUnits := 0, clkLost := 0 }

/-- Run an instruction that is the next of its region. -/
def State.runInstr (s : State) (r : Nat) (b : RBody) (f : State → Nat → LaunchRun → State) : Res :=
  if s.atInstr r b then
    match s.regRun r with
    | some (p, l) => if s.now < l.notBefore then .next s else .next (f (s.setRegion r ((s.region r).noteFirst s.now)) p l)
    | none => .next s
  else .next s

/-- Run an instruction of a unit: in skip mode it retires at issue without effect (R175). -/
def State.runUnit (s : State) (r : Nat) (b : RBody) (f : State → Nat → LaunchRun → State) : Res :=
  s.runInstr r b (fun s p l => if (s.region r).skip then s.passOver r else f s p l)

/-! Device accesses of a region (R353 to R355). -/

/-- The tables a region's accesses translate through. -/
def State.regVia (s : State) (p : Nat) (l : LaunchRun) : Via := ⟨l.ctx, p, s.entryOf p l.gen⟩

/-- The cache tag of a piece. -/
def State.rlcTag (s : State) (p : Nat) (l : LaunchRun) (x : Piece) : CachedRange :=
  if s.inWindow l.ctx x.va then ⟨true, p, l.gen, x.entry⟩ else ⟨false, l.ctx, 0, x.entry⟩

/-- The piece's entry is in the region's lookaside cache. -/
def State.rlcHit (s : State) (r p : Nat) (l : LaunchRun) (x : Piece) : Bool := (s.region r).rlc.contains (s.rlcTag p l x)

/-- The entry used becomes the most recent one. -/
def State.rlcTouch (s : State) (r p : Nat) (l : LaunchRun) (y : Piece) : State :=
  let x := s.region r
  let c := s.rlcTag p l y
  s.setRegion r { x with rlc := c :: x.rlc.filter (· != c) }

def Plan.of (rows : List (Nat × Nat)) : Plan := ⟨rows, rows, [], [], none⟩
/-- Every row has been translated, or one has failed. -/
def Plan.ended (x : Plan) : Bool := x.fail.isSome || x.todo.isEmpty

/-- One range of a plan translated through the cache, or a finished row checked (R354, R355); the address missed when
the cache does not hold the range. -/
def State.planStep (s : State) (r p : Nat) (l : LaunchRun) (k : AccKind) (x : Plan) : Except Nat (Plan × State) :=
  match x.todo with
  | [] => .ok (x, s)
  | (va, n) :: rest =>
    if n = 0 then
      match s.accessFail p k x.part with
      | some st => .ok ({ x with fail := some st }, s)
      | none => .ok ({ x with todo := rest, part := [], got := x.got ++ [x.part] }, s)
    else if k = .write ∧ va < 2 ^ 57 ∧ s.inWindow l.ctx va then .ok ({ x with fail := some .denied }, s)
    else match s.entryFor (s.regVia p l) va with
      | none => .ok ({ x with fail := some .range }, s)
      | some (e, base) =>
        let off := va - base
        let m := min ((e.start + e.length) * 4096 - off) n
        let y : Piece := ⟨va, e.pbase * 4096 + (off - e.start * 4096), m, e⟩
        if s.rlcHit r p l y then .ok ({ x with todo := (va + m, n - m) :: rest, part := x.part ++ [y] }, s.rlcTouch r p l y)
        else .error va

/-- A plan carried on until it ends or misses; the address missed. -/
def State.planLoop (r p : Nat) (l : LaunchRun) (k : AccKind) : Nat → Plan → State → Plan × Option Nat × State
  | 0, x, s => (x, none, s)
  | fuel + 1, x, s =>
    if x.ended then (x, none, s)
    else match s.planStep r p l k x with
      | .error va => (x, some va, s)
      | .ok (x, s) => State.planLoop r p l k fuel x s

/-- Accesses of the region's next instruction translated, once each (R351, R354): the plan when it has ended, none while
the walker is asked for a range that the cache does not hold. -/
def State.planRows (s : State) (r p : Nat) (l : LaunchRun) (k : AccKind) (rows : List (Nat × Nat)) : Option Plan × State :=
  let old := (s.region r).plans
  let fuel := rows.foldl (fun n x => n + x.2 / 4096 + 3) 1
  let (x, miss, s) := State.planLoop r p l k fuel ((old.find? (·.rows == rows)).getD (Plan.of rows)) s
  let s := s.setRegion r { s.region r with plans := x :: old.filter (·.rows != rows), walk := miss }
  (if x.ended then some x else none, s)

/-- A double-bit error or a failed check of an instruction is logged with TIER and SOURCE 0. -/
def State.regLog (s : State) (p addr tier : Nat) : State :=
  match (s.part p).launch with
  | some l =>
    let seq := match (s.queue l.queue).running with
      | some x => x.cmd.seq
      | none => 0
    s.logError addr tier 0 (some p) l.ctx seq l.queue
  | none => s

/-- A walked entry enters a region's cache; the least recently used one leaves when 256 are held, and the miss is counted. A
walk that meets an uncorrectable error in the system area fails the access that missed with DATA (R361). -/
def State.rlcFill (s : State) (p : Nat) (l : LaunchRun) (va r : Nat) : State :=
  match s.entryFor (s.regVia p l) va with
  | none => s.setRegion r { s.region r with walk := none }
  | some (e, _) =>
    let x := s.region r
    let c := s.rlcTag p l ⟨va, 0, 0, e⟩
    if x.rlc.contains c then s.setRegion r { x with walk := none }
    else if (s.walkBad (s.regVia p l) [⟨va, 0, 0, e⟩]).isSome then
      s.setRegion r { x with walk := none, plans := x.plans.map (fun y => if !y.ended && (y.todo.headD (0, 0)).1 == va then { y with fail := some .data } else y) }
    else (s.setRegion r { x with walk := none, rlc := (c :: x.rlc).take 256 }).bumpPart p 0x13 1

/-- A region waits for the walk that region r waits for: the same tables and the same entry. -/
def State.sameWalk (s : State) (p : Nat) (l : LaunchRun) (va r : Nat) : Bool :=
  match (s.region r).walk with
  | none => false
  | some a => (s.entryFor (s.regVia p l) a).map (·.1) == (s.entryFor (s.regVia p l) va).map (·.1)
    && s.inWindow l.ctx a == s.inWindow l.ctx va

/-- RLC_WALK_DONE (R353): the walk of a miss that region r waits for ends, and the caches of every region of the LAUNCH
that waits for the same entry fill (Table 12-11). -/
def execRlcWalkDone (r va : Nat) (s : State) : Res :=
  match s.regRun r with
  | none => .next s
  | some (p, l) =>
    if (s.region r).walk = some va then
      let s := match (s.entryFor (s.regVia p l) va).bind (fun e => s.walkBad (s.regVia p l) [⟨va, 0, 0, e.1⟩]) with
        | some a => s.regLog p a 1
        | none => s
      .next (((s.regionsOf p).filter (s.sameWalk p l va)).foldl (fun (s : State) q => s.rlcFill p l va q) s)
    else .next s

end Sys2Proof.Machine
end

