-- ==== Sys2Proof/Machine/Records.lean ====
section
/-! DEFINITION. Records into receive slots (chapter 06, R250 to R253, R258 to R262): the landing checks, what a landing
writes, the holding area, and the settling of placed choices. -/
namespace Sys2Proof.Machine

/-! Record headers (Tables 06-2, 08-3). -/

def hdrBatch (bs : List Byte) : Nat := leAt bs 0 4
def hdrEpoch (bs : List Byte) : Nat := leAt bs 4 2
def hdrPidx (bs : List Byte) : Nat := leAt bs 6 2
def hdrGroup (bs : List Byte) : Nat := leAt bs 8 2
def hdrDim (bs : List Byte) : Nat := leAt bs 10 2
def hdrTok (bs : List Byte) : Nat := leAt bs 12 4
def hdrHome (bs : List Byte) : Nat := leAt bs 16 2
def hdrSrc (bs : List Byte) : Nat := leAt bs 18 2
def hdrKind (bs : List Byte) : Nat := leAt bs 20 2
def hdrGen (bs : List Byte) : Nat := leAt bs 22 2
def hdrWeight (bs : List Byte) : F32 := BitVec.ofNat 32 (leAt bs 24 4)

/-- A route record (kinds 0x0002 to 0x0004). -/
def isRoute (bs : List Byte) : Bool := decide (2 ≤ hdrKind bs) && decide (hdrKind bs ≤ 4)

/-- Check 1 of Table 06-3: the kind is listed and the reserved bits are zero. -/
def hdrOk (bs : List Byte) : Bool :=
  !bit (hdrSrc bs) 15 &&
  (if isRoute bs then hdrTok bs / 2 ^ 22 == 0 && hdrHome bs / 2 ^ 12 == 0
   else hdrKind bs == 1 && hdrTok bs / 2 ^ 18 == 0 && leAt bs 22 2 == 0)

/-! Settling (R259, R260). -/

/-- The round that placed the choices of one region and return slot, as HOME names them (Table 08-3): rounds of a command
have return slots of their own (Table 08-6). -/
def RoundEntry.placedFor (e : RoundEntry) (batch home : Nat) : Bool :=
  e.batch == batch && e.placed && decide (0 < e.unsettled)
  && e.subs.any (fun b => b.rows && b.index == home % 16 && b.slot == bits home 11 4)

/-- One placed choice fewer in its round; a round without one left is freed. -/
def settleRounds (batch home : Nat) : List RoundEntry → List RoundEntry
  | [] => []
  | e :: es =>
    if e.placedFor batch home then
      if e.unsettled = 1 then es else { e with unsettled := e.unsettled - 1 } :: es
    else e :: settleRounds batch home es

/-- A placed choice of a batch is settled; with its last one the batch leaves the cancelled-batch filter (R259). -/
def Part.settle (x : Part) (batch home : Nat) : Part :=
  let rs := settleRounds batch home x.rounds
  let left := rs.any (fun e => e.batch == batch && decide (0 < e.unsettled))
  { x with rounds := rs, filter := if left || rs == x.rounds then x.filter else x.filter.filter (fun f => f.1 != batch) }

/-! The checks of Table 06-3 with the changes of Table 08-4. -/

/-- What becomes of a record. -/
inductive Landing where
  | drop (check : Nat)
  | cancelled
  | held
  | stale
  | lands (group row : Nat) (counts : Bool)
  deriving DecidableEq, Repr

/-- SIZE0, SIZE1, SIZE2 of a landing tensor. -/
def Desc.s0 (d : Desc) : Nat := d.size.getD 0 0
def Desc.s1 (d : Desc) : Nat := d.size.getD 1 0
def Desc.s2 (d : Desc) : Nat := d.size.getD 2 0

/-- SRAM address of row (g, r) of a landing tensor (R185). -/
def Desc.rowAt (d : Desc) (c : Carve) (g r : Nat) : Nat :=
  c.sramBase + ((d.base : Int) + r * d.stride.getD 0 0 + g * d.stride.getD 1 0).toNat

/-- Check 8: where the record lands in a bound slot. -/
def Region.place (x : Region) (c : Carve) (sl : RSlot) (d : Desc) (bs : List Byte) : Landing :=
  let g := hdrGroup bs
  if hdrKind bs = 4 then
    let t := hdrTok bs % 65536
    if d.s1 ≤ t then .drop 8 else .lands 0 t true
  else if sl.arrivalOrder then
    let n := (sl.landed.filter (fun k => k / d.s1 == g)).length
    if d.s1 ≤ n then .drop 8 else .lands g n true
  else
    let i := hdrPidx bs
    if d.s1 ≤ i then .drop 8
    else if sl.landed.contains (g * d.s1 + i) then
      if newer (hdrEpoch bs) (leNat (x.sramLoad (d.rowAt c g i + 4) 2)) then .lands g i false else .drop 8
    else .lands g i true

/-- Checks 5 to 8. -/
def Region.slotCheck (x : Region) (c : Carve) (k : Nat) (bs : List Byte) : Landing :=
  let sl := x.slot k
  match x.desc k with
  | none => .drop 5
  | some d =>
    if !sl.bound || ((hdrKind bs == 2 || hdrKind bs == 3) && sl.arrivalOrder) then .drop 5
    else if bs.length ≠ 4 * d.s0 ∨ hdrDim bs + 8 ≠ d.s0 then .drop 6
    else if (if hdrKind bs = 4 then hdrGroup bs != 0 else decide (d.s2 ≤ hdrGroup bs)) then .drop 7
    else x.place c sl d bs

/-- The first check that applies to a record for slot k of region r (R187). -/
def State.landing (s : State) (p r k : Nat) (bs : List Byte) : Landing :=
  let x := s.region r
  if !(hdrOk bs) then .drop 1
  else if (s.part p).filter.any (fun f => f.1 == hdrBatch bs) then .cancelled
  else match (s.part p).launch with
    | none => .held
    | some l =>
      if l.batch ≠ hdrBatch bs ∨ !x.running then .held
      else if hdrEpoch bs ≠ l.epoch ∧ !(hdrKind bs = 1 ∧ hdrSrc bs = s.modid) then .stale
      else if isRoute bs ∧ hdrGen bs ≠ l.gen then .stale
      else x.slotCheck (s.regCarve r) k bs

/-! Outcomes. -/

/-- FP32 words of bytes. -/
def words32 (bs : List Byte) : List F32 := (List.range (bs.length / 4)).map (fun i => BitVec.ofNat 32 (leAt bs (4 * i) 4))
def bytes32 (ws : List F32) : List Byte := ws.flatMap (fun w => leBytes 4 w.toNat)

/-- The bytes a landing leaves in its row, from the record and the row before it, and its flags (R253). -/
def landBytes (bs old : List Byte) : List Byte × Flags :=
  let w := hdrWeight bs
  match hdrKind bs with
  | 3 =>
    let rs := (words32 (bs.drop 32)).map (fun v => fMul w v)
    (bs.take 32 ++ bytes32 (rs.map (·.1)), rs.foldl (fun f x => f ||| x.2) 0)
  | 4 =>
    let rs := ((words32 (bs.drop 32)).zip (words32 (old.drop 32))).map (fun v => fFma w v.1 v.2)
    (old.take 32 ++ bytes32 (rs.map (·.1)), rs.foldl (fun f x => f ||| x.2) 0)
  | _ => (bs, 0)

/-- A record lands at row (g, i) of slot k (R189, R253). -/
def State.landAt (s : State) (p r k g i : Nat) (counts : Bool) (bs : List Byte) : State :=
  let x := s.region r
  match x.desc k with
  | none => s
  | some d =>
    let a := d.rowAt (s.regCarve r) g i
    let (out, fl) := landBytes bs (x.sramLoad a bs.length)
    let sl := x.slot k
    let sl := if counts then { sl with landed := (g * d.s1 + i) :: sl.landed, count := sl.count + 1 } else sl
    let x := { x.sramStore a out with flags := x.flags ||| fl, slots := Tab.set .unbound x.slots k sl }
    let s := s.setRegion r x
    let s := if counts ∧ (hdrKind bs = 3 ∨ hdrKind bs = 4) then s.setPart p ((s.part p).settle (hdrBatch bs) (hdrHome bs)) else s
    s.bumpPart p 0x19 1

/-- DATA of events 0x40 and 0x41 (Table 21-12). -/
def landData (check k r : Nat) : Nat := check + 16 * k + 4096 * r

/-- A discarded record is counted by its kind (R190, R262, Table 14-8). -/
def State.countStale (s : State) (p : Nat) (bs : List Byte) : State :=
  let x := s.part p
  if isRoute bs then s.setPart p { x with rteStale := (x.rteStale + 1) % 2 ^ 32 }
  else s.setPart p { x with partialStale := (x.partialStale + 1) % 2 ^ 32 }

/-- A command with the record's batch runs in the target region (R188). -/
def State.batchRuns (s : State) (p r : Nat) (bs : List Byte) : Bool :=
  (s.region r).running && (match (s.part p).launch with
    | some l => l.batch == hdrBatch bs
    | none => false)

/-- The outcome of a record that is not held (R187, R188, R252). -/
def State.land (s : State) (p r k : Nat) (bs : List Byte) : Landing → State
  | .drop c =>
    let s := s.event (s.regionIsland r) 0x40 (some p) none (landData c k r)
    if c = 1 ∧ !(s.batchRuns p r bs) then s else s.failRegion r .range
  | .cancelled =>
    if isRoute bs then
      let x := (s.part p).settle (hdrBatch bs) (hdrHome bs)
      s.setPart p { x with rteDiscarded := (x.rteDiscarded + 1) % 2 ^ 32 }
    else s
  | .held => s
  | .stale => (s.countStale p bs).bumpPart p 0x1A 1
  | .lands g i counts => s.landAt p r k g i counts bs

/-- WRACK to a remote sender. -/
def State.wrackTo (s : State) (src tag plot : Nat) (st : Status) : State :=
  (s.originate { typ := 3, cls := 1, vc := 0, xc := false, enc := false, plot := plot, hops := 0, src := s.modid, dst := src,
                 tag := tag, status := st.code, addr := 0, aux := 0, data := [], gcm := [] }).2

/-- A record has reached its slot or the holding area: its sender no longer waits for it. -/
def State.delivered (s : State) (t : TransitRec) : State :=
  let s := { s with transit := s.transit.erase t }
  match t.owner with
  | .none => s
  | .instr r id => s.modIssued r id (fun i => { i with owed := i.owed - 1 })
  | .remote src tag plot => s.wrackTo src tag plot .ok

/-- Bytes that a partition's holding area holds. -/
def Part.heldBytes (x : Part) : Nat := x.held.foldl (fun n h => n + h.bytes.length) 0

/-- A record arrives (R187, R190). A full holding area leaves it on its way. -/
def State.arrive (s : State) (t : TransitRec) : State :=
  match s.partOfRegion t.region with
  | none => s.delivered t
  | some p =>
    match s.landing p t.region t.slot t.bytes with
    | .held =>
      let x := s.part p
      if 2 ^ 22 < x.heldBytes + t.bytes.length then s
      else (s.setPart p { x with held := x.held ++ [⟨t.region, t.slot, t.bytes, s.now⟩] }).delivered t
    | o => (s.land p t.region t.slot t.bytes o).delivered t

/-- The held records of region r's new command, in the order received (R190). -/
def State.landHeld (s : State) (p r batch : Nat) : State :=
  let due (h : HeldRec) : Bool := h.region == r && hdrBatch h.bytes == batch
  let x := s.part p
  let mine := x.held.filter due
  mine.foldl (fun (s : State) h => s.land p r h.slot h.bytes (s.landing p r h.slot h.bytes))
    (s.setPart p { x with held := x.held.filter (fun h => !(due h)) })

/-- RECORD_LAND: a partial record, or one whose kind is not listed, completes (R187). -/
def execRecordLand (t : TransitRec) (s : State) : Res :=
  if s.transit.contains t && !(isRoute t.bytes) && !s.inReset then .next (s.arrive t) else .next s

/-- ROUTE_RECORD_LAND (R252, R253). -/
def execRouteRecordLand (t : TransitRec) (s : State) : Res :=
  if s.transit.contains t && isRoute t.bytes && !s.inReset then .next (s.arrive t) else .next s

/-- A record held for more than 10 ms. -/
def HeldRec.over (h : HeldRec) (now : Nat) : Bool := decide (h.time + 10000000 < now)

/-- HELD_RECORD_EXPIRE (R190). -/
def execHeldRecordExpire (p : Nat) (s : State) : Res :=
  if 8 ≤ p then .next s
  else
    let x := s.part p
    let old := x.held.filter (fun h => h.over s.now)
    .next (old.foldl (fun (s : State) h =>
        (s.event (islandShed 20) 0x41 (some p) none (landData 3 h.slot h.region)).countStale p h.bytes)
      (s.setPart p { x with held := x.held.filter (fun h => !(h.over s.now)) }))

/-! Cancelled batches (R258, R259). -/

/-- The batch enters the filter: once, with its 10 ms from now, the oldest leaving a full filter. -/
def Part.cancelBatch (x : Part) (batch now : Nat) : Part :=
  let f := x.filter.filter (fun e => e.1 != batch)
  let f := if 64 ≤ f.length then f.drop 1 else f
  { x with
    filter := f ++ [(batch, now)],
    rounds := x.rounds.map (fun e => if e.batch = batch then { e with cancelledAt := some now } else e) }

/-- CANCEL_FILTER_EXPIRE (R259): 10 ms after the batch entered the filter. -/
def execCancelFilterExpire (p batch : Nat) (s : State) : Res :=
  if 8 ≤ p then .next s
  else
    let x := s.part p
    .next (s.setPart p { x with filter := x.filter.filter (fun f => !(f.1 == batch && decide (f.2 + 10000000 ≤ s.now))) })

end Sys2Proof.Machine
end

