-- ==== Sys2Proof/Machine/Dma.lean ====
section
/-! DEFINITION. MOV DMAIN and DMAOUT (R160, R184, R268, R274 to R276): rows between region SRAM and device memory, records
into receive windows, and expanded code streams. -/
namespace Sys2Proof.Machine

/-- An earlier instruction of the region DMA engine still waits for a page copy or a round: later ones of that engine
execute after it (R148). -/
def Region.dmaBusy (x : Region) : Bool :=
  x.issued.any (fun i => i.units.contains .dma && (match i.pend with
    | .round | .cow _ => true
    | _ => false))

/-- All that the owner needs from the host and from other modules is here; what is missing is asked for. -/
def State.prefetch (s : State) (o : ReqOwner) (p : Nat) (ps : List Piece) : Bool × State :=
  let held := s.heldLines ps
  if held ≠ [] then (false, s.snoopLines held)
  else
    let parts := s.remoteParts ps
    let plot := match s.plotOf p with
      | some r => r.plot
      | none => 0
    (parts.all (fun x => (s.arrivedAt o x.1 x.2).isSome),
     (s.missing o parts).foldl (fun (s : State) x => s.request o plot x.1 false none x.2) s)

/-- The SEQ of the LAUNCH that runs. -/
def State.launchSeq (s : State) (l : LaunchRun) : Nat :=
  match (s.queue l.queue).running with
  | some x => x.cmd.seq
  | none => 0

/-- Rows read in order, up to the first that fails. -/
def State.readRows (s : State) (r p : Nat) (l : LaunchRun) : List (List Piece) → List (List Byte) × Status × State
  | [] => ([], .ok, s)
  | ps :: rest =>
    match s.readPieces (.region r) (s.regVia p l) 0 (s.launchSeq l) l.queue ps with
    | (.done bs, s) => let t := State.readRows s r p l rest; (bs :: t.1, t.2)
    | (.fail st, s) => ([], st, s)
    | (.wait, s) => ([], .ok, s)

/-- Bytes that a region's instruction reads from device memory: it waits, or it has the rows before the first failure. -/
def State.regFetch (s : State) (r p : Nat) (l : LaunchRun) (rows : List (Nat × Nat)) : Option (List (List Byte) × Status) × State :=
  match s.planRows r p l .read rows with
  | (none, s) => (none, s)
  | (some x, s) =>
    let (ready, s) := s.prefetch (.region r) p x.got.flatten
    if !ready then (none, s)
    else
      let (bs, st, s) := s.readRows r p l x.got
      (some (bs, if st = .ok then x.fail.getD .ok else st), s.dropFetched (.region r))

/-- Device addresses of a DMA's rows with their bytes (R160). -/
def Region.dmaRows (x : Region) (f : MovF) (d : Desc) : List (Nat × Nat) :=
  let base := (x.reg f.sa).toNat + f.imm
  let step := if (x.reg f.sb).toNat = 0 then d.rowBytes else (x.reg f.sb).toNat
  (List.range d.rows).map (fun i => ((base + i * step) % 2 ^ 64, d.rowBytes))

/-- The spans of a DMA: its operand's bytes, and the interval of the device addresses it reads or writes (R149). -/
def dmaSpans (o : Opnd) (rows : List (Nat × Nat)) (write : Bool) : List USpan :=
  bySpan [.dma] (o.spans false write ++ (match rows with
    | [] => []
    | x :: xs => [⟨.device, (xs.foldl (fun m y => min m y.1) x.1 : Nat), (xs.foldl (fun m y => max m (y.1 + y.2)) (x.1 + x.2) : Nat) - 1, !write⟩]))

/-- SRAM offset of row i of an operand. -/
def Opnd.rowAddr (o : Opnd) (i : Nat) : Nat := ((o.d.base : Int) + o.off + o.d.rowOff i).toNat

/-- Rows written into an operand from row 0 on. -/
def Region.putRows (x : Region) (c : Carve) (o : Opnd) (bs : List (List Byte)) : Region :=
  ((List.range bs.length).zip bs).foldl (fun (x : Region) e => x.sramStore (c.sramBase + o.rowAddr e.1) e.2) x

/-- DMAIN without XP. -/
def State.dmain (s : State) (r p : Nat) (l : LaunchRun) (f : MovF) (o : Opnd) : State :=
  let rows := (s.region r).dmaRows f o.d
  match s.regFetch r p l rows with
  | (none, s) => s
  | (some (bs, st), s) =>
    s.setRegion r (((s.region r).putRows (s.regCarve r) o bs).issue [.dma] (dmaSpans o rows true) { fail := st })

/-! Expansion at use. -/

/-- Elements written in linear-index order. -/
def Region.putElems (x : Region) (c : Carve) (o : Opnd) (es : List Nat) : Region :=
  ((List.range es.length).zip es).foldl (fun (x : Region) e =>
    x.sramStore (c.sramBase + (o.addr e.1).toNat) (leBytes (o.d.fmt.width / 8) e.2)) x

/-- A DMAIN with XP ends: it issues, failed or not. -/
def State.xpEnd (s : State) (r : Nat) (o : Opnd) (st : Status) : State :=
  s.setRegion r ((s.region r).issue [.dma] (bySpan [.dma] (o.spans false true)) { fail := st })

/-- The codebook block a stream names: cached by this command, or read now and cached; none while it waits. -/
def State.codebook (s : State) (r p : Nat) (l : LaunchRun) (e a : Nat) (h : StreamHdr) : Option (Except Status (List Byte)) × State :=
  match s.cachedBlock e l.queue a with
  | some b => (some (.ok b), s)
  | none =>
    if s.cacheFull e then (none, s)
    else match s.regFetch r p l [(a, blockLen h.b h.g)] with
      | (none, s) => (none, s)
      | (some (bs, st), s) =>
        let s := s.bumpPart p 0x16 1
        if st ≠ .ok then (some (.error st), s)
        else
          let b := bs.flatten
          if h.blockOk b then (some (.ok b), s.cacheBlock e l.queue a b) else (some (.error .expand), s)

/-- Checks 4 to 6 and the writing of a stream whose header passed checks 1 to 3. -/
def State.xpStream (s : State) (r p : Nat) (l : LaunchRun) (a e : Nat) (o : Opnd) (h : StreamHdr) : State :=
  let at_ := ((a : Int) + h.cboff).toNat
  if !h.offOk then s.xpEnd r o .expand
  else match s.codebook r p l e at_ h with
    | (none, s) => s
    | (some (.error st), s) => s.xpEnd r o st
    | (some (.ok block), s) =>
      if !(h.blockOk block) || o.d.fmt != h.out || o.d.count != h.n * h.g then s.xpEnd r o .expand
      else match s.regFetch r p l [(a, h.len)] with
        | (none, s) => s
        | (some (bs, st), s) =>
          if st ≠ .ok then s.xpEnd r o st
          else
            let stream := bs.flatten
            let s := s.setRegion r ((s.region r).putElems (s.regCarve r) o (h.expand block stream))
            s.xpEnd r o (if h.tailOk stream then .ok else .expand)

/-- The expander that every piece of a read crosses (R268). -/
def State.expanderOf (s : State) (r : Nat) : List Piece → Option Nat
  | [] => none
  | x :: xs => match s.expanderFor r x with
    | none => none
    | some e => if xs.all (fun y => s.expanderFor r y == some e) then some e else none

/-- DMAIN with XP (R268, Table 09-4). -/
def State.dmainXp (s : State) (r p : Nat) (l : LaunchRun) (f : MovF) (o : Opnd) : State :=
  let a := (((s.region r).reg f.sa).toNat + f.imm) % 2 ^ 64
  match s.planRows r p l .read [(a, 64)] with
  | (none, s) => s
  | (some x, s) =>
    match x.fail, s.expanderOf r x.got.flatten with
    | some st, _ => s.xpEnd r o st
    | none, none => s.xpEnd r o .expand
    | none, some e =>
      match s.regFetch r p l [(a, 64)] with
      | (none, s) => s
      | (some (bs, st), s) =>
        if st ≠ .ok then s.xpEnd r o st
        else match StreamHdr.parse bs.flatten with
          | none => s.xpEnd r o .expand
          | some h =>
            match s.tagCheck p h with
            | some st => s.xpEnd r o st
            | none =>
              match s.planRows r p l .read [(a, h.len)] with
              | (none, s) => s
              | (some y, s) =>
                match y.fail with
                | some st => s.xpEnd r o st
                | none => if s.expanderOf r y.got.flatten = some e then s.xpStream r p l a e o h else s.xpEnd r o .expand

/-- MOV DMAIN (R160). -/
def execDmain (r : Nat) (f : MovF) (s : State) : Res :=
  s.runUnit r (.mov .dmain f) (fun s p l =>
    let x := s.region r
    match x.opnd f.desc f.off with
    | none => s.passOver r
    | some o =>
      let a := ((x.reg f.sa).toNat + f.imm) % 2 ^ 64
      if !(o.ok (s.regCarve r) false) || (f.xp == 1 && a % 64 != 0) then s.failIssue r .range
      else if x.dmaBusy || x.heldBack (bySpan [.dma] (o.spans false true)) then s
      else if f.xp = 1 then s.dmainXp r p l f o
      else s.dmain r p l f o)

/-! DMAOUT. -/

/-- Bytes o … replaced, the length kept. -/
def patchBytes (bs : List Byte) (o : Nat) (v : List Byte) : List Byte :=
  bs.take o ++ v.take (bs.length - o) ++ bs.drop (o + v.length)

/-- The header fields that the DMA engine writes into every row it sends to a receive window (R184). -/
def State.stamp (s : State) (l : LaunchRun) (bs : List Byte) : List Byte :=
  patchBytes (patchBytes (patchBytes bs 0 (leBytes 4 l.batch)) 4 (leBytes 2 l.epoch)) 18 (leBytes 2 s.modid)

/-- Module and number of the 64 KiB window that a row lies in, none when it lies in no window or crosses one. -/
def rowWindow (ps : List Piece) : Option (Nat × Nat) :=
  match ps with
  | [] => none
  | x :: _ =>
    let w (y : Piece) : Nat × Nat := (y.module_, y.loc / 65536)
    if ps.all (fun y => mapRow y.loc == .recvWin && w y == w x && (y.loc + y.len - 1) / 65536 == y.loc / 65536) then some (w x) else none

/-- A row touches a receive window. -/
def touchesWindow (ps : List Piece) : Bool := ps.any (fun y => mapRow y.loc == .recvWin)

/-- The rows of a DMAOUT that reach receive windows lie in one window (R184), and a remote one fits a message (R435); a
row that no range maps lies in none. -/
def State.windowOk (s : State) (pss : List (List Piece)) : Bool :=
  match pss with
  | [] => true
  | ps :: _ =>
    if pss.any touchesWindow then
      (rowWindow ps).isSome && pss.all (fun q => q == [] || (rowWindow q == rowWindow ps
        && (q.all (fun y => !(y.remote s)) || decide ((q.foldl (fun n y => n + y.len) 0) ≤ 8192))))
    else true

/-- The instruction's record or write is on its way: one more answer is owed. -/
def State.oweInstr (s : State) (r id n : Nat) : State := s.modIssued r id (fun i => { i with owed := i.owed + n })

/-- One row of a DMAOUT sent: a record to a window, or bytes to memory. -/
def State.dmaRow (s : State) (r p id : Nat) (l : LaunchRun) (ps : List Piece) (bs : List Byte) : Status × State :=
  let plot := match s.plotOf p with
    | some x => x.plot
    | none => 0
  match rowWindow ps, ps with
  | some (m, w), y :: _ =>
    let bs := s.stamp l bs
    let s := s.oweInstr r id 1
    if m = s.modid then
      let k := w - 0x5000000
      (.ok, { s with transit := s.transit ++ [⟨k / 256, k % 256, bs, .instr r id⟩] })
    else (.ok, s.request (.instr r id) plot y.pa false (some bs) 0)
  | _, _ =>
    match s.writePieces (.instr r id) (s.regVia p l) 0 (s.launchSeq l) l.queue false ps bs with
    | (.fail st, s) => (st, s)
    | (_, s) => (.ok, s)

/-- Rows of a DMAOUT sent in order, up to the first that fails. -/
def State.dmaSend (r p id : Nat) (l : LaunchRun) : List (List Piece × List Byte) → State → Status × State
  | [], s => (.ok, s)
  | (ps, bs) :: rest, s =>
    let n := if touchesWindow ps then 0 else (s.remoteParts ps).length
    let s1 := s.oweInstr r id n
    match s1.dmaRow r p id l ps bs with
    | (.ok, s2) => State.dmaSend r p id l rest s2
    | (st, s2) => (st, s2.modIssued r id (fun i => { i with owed := i.owed - n }))

/-- DMAOUT of an operand whose checks have passed. -/
def State.dmaout (s : State) (r p : Nat) (l : LaunchRun) (f : MovF) (o : Opnd) : State :=
  let x := s.region r
  let c := s.regCarve r
  if !(s.windowOk ((x.dmaRows f o.d).map (fun y => s.reach (s.regVia p l) (y.2 / 4096 + 2) y.1 y.2))) then s.failIssue r .range
  else match s.planRows r p l .write (x.dmaRows f o.d) with
    | (none, s) => s
    | (some plan, s) =>
      let held := s.heldLines plan.got.flatten
      if held ≠ [] then s.snoopLines held
      else
        let x := s.region r
        let rows := (List.range plan.got.length).map (fun i => x.sramLoad (c.sramBase + o.rowAddr i) o.d.rowBytes)
        let s := s.setRegion r (x.issue [.dma] (dmaSpans o (x.dmaRows f o.d) false) {})
        let (st, s) := State.dmaSend r p x.nextId l (plan.got.zip rows) s
        s.modIssued r x.nextId (fun i => { i with fail := i.fail.worst (if st = .ok then plan.fail.getD .ok else st) })

/-- MOV DMAOUT (R160, R184). -/
def execDmaout (r : Nat) (f : MovF) (s : State) : Res :=
  s.runUnit r (.mov .dmaout f) (fun s p l =>
    let x := s.region r
    match x.opnd f.desc f.off with
    | none => s.passOver r
    | some o =>
      if !(o.ok (s.regCarve r) false) then s.failIssue r .range
      else if x.dmaBusy || x.heldBack (bySpan [.dma] (o.spans false false)) then s
      else s.dmaout r p l f o)

end Sys2Proof.Machine
end

