-- ==== Sys2Proof/Machine/Kv.lean ====
section
/-! DEFINITION. The key-value cache of chapter 07: geometry, frames, page runs, and what opens, extends, forks, releases
and prunes a sequence. -/
namespace Sys2Proof.Machine

/-! Geometry (Table 07-3). -/

structure Geom where
  fmt : Nat
  pplog : Nat
  nl : Nat
  ng : Nat
  hg0 : Nat
  d : Nat
  hpg : Nat
  sgrp : Nat
  alloc : Nat
  tier : Nat
  repl : Bool
  valid : Bool
  deriving DecidableEq, Repr

def Geom.of (w : Word) : Geom :=
  let v := w.toNat
  ⟨bits v 3 0, bits v 7 4, bits v 17 8 + 1, bits v 23 18 + 1, bits v 29 24, bits v 39 30 + 1, bits v 47 40 + 1, bits v 52 48,
    bits v 55 53, bits v 57 56, bit v 58, bit v 59⟩

def Geom.pp (g : Geom) : Nat := 2 ^ g.pplog
/-- Frames of one logical page (R208). -/
def Geom.frames (g : Geom) : Nat := g.nl * g.ng
/-- Element size in bytes of the cache format. -/
def Geom.elem (g : Geom) : Nat := if g.fmt = 2 ∨ g.fmt = 3 then 2 else 1
/-- Bytes of a row in a frame (R207). -/
def Geom.row (g : Geom) : Nat := 32768 / g.pp
/-- Elements and bytes of a key or value. -/
def Geom.width (g : Geom) : Nat := g.hpg * g.d
def Geom.rowBytes (g : Geom) : Nat := g.width * g.elem
/-- Logical pages of a score group. -/
def Geom.group (g : Geom) : Nat := 2 ^ g.sgrp
def Geom.cacheFmt (g : Geom) : Fmt := (Fmt.ofCode g.fmt).getD .bf16

def Seq.geo (x : Seq) : Geom := Geom.of x.geom

/-- DECAY is finite and between +0 and 1 inclusive; −0 counts as +0. -/
def decayOk (w : F32) : Bool := w == 0x80000000 || decide (w.toNat ≤ 0x3F800000)

/-- A template may be opened (R204). -/
def Geom.opens (g : Geom) (decay : F32) : Bool :=
  g.valid && decide (2 ≤ g.fmt) && decide (g.fmt ≤ 5) && decide (g.hg0 + g.ng ≤ 64)
  && decide (g.hpg * g.d * g.elem ≤ 2 ^ (15 - g.pplog)) && decayOk decay

/-- The sequence number lies in the partition's range (R199). -/
def State.ownsSeq (s : State) (p n : Nat) : Bool :=
  let x := s.partRec p
  x.valid && decide (x.seqBase ≤ n) && decide (n < x.seqBase + x.seqCount)

/-! Frames (R205, R206, R210, R211). -/

def frameSize : Nat := 65536

/-- The frame pool of a partition in a tier: (first frame, frames), kind 3 HBM or 4 cellar. -/
def State.pool (s : State) (kind p : Nat) : List (Nat × Nat) :=
  (s.spansOf kind p).map (fun x => (x.base / frameSize, x.size / frameSize))

/-- Frames a … a + n − 1 lie in a pool. -/
def inPool (pool : List (Nat × Nat)) : Nat → Nat → Nat → Bool
  | _, _, 0 => true
  | 0, _, _ => false
  | fuel + 1, a, n =>
    match pool.find? (fun x => decide (x.1 ≤ a) && decide (a < x.1 + x.2)) with
    | none => false
    | some x => let k := min n (x.1 + x.2 - a); inPool pool fuel (a + k) (n - k)

/-- No frame of a … a + n − 1 has a count. -/
def framesFree (refs : Tab Nat) (a n : Nat) : Bool := refs.all (fun x => decide (x.1 < a) || decide (a + n ≤ x.1))

/-- The lowest run of n free frames of a pool outside the frames `shut` (R211): it starts where a span of the pool starts,
after a frame in use, or where a shut span ends. -/
def lowestRun (refs : Tab Nat) (pool shut : List (Nat × Nat)) (n : Nat) : Option Nat :=
  let starts := pool.map (·.1) ++ refs.map (fun x => x.1 + 1) ++ shut.map (fun x => x.1 + x.2)
  (starts.filter (fun a => inPool pool (pool.length + 1) a n && framesFree refs a n
      && shut.all (fun x => !(overlaps a n x.1 x.2)))).foldl
    (fun (b : Option Nat) a => match b with
      | none => some a
      | some c => some (min a c)) none

/-- Frames of spans that a scrub has not overwritten, and frames whose counts lie in a unit of the system area with an
uncorrectable error: no partition takes one (R206, R343). -/
def State.shutFrames (s : State) : List (Nat × Nat) :=
  (s.mem.bad.filterMap (fun u =>
    let i := (64 * u - sysCount 0) / 2
    if 64 * u < sysCount 0 ∨ sysRange 0 0 ≤ 64 * u then none else if i < 9437184 then some (i, 32) else some (0x1000000 + i - 9437184, 32)))
  ++ s.sec.cloche.flatMap (fun c => if c.scrub then c.scrubSpans.map (fun x => (x.1 / frameSize, cdiv x.2 frameSize)) else [])

/-- Where n frames are taken in the tiers that a template permits. -/
def State.findFrames (s : State) (p tier n : Nat) : Option Nat :=
  let hbm := if tier = 2 then none else lowestRun s.kv.refs (s.pool 3 p) s.shutFrames n
  match hbm with
  | some a => some a
  | none => if tier = 0 then none else lowestRun s.kv.refs (s.pool 4 p) s.shutFrames n

/-- One count more, or less, on n frames. -/
def State.refUp (s : State) (a n : Nat) : State :=
  { s with kv := { s.kv with refs := (List.range n).foldl (fun t i => Tab.modify 0 t (a + i) (· + 1)) s.kv.refs } }
def State.refDown (s : State) (a n : Nat) : State :=
  { s with kv := { s.kv with refs := (List.range n).foldl (fun t i => Tab.modify 0 t (a + i) (· - 1)) s.kv.refs } }

/-- Frames allocated: the lowest free run takes its first count; none is CAPACITY. -/
def State.allocFrames (s : State) (p tier n : Nat) : Option (Nat × State) :=
  (s.findFrames p tier n).map (fun a => (a, s.refUp a n))

/-! Page runs (R212). -/

/-- The run that holds a logical page. -/
def runOf (rs : List PageRun) (lp : Nat) : Option PageRun := rs.find? (fun r => decide (r.lpage ≤ lp) && decide (lp < r.lpage + r.count))

/-- First frame of logical page lp in its run. -/
def PageRun.frameAt (r : PageRun) (frames lp : Nat) : Nat := r.frame + (lp - r.lpage) * frames

/-- The list with a run boundary at logical page lp. -/
def splitAt_ (frames lp : Nat) : List PageRun → List PageRun
  | [] => []
  | r :: rs =>
    if r.lpage < lp ∧ lp < r.lpage + r.count then
      { r with count := lp - r.lpage }
        :: { r with lpage := lp, count := r.lpage + r.count - lp, frame := if r.st = .evicted then 0 else r.frameAt frames lp } :: rs
    else r :: splitAt_ frames lp rs

/-- Two adjacent runs merge. -/
def PageRun.joins (frames : Nat) (a b : PageRun) : Bool :=
  b.lpage == a.lpage + a.count && a.st == b.st && a.prot == b.prot && decide (a.count + b.count ≤ 65535)
  && (a.st == .evicted || b.frame == a.frame + a.count * frames)

/-- The list with every adjacent pair that may merge merged, from the first on. -/
def mergeRuns (frames : Nat) : List PageRun → List PageRun
  | [] => []
  | r :: rs =>
    match mergeRuns frames rs with
    | [] => [r]
    | b :: bs => if r.joins frames b then { r with count := r.count + b.count } :: bs else r :: b :: bs

/-- Runs of pages lo … hi − 1 changed by f. -/
def mapPages (frames lo hi : Nat) (f : PageRun → PageRun) (rs : List PageRun) : List PageRun :=
  (splitAt_ frames hi (splitAt_ frames lo rs)).map (fun r => if lo ≤ r.lpage ∧ r.lpage < hi then f r else r)

/-- The first logical page not yet allocated. -/
def nextPage (rs : List PageRun) : Nat := rs.foldl (fun m r => max m (r.lpage + r.count)) 0

/-- A sequence's cached run entries removed from every region of its partition (R213). -/
def State.dropRuns (s : State) (p n : Nat) : State :=
  (s.regionsOf p).foldl (fun (s : State) r =>
    let x := s.region r
    s.setRegion r { x with runCache := x.runCache.filter (fun c => c.1 != n) }) s

/-- Further run-list frames for a list of `need` frames. -/
def State.growList (p tier : Nat) : Nat → List Nat → State → Option (List Nat × State)
  | 0, fs, s => some (fs, s)
  | k + 1, fs, s =>
    match s.allocFrames p tier 1 with
    | none => none
    | some (a, s) => State.growList p tier k (fs ++ [a]) s

/-- The descriptor with a new run list: merged, within 16,384 runs, with the run-list frames it needs; none is
CAPACITY. -/
def State.commitRuns (s : State) (p : Nat) (x : Seq) (rs : List PageRun) : Option (Seq × State) :=
  let g := x.geo
  let rs := mergeRuns g.frames rs
  if 16384 < rs.length then none
  else
    let need := max 1 (cdiv rs.length 4096)
    (State.growList p g.tier (need - x.runFrames.length) x.runFrames s).map (fun t => ({ x with runs := rs, runFrames := t.1 }, t.2))

/-- An uncorrectable error among the run entries that a sequence uses, or in the scores of its pages (R226, R361). -/
def State.listBad (s : State) (x : Seq) : Option Nat :=
  ((List.range x.runFrames.length).zip x.runFrames).findSome? (fun e =>
    s.badUnit (e.2 * frameSize) (16 * min 4096 (x.runs.length - 4096 * e.1)))

def State.scoresBad (s : State) (x : Seq) (k n : Nat) : Option Nat := x.scoreFrame.bind (fun f => s.badUnit (f * frameSize + 4 * k) (4 * n))

/-- What a sequence's run-list and score frames would take over a unit with an uncorrectable error, without replacing it. -/
def State.putBad (s : State) (n : Nat) (x : Seq) : Option Nat :=
  (runWrites (s.seq n) x ++ scoreWrites (s.seq n) x).findSome? (fun w => s.badPartial w.1 w.2.length)

/-- An uncorrectable error that a command of queue q meets in the cache's frames (R361, Table 12-10). -/
def State.kvLog (s : State) (q p a : Nat) : State :=
  match (s.queue q).running with
  | some x => s.logError a (if a < 0x9000000000 then 1 else 2) 4 (some p) (s.ctxOf q x.cmd.word1) x.cmd.seq q
  | none => s

/-- A changed sequence takes effect after its cached entries are gone. -/
def State.putSeq (s : State) (p n : Nat) (x : Seq) : State := (s.dropRuns p n).setSeq n x

/-! Replication (R233). -/

/-- Replication runs for a partition: its plot, when that is in shared-load mode with a twin that is there. It waits for
REJOIN on both modules once either has declared the other lost (R451, Table 15-16). -/
def State.replPlot (s : State) (p : Nat) : Option Nat :=
  let t := s.eft.twin
  if s.eft.coord.twin && !t.lost && !t.replbrk && !t.lostSeen && !t.mustRejoin then
    match s.plotOf p with
    | some r => if r.shared then some r.plot else none
    | none => none
  else none

/-- A replication message to the twin. -/
def State.sendTwin (s : State) (p typ addr aux : Nat) (data : List Byte) : State :=
  match s.replPlot p with
  | none => s
  | some plot =>
    (s.originate { typ := typ, cls := 3, vc := 0, xc := false, enc := false, plot := plot, hops := 0, src := s.modid,
                   dst := s.modid ^^^ 2 ^ 14, tag := 0, status := 0, addr := addr, aux := aux, data := data, gcm := [] }).2

/-- REPL_OPEN: the sequence with its geometry, DECAY, GIDX, SPREAD and POS0, laid out as bytes 0 to 31 of Table 07-2. -/
def State.sendOpen (s : State) (p n : Nat) (x : Seq) : State :=
  s.sendTwin p 0x30 n 0 (leBytes 1 x.st.code ++ leBytes 1 (x.part + 8 * x.gidx) ++ leBytes 1 x.spread ++ leBytes 1 0
    ++ leBytes 4 x.decay.toNat ++ leBytes 8 x.geom.toNat ++ leBytes 8 x.length ++ leBytes 8 x.pos0)

/-- The frames of a logical page sent whole, in parts of 8,192 bytes: AUX holds the page and the part's number. A page with
an uncorrectable error is not sent (R361). -/
def State.sendPage (s : State) (p n lp : Nat) (x : Seq) : State :=
  match runOf x.runs lp with
  | none => s
  | some r =>
    let a := r.frameAt x.geo.frames lp * frameSize
    if r.st = .evicted then s
    else match s.badUnit a (x.geo.frames * frameSize) with
    | some e => s.logError e (if e < 0x9000000000 then 1 else 2) 4 (some p) 0 0 0
    | none => (List.range (x.geo.frames * 8)).foldl (fun (s : State) k =>
      s.sendTwin p 0x31 n (lp + k * 2 ^ 36) (s.mem.loc.load (a + 8192 * k) 8192)) s

/-- Whole logical pages below W and at or above REPLPOS; an evicted page has no frames to send. -/
def State.sendPages (s : State) (p n w : Nat) (x : Seq) : State :=
  let g := x.geo
  let lo := (x.replpos - x.pos0) / g.pp
  let hi := (w - x.pos0) / g.pp
  ((List.range (hi - lo)).map (· + lo)).foldl (fun (s : State) lp => s.sendPage p n lp x) s

/-! KV_APPEND (R215, R216). -/

/-- The runs of a sequence extended to reach page `last`; each allocation takes a group of 2^ALLOC pages. -/
def State.extendRuns (p : Nat) (g : Geom) (last : Nat) : Nat → List PageRun → State → Option (List PageRun × State)
  | 0, rs, s => some (rs, s)
  | fuel + 1, rs, s =>
    let lp := nextPage rs
    if last < lp then some (rs, s)
    else
      match s.allocFrames p g.tier (2 ^ g.alloc * g.frames) with
      | none => none
      | some (a, s) => State.extendRuns p g last fuel (rs ++ [⟨lp, 2 ^ g.alloc, a, .priv, false⟩]) s

/-- The sequence extended to a length; none is CAPACITY. -/
def State.extend (s : State) (p : Nat) (x : Seq) (len : Nat) : Option (Seq × State) :=
  let g := x.geo
  let grown := if len ≤ x.length then some (x.runs, s)
    else s.extendRuns p g ((len - 1 - x.pos0) / g.pp) ((len - 1 - x.pos0) / g.pp + 1) x.runs
  match grown with
  | none => none
  | some (rs, s) => (s.commitRuns p { x with length := len } rs)

/-- An entry of Table 07-6. -/
structure AppendEntry where
  seq : Nat
  n : Nat
  w : Nat
  gidx : Nat
  open_ : Bool
  close : Bool
  wv : Bool
  spread : Nat
  bad : Bool
  deriving DecidableEq, Repr

def AppendEntry.parse (bs : List Byte) : AppendEntry :=
  let w0 := leAt bs 0 4
  let v := leAt bs 8 8
  let o := bit v 44
  let sp := bits v 48 47
  ⟨w0 % 2 ^ 18, leAt bs 4 4, bits v 39 0, bits v 43 40, o, bit v 45, bit v 46, sp,
    w0 / 2 ^ 18 != 0 || bits v 55 49 != 0 || (if o then sp == 3 else sp != 0)⟩

/-- A sequence just opened, with its run-list and score frame; none is CAPACITY. -/
def State.openSeq (s : State) (p gidx spread pos0 : Nat) (geom : Word) (decay : F32) : Option (Seq × State) :=
  let tier := (Geom.of geom).tier
  match s.allocFrames p tier 1 with
  | none => none
  | some (a, s) =>
    match s.allocFrames p tier 1 with
    | none => none
    | some (b, s) =>
      some ({ Seq.free with
        st := .live, part := p, gidx := gidx, spread := spread, decay := decay, geom := geom, length := pos0, pos0 := pos0,
        replpos := pos0, runFrames := [a], scoreFrame := some b }, s)

/-- An OPEN entry of a FREE sequence. -/
def State.appendOpen (s : State) (p : Nat) (e : AppendEntry) : Status × State :=
  let geom := Tab.get 0 s.kv.geomA (16 * p + e.gidx)
  let decay : F32 := BitVec.ofNat 32 ((Tab.get 0 s.kv.geomB (16 * p + e.gidx)).toNat % 2 ^ 32)
  let g := Geom.of geom
  if !(g.opens decay) then (.state, s)
  else if e.w % g.pp ≠ 0 ∨ 2 ^ 40 < e.w + e.n then (.range, s)
  else match s.openSeq p e.gidx e.spread e.w geom decay with
    | none => (.capacity, s)
    | some (x, s1) =>
      match s1.extend p x (e.w + e.n) with
      | none => (.capacity, s)
      | some (x, s2) =>
        let x := { x with closed := e.close }
        let s3 := s2.putSeq p e.seq x
        (.ok, if g.repl then s3.sendOpen p e.seq x else s3)

/-- One entry of KV_APPEND (R216); a failure changes nothing. -/
def State.appendEntry (s : State) (q p : Nat) (e : AppendEntry) : Status × State :=
  let x := s.seq e.seq
  if e.bad then (.denied, s)
  else if !(s.ownsSeq p e.seq) then (.denied, s)
  else if 2 ^ 20 < e.n then (.range, s)
  else if e.open_ then (if x.st = .free then s.appendOpen p e else (.state, s))
  else if x.st ≠ .live ∨ (x.closed ∧ 0 < e.n) then (.state, s)
  else if 2 ^ 40 < x.length + e.n then (.range, s)
  else match s.listBad x with
    | some a => (.data, s.kvLog q p a)
    | none =>
      match s.extend p x (x.length + e.n) with
      | none => (.capacity, s)
      | some (y, s1) =>
        let y := { y with closed := y.closed || e.close }
        match s1.putBad e.seq y with
        | some a => (.data, s.kvLog q p a)
        | none =>
          let s2 := s1.putSeq p e.seq y
          (.ok, if e.wv && y.geo.repl then s2.sendPages p e.seq (min e.w y.length) y else s2)

/-! KV_FORK (R218). -/

/-- Every frame of the runs below page n has room for one more count. -/
def State.countRoom (s : State) (frames : Nat) (rs : List PageRun) : Bool :=
  rs.all (fun r => r.st == .evicted || (List.range (r.count * frames)).all (fun i => decide (Tab.get 0 s.kv.refs (r.frame + i) < 65535)))

/-- The rows below row k of a page copied into new frames, keys and values of every frame. -/
def copyRows (m : Memory) (src dst frames n : Nat) : Memory :=
  (List.range frames).foldl (fun (m : Memory) i =>
    let a := (src + i) * frameSize
    let b := (dst + i) * frameSize
    (m.store b (m.load a n)).store (b + 32768) (m.load (a + 32768) n)) m

/-- The keys and values of n bytes in every frame of a page, as (address, bytes) spans. -/
def rowSpans (frame frames n : Nat) : List (Nat × Nat) :=
  (List.range frames).flatMap (fun i => [((frame + i) * frameSize, n), ((frame + i) * frameSize + 32768, n)])

/-- Why a fork fails: no frames, or an uncorrectable error at an address. -/
inductive ForkStop where
  | capacity
  | data (addr : Nat)
  deriving DecidableEq, Repr

/-- The page of a fork that holds P without starting at P: the child's run for it. -/
def State.forkTail (s : State) (p : Nat) (g : Geom) (rs : List PageRun) (lp rows : Nat) : Except ForkStop (List PageRun × State) :=
  if rows = 0 then .ok ([], s)
  else match runOf rs lp with
    | none => .ok ([], s)
    | some r =>
      if r.st = .evicted then .ok ([⟨lp, 1, 0, .evicted, false⟩], s)
      else match s.allocFrames p g.tier g.frames with
        | none => .error .capacity
        | some (a, t) =>
          let src := r.frameAt g.frames lp
          match (rowSpans src g.frames (rows * g.row)).findSome? (fun w => s.badUnit w.1 w.2),
                (rowSpans a g.frames (rows * g.row)).findSome? (fun w => s.badPartial w.1 w.2) with
          | some e, _ => .error (.data e)
          | none, some e => .error (.data e)
          | none, none => .ok ([⟨lp, 1, a, .priv, false⟩],
              { t with mem := { t.mem with
                loc := copyRows t.mem.loc src a g.frames (rows * g.row),
                bad := t.mem.bad.filter (fun u => !((rowSpans a g.frames (rows * g.row)).any (fun w =>
                  decide (w.1 ≤ 64 * u) && decide (64 * u + 64 ≤ w.1 + w.2)))) } })

/-- A fork whose conditions hold: parent and child with the new frames. -/
def State.forkSeqs (s : State) (p : Nat) (x : Seq) (at_ : Nat) (protect : Bool) : Except ForkStop (Seq × Seq × State) :=
  let g := x.geo
  let full := (at_ - x.pos0) / g.pp
  let rows := (at_ - x.pos0) % g.pp
  let mine := mapPages g.frames 0 full (fun r => if r.st = .priv then { r with st := .shared } else r) x.runs
  let below := mine.filter (fun r => decide (r.lpage < full))
  match s.listBad x, s.scoresBad x 0 (full / g.group) with
  | some a, _ => .error (.data a)
  | none, some a => .error (.data a)
  | none, none =>
    if !(s.countRoom g.frames below) then .error .capacity
    else match s.openSeq p x.gidx x.spread x.pos0 x.geom x.decay with
      | none => .error .capacity
      | some (y, s) =>
        match s.forkTail p g mine full rows with
        | .error e => .error e
        | .ok (tail, s) =>
          let kids := below.map (fun r => if protect && r.st = .shared then { r with prot := true } else r)
          match s.commitRuns p { y with length := at_ } (kids ++ tail) with
          | none => .error .capacity
          | some (y, s) =>
            match s.commitRuns p x mine with
            | none => .error .capacity
            | some (x, s) =>
              let s := below.foldl (fun (s : State) r => if r.st = .evicted then s else s.refUp r.frame (r.count * g.frames)) s
              .ok (x, { y with scores := x.scores.filter (fun e => decide ((e.1 + 1) * g.group ≤ full)) }, s)

/-- KV_FORK of sequences of partition p. -/
def State.fork (s : State) (q p parent child at_ : Nat) (protect : Bool) : Status × State :=
  let x := s.seq parent
  if !(s.ownsSeq p parent) || !(s.ownsSeq p child) then (.denied, s)
  else if x.st ≠ .live ∨ at_ < x.pos0 ∨ x.length < at_ ∨ (s.seq child).st ≠ .free then (.state, s)
  else match s.forkSeqs p x at_ protect with
    | .error .capacity => (.capacity, s)
    | .error (.data a) => (.data, s.kvLog q p a)
    | .ok (x, y, s1) =>
      match s1.putBad parent x with
      | some a => (.data, s.kvLog q p a)
      | none =>
        let s2 := (s1.putSeq p parent x).putSeq p child y
        (.ok, if x.geo.repl then
            (s2.sendOpen p child y).sendTwin p 0x32 (parent + child * 2 ^ 18 + (if protect then 2 ^ 36 else 0)) at_ []
          else s2)

/-! KV_RELEASE and SEQUENCE_FREE (R219). -/

/-- The accepted rows of an instruction that have not been written. -/
def Issued.acts (i : Issued) : List KvAct :=
  match i.pend with
  | .cow acts => acts
  | _ => []

/-- The accepted rows of the module that have not been written (R231). -/
def State.queuedActs (s : State) : List KvAct := s.regions.flatMap (fun r => r.issued.flatMap (·.acts))

/-- An accepted row of the sequence has not been written. -/
def State.rowsQueued (s : State) (n : Nat) : Bool := s.queuedActs.any (fun a => a.seq == n)

/-- Every frame that a sequence holds loses one count, and the descriptor becomes FREE: all zeros (R201). -/
def State.freeSeq (s : State) (n : Nat) : State :=
  let x := s.seq n
  let s := x.runs.foldl (fun (s : State) r => if r.st = .evicted then s else s.refDown r.frame (r.count * x.geo.frames)) s
  let s := (x.runFrames ++ x.scoreFrame.toList).foldl (fun (s : State) f => s.refDown f 1) s
  (s.dropRuns x.part n).setSeq n .free

/-- One entry of KV_RELEASE. -/
def State.releaseEntry (s : State) (p n : Nat) : Status × State :=
  let x := s.seq n
  if !(s.ownsSeq p n) then (.denied, s)
  else if x.st ≠ .live then (.state, s)
  else
    let s := s.putSeq p n { x with st := .releasing }
    (.ok, if x.geo.repl then s.sendTwin p 0x34 n 0 [] else s)

/-- SEQUENCE_FREE (R219): when the rows accepted on it are written, the last frame count of a RELEASING sequence is
dropped. -/
def execSequenceFree (n : Nat) (s : State) : Res :=
  if (s.seq n).st ≠ .releasing ∨ s.rowsQueued n then .next s else .next (s.freeSeq n)

/-! The pruner (R228 to R230). -/

/-- Some page of group k is held in a PRIVATE or SHARED run. -/
def Seq.groupHeld (x : Seq) (k : Nat) : Bool :=
  x.runs.any (fun r => r.st != .evicted && decide (r.lpage < (k + 1) * x.geo.group) && decide (k * x.geo.group < r.lpage + r.count))

/-- Some page of group k is EVICTED and none is held. -/
def Seq.groupEvicted (x : Seq) (k : Nat) : Bool :=
  !(x.groupHeld k) && x.runs.any (fun r => decide (r.lpage < (k + 1) * x.geo.group) && decide (k * x.geo.group < r.lpage + r.count))

/-- Some page of group k lies in a run with PROT set. -/
def Seq.groupProt (x : Seq) (k : Nat) : Bool :=
  x.runs.any (fun r => r.prot && decide (r.lpage < (k + 1) * x.geo.group) && decide (k * x.geo.group < r.lpage + r.count))

/-- Number of groups allocated and not evicted. -/
def Seq.liveGroups (x : Seq) : Nat := ((List.range (nextPage x.runs / x.geo.group + 1)).filter x.groupHeld).length

/-- The score of a group, none while it is unscored. -/
def Seq.score (x : Seq) (k : Nat) : Option F32 := Tab.get none x.scores k

/-- Evict a group (R230): its pages become EVICTED, their frames lose a count; none is CAPACITY. -/
def State.evictGroup (s : State) (p n k : Nat) : Option State :=
  let x := s.seq n
  let g := x.geo
  let lo := k * g.group
  let hi := lo + g.group
  let cut := splitAt_ g.frames hi (splitAt_ g.frames lo x.runs)
  let gone := cut.filter (fun r => r.st != .evicted && decide (lo ≤ r.lpage) && decide (r.lpage < hi))
  let rs := mapPages g.frames lo hi (fun r => { r with st := .evicted, frame := 0 }) x.runs
  (s.commitRuns p { x with evicted := x.evicted + gone.foldl (fun a r => a + r.count) 0 } rs).map (fun t =>
    let s := gone.foldl (fun (s : State) r => s.refDown r.frame (r.count * g.frames)) t.2
    let s := s.putSeq p n t.1
    if g.repl && x.st == .live then s.sendTwin p 0x33 n k [] else s)

/-- Candidates of a prune in group order (R229). -/
def Seq.candidates (x : Seq) (f : KvPruneF) : List (Nat × F32) :=
  let g := x.geo
  let held := x.length - x.pos0
  let last : Int := ((held / (g.pp * g.group) : Nat) : Int) - 1
  x.scores.filterMap (fun e => match e.2 with
    | none => none
    | some v =>
      if (e.1 + 1) * g.group * g.pp ≤ held ∧ !(x.groupEvicted e.1) ∧ f.protHead ≤ e.1 ∧ (e.1 : Int) < last - f.protTail + 1
          ∧ !(x.groupProt e.1) then some (e.1, v) else none)

/-- Groups evicted in order until CAPACITY stops it. -/
def State.evictAll (p n : Nat) : List Nat → State → Bool × State
  | [], s => (true, s)
  | k :: ks, s =>
    match s.evictGroup p n k with
    | none => (false, s)
    | some s => State.evictAll p n ks s

/-- A candidate's place in ascending order of score, the lower group first on ties. -/
def insertScore (e : Nat × F32) : List (Nat × F32) → List (Nat × F32)
  | [] => [e]
  | h :: t => if fLt e.2 h.2 || (!(fLt h.2 e.2) && decide (e.1 < h.1)) then e :: h :: t else h :: insertScore e t

/-- Every remaining score times DECAY; a product that is NaN leaves the group unscored. -/
def Seq.decayed (x : Seq) : Seq :=
  { x with scores := x.scores.foldl (fun t e => match e.2 with
      | some v => if x.groupEvicted e.1 then t
          else let y := (fMul v x.decay).1; Tab.set none t e.1 (if f32val y = .nan then none else some y)
      | none => t) x.scores }

/-- One entry of KV_PRUNE (R229). -/
def State.pruneEntry (s : State) (q p n : Nat) (f : KvPruneF) : Status × State :=
  let x := s.seq n
  if !(s.ownsSeq p n) then (.denied, s)
  else if x.st ≠ .live then (.state, s)
  else match s.listBad x, s.scoresBad x 0 (nextPage x.runs / x.geo.group + 1) with
  | some a, _ => (.data, s.kvLog q p a)
  | none, some a => (.data, s.kvLog q p a)
  | none, none =>
    let cand := x.candidates f
    let low := (cand.filter (fun e => fLt e.2 f.t)).map (·.1)
    match State.evictAll p n low s with
    | (false, s) => (.capacity, s)
    | (true, s) =>
      let rest := ((cand.filter (fun e => !(fLt e.2 f.t))).foldl (fun t e => insertScore e t) []).map (·.1)
      let extra := if f.k = 0 then [] else rest.take ((s.seq n).liveGroups - f.k)
      match State.evictAll p n extra s with
      | (false, s) => (.capacity, s)
      | (true, s) => (.ok, s.setSeq n (s.seq n).decayed)

/-! The commands' lists (R215, R377). -/

/-- What has become of a list so far: its worst status and the first entry that set it. -/
structure ListRun where
  st : Status
  first : Nat
  deriving DecidableEq, Repr

def ListRun.add (x : ListRun) (i : Nat) (st : Status) : ListRun :=
  let w := x.st.worst st
  if w = x.st then x else ⟨w, i⟩

/-- One entry read, applied, and its RESULT byte written; an entry that cannot be read and written is not applied. -/
def State.listEntry (s : State) (q ctx p size res va : Nat) (f : State → List Byte → Status × State) : Status × State :=
  match s.cmdRead q ctx p .read va size with
  | (.fail st, s) => (st, s)
  | (.wait, s) => (.ok, s)
  | (.done bs, s) =>
    match s.translate ⟨ctx, p, none⟩ .write (va + res) 1 with
    | .error st => (st, s)
    | .ok _ =>
      let (st, s) := f s bs
      match s.cmdWrite q ctx p (va + res) (leBytes 1 st.code) with
      | (.fail e, s) => (st.worst e, s)
      | (_, s) => (st, s)

/-- Every entry in list order. -/
def State.listRun (q ctx p size res : Nat) (f : State → List Byte → Status × State) : Nat → Nat → Nat → State → ListRun → State × ListRun
  | 0, _, _, s, acc => (s, acc)
  | n + 1, i, va, s, acc =>
    let (st, s) := s.listEntry q ctx p size res va f
    State.listRun q ctx p size res f n (i + 1) (va + size) s (acc.add i st)

/-- The pieces of every entry that translates. -/
def State.listPieces (s : State) (ctx p size base n : Nat) : List Piece :=
  (List.range n).flatMap (fun i => match s.translate ⟨ctx, p, none⟩ .read (base + i * size) size with
    | .ok ps => ps
    | .error _ => [])

/-- A list command: it waits for the list, applies it and completes (R215). -/
def State.listCmd (s : State) (q ctx p size res base n : Nat) (f : State → List Byte → Status × State) : State :=
  let (ready, s) := s.prefetch (.cmd q) p (s.listPieces ctx p size base n)
  if !ready then s
  else
    let (s, acc) := State.listRun q ctx p size res f n 0 base s ⟨.ok, 0xFFFF⟩
    (s.dropFetched (.cmd q)).complete q acc.st acc.first

/-- KV_APPEND. -/
def execKvAppend (q : Nat) (f : KvListF) (s : State) : Res :=
  s.runCmd q (.kvAppend f) (fun _ ctx p =>
    s.listCmd q ctx p 16 15 f.list f.count (fun s bs => s.appendEntry q p (AppendEntry.parse bs)))

/-- KV_FORK: it waits for accepted rows of either sequence (R231). -/
def execKvFork (q : Nat) (f : KvForkF) (s : State) : Res :=
  s.runCmd q (.kvFork f) (fun _ _ p =>
    if s.rowsQueued f.parent || s.rowsQueued f.child then s
    else let (st, s) := s.fork q p f.parent f.child f.p f.protect; s.completeOk q st)

/-- A 4-byte list entry: the sequence number, and whether its reserved bits are zero. -/
def entrySeq (bs : List Byte) : Option Nat :=
  let v := leAt bs 0 4
  if bits v 23 18 = 0 then some (v % 2 ^ 18) else none

/-- KV_RELEASE. -/
def execKvRelease (q : Nat) (f : KvListF) (s : State) : Res :=
  s.runCmd q (.kvRelease f) (fun _ ctx p =>
    s.listCmd q ctx p 4 3 f.list f.count (fun s bs => match entrySeq bs with
      | none => (.denied, s)
      | some n => s.releaseEntry p n))

/-- KV_PRUNE: it waits while accepted rows of the partition's sequences are to be written (R231). -/
def execKvPrune (q : Nat) (f : KvPruneF) (s : State) : Res :=
  s.runCmd q (.kvPrune f) (fun _ ctx p =>
    if s.queuedActs.any (fun a => s.ownsSeq p a.seq) then s
    else s.listCmd q ctx p 4 3 f.list f.count (fun s bs => match entrySeq bs with
      | none => (.denied, s)
      | some n => s.pruneEntry q p n f))

end Sys2Proof.Machine
end

