-- ==== Sys2Proof/Machine/KvOps.lean ====
section
/-! DEFINITION. The KV instructions (R222 to R232): APPEND, READ, SCORE and LEN, and the end of a copy-on-write. -/
namespace Sys2Proof.Machine

/-- A 40-bit value in words 0 and 1 of row i of an INT32 operand. -/
def Opnd.pos40 (rd : Reader) (o : Opnd) (i : Nat) : Nat :=
  o.bits rd (i * o.d.dim 0) + o.bits rd (i * o.d.dim 0 + 1) * 2 ^ 32

/-- The operands of a KV instruction at issue: SEQD, AUXD, and KD and VD where it has them, sized by R122. -/
structure KvArgs where
  seqd : Opnd
  aux : Opnd
  kd : Option Opnd
  vd : Option Opnd
  rows : Nat
  n : Nat
  deriving DecidableEq, Repr

/-- SEQD and AUXD hold INT32 of `rows` rows, AUXD of `w` words a row, all in region SRAM. -/
def KvArgs.listsOk (a : KvArgs) (rows w : Nat) : Bool :=
  a.seqd.d.fmt == .int32 && a.aux.d.fmt == .int32 && a.seqd.d.space == .sram && a.aux.d.space == .sram
  && a.seqd.d.count == rows && a.aux.d.dim 0 == w && a.aux.d.count == rows * w

/-- The shapes of Table 07-8, from declared sizes. -/
def KvArgs.shaped (a : KvArgs) (op : KvOp) : Bool :=
  match op, a.kd, a.vd with
  | .append, some k, some v =>
    k.d.rank == 2 && v.d.rank == 2 && k.d.dim 1 == v.d.dim 1 && k.d.space == .sram && v.d.space == .sram && a.aux.d.rank == 2
    && a.listsOk (k.d.dim 1) 2
  | .read, some k, some v =>
    k.d.rank == 3 && v.d.rank == 3 && k.d.dim 1 == v.d.dim 1 && k.d.dim 2 == v.d.dim 2 && k.d.space == .sram && v.d.space == .sram
    && a.aux.d.rank == 2 && a.listsOk (k.d.dim 1) (2 + cdiv (k.d.dim 2) 32)
  | .score, some k, none => k.d.rank == 2 && k.d.fmt == .fp32 && k.d.space == .sram && a.listsOk (k.d.dim 1) 2
  | .len, none, none => a.listsOk (a.seqd.d.count) 4
  | _, _, _ => false

/-- The declared count that SZREG overrides. -/
def KvArgs.declared (a : KvArgs) (op : KvOp) : Nat := if op = .read then a.n else a.rows

/-- The operands that an instruction names. -/
def Region.kvArgs (x : Region) (f : KvF) : Option KvArgs :=
  match x.opnd f.seqd 0, x.opnd f.auxd 0 with
  | some q, some a =>
    let kd := x.opnd f.kd f.offreg
    let vd := x.opnd f.vd f.offreg
    some ⟨q, a, kd, vd, match kd with
      | some k => k.d.dim 1
      | none => q.d.count, match kd with
      | some k => k.d.dim 2
      | none => 0⟩
  | _, _ => none

/-- The operands with the override applied to KD and VD (R122, R223). -/
def KvArgs.sizedTo (a : KvArgs) (op : KvOp) (n : Nat) : KvArgs :=
  let cut (o : Opnd) : Opnd := { o with d := o.d.resize n }
  { a with kd := a.kd.map cut, vd := a.vd.map cut, rows := if op = .read then a.rows else n, n := if op = .read then n else a.n }

/-- Spans of the operands (R149). -/
def KvArgs.spans (a : KvArgs) (op : KvOp) : List Span :=
  let kv (o : Option Opnd) : List Span := match o with
    | some x => x.spans false (op == .read)
    | none => []
  a.seqd.spans false false ++ a.aux.spans false (op == .read || op == .len) ++ kv a.kd ++ kv a.vd

/-- Every operand lies in the carve-out (R159). -/
def KvArgs.fits (a : KvArgs) (c : Carve) : Bool :=
  a.seqd.ok c false && a.aux.ok c false && (a.kd.toList ++ a.vd.toList).all (fun o => o.ok c false)

/-! Row checks (Table 07-9). -/

/-- The sequence of a row: in the partition's range, LIVE, with the layer and head group held here. -/
def State.rowSeq (s : State) (p n : Nat) (f : KvF) : Except Status Seq :=
  let x := s.seq n
  let g := x.geo
  if !(s.ownsSeq p n) then .error .denied
  else if x.st ≠ .live then .error .state
  else if g.nl ≤ f.layer ∨ f.headg < g.hg0 ∨ g.hg0 + g.ng ≤ f.headg then .error .range
  else .ok x

/-- FMT and SIZE0 of KD and VD match the geometry (R223); READ may name FP32. -/
def KvArgs.matches_ (a : KvArgs) (g : Geom) (read : Bool) : Bool :=
  (a.kd.toList ++ a.vd.toList).all (fun o => o.d.dim 0 == g.width && (o.d.fmt == g.cacheFmt || (read && o.d.fmt == .fp32)))

/-- Local addresses of the key and value of a position in a page whose frames begin at `frame` (R207, R208). -/
def Geom.at_ (g : Geom) (frame layer headg off : Nat) : Nat × Nat :=
  let a := (frame + layer * g.ng + (headg - g.hg0)) * frameSize + off % g.pp * g.row
  (a, a + 32768)

/-- The run entry of a logical page enters the region's run cache (R213). -/
def Region.cacheRun (x : Region) (n lp : Nat) (q : Seq) : Region :=
  match runOf q.runs lp with
  | none => x
  | some u => { x with runCache := ((n, u.lpage) :: x.runCache.filter (· != (n, u.lpage))).take 64 }

/-- An uncorrectable error in the run entry of a logical page, which a region's run cache does not hold (R222, R226). -/
def State.runBad (s : State) (r n lp : Nat) (q : Seq) : Option Nat :=
  match (List.range q.runs.length).find? (fun i => (q.runs[i]?).any (fun u => decide (u.lpage ≤ lp) && decide (lp < u.lpage + u.count))) with
  | none => none
  | some i =>
    if (s.region r).runCache.contains (n, ((q.runs[i]?).map (·.lpage)).getD 0) then none
    else (q.runFrames[i / 4096]?).bind (fun f => s.badUnit (f * frameSize + 16 * (i % 4096)) 16)

/-- An uncorrectable error that a row of a region meets (R226). -/
def State.rowLog (s : State) (p : Nat) (l : LaunchRun) (a : Nat) : State :=
  s.logError a (if a < 0x9000000000 then 1 else 2) 4 (some p) l.ctx (s.launchSeq l) l.queue

/-! APPEND (R224, Table 07-7). -/

/-- The page becomes PRIVATE in a run of its own, on frames `frame`; CAPACITY when the run list has no room, DATA when it
cannot be written. -/
def State.ownPage (s : State) (p n lp frame : Nat) : Except ForkStop State :=
  let x := s.seq n
  let rs := mapPages x.geo.frames lp (lp + 1) (fun r => { r with st := .priv, frame := frame }) x.runs
  match s.commitRuns p x rs with
  | none => .error .capacity
  | some (y, t) => match t.putBad n y with
    | some a => .error (.data a)
    | none => .ok (t.putSeq p n y)

/-- What a failed change of a page's run reports (R226). -/
def State.actStop (s : State) (p : Nat) (l : LaunchRun) : ForkStop → Status × State
  | .capacity => (.capacity, s)
  | .data a => (.data, s.rowLog p l a)

/-- A copy of this page of this sequence is under way among the rows listed. -/
def copying (acts : List KvAct) (n lp : Nat) : Bool := acts.any (fun a => a.seq == n && a.lp == lp && a.copy.isSome)
/-- Copies under way that read frame `src`. -/
def copiesOf (acts : List KvAct) (src : Nat) : Nat := acts.countP (fun a => a.copy.any (fun c => c.1 == src))

/-- The count check and copy decision of a page (R221, Table 07-7), `acts` being the rows accepted before and not yet
written: nothing to do now, a page taken over in place, or frames allocated for its copy. The copies under way each take
a count of their source when they end. -/
def State.copyChoice (s : State) (p : Nat) (acts : List KvAct) (n lp : Nat) : Except ForkStop (Option (Nat × Nat × Nat) × State) :=
  let x := s.seq n
  let g := x.geo
  match runOf x.runs lp with
  | none => .ok (none, s)
  | some u =>
    let a := u.frameAt g.frames lp
    if u.st ≠ .shared || copying acts n lp then .ok (none, s)
    else if Tab.get 0 s.kv.refs a ≤ copiesOf acts a + 1 then
      if copiesOf acts a = 0 then
        match s.ownPage p n lp a with
        | .ok t => .ok (none, t)
        | .error e => .error e
      else .ok (none, s)
    else match s.allocFrames p g.tier g.frames with
      | none => .error .capacity
      | some (b, t) => match t.ownPage p n lp b with
        | .ok _ => .ok (some (a, b, g.frames), t.bumpPart p 0x18 1)
        | .error e => .error e

/-- Local address of the key of an accepted row, when its page is PRIVATE. -/
def State.actAddr (s : State) (x : KvAct) : Option Nat :=
  let q := s.seq x.seq
  match runOf q.runs x.lp with
  | some u => if u.st = .priv then some (u.frameAt q.geo.frames x.lp * frameSize + x.off) else none
  | none => none

/-- A row's key and value written; a partial write over an uncorrectable error fails the row, which writes nothing (R226,
R361). -/
def State.actPut (s : State) (p : Nat) (l : LaunchRun) (x : KvAct) : Status × State :=
  match s.actAddr x with
  | none => (.range, s)
  | some a =>
    match s.badPartial a x.key.length, s.badPartial (a + 32768) x.val.length with
    | some e, _ => (.data, s.rowLog p l e)
    | none, some e => (.data, s.rowLog p l e)
    | none, none => (.ok, (s.writeLocal a x.key).writeLocal (a + 32768) x.val)

/-- One row of an APPEND accepted: what is left to do for it, or its status (R222). -/
def State.appendRow (s : State) (r p : Nat) (l : LaunchRun) (f : KvF) (a : KvArgs) (rd : Reader) (c : Carve) (acts : List KvAct) (i : Nat) :
    Except Status KvAct × State :=
  let n := a.seqd.bits rd i
  let pos := a.aux.pos40 rd i
  match s.rowSeq p n f with
  | .error e => (.error e, s)
  | .ok x =>
    let g := x.geo
    if pos < x.pos0 ∨ x.length ≤ pos then (.error .range, s)
    else
      let lp := (pos - x.pos0) / g.pp
      let evicted : Bool := match runOf x.runs lp with
        | some u => u.st == .evicted
        | none => true
      if evicted then (.error .range, s)
      else if !(a.matches_ g false) then (.error .state, s)
      else match s.runBad r n lp x with
      | some e => (.error .data, s.rowLog p l e)
      | none =>
        let s := s.setRegion r ((s.region r).cacheRun n lp x)
        match s.copyChoice p (s.queuedActs ++ acts) n lp with
        | .error e => let t := s.actStop p l e; (.error t.1, t.2)
        | .ok (copy, s) =>
          let bytes (o : Option Opnd) : List Byte := match o with
            | some o => (s.region r).sramLoad (c.sramBase + o.rowAddr i) g.rowBytes
            | none => []
          (.ok ⟨n, lp, copy, (g.at_ 0 f.layer f.headg (pos - x.pos0)).1, bytes a.kd, bytes a.vd⟩, s)

/-- Every row of an APPEND accepted in row order: what is left to do, and the worst status. -/
def State.appendRows (r p : Nat) (l : LaunchRun) (f : KvF) (a : KvArgs) (rd : Reader) (c : Carve) :
    List Nat → List KvAct → State → List KvAct × Status × State
  | [], acts, s => (acts, .ok, s)
  | i :: is, acts, s =>
    match s.appendRow r p l f a rd c acts i with
    | (.error e, s) => let t := State.appendRows r p l f a rd c is acts s; (t.1, e.worst t.2.1, t.2.2)
    | (.ok act, s) => State.appendRows r p l f a rd c is (acts ++ [act]) s

/-- What becomes of the first row listed: it is written, or it waits for its own page copy, or for one that `others` have
under way. -/
def State.actStep (s : State) (p : Nat) (l : LaunchRun) (others : List KvAct) (x : KvAct) : Except KvAct Status × State :=
  if x.copy.isSome then (.error x, s)
  else
    let u := runOf (s.seq x.seq).runs x.lp
    let src := (u.map (fun u => u.frameAt (s.seq x.seq).geo.frames x.lp)).getD 0
    if u.any (fun u => u.st == .shared) && (copying others x.seq x.lp || decide (0 < copiesOf others src)) then (.error x, s)
    else match s.copyChoice p others x.seq x.lp with
      | .error e => let t := s.actStop p l e; (.ok t.1, t.2)
      | .ok (some c, s) => (.error { x with copy := some c }, s)
      | .ok (none, s) => let t := s.actPut p l x; (.ok t.1, t.2)

/-- Accepted rows written in order up to the first that waits: what is left, and the worst status. -/
def State.kvActs (p : Nat) (l : LaunchRun) (others : List KvAct) : List KvAct → State → List KvAct × Status × State
  | [], s => ([], .ok, s)
  | x :: xs, s =>
    match s.actStep p l others x with
    | (.error y, s) => (y :: xs, .ok, s)
    | (.ok st, s) => let t := State.kvActs p l others xs s; (t.1, st.worst t.2.1, t.2.2)

/-- Frames allocated for a copy that does not end are free again. -/
def State.dropCopy (s : State) (x : KvAct) : State :=
  match x.copy with
  | some c => s.refDown c.2.1 c.2.2
  | none => s

/-- A page copied for a row: the frames are copied whole, the writer's run becomes PRIVATE on the new ones, the old ones
lose a count, and the row is written; when the source holds an uncorrectable error, or the run list has no room, the page
stays SHARED where it is (R220, R226). -/
def State.copyPage (s : State) (p : Nat) (l : LaunchRun) (x : KvAct) : Status × State :=
  match x.copy with
  | none => (.ok, s)
  | some (src, dst, frames) =>
    match s.badUnit (src * frameSize) (frames * frameSize) with
    | some e => (.data, (s.dropCopy x).rowLog p l e)
    | none =>
      let t := s.writeLocal (dst * frameSize) (s.mem.loc.load (src * frameSize) (frames * frameSize))
      match t.ownPage p x.seq x.lp dst with
      | .error e => (t.dropCopy x).actStop p l e
      | .ok t => (t.refDown src frames).actPut p l x

/-- What an instruction waits for with rows left. -/
def cowPend (left : List KvAct) : Pending :=
  match left with
  | [] => .none
  | acts => .cow acts

/-- APPEND of operands whose checks have passed. -/
def State.kvAppend (s : State) (r p : Nat) (l : LaunchRun) (f : KvF) (a : KvArgs) : State :=
  let c := s.regCarve r
  let rd := (s.region r).view c
  let spans := a.spans .append
  let (acts, st, s1) := State.appendRows r p l f a rd c (List.range a.rows) [] s
  let (left, st2, s2) := State.kvActs p l s1.queuedActs acts s1
  (s2.setRegion r ((s2.region r).issue [.dma] (bySpan [.dma] spans) { fail := st.worst st2, pend := cowPend left })).bumpPart p 0x17 a.rows

/-! READ (R225). -/

/-- Bytes of a row in KD's or VD's format: the cache's own, or FP32 from it. -/
def Geom.convert (g : Geom) (fmt : Fmt) (bs : List Byte) : List Byte :=
  if fmt = g.cacheFmt then bs
  else (List.range g.width).flatMap (fun j => leBytes 4 (elemToF32 g.cacheFmt (leAt bs (j * g.elem) g.elem)).1.toNat)

/-- The addresses of a position's key and value, none when it is absent (R225). -/
def Seq.present (x : Seq) (f : KvF) (pos : Nat) : Option (Nat × Nat) :=
  let g := x.geo
  if pos < x.pos0 ∨ x.length ≤ pos then none
  else
    let lp := (pos - x.pos0) / g.pp
    match runOf x.runs lp with
    | none => none
    | some r => if r.st = .evicted then none else some (g.at_ (r.frameAt g.frames lp) f.layer f.headg (pos - x.pos0))

/-- Words of 32 bits as bytes: bit q of the mask is p q for q below n (R121). -/
def maskBytes (n : Nat) (p : Nat → Bool) : List Byte :=
  (List.range (cdiv n 32)).flatMap (fun w =>
    leBytes 4 ((List.range 32).foldl (fun v b => if w * 32 + b < n ∧ p (w * 32 + b) then v + 2 ^ b else v) 0))

/-- One row of a READ. -/
def State.readRow (s : State) (r p : Nat) (l : LaunchRun) (f : KvF) (a : KvArgs) (rd : Reader) (c : Carve) (i : Nat) : Status × State :=
  let n := a.seqd.bits rd i
  let start := a.aux.pos40 rd i
  match s.rowSeq p n f with
  | .error e => (e, s)
  | .ok x =>
    let g := x.geo
    if 2 ^ 40 < start + a.n then (.range, s)
    else if !(a.matches_ g true) then (.state, s)
    else
      let places := (List.range a.n).map (fun q => x.present f (start + q))
      let entries := (List.range a.n).findSome? (fun q =>
        if start + q < x.pos0 ∨ x.length ≤ start + q then none else s.runBad r n ((start + q - x.pos0) / g.pp) x)
      let bad := places.findSome? (fun q => match q with
        | some (ka, va) => (match s.badUnit ka g.rowBytes with
            | some e => some e
            | none => s.badUnit va g.rowBytes)
        | none => none)
      match entries.orElse (fun _ => bad) with
      | some e => (.data, s.rowLog p l e)
      | none =>
        let put (y : Region) (o : Option Opnd) (q : Nat) (addr : Option Nat) : Region := match o with
          | none => y
          | some o =>
            let bs := match addr with
              | some b => g.convert o.d.fmt (s.mem.loc.load b g.rowBytes)
              | none => List.replicate o.d.rowBytes 0
            y.sramStore (c.sramBase + o.rowAddr (i + a.rows * q)) bs
        let y := ((List.range a.n).zip places).foldl (fun (y : Region) e =>
          put (put y a.kd e.1 (e.2.map (·.1))) a.vd e.1 (e.2.map (·.2))) (s.region r)
        let mask := maskBytes a.n (fun q => (places.getD q none).isSome)
        let y := y.sramStore (c.sramBase + a.aux.rowAddr i + 8) mask
        let y := (List.range a.n).foldl (fun (y : Region) q => match x.present f (start + q) with
          | some _ => y.cacheRun n ((start + q - x.pos0) / g.pp) x
          | none => y) y
        (.ok, s.setRegion r y)

/-! SCORE and LEN (R223, R228). -/

/-- The score of a group after a value (R228). -/
def newScore (old : Option F32) (v : F32) : Option F32 :=
  if f32val v = .nan then old
  else match old with
    | none => some v
    | some o => some (fMax o v)

/-- One row of a SCORE. -/
def State.scoreRow (s : State) (p : Nat) (l : LaunchRun) (f : KvF) (a : KvArgs) (rd : Reader) (i : Nat) : Status × State :=
  match a.kd with
  | none => (.state, s)
  | some k =>
    let n := a.seqd.bits rd i
    let first := a.aux.pos40 rd i
    let cols := k.d.dim 0
    match s.rowSeq p n f with
    | .error e => (e, s)
    | .ok x =>
      if 16384 < first + cols then (.range, s)
      else match s.scoresBad x first cols with
      | some e => (.data, s.rowLog p l e)
      | none =>
        let y := (List.range cols).foldl (fun (y : Seq) c =>
          if y.groupHeld (first + c) then
            { y with scores := Tab.set none y.scores (first + c) (newScore (y.score (first + c)) (BitVec.ofNat 32 (k.bits rd (i * cols + c)))) }
          else y) x
        (.ok, s.setSeq n y)

/-- One row of a LEN. -/
def State.lenRow (s : State) (r p : Nat) (f : KvF) (a : KvArgs) (rd : Reader) (c : Carve) (i : Nat) : Status × State :=
  match s.rowSeq p (a.seqd.bits rd i) f with
  | .error e => (e, s)
  | .ok x =>
    let bs := leBytes 4 x.length ++ leBytes 4 (x.length / 2 ^ 32) ++ leBytes 4 x.pos0 ++ leBytes 4 (x.pos0 / 2 ^ 32)
    (.ok, s.setRegion r ((s.region r).sramStore (c.sramBase + a.aux.rowAddr i) bs))

/-- Rows in order; a failing row is skipped and its status kept (R226). -/
def State.kvRows (g : State → Nat → Status × State) : List Nat → State → Status × State
  | [], s => (.ok, s)
  | i :: is, s =>
    let (st, s) := g s i
    let (st2, s) := State.kvRows g is s
    (st.worst st2, s)

/-- An instruction whose rows end as they are accepted. -/
def State.kvRun (s : State) (r p : Nat) (op : KvOp) (a : KvArgs) (g : State → Nat → Status × State) : State :=
  let spans := a.spans op
  let (st, s) := State.kvRows g (List.range a.rows) s
  (s.setRegion r ((s.region r).issue [.dma] (bySpan [.dma] spans) { fail := st })).bumpPart p 0x17 a.rows

/-- What every KV instruction does at issue: shapes, size override, carve-out, spans (R122, R159, R222, R223). -/
def State.kvInstr (s : State) (r : Nat) (op : KvOp) (f : KvF) (g : State → Nat → LaunchRun → KvArgs → State) : Res :=
  s.runUnit r (.kv op f) (fun s p l =>
    let x := s.region r
    match x.kvArgs f with
    | none => s.passOver r
    | some a =>
      if !(a.shaped op) then s.failIssue r .state
      else
        let go (a : KvArgs) : State :=
          if !(a.fits (s.regCarve r)) then s.failIssue r .range
          else if x.dmaBusy || x.heldBack (bySpan [.dma] (a.spans op)) then s
          else g s p l a
        match x.sizeOverride f.szreg with
        | none => go a
        | some n =>
          if n = 0 then s.passOver r
          else if a.declared op < n then s.failIssue r .range
          else go (a.sizedTo op n))

/-- APPEND (R224). -/
def execAppend (r : Nat) (f : KvF) (s : State) : Res := s.kvInstr r .append f (fun s p l a => s.kvAppend r p l f a)

/-- READ (R225). -/
def execKvRead (r : Nat) (f : KvF) (s : State) : Res :=
  s.kvInstr r .read f (fun s p l a =>
    let c := s.regCarve r
    let rd := (s.region r).view c
    s.kvRun r p .read a (fun s i => s.readRow r p l f a rd c i))

/-- SCORE (R228). -/
def execScore (r : Nat) (f : KvF) (s : State) : Res :=
  s.kvInstr r .score f (fun s p l a =>
    let rd := (s.region r).view (s.regCarve r)
    s.kvRun r p .score a (fun s i => s.scoreRow p l f a rd i))

/-- LEN (Table 07-8). -/
def execLen (r : Nat) (f : KvF) (s : State) : Res :=
  s.kvInstr r .len f (fun s p _ a =>
    let c := s.regCarve r
    let rd := (s.region r).view c
    s.kvRun r p .len a (fun s i => s.lenRow r p f a rd c i))

/-- The rows of an instruction carried on as far as they go. -/
def State.resumeActs (s : State) (r p : Nat) (l : LaunchRun) (i : Issued) : State :=
  let others := (List.range 16).flatMap (fun k => (s.region k).issued.flatMap (fun j => if k = r ∧ j.id = i.id then [] else j.acts))
  let (left, st, s) := State.kvActs p l others i.acts s
  s.modIssued r i.id (fun j => { j with pend := cowPend left, fail := j.fail.worst st })

/-- Every instruction whose rows wait for a copy of another carries on. -/
def State.resumeAll (s : State) : State :=
  (List.range 16).foldl (fun (s : State) r =>
    match s.regRun r with
    | some (p, l) => ((s.region r).issued.filter (fun i => i.acts != [])).foldl (fun (s : State) i => s.resumeActs r p l i) s
    | none => s) s

/-- COW_COPY_DONE (R221): the whole page is copied, its row written, and the rows that waited for it go on. -/
def execCowCopyDone (r : Nat) (s : State) : Res :=
  if s.inReset then .next s
  else match (s.region r).issued.findSome? (fun i => match i.acts with
      | x :: rest => if x.copy.isSome then some (i.id, x, rest) else none
      | [] => none), s.regRun r with
    | some (id, x, rest), some (p, l) =>
      let (st, s) := s.copyPage p l x
      .next (s.modIssued r id (fun i => { i with pend := cowPend rest, fail := i.fail.worst st })).resumeAll
    | _, _ => .next s

end Sys2Proof.Machine
end

