-- ==== Sys2Proof/Machine/Route.lean ====
section
/-! DEFINITION. Expert routing (chapter 08): PLACE and its rounds, SEND, and the two returns. -/
namespace Sys2Proof.Machine

/-- One 4-byte element of an operand written. -/
def Region.putWord (x : Region) (c : Carve) (o : Opnd) (l w : Nat) : Region :=
  x.pokes c (byteWrites o.d.space (o.addr l).toNat (leBytes 4 w))

/-- The first n bytes of row i of an operand. -/
def Opnd.rowData (rd : Reader) (o : Opnd) (i n : Nat) : List Byte := (List.range n).map (fun j => rd o.d.space (o.rowAddr i + j))

/-! PLACE (R237 to R249). -/

/-- The register contents of a PLACE (Table 08-2). -/
structure PlaceRegs where
  cap : Nat
  experts : Nat
  pool : Nat
  strict : Bool
  slot : Nat
  deriving DecidableEq, Repr

def Region.placeRegs (x : Region) (f : RouteF) : Option PlaceRegs :=
  let a := (x.reg f.capreg).toNat
  let b := (x.reg f.poolreg).toNat
  let e := (x.reg f.epochreg).toNat
  let cap := a % 65536
  let experts := a / 65536
  let pool := b % 65536
  if experts = 0 ∨ 4096 < experts ∨ 1 < b / 65536 ∨ e / 2 ^ 32 ≠ 0 ∨ cap + pool = 0 ∨ 65536 < cap + pool then none
  else some ⟨cap, experts, pool, b / 65536 == 1, bits e 23 16⟩

/-- The operands of a ROUTE instruction: CHOICE, WEIGHT, TOKEN, OUT and IDX, the offset register on TOKEN only. -/
structure RouteArgs where
  choice : Option Opnd
  weight : Option Opnd
  token : Option Opnd
  out : Option Opnd
  idx : Option Opnd
  deriving DecidableEq, Repr

def Region.routeArgs (x : Region) (f : RouteF) : RouteArgs :=
  ⟨x.opnd f.choice 0, x.opnd f.weight 0, x.opnd f.token f.offreg, x.opnd f.out 0, x.opnd f.idx 0⟩

def RouteArgs.all (a : RouteArgs) : List Opnd :=
  a.choice.toList ++ a.weight.toList ++ a.token.toList ++ a.out.toList ++ a.idx.toList

def RouteArgs.fits (a : RouteArgs) (c : Carve) : Bool := a.all.all (fun o => o.ok c false)

/-- Spans with the operands that the instruction writes. -/
def RouteArgs.spans (a : RouteArgs) (write : Bool) : List Span :=
  let one (o : Option Opnd) (w : Bool) : List Span := match o with
    | some x => x.spans false w
    | none => []
  one a.choice false ++ one a.weight write ++ one a.token false ++ one a.out write ++ one a.idx write

/-- A submission without rows (R239). -/
def Submission.empty (index region : Nat) : Submission :=
  { index := index, region := region, id := 0, slot := 0, rows := false, k := 0, t := 0, experts := 0, cap := 0, pool := 0, strict := false,
    renorm := false, choices := [] }

/-- A round with this number of this batch still takes submissions. -/
def RoundEntry.takes (e : RoundEntry) (number batch : Nat) : Bool := e.number == number && e.batch == batch && !e.placed

/-- The rounds with one more submission; none when no entry is free (R241). -/
def Part.submit (x : Part) (batch number : Nat) (sub : Submission) : Option Part :=
  if x.rounds.any (fun e => e.takes number batch) then
    some { x with rounds := x.rounds.map (fun e => if e.takes number batch then { e with subs := e.subs ++ [sub] } else e) }
  else if x.rounds.length < 16 then
    some { x with rounds := x.rounds ++ [⟨number, batch, [sub], false, 0, none⟩] }
  else none

/-- A PLACE in skip mode or failing at issue submits with no rows (R239). -/
def State.placeEmpty (s : State) (r p : Nat) (l : LaunchRun) (st : Status) : State :=
  let x := s.region r
  match (s.part p).submit l.batch x.places (.empty (s.regionIndex p r) r) with
  | none => s
  | some y =>
    let s := (s.setPart p y).setRegion r { x with places := x.places + 1 }
    if st = .ok then s.passOver r else s.failIssue r st

/-- Every row of a return slot zeroed, unlanded, its arrivals forgotten (R249). -/
def Region.clearSlot (x : Region) (c : Carve) (k : Nat) : Region :=
  match x.desc k with
  | none => x
  | some d =>
    let y := (List.range d.s2).foldl (fun (y : Region) g => (List.range d.s1).foldl (fun (y : Region) i =>
      y.sramStore (d.rowAt c g i) (List.replicate (4 * d.s0) 0)) y) x
    { y with slots := Tab.set .unbound y.slots k { y.slot k with landed := [], count := 0 } }

/-- A PLACE that submits rows. -/
def State.placeRows (s : State) (r p : Nat) (l : LaunchRun) (f : RouteF) (a : RouteArgs) (g : PlaceRegs) (o : Opnd) : State :=
  let x := s.region r
  let c := s.regCarve r
  let rd := x.view c
  let choices := (List.range o.d.count).map (fun i => sext 32 (o.bits rd i))
  let sub : Submission :=
    { index := s.regionIndex p r, region := r, id := x.nextId, slot := g.slot, rows := true, k := o.d.dim 0, t := o.d.dim 1, experts := g.experts,
      cap := g.cap, pool := g.pool, strict := g.strict, renorm := f.renorm == 1, choices := choices }
  match (s.part p).submit l.batch x.places sub with
  | none => s
  | some y =>
    let x := { x.clearSlot c g.slot with places := x.places + 1 }
    (s.setPart p y).setRegion r (x.issue [.dma] (bySpan [.dma] (a.spans true)) { pend := .round })

/-- PLACE (R238, R239, R249). -/
def execPlace (r : Nat) (f : RouteF) (s : State) : Res :=
  s.runInstr r (.route .place f) (fun s p l =>
    let x := s.region r
    let a := x.routeArgs f
    if x.skip then s.placeEmpty r p l .ok
    else match x.placeRegs f, a.choice, a.out with
      | some g, some o, some out =>
        if out.d.dim 0 ≠ g.experts + 3 ∨ 65535 < o.d.count ∨ !((x.slot g.slot).bound) ∨ !(a.fits (s.regCarve r)) then
          s.placeEmpty r p l .range
        else if x.dmaBusy || x.heldBack (bySpan [.dma] (a.spans true)) then s
        else s.placeRows r p l f a g o
      | _, _, _ => s.placeEmpty r p l .range)

/-! The router (R243 to R248). -/

/-- What becomes of a choice: none, its expert's row (from the pool or not), or dropped. -/
inductive Placed where
  | none
  | at_ (row : Nat) (pool : Bool)
  | dropped
  deriving DecidableEq, Repr

/-- The router's counters in a round. -/
structure Router where
  fill : Tab Nat
  used : Nat
  dropped : Nat
  deriving DecidableEq, Repr

/-- One choice placed (R243). -/
def Router.choice (x : Router) (experts cap pool : Nat) (e : Int) : Placed × Router :=
  if e < 0 ∨ (experts : Int) ≤ e then (.none, x)
  else
    let n := e.toNat
    let row := Tab.get 0 x.fill n
    if row < cap then (.at_ row false, { x with fill := Tab.set 0 x.fill n (row + 1) })
    else if x.used < pool then (.at_ row true, { x with fill := Tab.set 0 x.fill n (row + 1), used := x.used + 1 })
    else (.dropped, { x with dropped := x.dropped + 1 })

/-- Choices in order. -/
def Router.choices (experts cap pool : Nat) : List Int → Router → List Placed × Router
  | [], x => ([], x)
  | e :: es, x =>
    let (r, x) := x.choice experts cap pool e
    let (rs, x) := Router.choices experts cap pool es x
    (r :: rs, x)

/-- Submissions with rows in region-index order, each with its results. -/
def Router.run (experts cap pool : Nat) : List Submission → Router → List (Submission × List Placed) × Router
  | [], x => ([], x)
  | b :: bs, x =>
    let (r, x) := Router.choices experts cap pool b.choices x
    let (rs, x) := Router.run experts cap pool bs x
    ((b, r) :: rs, x)

def Placed.isAt : Placed → Bool
  | .at_ _ _ => true
  | _ => false

/-- IDX plane 1 of a result (R245). -/
def Placed.plane1 : Placed → Nat
  | .at_ row pool => row + (if pool then 2 ^ 30 else 0)
  | _ => 2 ^ 31

/-- IDX plane 0: saved indices, the null row for the rest. -/
def saved (rs : List Placed) : List Nat :=
  let n := (rs.filter Placed.isAt).length
  (List.range rs.length).map (fun i =>
    if (rs.getD i .none).isAt then ((rs.take i).filter Placed.isAt).length else n)

/-- The weights of one row as PLACE leaves them (R247). -/
def rowWeights (renorm : Bool) (rs : List Placed) (ws : List F32) : List F32 :=
  let live := (rs.zip ws).filter (fun e => e.1.isAt)
  let sum := match live with
    | [] => (0 : F32)
    | e :: es => es.foldl (fun t x => (fAdd t x.2).1) e.2
  let divide := renorm && rs.contains .dropped && (match f32val sum with
    | .fin _ m _ => m != 0
    | _ => true)
  (rs.zip ws).map (fun e => if e.1.isAt then (if divide then (fDiv e.2 sum).1 else e.2) else 0)

/-- The outputs of one region's PLACE (R245 to R247). -/
def Region.placeOut (x : Region) (c : Carve) (f : RouteF) (b : Submission) (rs : List Placed) (t : Router) : Region :=
  let a := x.routeArgs f
  match a.weight, a.out, a.idx with
  | some w, some out, some idx =>
    let rd := x.view c
    let n := b.k * b.t
    let s0 := saved rs
    let put (x : Region) (o : Opnd) (l v : Nat) : Region := x.putWord c o l v
    let x := (List.range n).foldl (fun (y : Region) i =>
      put (put y idx i (s0.getD i 0)) idx (n + i) (rs.getD i .none).plane1) x
    let x := (List.range b.experts).foldl (fun (y : Region) e => put y out e (Tab.get 0 t.fill e)) x
    let x := put (put (put x out b.experts t.used) out (b.experts + 1) t.dropped) out (b.experts + 2) (rs.filter Placed.isAt).length
    (List.range b.t).foldl (fun (y : Region) i =>
      let ws := (List.range b.k).map (fun j => (BitVec.ofNat 32 (w.bits rd (i * b.k + j)) : F32))
      let out := rowWeights b.renorm ((rs.drop (i * b.k)).take b.k) ws
      ((List.range b.k).zip out).foldl (fun (y : Region) e => put y w (i * b.k + e.1) e.2.toNat) y) x
  | _, _, _ => x

/-- The PLACE of an issued instruction. -/
def Issued.placeF (i : Issued) : Option RouteF :=
  match i.instr.body with
  | .route .place f => some f
  | _ => none

/-- One region's PLACE ends with a status. -/
def State.placeEnd (s : State) (b : Submission) (st : Status) : State :=
  s.modIssued b.region b.id (fun i => if i.pend = .round then { i with pend := .none, fail := i.fail.worst st } else i)

/-- One region's outputs written and its PLACE ended. -/
def State.placeWrite (s : State) (e : Submission × List Placed) (t : Router) : State :=
  let b := e.1
  let x := s.region b.region
  let s := match x.issued.find? (fun i => i.id == b.id) with
    | some i => (match i.placeF with
        | some f => s.setRegion b.region (x.placeOut (s.regCarve b.region) f b e.2 t)
        | none => s)
    | none => s
  let bad := b.choices.any (fun v => decide (v < -1) || decide ((b.experts : Int) ≤ v))
  s.placeEnd b ((if bad then Status.range else .ok).worst (if b.strict ∧ 0 < t.dropped then .capacity else .ok))

/-- Submissions in region-index order. -/
def insertSub (b : Submission) : List Submission → List Submission
  | [] => [b]
  | h :: t => if b.index < h.index then b :: h :: t else h :: insertSub b t

/-- Submissions that carry rows agree (R240). -/
def Submission.agrees (a b : Submission) : Bool :=
  a.k == b.k && a.experts == b.experts && a.cap == b.cap && a.pool == b.pool && a.strict == b.strict

/-- A complete round placed. -/
def State.placeRound (s : State) (p : Nat) (e : RoundEntry) : State :=
  let subs := (e.subs.filter (·.rows)).foldl (fun t b => insertSub b t) []
  let free (s : State) : State := s.setPart p { s.part p with rounds := (s.part p).rounds.erase e }
  match subs with
  | [] => free s
  | b :: bs =>
    if bs.any (fun c => !(b.agrees c)) then free (subs.foldl (fun (s : State) c => s.placeEnd c .state) s)
    else
      let (rs, t) := Router.run b.experts b.cap b.pool subs ⟨[], 0, 0⟩
      let s := rs.foldl (fun (s : State) c => s.placeWrite c t) s
      let n := rs.foldl (fun a c => a + (c.2.filter Placed.isAt).length) 0
      let x := s.part p
      let s := s.setPart p { x with dropped := x.dropped + t.dropped }
      if n = 0 then free s
      else
        let x := s.part p
        s.setPart p { x with rounds := x.rounds.map (fun y => if y = e then { y with placed := true, unsettled := n } else y) }

/-- ROUND_PLACE (R238, R243): a round of the running LAUNCH that every region has submitted to. -/
def execRoundPlace (p round : Nat) (s : State) : Res :=
  if s.inReset then .next s
  else match (s.part p).launch with
    | none => .next s
    | some l =>
      match (s.part p).rounds.find? (fun e => e.takes round l.batch) with
      | none => .next s
      | some e => if e.subs.length < (s.regionsOf p).length then .next s else .next (s.placeRound p e)

/-- ROUND_ENTRY_EXPIRE (R260): 10 ms after its batch was cancelled. -/
def execRoundEntryExpire (p round : Nat) (s : State) : Res :=
  if 8 ≤ p then .next s
  else
    let x := s.part p
    .next (s.setPart p { x with rounds := x.rounds.filter (fun e => !(e.number == round && (match e.cancelledAt with
      | some t => decide (t + 10000000 ≤ s.now)
      | none => false))) })

/-! Records (R254, R255). -/

/-- A route record (Table 08-3). -/
def routeRecord (batch epoch pidx group tok home src kind gen : Nat) (weight sidx : Nat) (payload : List Byte) : List Byte :=
  let data := padTo 4 payload
  leBytes 4 batch ++ leBytes 2 epoch ++ leBytes 2 pidx ++ leBytes 2 group ++ leBytes 2 (data.length / 4) ++ leBytes 4 tok
  ++ leBytes 2 home ++ leBytes 2 src ++ leBytes 2 kind ++ leBytes 2 gen ++ leBytes 4 weight ++ leBytes 4 sidx ++ data

/-- Records on their way to slots of the partition's regions, as (region index, slot, bytes). -/
def State.sendRecords (s : State) (r p id : Nat) (rs : List (Nat × Nat × List Byte)) : State :=
  let regs := s.regionsOf p
  { s with transit := s.transit ++ rs.map (fun e => ⟨regs.getD e.1 0, e.2.1, e.2.2, .instr r id⟩) }

/-- The instruction issues with its records on their way; it fails with RANGE when one of them failed. -/
def State.issueRecords (s : State) (r p : Nat) (spans : List Span) (rs : List (Option (Nat × Nat × List Byte))) : State :=
  let x := s.region r
  let ok := rs.filterMap id
  let s := s.setRegion r (x.issue [.dma] (bySpan [.dma] spans) { fail := if ok.length = rs.length then .ok else .range, owed := ok.length })
  s.sendRecords r p x.nextId ok

/-- The records of a SEND, none for one that fails (R254). -/
def State.dispatches (s : State) (r p : Nat) (l : LaunchRun) (experts : Nat) (home slot : Nat) (ch w tk map_ idx : Opnd) :
    List (Option (Nat × Nat × List Byte)) :=
  let x := s.region r
  let rd := x.view (s.regCarve r)
  let n := ch.d.count
  let k := ch.d.dim 0
  (List.range n).filterMap (fun i =>
    let p1 := idx.bits rd (n + i)
    if bit p1 31 then none
    else
      let e := sext 32 (ch.bits rd i)
      if e < 0 ∨ (experts : Int) ≤ e then some none
      else
        let m := map_.bits rd e.toNat
        if (x.reg 2).toNat ≤ m % 16 ∨ (s.regionsOf p).length ≤ m % 16 ∨ m / 2 ^ 16 ≠ 0 then some none
        else some (some (m % 16, slot, routeRecord ((x.reg 3).toNat % 2 ^ 32) l.epoch (p1 % 65536) (bits m 15 4) (i / k + i % k * 2 ^ 16)
          home s.modid 2 ((x.reg 4).toNat % 2 ^ 16) (w.bits rd i) (idx.bits rd i) (tk.rowData rd (i / k) tk.d.rowBytes))))

/-- SEND (R254). -/
def execSend (r : Nat) (f : RouteF) (s : State) : Res :=
  s.runUnit r (.route .send f) (fun s p l =>
    let x := s.region r
    let a := x.routeArgs f
    let cap := (x.reg f.capreg).toNat
    let ep := (x.reg f.epochreg).toNat
    let experts := cap / 65536
    match a.choice, a.weight, a.token, a.out, a.idx with
    | some ch, some w, some tk, some m, some idx =>
      if cap % 65536 ≠ 0 ∨ experts = 0 ∨ 4096 < experts ∨ ep % 65536 ≠ 0 ∨ 2 ^ 32 ≤ ep ∨ m.d.dim 0 ≠ experts then s.failIssue r .range
      else if !(a.fits (s.regCarve r)) then s.failIssue r .range
      else if x.dmaBusy || x.heldBack (bySpan [.dma] (a.spans false)) then s
      else s.issueRecords r p (a.spans false)
        (s.dispatches r p l experts (s.regionIndex p r + 16 * bits ep 23 16) (bits ep 31 24) ch w tk m idx)
    | _, _, _, _, _ => s.passOver r)

/-- The record of row i of a return (R255). -/
def State.returnRec (s : State) (r p : Nat) (acc : Bool) (tk idx : Opnd) (i : Nat) : Option (Nat × Nat × List Byte) :=
  let x := s.region r
  let rd := x.view (s.regCarve r)
  let h := idx.rowData rd i 32
  let home := hdrHome h
  if (x.reg 2).toNat ≤ home % 16 ∨ (s.regionsOf p).length ≤ home % 16 ∨ home / 2 ^ 12 ≠ 0 then none
  else some (home % 16, bits home 11 4, routeRecord (hdrBatch h) (hdrEpoch h) (if acc then 0 else leAt h 28 2) 0 (hdrTok h) home s.modid
    (if acc then 4 else 3) (hdrGen h) (leAt h 24 4) (leAt h 28 4) (tk.rowData rd i tk.d.rowBytes))

/-- Both returns. -/
def State.returns (s : State) (r : Nat) (op : RouteOp) (acc : Bool) (f : RouteF) : Res :=
  s.runUnit r (.route op f) (fun s p _ =>
    let x := s.region r
    let a := x.routeArgs f
    let n := (x.reg f.capreg).toNat
    match a.token, a.idx with
    | some tk, some idx =>
      if tk.d.dim 1 < n ∨ idx.d.dim 1 < n then s.failIssue r .range
      else if !(a.fits (s.regCarve r)) then s.failIssue r .range
      else if x.dmaBusy || x.heldBack (bySpan [.dma] (a.spans false)) then s
      else s.issueRecords r p (a.spans false) ((List.range n).map (s.returnRec r p acc tk idx))
    | _, _ => s.passOver r)

/-- RETURN_SLOT (R255). -/
def execReturnSlot (r : Nat) (f : RouteF) (s : State) : Res := s.returns r .returnSlot false f
/-- RETURN_ACC (R255). -/
def execReturnAcc (r : Nat) (f : RouteF) (s : State) : Res := s.returns r .returnAcc true f

end Sys2Proof.Machine
end

