-- ==== Sys2Proof/Machine/Retire.lean ====
section
/-! DEFINITION. Retirement of region instructions and what checks find while they execute (R111, R139, R149, R176, R502). -/
namespace Sys2Proof.Machine

/-- First bank entry an instruction writes in its blocks, 0 when it writes none (R502). -/
def firstBank (i : RInstr) (x : Region) : Nat :=
  match i.body with
  | .mul f => f.e0
  | .bank .bload f | .bank .bclear f => f.e0
  | .vec _ f => (match x.desc f.dst with
      | some d => (match d.space with
          | .bank _ => d.base / 512
          | .sram => 0)
      | none => 0)
  | _ => 0

/-- ADDR of a TIER 4 entry (R502). -/
def tier4Addr (r block entry : Nat) : Nat := entry % 512 + block * 2 ^ 9 + r * 2 ^ 12

/-- A word of a bank marked unwritten (Table 03-9). -/
def Block.dropWord (b : Block) (e n : Nat) : Block := { b with bank := Tab.set none b.bank (e * 128 + n) none }

/-- A finding fails the instruction: every one but the errors that are corrected and a program store word (Table 03-9,
Table 05-17). -/
def RetireFault.fails : RetireFault → Bool
  | .bankSingle _ _ _ | .sramSingle _ | .store _ => false
  | _ => true

/-- A finding of a check in an executing instruction: event, log, fault count, or a correction counted (R96, R110, R139,
R502, Table 05-17, Table 18-1). The event names the physical cell. -/
def State.checkFail (s : State) (p r : Nat) (i : Issued) (f : RetireFault) : State :=
  let x := s.region r
  let e := firstBank i.instr x
  let data (n : Nat) : Nat := i.index % 65536 + n % 65536 * 65536
  let die := r / 8
  let cell (b row col : Nat) : State := s.event (s.blockIsland r b) 0x10 (some p) none (data (16 * row + s.physCol r b col))
  match f with
  | .cell b row col =>
    ((cell b row col).regLog p (tier4Addr r b e) 4).countFault (unitColumn die (s.physRegion r) (s.physBlock r b) (s.physCol r b col))
  | .setFailed b row col => (cell b row col).regLog p (tier4Addr r b e) 4
  | .bank b entry col =>
    let s := s.event (s.blockIsland r b) 0x13 (some p) none (data col)
    let s := (s.regLog p (tier4Addr r b e) 4).countFault (unitBlock die (s.physRegion r) (s.physBlock r b))
    let x := s.region r
    s.setRegion r (x.setBlock b ((x.block b).dropWord entry col))
  | .bankSingle b _ _ => s.setRegion r (x.setBlock b { x.block b with corrected := (x.block b).corrected + 1 })
  | .lane n =>
    let s := s.event (s.regionIsland r) 0x11 (some p) none (data n)
    (s.regLog p (tier4Addr r 7 e) 4).countFault (islandVector die (s.physRegion r))
  | .sram off =>
    let s := s.event (s.regionIsland r) 0x12 (some p) none (data 0)
    (s.regLog p (0x40000000000 + r * 2 ^ 26 + off / 64 * 64) 3).countFault
      (unitSramRow die (s.physRegion r) (off / 256 % 64) (off / 16384))
  | .sramSingle off =>
    (s.setRegion r { x with sramCorrected := x.sramCorrected + 1 }).countFault
      (besideKey (unitSramRow die (s.physRegion r) (off / 256 % 64) (off / 16384)))
  | .store _ => s

/-- The finding can meet an instruction of these units. -/
def RetireFault.fits (f : RetireFault) (i : Issued) : Bool :=
  match f with
  | .cell b row col | .setFailed b row col => i.units.contains (.block b) && decide (row < 8) && decide (col < 8)
  | .bank b entry col | .bankSingle b entry col =>
    (i.units.contains (.block b) || i.units.contains .engine) && decide (b < 6) && decide (entry < 512) && decide (col < 128)
  | .lane n => i.units.contains .engine && decide (n < 512)
  | .sram off | .sramSingle off => decide (off < 64 * 786432)
  | .store _ => false

/-- A tap's record written into its area (R571, R572): entry COUNT, or one more LOST when the area is full. -/
def State.tapWrite (s : State) (p r : Nat) (area : TapArea) (body : List Byte) : State :=
  let head := (area.spans.headD (0, 0)).1
  let x := s.part p
  let (count, lost) := Tab.get (0, 0) x.tapCnt head
  let (count', lost') := if count < area.cap then (count + 1, lost) else (count, lost + 1)
  let s := s.setPart p { x with tapCnt := Tab.set (0, 0) x.tapCnt head (count', lost') }
  let s := if count < area.cap then s.areaWrite p r area.spans (64 + 64 * count) body else s
  s.areaWrite p r area.spans 4 (leBytes 4 count' ++ leBytes 4 lost')

/-- Every unit of an instruction has no older one. -/
def Region.oldest (x : Region) (i : Issued) : Bool :=
  i.units.all (fun u => (x.issued.find? (fun j => j.units.contains u)).map (·.id) == some i.id)

/-- A LOADW retires when its tile is in every named set. -/
def Region.loaded (x : Region) (i : Issued) : Bool :=
  match i.instr.body with
  | .loadw f => (blocksOf f.blocks).all (fun b => ((x.block b).set f.set).st != .loading)
  | _ => true

/-- The instruction may retire. -/
def Region.canRetire (x : Region) (i : Issued) : Bool :=
  x.oldest i && x.loaded i && i.owed == 0 && (match i.pend with
    | .none | .tapArea _ _ => true
    | _ => false)

/-- The instruction retires: its flag sets join the region's summary and are cleared, and what its checks found takes
effect (R63, R110, R111). -/
def State.retire (s : State) (p r : Nat) (i : Issued) (fault : Option RetireFault) : State :=
  let s := match i.pend with
    | .tapArea area body => s.tapWrite p r area body
    | _ => s
  let x := s.region r
  let s := s.setRegion r { (x.orFlags i.flags.summary) with issued := x.issued.filter (fun j => j.id != i.id) }
  let found := i.bad ++ (match fault with
    | some f => if f.fits i then [f] else []
    | none => [])
  let s := found.foldl (fun (s : State) f => s.checkFail p r i f) s
  let st := if found.any (·.fails) then i.fail.worst .data else i.fail
  let s := if i.note = .ok then s else s.noteStatus r i.note
  if st = .ok then s else s.failRegion r st

end Sys2Proof.Machine
end

