-- ==== Sys2Proof/Machine/SyncOps.lean ====
section
/-! DEFINITION. SYNC instructions and their waits (R166, R167). A SYNC takes its effect when every earlier instruction of
its region has retired; until then, and until its own condition holds, the region's `wait` is set. -/
namespace Sys2Proof.Machine

/-- Every region of the partition has arrived at barrier `id` as often as region r (R166). -/
def State.rbarMet (s : State) (p r id : Nat) : Bool :=
  (s.regionsOf p).all (fun k => decide (Tab.get 0 (s.region r).rbars id ≤ Tab.get 0 (s.region k).rbars id))

/-- Region r arrives at its next RBAR of barrier `id`. -/
def Region.arriveBar (x : Region) (id : Nat) : Region := { x with rbars := Tab.modify 0 x.rbars id (· + 1) }

/-- The value that WAITGE and RECV compare with. -/
def Region.syncTarget (x : Region) (f : SyncF) : Nat := (x.reg f.reg + BitVec.ofNat 64 f.imm).toNat

/-- The condition of a SYNC that has arrived, once every earlier instruction has retired. -/
def State.syncMet (s : State) (p r : Nat) (op : SyncOp) (f : SyncF) : Bool :=
  let x := s.region r
  match op with
  | .waitall | .post => true
  | .rbar => s.rbarMet p r f.id
  | .waitge => decide (x.syncTarget f ≤ Tab.get 0 (s.part p).counters f.id)
  | .recv => x.skip || decide (x.syncTarget f ≤ (x.slot f.id).count)

/-- What a SYNC does once, when every earlier instruction has retired: RBAR arrives, POST counts. -/
def State.syncArrive (s : State) (p r : Nat) (op : SyncOp) (f : SyncF) : State :=
  match op with
  | .rbar => s.setRegion r ((s.region r).arriveBar f.id)
  | .post =>
    let x := s.part p
    s.setPart p { x with counters := Tab.modify 0 x.counters f.id (fun n => (n + 1) % 2 ^ 32) }
  | _ => s

/-- A SYNC goes on: it waits from `since`, arrives when the region is quiet, and ends when its condition holds. -/
def State.syncGo (s : State) (p r : Nat) (op : SyncOp) (f : SyncF) (w : SyncWait) : State :=
  if (s.region r).issued ≠ [] ∧ !w.arrived then s.setRegion r { s.region r with wait := some w }
  else
    let s := if w.arrived then s else s.syncArrive p r op f
    let x := s.region r
    if s.syncMet p r op f then s.setRegion r ({ x with wait := none } : Region).advance
    else s.setRegion r { x with wait := some { w with arrived := true } }

/-- A SYNC instruction issues. -/
def State.syncIssue (s : State) (r : Nat) (op : SyncOp) (f : SyncF) : Res :=
  s.runInstr r (.sync op f) (fun s p _ => s.syncGo p r op f ⟨s.now, false⟩)

/-- WAITALL (Table 05-12). -/
def execWaitall (r : Nat) (f : SyncF) (s : State) : Res := s.syncIssue r .waitall f
/-- RBAR. -/
def execRbar (r : Nat) (f : SyncF) (s : State) : Res := s.syncIssue r .rbar f
/-- POST. -/
def execPost (r : Nat) (f : SyncF) (s : State) : Res := s.syncIssue r .post f
/-- WAITGE. -/
def execWaitge (r : Nat) (f : SyncF) (s : State) : Res := s.syncIssue r .waitge f
/-- RECV: in skip mode it completes at once (R175). -/
def execRecv (r : Nat) (f : SyncF) (s : State) : Res := s.syncIssue r .recv f

/-- The SYNC that region r waits in, with its partition. -/
def State.waiting (s : State) (r : Nat) : Option (Nat × SyncOp × SyncF × SyncWait) :=
  let x := s.region r
  if s.inReset || x.stopped || !x.running then none
  else match x.wait, x.store.instrs[x.pc]?, s.regRun r with
    | some w, some ⟨_, .sync op f⟩, some (p, _) => some (p, op, f, w)
    | _, _, _ => none

/-- SYNC_WAIT_END: the awaited event reaches the region (R166). -/
def execSyncWaitEnd (r : Nat) (s : State) : Res :=
  match s.waiting r with
  | some (p, op, f, w) => .next (s.syncGo p r op f w)
  | none => .next s

/-- SYNC_TIMEOUT (R167): the instruction fails with TIMEOUT; a barrier counts it as arrived (R175). -/
def execSyncTimeout (r : Nat) (s : State) : Res :=
  match s.waiting r with
  | some (p, op, f, w) =>
    if f.timeout = 0 ∨ s.now < w.since + f.timeout * 1000 then .next s
    else
      let s := if w.arrived then s else s.syncArrive p r op f
      let s := s.failRegion r .timeout
      .next (s.setRegion r ({ s.region r with wait := none } : Region).advance)
  | none => .next s

end Sys2Proof.Machine
end

