-- ==== Sys2Proof/Machine/Launch.lean ====
section
/-! DEFINITION. LAUNCH from its image to its completion (R141 to R144, R172, R176, R315 to R317, R404), and ABORT with the
cancelling of whatever a queue runs (R394). -/
namespace Sys2Proof.Machine

/-! The image (R141, R172). -/

/-- What a LAUNCH found when it read its image: the program store, ESTIMATE and the worst-case issue count, or a
status. -/
structure Image where
  store : ProgStore
  estimate : Nat
  count : Nat
  deriving DecidableEq, Repr

/-- Pieces of an access, none listed when it fails. -/
def State.piecesOr (s : State) (v : Via) (k : AccKind) (va n : Nat) : List Piece :=
  match s.translate v k va n with
  | .ok ps => ps
  | .error _ => []

/-- The lists of an image as accesses: instructions, then descriptors. -/
def ImageHdr.lists (h : ImageHdr) (prog : Nat) : List (Nat × Nat) :=
  [(prog + h.ioff, 16 * h.icount)] ++ (if h.dcount = 0 then [] else [(prog + h.doff, 64 * h.dcount)])

/-- Bytes read for a command whose data is all here. -/
def State.takeRead (s : State) (q ctx p : Nat) (k : AccKind) (va n : Nat) : Except Status (List Byte) × State :=
  match s.cmdRead q ctx p k va n with
  | (.done bs, s) => (.ok bs, s)
  | (.fail st, s) => (.error st, s)
  | (.wait, s) => (.error .remote, s)

/-- The lists of an image whose header passes check 1, read and validated. -/
def State.readLists (s : State) (q ctx p prog : Nat) (train : Bool) (h : ImageHdr) : Except Status Image × State :=
  match s.takeRead q ctx p .program (prog + h.ioff) (16 * h.icount) with
  | (.error e, s) => (.error e, s)
  | (.ok ib, s) =>
    let r := if h.dcount = 0 then (.ok [], s) else s.takeRead q ctx p .program (prog + h.doff) (64 * h.dcount)
    match r with
    | (.error e, s) => (.error e, s)
    | (.ok db, s) =>
      let is := parseInstrs h.icount ib
      let ds := parseDescs h.dcount db
      let v := validate is ds (s.ctxRec ctx).carve train (s.partRec p).det
      if v.status ≠ .ok then (.error v.status, s)
      else (.ok ⟨⟨is.filterMap id, ds.map (fun d => d.getD
        ⟨0, 0, [], [], .fp32, 0, .sram, false, false, 0, 0⟩)⟩, h.estimate, v.count⟩, s)

/-- The image read and validated, with the ESTIMATE of its header as far as it could be read: a LAUNCH is measured with it
whether its image passes or not (R412, R413). -/
def State.readImage (s : State) (q ctx p prog : Nat) (train : Bool) : Except Status Image × Nat × State :=
  match s.takeRead q ctx p .program prog 64 with
  | (.error e, s) => (.error e, 0, s)
  | (.ok hb, s) =>
    match ImageHdr.parse hb with
    | none => (.error .denied, leAt hb 32 8, s)
    | some h => let r := s.readLists q ctx p prog train h; (r.1, h.estimate, r.2)

/-- The argument words (Table 13-8). -/
def State.readArgs (s : State) (q ctx p args : Nat) : Except Status (List Word) × State :=
  if args = 0 then (.ok (List.replicate 16 0), s)
  else match s.takeRead q ctx p .read args 128 with
    | (.error e, s) => (.error e, s)
    | (.ok bs, s) => (.ok ((List.range 16).map (fun i => BitVec.ofNat 64 (leAt bs (8 * i) 8))), s)

/-- All that the LAUNCH reads is here, or has been asked for. -/
def State.launchReady (s : State) (q ctx p : Nat) (f : LaunchF) : Bool × State :=
  let v : Via := ⟨ctx, p, none⟩
  let head := s.piecesOr v .program f.prog 64
  let (ok, s) := s.prefetch (.cmd q) p head
  if !ok then (false, s)
  else
    let lists := match (s.readPieces (.cmd q) v 1 0 q head).1 with
      | .done hb => (match ImageHdr.parse hb with
          | some h => (h.lists f.prog).flatMap (fun x => s.piecesOr v .program x.1 x.2)
          | none => [])
      | _ => []
    let args := if f.args = 0 then [] else s.piecesOr v .read f.args 128
    s.prefetch (.cmd q) p (head ++ lists ++ args)

/-! The start (Table 14-1, Table 05-2). -/

/-- Registers at the start of a command. -/
def startRegs (index count p modid : Nat) (l : LaunchRun) (det cloche : Bool) (args : List Word) : Tab Word :=
  let w (n : Nat) : Word := BitVec.ofNat 64 n
  let flags := (if l.blast then 1 else 0) + (if l.train then 2 else 0) + (if l.irq then 128 else 0) + (if det then 256 else 0) + (if cloche then 512 else 0)
  let named := [(1, w index), (2, w count), (3, w l.batch), (4, w l.gen), (5, w p), (6, w modid), (7, w flags)]
  (named ++ (List.range 16).map (fun i => (16 + i, args.getD i 0))).foldl (fun (t : Tab Word) (e : Nat × Word) => Tab.set 0 t e.1 e.2) []

/-- A region at the start of a command: the image in its other program store, everything else as Table 14-1. -/
def Region.start (x : Region) (store : ProgStore) (regs : Tab Word) : Region :=
  { x with
    stores := x.stores.set (1 - x.cur) store, cur := 1 - x.cur, running := true, stopped := false, pc := 0, regs := regs,
    loops := [], issued := [], wait := none, skip := false, fail := .ok, failOrder := 0, flags := 0, firstIssue := none,
    rbars := [], places := 0, taps := 0, blocks := x.blocks.map Block.startCommand,
    slots := bindSlots store 256 0 0 0, rlc := [], plans := [], walk := none }

/-- The LAUNCH's watchdog (Table 13-15). -/
def State.launchBudget (s : State) (tDisp count : Nat) : Option Nat :=
  let w := s.front.wdog
  if w.base = 0 ∨ w.perIssue = 0 then none else some (tDisp + w.base * 1000 + count * w.perIssue)

/-- Regions started, and the records held for their command landed (R190). -/
def State.startRegions (s : State) (q p : Nat) (l : LaunchRun) (im : Image) (args : List Word) : State :=
  let rs := s.regionsOf p
  let x := s.part p
  let s := s.setPart p { x with launch := some l, counters := [], dropped := 0 }
  let s := rs.foldl (fun (s : State) r => s.setRegion r ((s.region r).start im.store
    (startRegs (s.regionIndex p r) rs.length p s.modid l (s.partRec p).det (s.inCloche p) args))) s
  let s := rs.foldl (fun (s : State) r => s.landHeld p r l.batch) s
  s.modRunning q (fun y => { y with started := true, wdog := s.launchBudget y.tDisp im.count })

/-! The end. -/

/-- A LAUNCH of a queue's batch is over: its count, and the batch when it was the last of it or the queue is aborted
(R315). -/
def State.launchOver (s : State) (q : Nat) (f : LaunchF) : State :=
  match (s.queue q).batch with
  | none => s
  | some b =>
    if b.id ≠ f.batch then s
    else
      let s := s.setQueue q { s.queue q with batch := some { b with open_ := b.open_ - 1 } }
      if f.blast ∨ (s.queue q).abortTail.isSome then s.endBatch q else s

/-- The first issue of a LAUNCH that follows a BARRIER: RT + 1 µs (R466); 0 for any other. -/
def State.notBefore (s : State) (q : Nat) : Nat :=
  match (s.queue q).running with
  | some y => (match y.rt with
      | some t => t + 1000
      | none => 0)
  | none => 0

/-- FLAGS bit 7 of the command that queue q runs. -/
def State.cmdIrq (s : State) (q : Nat) : Bool := ((s.queue q).running.map (fun y => y.cmd.irq)).getD false

/-- LAUNCH: image and arguments read and the regions started on the generation bound at dispatch; a failure of any of these
completes it (R172, R316, R317). -/
def execLaunch (q : Nat) (f : LaunchF) (s : State) : Res :=
  s.runCmd q (.launch f) (fun y ctx p =>
    let (ready, s) := s.launchReady q ctx p f
    if !ready then s
    else
      let (im, est, s) := s.readImage q ctx p f.prog f.train
      let (args, s) := s.readArgs q ctx p f.args
      let s := s.dropFetched (.cmd q)
      match im, args, y.gen with
      | .ok im, .ok args, some gen =>
        s.startRegions q p ⟨q, ctx, f.batch, gen, f.epoch, f.train, f.blast, im.estimate, (s.partRec p).det && !(s.part p).needAlign, none,
          s.notBefore q, s.cmdIrq q⟩ im args
      | _, _, _ =>
        let st := match im with
          | .error e => e
          | .ok _ => .ok
        let st := match args with
          | .error e => st.worst e
          | .ok _ => st
        let st := if y.gen.isNone then st.worst .state else st
        ((s.launchOver q f).modRunning q (fun y => { y with started := true, status := y.status.worst st, first := 0xFFFF })).endCmdAt q s.now est)

/-- Every region of the partition has issued its last instruction or has stopped, and every issued one has retired. -/
def State.launchDone (s : State) (p : Nat) : Bool :=
  (s.regionsOf p).all (fun r => (s.region r).ended && (s.region r).issued == [])

/-- FIRST: the index of the region whose failure with the final status came first. -/
def State.firstFailed (s : State) (p : Nat) (st : Status) : Nat :=
  let rs := (s.regionsOf p).filter (fun r => (s.region r).fail == st)
  match rs with
  | [] => 0xFFFF
  | r :: rest => s.regionIndex p (rest.foldl (fun b c => if (s.region c).failOrder < (s.region b).failOrder then c else b) r)

/-- A batch is cancelled (R258): it enters the filter, and its waiting rounds are abandoned. -/
def State.cancelBatch (s : State) (p batch : Nat) : State :=
  let x := s.part p
  let x := { x with rounds := x.rounds.filter (fun e => !(e.batch == batch && !e.placed)) }
  s.setPart p (x.cancelBatch batch s.now)

/-- The regions of a finished LAUNCH. -/
def Region.finishRun (x : Region) : Region := { x with running := false, stopped := false, wait := none, skip := false, loops := [] }

/-- The end of partition p's LAUNCH (R64, R176, R258). -/
def State.endLaunch (s : State) (p : Nat) (l : LaunchRun) : State :=
  let rs := s.regionsOf p
  let worst := rs.foldl (fun w r => w.worst (s.region r).fail) (l.cancelled.getD .ok)
  let first := if worst = .ok ∨ worst = .cancelled then 0xFFFF else s.firstFailed p worst
  let flags := s.orRegions p
  let x := s.part p
  let open_ := x.rounds.any (fun e => e.batch == l.batch && e.placed && decide (0 < e.unsettled))
  let s := if l.cancelled.isSome then s else if open_ then s.cancelBatch p l.batch else s
  let x := s.part p
  let s := s.setPart p { x with launch := none, counters := [], rounds := x.rounds.filter (fun e => !(e.batch == l.batch && !e.placed)) }
  let s := rs.foldl (fun (s : State) r => (s.setRegion r (s.region r).finishRun).dropFetched (.region r)) s
  let f : LaunchF := match (s.queue l.queue).running with
    | some y => (match y.cmd.body with
        | .launch f => f
        | _ => ⟨0, 0, l.batch, 0, 0, l.blast, l.train⟩)
    | none => ⟨0, 0, l.batch, 0, 0, l.blast, l.train⟩
  let s := (s.launchOver l.queue f).refreshLevels
  (s.modRunning l.queue (fun y => { y with status := y.status.worst worst, first := first, flags := flags, dropped := x.dropped })).endCmdAt
    l.queue s.now l.estimate

/-- LAUNCH_COMPLETE (R176). -/
def execLaunchComplete (p : Nat) (s : State) : Res :=
  if s.inReset then .next s
  else match (s.part p).launch with
    | some l => if s.launchDone p then .next (s.endLaunch p l) else .next s
    | none => .next s

/-! Cancelling (R394). -/

/-- The data and reads of an owner are given up. -/
def State.dropOwner (s : State) (o : ReqOwner) : State :=
  { s with eft := { s.eft with
      fetched := s.eft.fetched.filter (fun f => f.owner != o), reqs := s.eft.reqs.filter (fun r => !(r.owner == o && r.read.isSome)) } }

/-- A region told to stop: its wait ends, and a PLACE whose round is abandoned retires without effect (R258). -/
def Region.stop (x : Region) : Region :=
  { x with stopped := true, wait := none, plans := [], walk := none, issued := x.issued.map (fun i => if i.pend = .round then { i with pend := .none } else i) }

/-- A running LAUNCH is cancelled in every region, with the status that it then takes; it completes when they have
stopped. -/
def State.cancelLaunch (s : State) (p : Nat) (l : LaunchRun) (st : Status) : State :=
  let s := s.setPart p { s.part p with launch := some { l with cancelled := some ((l.cancelled.getD .ok).worst st) } }
  let s := (s.regionsOf p).foldl (fun (s : State) r => (s.setRegion r (s.region r).stop).dropOwner (.region r)) s
  (s.cancelBatch p l.batch).modRunning l.queue (fun y => { y with waitUntil := some (s.now + 1000000) })

/-- A byte that a command writes as it ends: where the host may hold the line, once the host has answered (R365). -/
def State.lastWrite (s : State) (q ctx p va : Nat) (b : Byte) : State :=
  match s.cmdWrite q ctx p va [b] with
  | (.wait, s) => (s.reach ⟨ctx, p, none⟩ 2 va 1).foldl (fun (s : State) x => s.deferWrite (some q) x.loc [b]) s
  | (_, s) => s

/-- Every RESULT byte of a list that was not applied becomes CANCELLED. -/
def State.cancelList (s : State) (q ctx p size res base n : Nat) : State :=
  (List.range n).foldl (fun (s : State) i => s.lastWrite q ctx p (base + i * size + res) (BitVec.ofNat 8 Status.cancelled.code)) s

/-- A barrier's generation no longer waits for a queue's command. -/
def Bar.detach (x : Bar) (q : Nat) : Bar :=
  { x with gens := x.gens.map (fun g => if g.queue = some q then { g with queue := none } else g) }

/-- The builds of a queue end; their entries are FREE (Table 10-11). -/
def State.dropBuilds (s : State) (q : Nat) : State :=
  let mine := s.wgt.builds.filter (fun b => b.queue == q)
  let s := mine.foldl (fun (s : State) b => s.freeGen b.part b.entry) s
  { s with wgt := { s.wgt with builds := s.wgt.builds.filter (fun b => b.queue != q) } }

/-- The command that queue q runs is cancelled. -/
def State.cancelRunning (s : State) (q : Nat) : State :=
  match (s.queue q).running with
  | none => s
  | some x =>
    let ctx := s.ctxOf q x.cmd.word1
    let p := (s.partOfCtx ctx).getD 8
    if x.ending.isSome then s
    else
      let s := s.dropOwner (.cmd q)
      match x.cmd.body with
      | .launch f =>
        (match (s.part p).launch with
         | some l => if x.started ∧ l.queue = q then s.cancelLaunch p l .cancelled else (s.cancelBatch p f.batch).completeOk q .cancelled
         | none => (s.cancelBatch p f.batch).completeOk q .cancelled)
      | .fenceWait f => if x.started then s.endFenceWait p f.fence q 0 .cancelled else s.completeOk q .cancelled
      | .barrier _ => ({ s with sync := { s.sync with bars := s.sync.bars.map (fun e => (e.1, e.2.detach q)) } } : State).completeOk q .cancelled
      | .wgtBuild _ => (s.dropBuilds q).completeOk q .cancelled
      | .rake _ =>
        ({ s with obs := { s.obs with rake := if s.obs.rake = some q then none else s.obs.rake } } : State).completeOk q .cancelled
      | .kvAppend f => (s.cancelList q ctx p 16 15 f.list f.count).complete q .cancelled 0
      | .kvRelease f => (s.cancelList q ctx p 4 3 f.list f.count).complete q .cancelled 0
      | .kvPrune f => (s.cancelList q ctx p 4 3 f.list f.count).complete q .cancelled 0
      | _ => s.completeOk q .cancelled

/-- ABORT (R394): the tail as it stands is the abort tail. A LAUNCH whose regions must first stop keeps its slot and its batch
until it completes (R405). -/
def execAbort (rq : Requester) (q : Nat) (s : State) : Res :=
  .next (s.regWrite rq (qOff q 0x20) (fun s =>
    let x := s.queue q
    if 516 ≤ q then s
    else
      let go (s : State) (x : Queue) : State :=
        let s := s.setQueue q ({ x with state := .aborting, abortTail := some x.tail, staged := false, granted := x.granted && x.running.isSome } : Queue).advance2
        let s := s.cancelRunning q
        let s := if (s.queue q).running.isNone then s.freeSlot q else s
        let s := match (s.queue q).running with
          | some y => if y.ending.isSome then s.endBatch q else match y.cmd.body with
              | .launch _ => s
              | _ => s.endBatch q
          | none => s.endBatch q
        s.settle q
      match x.state with
      | .idle | .active | .held => go s x
      | .stopped =>
        let s := State.writeShadow q 8 s
        let x := s.queue q
        if x.shadow = [] then go s x.restart
        else (s.setQueue q { x with state := .complBlocked, prior := .stopped }).stateVector q
      | _ => s.feEvent 0x31 q))

/-! Retirement (R149, R176). -/

/-- A program store word of region r has a parity error (Table 05-17, Table 18-1): it is re-read from the image and issue
resumes; when the re-read fails, the shed cancels the command in every region with DATA. -/
def State.storeParity (s : State) (r : Nat) (reread : Bool) : State :=
  let s := s.countFault (unitRegion (r / 8) (s.physRegion r))
  if reread then s
  else match s.regRun r with
    | some (p, l) => if l.cancelled.isSome then s else s.cancelLaunch p l .data
    | none => s

/-- INSTRUCTION_RETIRE: the oldest instruction of a unit retires. A program store word's parity error needs no issued
instruction. -/
def execInstructionRetire (r : Nat) (u : RUnit) (fault : Option RetireFault) (s : State) : Res :=
  if 16 ≤ r ∨ s.inReset then .next s
  else
    let s := match fault with
      | some (.store reread) => if (s.region r).running then s.storeParity r reread else s
      | _ => s
    let x := s.region r
    match x.issued.find? (fun i => i.units.contains u), s.partOfRegion r with
    | some i, some p => if x.canRetire i then .next (s.retire p r i fault) else .next s
    | _, _ => .next s

/-- CANCEL_STOP_TIMEOUT (Table 18-1): a region of a cancelled LAUNCH has not stopped after 1 ms: trigger 5. -/
def execCancelStopTimeout (r : Nat) (s : State) : Res :=
  match s.regRun r with
  | none => .next s
  | some (_, l) =>
    let due := match (s.queue l.queue).running with
      | some y => (match y.waitUntil with
          | some t => decide (t ≤ s.now)
          | none => false)
      | none => false
    if l.cancelled.isSome && due && (s.region r).issued != [] then .next (s.trigger 5 r) else .next s

end Sys2Proof.Machine
end

