-- ==== Sys2Proof/Machine/Rx.lean ====
section
/-! DEFINITION. The receiving end of an Eften link (chapter 15): frames, acknowledgement and replay, link states, lanes,
and what an arriving message meets (Table 15-12). -/
namespace Sys2Proof.Machine

/-! Link states (R425, R431 to R433, R450). -/

/-- An event of a link's interface (codes 0x50 to 0x53). -/
def State.linkEvent (s : State) (port code chk cause : Nat) : State :=
  s.event (islandShed (1 + port)) code none none (port + 32 * chk + 256 * cause)

/-- A link's state and cause set; a change of state writes an event. -/
def State.setLinkState (s : State) (port : Nat) (st : LinkSt) (cause : LinkCause) : State :=
  let l := s.link port
  let t := s.setLink port { l with st := st, cause := cause }
  if l.st = st then t else t.linkEvent port 0x50 st.code cause.code

/-- The physical links of port t. -/
def State.tPorts (s : State) : List Nat := (List.range 18).filter s.isPortT

/-- A message that a link discards: a request of this module fails with REMOTE, another one is answered (R432). -/
def State.discardMsg (s : State) (m : LinkMsg) : State :=
  if m.cls ≠ 0 then s else if m.src = s.modid then s.settleReq m.tag .remote [] else s.respond m .remote []

/-- The queued messages and replay frames of a link discarded (R432); what a forwarded message held is freed. -/
def State.discardLink (s : State) (port : Nat) : State :=
  let l := s.link port
  let s := s.setLink port { l with txq := [], replay := [] }
  let s := l.txq.foldl (fun (s : State) t => match t.hold with
    | some (rp, k) => s.setLink rp ((s.link rp).free k t.msg.slots)
    | none => s) s
  (l.replay.flatMap (·.msgs) ++ l.txq.map (·.msg)).foldl State.discardMsg s

/-- A heartbeat arrived less than 20 µs ago (R448). -/
def recent (at_ : Option Nat) (now : Nat) : Bool :=
  match at_ with
  | some t => decide (now < t + 20000)
  | none => false

/-- A link becomes FAILED (R432). With the last link of port t replication stops, and ALTONLY is set when HBT_ALT still
arrives (R448, R450). -/
def State.failLink (s : State) (port : Nat) (cause : LinkCause) : State :=
  let t := s.isPortT port
  let s := ((s.setLinkState port .failed cause).discardLink port).irq 2
  if t && s.tPorts.all (fun p => (s.link p).st == .failed) then
    { s with eft := { s.eft with twin := { s.eft.twin with
        replbrk := true, altonly := s.eft.twin.altonly || recent s.eft.twin.lastAlt s.now } } }
  else s

/-- The far end is the one that the port's role expects (R425). -/
def State.farOk (s : State) (port farmod farport : Nat) : Bool :=
  match s.roleOf port with
  | none => true
  | some (axis, dir) =>
    let c := coordOf s.modid axis
    let n := s.eft.coord.ring axis
    let want := if dir = 0 then (c + 1) % n else (c + n - 1) % n
    farmod == withCoord s.modid axis want && (match s.roleOf farport with
      | some (a, d) => a == axis && (axis == 0 || d == 1 - dir)
      | none => false)

/-- This end's TRAIN frame: its MODID and physical port number (R425). -/
def State.sendIds (s : State) (port : Nat) : State := s.emit (.train port s.modid)

/-- Training starts on a port that is DOWN, enabled and cabled, once the module has its coordinates (Table 15-5, R424,
R593); this end sends its IDs. -/
def State.tryTrain (s : State) (port : Nat) : State :=
  let l := s.link port
  if l.st = .down ∧ s.eft.coord.valid ∧ !l.disable ∧ l.cable then (s.setLinkState port .training .none).sendIds port else s

/-- Number of good lanes in a mask. -/
def lanes (mask : Nat) : Nat := ((List.range 9).filter (bit mask)).length

/-- The link goes into RETRAIN and exchanges IDs again (R431). -/
def State.retrain (s : State) (port : Nat) : State :=
  let l := s.link port
  if l.st ≠ .up then s
  else ((s.setLink port { l with retrains := min 65535 (l.retrains + 1), failedRetrains := 0 }).setLinkState port .retrain .retrain).sendIds port

/-- TRAIN_FRAME (R425): the far end's IDs; a far end that the role does not expect fails the port. -/
def execTrainFrame (port farmod farport : Nat) (s : State) : Res :=
  let l := s.link port
  if 18 ≤ port ∨ (l.st ≠ .training ∧ l.st ≠ .retrain) then .next s
  else
    let s := s.setLink port { l with farmod := farmod, farport := farport }
    .next (if s.trl.loaded && !(s.farOk port farmod farport) then s.failLink port .cabling else s)

/-- Round-trip limit of a port in ns (R422). -/
def Link.reach (l : Link) : Nat := if l.active then 332 else 200

/-- LINK_TRAIN_DONE (R422, R425, R433, R439): the link comes UP with full credits, or FAILED. Links train once the
trellis image is in force (Table 19-17, phase 6). -/
def execLinkTrainDone (port : Nat) (t : Training) (s : State) : Res :=
  let l := s.link port
  if 18 ≤ port ∨ l.st ≠ .training ∨ !s.trl.loaded then .next s
  else
    let good := l.good &&& t.good
    let s := s.setLink port { l with farmod := t.farmod, farport := t.farport, good := good }
    if !(s.farOk port t.farmod t.farport) then .next (s.failLink port .cabling)
    else if l.reach < t.rtt then .next (s.failLink port .reach)
    else if lanes good < 4 ∨ lanes t.goodTx < 4 then .next (s.failLink port .lanes)
    else
      let l := s.link port
      let s := s.setLink port { l with
        retrains := l.retrains, failedRetrains := 0, nextFseq := 0, replay := [], sent := [], returned := [], quota := [], served := 0, expected := 0,
        lastRx := none, naked := false, rxBytes := [], freed := [], changed := [] }
      .next (State.pump port (l.txq.length + 1) (s.setLinkState port .up .none))

/-- The unacknowledged frames of a link sent again (R430, R431). -/
def State.replayFrames (s : State) (port : Nat) (fs : List TxFrame) : State :=
  fs.foldl (fun (s : State) f => s.sendFrame port f) s

/-- RETRAIN_DONE (R431): the link is UP again and replays, or has failed to retrain and tries again; the third failure in a
row leaves it FAILED. A gap that was NAKed before stays NAKed (R428). A lane stays bad unless CLRBAD asked (R433). -/
def execRetrainDone (port : Nat) (t : Option Training) (s : State) : Res :=
  let l := s.link port
  if 18 ≤ port ∨ l.st ≠ .retrain then .next s
  else match t with
    | none =>
      if 2 ≤ l.failedRetrains then .next (s.failLink port .retrain)
      else .next ((s.setLink port { l with failedRetrains := l.failedRetrains + 1, retrains := min 65535 (l.retrains + 1) }).sendIds port)
    | some t =>
      let good := if l.clrbad then t.good % 512 else l.good &&& t.good
      let s := s.setLink port { l with farmod := t.farmod, farport := t.farport, good := good, clrbad := false, failedRetrains := 0 }
      if !(s.farOk port t.farmod t.farport) then .next (s.failLink port .cabling)
      else if lanes good < 4 ∨ lanes t.goodTx < 4 then .next (s.failLink port .lanes)
      else
        let s := s.setLinkState port .up .none
        let l := s.link port
        let s := s.setLink port { l with replay := l.replay.map (fun f => { f with sentAt := s.now }) }
        .next (State.pump port (l.txq.length + 1) (s.replayFrames port l.replay))

/-- ACK_TIMEOUT (R431): a DATA frame is unacknowledged 2 µs after its first transmission. -/
def execAckTimeout (port : Nat) (s : State) : Res :=
  if (s.link port).replay.any (fun f => decide (f.sentAt + 2000 ≤ s.now)) then .next (s.retrain port) else .next s

/-- LANE_BAD (R433): a lane has lost lock, or its corrected symbols in 1 ms exceed LTHRESH × 64: it is bad, and the link
retrains without it. -/
def execLaneBad (port lane : Nat) (corrected : Option Nat) (s : State) : Res :=
  let l := s.link port
  let bad := match corrected with
    | none => true
    | some n => decide (64 * l.lthresh < n)
  if 18 ≤ port ∨ 9 ≤ lane ∨ !(bit l.good lane) ∨ !bad then .next s
  else .next (((s.setLink port { l with good := l.good - 2 ^ lane }).linkEvent port 0x51 l.st.code l.cause.code).retrain port)

/-- Offset of EFT_LINK_CTRL of a port. -/
def linkCtrlOff (port : Nat) : Nat := 0xC0100 + 8 * port

/-- LINK_RETRAIN: RETRAIN written with 1 (Table 15-6). -/
def execLinkRetrain (rq : Requester) (port : Nat) (s : State) : Res :=
  if 18 ≤ port then .next s else .next (s.regWrite rq (linkCtrlOff port) (fun s => s.retrain port))

/-- CLRBAD (Table 15-6). -/
def execClrbad (rq : Requester) (port : Nat) (s : State) : Res :=
  if 18 ≤ port then .next s
  else .next (s.regWrite rq (linkCtrlOff port) (fun s => s.setLink port { s.link port with clrbad := true }))

/-- DISABLE of a port becomes v: 1 holds it DOWN, and what it had queued is discarded as R432 says; 0 lets it train. -/
def State.setDisable (s : State) (port : Nat) (v : Bool) : State :=
  let l := s.link port
  if v then
    if l.disable then s
    else ((s.setLink port { l with disable := true }).setLinkState port .down .disable).discardLink port
  else if l.disable then ((s.setLink port { l with disable := false }).setLinkState port .down .none).tryTrain port
  else s

/-- A running loopback ends with a STATE of Table 23-11; an Eften port returns to the state it held before (R605). -/
def State.endLoopback (s : State) (st : Nat) : State :=
  match s.board.lb with
  | none => s
  | some x =>
    let s := { s with board := { s.board with lb := none, lbState := st } }
    if x.iface = 0 then
      let l := s.link x.unit
      s.setLink x.unit { l with st := l.prior, cause := l.priorCause }
    else s

/-- A loopback runs on a port. -/
def State.loopsPort (s : State) (port : Nat) : Bool :=
  match s.board.lb with
  | some x => x.iface == 0 && x.unit == port
  | none => false

/-- LINK_DISABLE: EFT_LINK_CTRL.DISABLE written (Table 15-6). A 0 stops a loopback on the port (R606). -/
def execLinkDisable (rq : Requester) (port : Nat) (v : Bool) (s : State) : Res :=
  if 18 ≤ port then .next s
  else .next (s.regWrite rq (linkCtrlOff port) (fun s =>
    (if !v && s.loopsPort port then s.endLoopback 6 else s).setDisable port v))

/-- CABLE_PRESENT_CHANGE (R593): a port without a cable stays DOWN; a link that was UP goes on until R431 fails it. -/
def execCablePresentChange (port : Nat) (present active : Bool) (s : State) : Res :=
  if 18 ≤ port then .next s
  else
    let s := s.setLink port { s.link port with cable := present, active := active }
    .next (if s.board.rails then
      (if !present && (s.link port).st == .training then s.setLinkState port .down .none else s.tryTrain port) else s)

/-! Frames (R426 to R430). A frame whose KIND is another than the command's is none of its frames. -/

/-- Frames up to and including sequence a leave the replay buffer. -/
def Link.acked (l : Link) (a : Nat) : Link :=
  { l with replay := l.replay.filter (fun f => decide (32768 ≤ (a + 65536 - f.fseq) % 65536)) }

/-- The credit returns of a frame. -/
def Link.credited (l : Link) (cs : List (Nat × Nat)) : Link :=
  cs.foldl (fun (l : Link) c => { l with returned := Tab.set 0 l.returned c.1 (c.2 % 65536) }) l

/-- Acknowledgement and credits of an intact frame, and what they let the link send. -/
def State.takeAck (s : State) (port : Nat) (f : FrameIn) : State :=
  let l := s.link port
  let l := match f.ack with
    | some a => l.acked a
    | none => l
  let l := l.credited f.creds
  State.pump port (l.txq.length + 1) (s.setLink port l)

/-- A whole message has arrived: it has crossed one more link; a malformed one is discarded with an event (R16, R434). -/
def State.receiveMsg (s : State) (port : Nat) (m : LinkMsg) (ok : Bool) : State :=
  let m := { m with hops := (m.hops + 1) % 256 }
  if ok then
    let l := s.link port
    s.setLink port { l with rxMsgs := l.rxMsgs ++ [⟨m.share, m⟩] }
  else (s.freeRx port m.share m.slots).linkEvent port 0x52 0 0

/-- DATA_FRAME (R427 to R429): the next frame expected is accepted and acknowledged; any other is discarded, the first of
them with a NAK. -/
def execDataFrame (port : Nat) (f : FrameIn) (s : State) : Res :=
  let l := s.link port
  if 18 ≤ port ∨ l.st ≠ .up ∨ (f.good ∧ f.kind ≠ 0) then .next s
  else if !f.good ∨ f.fseq ≠ l.expected then
    if l.naked then .next s else .next ((s.setLink port { l with naked := true }).idleFrame port 2)
  else
    let bs := l.rxBytes ++ f.slots
    let (ms, rest) := parseSlots (bs.length / 32 + 1) bs
    let s := s.setLink port { l with expected := (l.expected + 1) % 65536, lastRx := some f.fseq, naked := false, rxBytes := rest }
    let s := s.takeAck port f
    .next ((ms.foldl (fun (s : State) m => s.receiveMsg port m.1 m.2) s).idleFrame port 1)

/-- IDLE_FRAME (R429): its acknowledgement and credits. -/
def execIdleFrame (port : Nat) (f : FrameIn) (s : State) : Res :=
  if 18 ≤ port ∨ (s.link port).st ≠ .up ∨ !f.good ∨ f.kind ≠ 1 then .next s else .next (s.takeAck port f)

/-- NAK (R430): every unacknowledged frame after ACKSEQ is replayed, in order. -/
def execNak (port : Nat) (f : FrameIn) (s : State) : Res :=
  if 18 ≤ port ∨ (s.link port).st ≠ .up ∨ !f.good ∨ f.kind ≠ 2 then .next s
  else
    let l := s.link port
    let l := (match f.ack with
      | some a => l.acked a
      | none => l).credited f.creds
    let s := (s.setLink port l).replayFrames port l.replay
    .next (State.pump port (l.txq.length + 1) s)

/-! Arrival (R436, R444 to R447, Table 15-12). -/

/-- A buffered message whose turn it is. -/
def State.rxTurn (s : State) (port : Nat) (m : LinkMsg) : Option RxMsg :=
  let xs := (s.link port).rxMsgs
  match xs.find? (fun x => x.msg == m) with
  | none => none
  | some x => if (xs.takeWhile (fun y => y.msg != m)).any (fun y => y.msg.before m) then none else some x

/-- A message taken out of its buffer, its slots still held. -/
def State.rxTake (s : State) (port : Nat) (x : RxMsg) : State :=
  let l := s.link port
  s.setLink port { l with rxMsgs := l.rxMsgs.erase x }

/-- A message is done with here: taken out, its slots freed. -/
def State.rxDone (s : State) (port : Nat) (x : RxMsg) : State := (s.rxTake port x).freeRx port x.share x.msg.slots

/-- The plaintext of an ENC message, none when authentication fails (R445, R551). -/
def State.decrypt (s : State) (m : LinkMsg) : Option LinkMsg :=
  if !m.enc then none
  else
    let slot := m.gcm.drop (m.gcm.length - 32)
    let pad := m.gcm.take (m.gcm.length - 32)
    let iv := slot.take 12
    let kid := leAt iv 0 2 / 2 ^ 15
    match Tab.get none s.sec.keys (2 * m.plot + kid) with
    | none => none
    | some key =>
      (Config.gcmOpen key iv m.aad (m.data ++ pad) ((slot.drop 12).take 16)).map (fun bs => { m with data := bs.take m.data.length })

/-- What an arriving message meets. -/
inductive Arrival where
  | drop (check : Nat) (st : Option Status)
  | onward (port : Nat) (m : LinkMsg)
  | here (m : LinkMsg) (r : RoutingRec)
  deriving DecidableEq, Repr

/-- The checks of Table 15-12. -/
def State.arrival (s : State) (port : Nat) (m : LinkMsg) : Arrival :=
  if 48 ≤ m.hops then .drop 1 none
  else match s.routeOf m.plot with
    | none => .drop 2 (some .denied)
    | some r =>
      match r.firstAxis m.dst with
      | some (axis, _) =>
        if !r.member && !(r.transit axis) then .drop 3 (some .denied)
        else (match s.outPort r m ((s.roleOf port).map (·.1)) with
          | .error st => .drop (if st = .remote then 6 else 7) (some st)
          | .ok (p, m) => .onward p m)
      | none =>
        if !r.member then .drop 4 (some .denied)
        else if r.cloche then
          (match s.decrypt m with
           | none => .drop 5 (some .denied)
           | some m => .here m r)
        else .here m r

/-- A response of Table 15-12: over the plot's route, or back over the link where the plot has none here. -/
def State.respondBack (s : State) (port : Nat) (m : LinkMsg) (st : Status) : State :=
  if m.cls ≠ 0 then s
  else if (s.routeOf m.plot).isSome then s.respond m st []
  else s.transmit port ⟨m.reply s.modid st [], none⟩

/-- An arriving message of a type: dropped, forwarded, or delivered by `f`, which says whether the message is done with
or waits in its buffer. Between step 2 of a device reset and its ready point a delivery receives REMOTE (Table 15-16). -/
def State.onArrival (s : State) (port : Nat) (m : LinkMsg) (typ : Nat) (f : LinkMsg → RoutingRec → State → Bool × State) : Res :=
  if m.typ ≠ typ ∨ 18 ≤ port then .next s
  else match s.rxTurn port m with
    | none => .next s
    | some x =>
      match s.arrival port m with
      | .drop c st =>
        let s := if c = 1 ∨ c = 5 then s.linkEvent port 0x52 c 0 else s
        let s := s.rxDone port x
        (match st with
         | some st => .next (s.respondBack port m st)
         | none => .next s)
      | .onward p m2 => .next ((s.rxTake port x).transmit p ⟨m2, x.share.map (fun k => (port, k))⟩)
      | .here m2 r =>
        if s.inReset && m2.cls == 0 then .next ((s.rxDone port x).respond m2 .remote [])
        else if s.inReset && m2.cls == 3 then .next s
        else
          let (done, s) := f m2 r s
          .next (if done then s.rxDone port x else s)

end Sys2Proof.Machine
end

