-- ==== Sys2Proof/Machine/Remote.lean ====
section
/-! DEFINITION. Remote reads and writes at their target and their answers at the source (R344 to R346, R437). -/
namespace Sys2Proof.Machine

/-- Every 4 KiB granule of a local access lies in an ingress span of the plot (R345, Table 19-11 kind 10). -/
def State.ingress (s : State) (plot a n : Nat) : Bool :=
  let spans := s.spansOf 10 plot
  (List.range ((a + n - 1) / 4096 - a / 4096 + 1)).all (fun i =>
    spans.any (fun x => within ((a / 4096 + i) * 4096) 4096 x.base x.size))

/-- Region, slot and offset of a receive-window address (Table 12-1). -/
def winRegion (a : Nat) : Nat := (a - 0x50000000000) / 0x1000000
def winSlot (a : Nat) : Nat := (a - 0x50000000000) / 0x10000 % 256

/-- A Cloche partition's memory is served to encrypted messages of a Cloche plot only, and to none while it is scrubbed
(R548, R553). -/
def State.clocheBars (s : State) (r : RoutingRec) (m : LinkMsg) : Bool :=
  (s.inCloche r.part && !(m.enc && r.cloche)) || (s.cloche r.part).scrub

/-- The checks of R437 that need no data: R345 and R548, then the span. -/
def State.serveFail (s : State) (r : RoutingRec) (m : LinkMsg) (a n : Nat) (write : Bool) : Option Status :=
  if s.clocheBars r m then some .denied
  else if mapRow a = .recvWin then
    if s.partOfRegion (winRegion a) ≠ some r.part then some .denied
    else if !write ∨ 0x10000 < a % 0x10000 + n then some .range else none
  else if s.ingress r.plot a n ∧ !(s.scrubHit a n) then none else some .denied

/-- A CXL.mem or remote access wakes memory out of self-refresh for itself (R498). -/
def State.wakeMem (s : State) : State :=
  if s.mem.selfRefresh then { s with mem := { s.mem with wokenUntil := some (s.now + 100000) } } else s

/-- The error-range log entry of a remote access: its SOURCE is a value the spec leaves open. -/
def State.logRemote (s : State) (r : RoutingRec) (a : Nat) : State :=
  let (w, s) := s.draw
  s.logError a (if a < 0x9000000000 then 1 else 2) (w.toNat % 7) (some r.part) 0 0 0

/-- A transfer arriving from a source in a plot (R267). Data that begins with a codebook block of a segment that the
transfer has passed begins a new transfer: the segments of a payload rise (R270; DEDUCED, log entry 98). -/
def State.xferOf (s : State) (src plot a : Nat) (data : List Byte) : XferIn :=
  let fresh : XferIn := ⟨src, plot, a, a, [], 0, []⟩
  match s.wgt.xfers.find? (fun x => x.src == src && x.plot == plot && x.next == a) with
  | some x =>
    let again := match x.blocks with
      | b :: _ => x.buf.isEmpty && leAt data 0 4 == 0x4B324342 && decide (leAt data 8 4 ≤ leAt b.2 8 4)
      | [] => false
    if again then fresh else x
  | none => fresh

/-- The path of a compressed transfer through an Eften receiver: the tier of the local address decides (R267); a block
that did not come with the transfer is none. -/
def rxPath (p : Nat) : XcPath where
  part := p
  mode := fun _ _ out k =>
    let last := mapRow (out + max k 1 - 1)
    match mapRow out with
    | .hbm => if last = .hbm then .ok .expand else .error .expand
    | .cellar => if last = .cellar then .ok .store else .error .expand
    | _ => .error .expand
  fetch := fun _ _ s => (.fail .expand, s)

/-- The data of an XC message: its whole structures are expanded or stored, the rest is kept for the next message. It
waits while the host may hold a line that it writes (R365), and fails before it writes when an output lies in no ingress
span (R345) or covers part of a unit with an uncorrectable error (R361). -/
def State.serveXc (s : State) (r : RoutingRec) (m : LinkMsg) (a : Nat) : Option Status × State :=
  let x := s.xferOf m.src m.plot a m.data
  let drop (s : State) : State := { s with wgt := { s.wgt with
    xfers := s.wgt.xfers.filter (fun y => !(y.src == m.src && y.plot == m.plot && y.next == a)) } }
  let bs := x.buf ++ m.data
  let (y, s) := (rxPath r.part).all (bs.length / 64 + 1) ⟨bs, x.pos, x.out, x.blocks, [], none, false⟩ s
  let held := y.writes.flatMap (fun w => s.heldLocal w.1 w.2.length)
  if held ≠ [] then (none, s.snoopLines held)
  else if y.writes.any (fun w => !(s.ingress r.plot w.1 w.2.length) || s.scrubHit w.1 w.2.length) then (some .denied, drop s)
  else match y.writes.findSome? (fun w => s.badPartial w.1 w.2.length) with
    | some b => (some .data, drop (s.logRemote r b))
    | none =>
      let s := drop (y.writes.foldl (fun (s : State) w => s.writeLocal w.1 w.2) s)
      match y.fail with
      | some st => (some st, s)
      | none => (some .ok, { s with wgt := { s.wgt with
          xfers := s.wgt.xfers ++ [⟨m.src, m.plot, a + m.data.length, y.out, y.rest, y.pos, y.blocks.take 16⟩] } })

/-- A full holding area keeps a record from being accepted (R190, Table 15-16). -/
def State.recordWaits (s : State) (p : Nat) (t : TransitRec) : Bool :=
  s.landing p t.region t.slot t.bytes == .held && decide (2 ^ 22 < (s.part p).heldBytes + t.bytes.length)

/-- A WR served (R437); it waits for snoops of lines that the host may hold. -/
def State.serveWr (m : LinkMsg) (r : RoutingRec) (s : State) : Bool × State :=
  let a := m.addr % 2 ^ 48
  let n := m.data.length
  match s.serveFail r m a n true with
  | some st => (true, s.respond m st [])
  | none =>
    if mapRow a = .recvWin then
      if m.xc then (true, s.respond m .expand [])
      else
        let t : TransitRec := ⟨winRegion a, winSlot a, m.data, .remote m.src m.tag m.plot⟩
        if s.recordWaits r.part t then (false, s) else (true, { s with transit := s.transit ++ [t] })
    else if s.heldLocal a n ≠ [] then (false, s.snoopLines (s.heldLocal a n))
    else if m.xc then
      match s.wakeMem.serveXc r m a with
      | (none, s) => (false, s)
      | (some st, s) => (true, s.respond m st [])
    else match s.badPartial a n with
      | some b => (true, (s.wakeMem.logRemote r b).respond m .data [])
      | none => (true, (s.wakeMem.writeLocal a m.data).respond m .ok [])

/-- WR (R437). -/
def execWr (port : Nat) (m : LinkMsg) (s : State) : Res := s.onArrival port m 0x01 State.serveWr

/-- An RD served: AUX[13:0] bytes, 1 to 8,192 (Table 15-9). -/
def State.serveRd (m : LinkMsg) (r : RoutingRec) (s : State) : Bool × State :=
  let a := m.addr % 2 ^ 48
  let n := m.aux % 2 ^ 14
  if n = 0 ∨ 8192 < n then (true, s.respond m .range [])
  else match s.serveFail r m a n false with
    | some st => (true, s.respond m st [])
    | none =>
      if s.heldLocal a n ≠ [] then (false, s.snoopLines (s.heldLocal a n))
      else match s.badUnit a n with
        | some b => (true, (s.wakeMem.logRemote r b).respond m .data [])
        | none => (true, s.wakeMem.respond m .ok (s.readLocal a n))

/-- RD (R437). -/
def execRd (port : Nat) (m : LinkMsg) (s : State) : Res := s.onArrival port m 0x02 State.serveRd

/-- The request that a response answers: by tag and the module it was sent to. -/
def State.answers (s : State) (m : LinkMsg) : Bool := s.eft.reqs.any (fun x => x.tag == m.tag && x.dst == m.src)

/-- A response taken by its request, if that still waits. -/
def State.takeReply (m : LinkMsg) (_ : RoutingRec) (s : State) : Bool × State :=
  (true, if s.answers m then s.settleReq m.tag (Status.ofCode m.status) m.data else s)

/-- WRACK (R346). -/
def execWrack (port : Nat) (m : LinkMsg) (s : State) : Res := s.onArrival port m 0x03 State.takeReply
/-- RDDATA (R346). -/
def execRddata (port : Nat) (m : LinkMsg) (s : State) : Res := s.onArrival port m 0x04 State.takeReply

/-- REMOTE_TIMEOUT (R346): a request without a response for 100 µs. -/
def execRemoteTimeout (tag : Nat) (s : State) : Res :=
  if s.eft.reqs.any (fun x => x.tag == tag && decide (x.sentAt + 100000 ≤ s.now)) then .next (s.settleReq tag .remote []) else .next s

end Sys2Proof.Machine
end

