-- ==== Sys2Proof/Machine/RangeOps.lean ====
section
/-! DEFINITION. Range operations, hot segments, CXL.mem and the background read (chapter 12). -/
namespace Sys2Proof.Machine

/-! Range operations (R349 to R352). -/

/-- The entry that four words spell (Table 12-3). -/
def RangeEntry.ofWords (ws : List Nat) : RangeEntry :=
  let w0 := ws.getD 0 0
  ⟨bit w0 0, bit w0 3, bit w0 4, bit w0 5, bits w0 7 6, bits w0 56 12, bits (ws.getD 1 0) 35 0, bits (ws.getD 2 0) 62 12,
    bits (ws.getD 3 0) 17 0⟩

/-- The four words of an entry. -/
def RangeEntry.words (e : RangeEntry) : List Nat :=
  [boolNat e.v + 8 * boolNat e.r + 16 * boolNat e.w + 32 * boolNat e.p + 64 * e.hint + 2 ^ 12 * e.start, e.length, 2 ^ 12 * e.pbase, e.cidx]

/-- Reserved bits of the four words are zero, and HINT is not its reserved encoding. -/
def rangeReserved (ws : List Nat) : Bool :=
  let w0 := ws.getD 0 0
  bits w0 2 1 == 0 && bits w0 11 8 == 0 && w0 / 2 ^ 57 == 0 && bits w0 7 6 != 3 && ws.getD 1 0 / 2 ^ 36 == 0
  && ws.getD 2 0 % 2 ^ 12 == 0 && ws.getD 2 0 / 2 ^ 63 == 0 && ws.getD 3 0 / 2 ^ 18 == 0

/-- Two entries share a granule. -/
def RangeEntry.meets (a b : RangeEntry) : Bool := overlaps a.start a.length b.start b.length

/-- Overlap with frame pools, module weight areas or the system area. -/
def State.poolHit (s : State) (a n : Nat) : Bool :=
  inSystemArea a n || s.trl.st.spans.any (fun x => decide (3 ≤ x.kind) && decide (x.kind ≤ 6) && overlaps a n x.base x.size)

/-- The span is one that an entry of the partition may map, with its permissions (R349). -/
def State.spanOk (s : State) (p : Nat) (e : RangeEntry) : Bool :=
  let pa := e.pbase * 4096
  let a := pa % 2 ^ 48
  let n := e.length * 4096
  let row := mapRow a
  let remote := pa / 2 ^ 48 != s.modid
  decide (e.start + e.length ≤ 2 ^ 45) && decide (a + n ≤ 2 ^ 48) && rowNumber a == rowNumber (a + n - 1)
  && (row != .recvWin || (e.w && !e.r && !e.p)) && (!e.p || row == .hbm || row == .cellar)
  && (remote || (match row with
      | .hbm => s.inSpans 1 p a n && !(s.poolHit a n)
      | .cellar => s.inSpans 2 p a n && !(s.poolHit a n)
      | .host => s.inHostWindow 7 p a n
      | .recvWin => (List.range (winRegion (a + n - 1) - winRegion a + 1)).all (fun i => s.partOfRegion (winRegion a + i) == some p)
      | _ => false))

/-- A context accepts operations from a requester (R350 step 1, R548, Table 22-3). -/
def State.rangeAccepts (s : State) (rq : Requester) (ctx : Nat) : Bool :=
  match s.partOfCtx ctx with
  | none => false
  | some p => !(s.inCloche p) || (rq.isHost && (s.cloche p).st == .admitted)

/-- A context's range table. -/
def State.table (s : State) (ctx : Nat) : List RangeEntry := Tab.get [] s.mem.tables ctx

/-- The RESULT with which an operation is refused, 0 when it is not (R350, in order). -/
def State.rangeRefusal (s : State) (rq : Requester) (ctx op : Nat) : Nat :=
  let ws := s.mem.rtData.map BitVec.toNat
  let e := RangeEntry.ofWords ws
  let t := s.table ctx
  let put := op == 0 || op == 2
  let rest := if op = 2 then t.filter (fun x => x.start != e.start) else t
  if !(s.rangeAccepts rq ctx) then 7
  else if op = 3 then 0
  else if put && (!(rangeReserved ws) || !e.v || e.length == 0) then 5
  else if (op == 1 || op == 2) && !(t.any (fun x => x.start == e.start)) then 2
  else if put && !(s.spanOk ((s.partOfCtx ctx).getD 8) e) then 4
  else if put && e.hint != 0 && decide (262144 < e.cidx + cdiv e.length 512) then 6
  else if put && rest.any (fun x => x.meets e) then 1
  else if op = 0 ∧ 4096 ≤ t.length then 3
  else 0

/-- MMU_RT_CMD written with GO (R350). An operation that is refused changes nothing and leaves an event. -/
def State.rangeGo (s : State) (rq : Requester) (ctx op : Nat) (drain : Bool) : State :=
  s.regWrite rq 0x80000 (fun s =>
    if s.mem.rtBusy.isSome then s.discard 0x21 0x80000
    else
      let c := ctx % 64
      let s := { s with mem := { s.mem with rtCtx := c, rtOp := op, rtDrain := drain } }
      let r := s.rangeRefusal rq c op
      if r = 0 then { s with mem := { s.mem with rtBusy := some ⟨c, op, drain, s.mem.rtData.map BitVec.toNat⟩ } }
      else ({ s with mem := { s.mem with rtResult := r, rtCount := (s.table c).length } } : State).event (islandShed (shedUnitOf 0x80000)) 0x81
        none none (r + 8 * c))

/-- RT_INSERT (R350). -/
def execRtInsert (rq : Requester) (ctx : Nat) (drain : Bool) (s : State) : Res := .next (s.rangeGo rq ctx 0 drain)
/-- RT_REMOVE (R350). -/
def execRtRemove (rq : Requester) (ctx : Nat) (drain : Bool) (s : State) : Res := .next (s.rangeGo rq ctx 1 drain)
/-- RT_REPLACE (R350). -/
def execRtReplace (rq : Requester) (ctx : Nat) (drain : Bool) (s : State) : Res := .next (s.rangeGo rq ctx 2 drain)
/-- RT_FLUSH (R350). -/
def execRtFlush (rq : Requester) (ctx : Nat) (drain : Bool) (s : State) : Res := .next (s.rangeGo rq ctx 3 drain)

/-- An entry in its place by START (R347). -/
def insertRange (e : RangeEntry) : List RangeEntry → List RangeEntry
  | [] => [e]
  | x :: xs => if e.start < x.start then e :: x :: xs else x :: insertRange e xs

/-- The table after an operation that is not refused. -/
def RangeOp.apply (o : RangeOp) (t : List RangeEntry) : List RangeEntry :=
  let e := RangeEntry.ofWords o.data
  match o.op with
  | 0 => insertRange e t
  | 1 => t.filter (fun x => x.start != e.start)
  | 2 => insertRange e (t.filter (fun x => x.start != e.start))
  | _ => []

/-- An operation takes a cached entry out of the lookaside caches (R351). -/
def RangeOp.drops (o : RangeOp) (c : CachedRange) : Bool :=
  !c.weight && c.tag == o.ctx && (o.op == 3 || (o.op != 0 && c.entry.start == (RangeEntry.ofWords o.data).start))

/-- Accesses of a context that have been translated and are not complete: those of an instruction that waits, transfers
that have not retired, a COPY's, and requests to other modules. -/
def State.accessing (s : State) (ctx p : Nat) : Bool :=
  (match (s.part p).launch with
   | some l => l.ctx == ctx && (s.regionsOf p).any (fun r => (s.region r).issued.any (fun i => i.units.contains .dma || decide (0 < i.owed))
      || (s.region r).plans.any (fun x => !x.part.isEmpty || !x.got.isEmpty))
   | none => false)
  || allQueues.any (fun q => match (s.queue q).running with
      | some x => x.moves.isSome && s.ctxOf q x.cmd.word1 == ctx
      | none => false)
  || s.eft.reqs.any (fun r => match r.owner with
      | .cmd q => (match (s.queue q).running with
          | some x => s.ctxOf q x.cmd.word1 == ctx
          | none => false)
      | _ => false)

/-- Entries of the lookaside caches of a partition's regions removed. -/
def State.dropCached (s : State) (p : Nat) (f : CachedRange → Bool) : State :=
  (s.regionsOf p).foldl (fun (s : State) r =>
    let x := s.region r
    s.setRegion r { x with rlc := x.rlc.filter (fun c => !(f c)) }) s

/-- A table written back into the system area from its first changed entry on: units written whole lose their uncorrectable
errors (R343, R361). -/
def State.putTable (s : State) (ctx : Nat) (t : List RangeEntry) : State :=
  let old := s.table ctx
  let same := ((old.zip t).takeWhile (fun x => x.1 == x.2)).length
  let a := sysRange ctx same
  let z := sysRange ctx (max old.length t.length)
  { s with mem := { s.mem with
      tables := Tab.set [] s.mem.tables ctx t, bad := s.mem.bad.filter (fun u => !(decide (a ≤ 64 * u) && decide (64 * u + 64 ≤ z))) } }

/-- RT_OP_DONE (R351). With DRAIN it waits for every access translated under the old entry. -/
def execRtOpDone (s : State) : Res :=
  match s.mem.rtBusy with
  | none => .next s
  | some o =>
    let p := (s.partOfCtx o.ctx).getD 8
    if s.inReset || (o.drain && o.op != 0 && s.accessing o.ctx p) then .next s
    else
      let t := o.apply (s.table o.ctx)
      let s := s.putTable o.ctx t
      .next (({ s with mem := { s.mem with rtBusy := none, rtResult := 0, rtCount := t.length } } : State).dropCached p o.drops)

/-! Hot segments (R357, R358). -/

/-- HOT_BASE_WRITE (Table 22-7). -/
def execHotBaseWrite (rq : Requester) (v : Word) (s : State) : Res :=
  .next (s.regWrite rq 0x80048 (fun s =>
    if s.mem.hotEn then s.discard 0x21 0x80048
    else { s with mem := { s.mem with hotBase := v.toNat / 64 * 64, hotHead := 0, hotTail := 0 } }))

/-- HOT_EPOCH_HALVE (R357): an epoch of 2^EPOCH ms is over. -/
def execHotEpochHalve (s : State) : Res :=
  let due := s.mem.hotSince + 2 ^ s.mem.hotEpoch * 1000000
  .next (if s.mem.hotEn && decide (due ≤ s.now) then { s with mem := { s.mem with
      hot := (s.mem.hot.map (fun e => (e.1, e.2 / 2))).filter (fun e => e.2 != 0), hotSince := due } } else s)

/-! CXL.mem (R364 to R368). -/

/-- An HDM decoder covers the access. -/
def State.decoded (s : State) (a n : Nat) : Bool := s.mem.hdm.any (fun d => decide (0 < d.2) && within a n d.1 d.2)

/-- The access lies in a host-exposed span that is served (R364, R368, R553). -/
def State.exposed (s : State) (a n : Nat) : Bool :=
  !(s.scrubHit a n) && s.trl.st.spans.any (fun x => x.kind == 9 && within a n x.base x.size
    && (!(s.inCloche x.owner) || ((s.cloche x.owner).st == .admitted && (s.cloche x.owner).ide)))

/-- The port answers the host: power is on and PERST_N is high. -/
def State.cxlUp (s : State) : Bool := s.board.rails && !s.host.perst

/-- The event of an access outside every exposed span: a register write discarded is the only code that Table 21-12 gives
the shed for the host's accesses, so its code is an open value. -/
def State.cxlRefused (s : State) (a : Nat) : State :=
  let (w, s) := s.draw
  s.event (islandShed 0) (w.toNat % 256) none none (a % 2 ^ 32)

/-- Lines the snoop filter holds (R365). -/
def snoopLimit : Nat := 1048576

/-- Lines of an access that the filter does not hold yet. -/
def State.newLines (s : State) (a n : Nat) : List Nat := (unitsOf a n).filter (fun l => !(s.mem.snoop.contains l))

/-- Lines that must leave the filter before an access's lines fit. -/
def State.overLines (s : State) (a n : Nat) : Nat := s.mem.snoop.length + (s.newLines a n).length - snoopLimit

/-- The least recently entered lines are back-invalidated, as many as must leave and are not yet snooped. -/
def State.makeRoom (s : State) (a n : Nat) : State :=
  s.snoopLines ((s.mem.snoop.reverse.filter (fun l => !(s.mem.snooping.contains l))).take (s.overLines a n - s.mem.snooping.length))

/-- A read's lines enter the filter and it is answered; a unit with an uncorrectable error with the data-error indication
(R367). -/
def State.cxlAnswer (s : State) (addr bytes : Nat) : State :=
  let s := { s.wakeMem with mem := { s.wakeMem.mem with snoop := (s.newLines addr bytes).reverse ++ s.mem.snoop } }
  let bs := s.readLocal addr bytes
  match s.badUnit addr bytes with
  | some u => (s.logError u (if u < 0x9000000000 then 1 else 2) 2 none 0 0 0).emit (.cxlData bs true)
  | none => s.emit (.cxlData bs false)

/-- CXL_MEM_READ (R364 to R368). When the filter is full the read waits until the host has given up enough lines (R365). -/
def execCxlMemRead (addr bytes : Nat) (s : State) : Res :=
  if !s.cxlUp || bytes == 0 || !(s.decoded addr bytes) then .next s
  else if !(s.exposed addr bytes) then .next ((s.cxlRefused addr).emit (.cxlData [] true))
  else if s.overLines addr bytes = 0 then .next (s.cxlAnswer addr bytes)
  else .next (({ s with mem := { s.mem with cxlWait := s.mem.cxlWait ++ [(addr, bytes)] } } : State).makeRoom addr bytes)

/-- CXL_MEM_WRITE (R364, R366). A partial write of an uncorrectable unit leaves it unchanged (R361). -/
def execCxlMemWrite (addr : Nat) (data : List Byte) (s : State) : Res :=
  if !s.cxlUp || data == [] || !(s.decoded addr data.length) then .next s
  else if !(s.exposed addr data.length) then .next (s.cxlRefused addr)
  else match s.badPartial addr data.length with
    | some u => .next (s.wakeMem.logError u (if u < 0x9000000000 then 1 else 2) 2 none 0 0 0)
    | none => .next (s.wakeMem.writeLocal addr data)

/-- A write of the module that waited is made, and the command that waited for it is told. -/
def State.heldDone (s : State) (w : HeldWrite) : State :=
  let bad := s.badPartial w.addr w.bytes.length
  let s := match bad with
    | some u => s.logError u (if u < 0x9000000000 then 1 else 2) (if w.queue.isSome then 1 else 0) none 0 0 (w.queue.getD 0)
    | none => s.writeLocal w.addr w.bytes
  match w.queue with
  | some q => s.writeDone q (if bad.isSome then .data else .ok)
  | none => s

/-- Writes whose lines the host no longer holds are made in order. -/
def State.flushHeld (s : State) : State :=
  let go := s.mem.held.filter (fun w => s.heldLocal w.addr w.bytes.length == [])
  let s := { s with mem := { s.mem with held := s.mem.held.filter (fun w => s.heldLocal w.addr w.bytes.length != []) } }
  go.foldl (fun (s : State) w => s.heldDone w) s

/-- The host's reads that waited for room are answered in order, as far as their lines fit. -/
def State.flushReads : Nat → State → State
  | 0, s => s
  | fuel + 1, s =>
    match s.mem.cxlWait with
    | [] => s
    | (a, n) :: rest =>
      if s.overLines a n = 0 then State.flushReads fuel (({ s with mem := { s.mem with cxlWait := rest } } : State).cxlAnswer a n)
      else s.makeRoom a n

/-- BI_SNOOP_RESPONSE (R365): the host no longer holds the line, and what waited for its answer goes on. -/
def execBiSnoopResponse (line : Nat) (s : State) : Res :=
  .next (if s.mem.snooping.contains line then
    let s := { s with mem := { s.mem with snoop := s.mem.snoop.filter (· != line), snooping := s.mem.snooping.filter (· != line) } }
    let s := s.flushHeld
    State.flushReads s.mem.cxlWait.length s
  else s)

/-! The background read (R362). -/

/-- BACKGROUND_READ: one unit read by its controller. -/
def execBackgroundRead (addr : Nat) (found : MemOutcome) (s : State) : Res :=
  let a := addr / 64 * 64
  let hbm := mapRow a == .hbm
  if !hbm && mapRow a != .cellar then .next s
  else match found with
    | .good => .next s
    | .corrected => .next { s with mem := (if hbm then { s.mem with correctedHbm := s.mem.correctedHbm + 1 }
        else { s.mem with correctedCel := s.mem.correctedCel + 1 }) }
    | .uncorrectable =>
      let u := a / 64
      let bad := if s.mem.bad.contains u then s.mem.bad else s.mem.bad ++ [u]
      .next (({ s with mem := { s.mem with bad := bad } } : State).logError a (if hbm then 1 else 2) 3 none 0 0 0)

end Sys2Proof.Machine
end

