-- ==== Sys2Proof/Machine/TwinOps.lean ====
section
/-! DEFINITION. The twin pair: heartbeats, loss, takeover and rejoining (R448 to R451), and replication at the twin
(R233 to R235). -/
namespace Sys2Proof.Machine

/-- The module's twin: the module whose t differs. -/
def State.twinId (s : State) : Nat := s.modid ^^^ 2 ^ 14

/-- Heartbeats of either kind have arrived within 20 µs (R448). -/
def State.beating (s : State) : Bool := recent s.eft.twin.lastHbt s.now || recent s.eft.twin.lastAlt s.now

def State.setTwin (s : State) (f : Twin → Twin) : State := { s with eft := { s.eft with twin := f s.eft.twin } }

/-- LOST or BACK: an event of the interface of port t, the twin interrupt and notification 0x0006. -/
def State.tellTwin (s : State) (lost : Bool) : State :=
  ((s.linkEvent (s.tPorts.headD 0) 0x53 0 0).irq 3).notify 0x0006 none (boolNat lost)

/-- Heartbeats resume after LOST: BACK is set (Table 15-15). -/
def State.beatBack (s : State) : State :=
  if s.eft.twin.lost ∧ !s.eft.twin.back then (s.setTwin (fun t => { t with back := true })).tellTwin false else s

/-- LOSTSEEN of an arriving heartbeat (Table 15-9): once the twin has declared this module lost, REJOIN is due here too. -/
def Twin.hear (t : Twin) (m : LinkMsg) : Twin :=
  { t with lostSeen := bit m.addr 32, mustRejoin := t.mustRejoin || (bit m.addr 32 && !t.lostSeen) }

/-- A physical link of a logical port for a class 2 message that meets no plot check. -/
def State.directPort (s : State) (axis dir : Nat) (m : LinkMsg) : Option Nat :=
  if axis = 0 then s.chooseMember s.tPorts m
  else (s.members axis dir).bind (fun ps => s.chooseMember ps m)

/-- A heartbeat that arrives on port t (R448). -/
def execHbt (port : Nat) (m : LinkMsg) (s : State) : Res :=
  if m.typ ≠ 0x20 ∨ 18 ≤ port then .next s
  else match s.rxTurn port m with
    | none => .next s
    | some x =>
      let s := s.rxDone port x
      if !(s.isPortT port) ∨ m.dst ≠ s.modid then .next s
      else .next (s.setTwin (fun t => { t.hear x.msg with lastHbt := some s.now, altonly := false })).beatBack

/-- A heartbeat by the alternate path: taken here, or passed on, over port t and then x− (R446, R448). -/
def execHbtAlt (port : Nat) (m : LinkMsg) (s : State) : Res :=
  if m.typ ≠ 0x21 ∨ 18 ≤ port then .next s
  else match s.rxTurn port m with
    | none => .next s
    | some x =>
      if m.dst = s.modid then
        let s := s.rxDone port x
        let down := s.tPorts.all (fun p => (s.link p).st != .up)
        .next (s.setTwin (fun t => { t.hear x.msg with
          lastAlt := some s.now, altonly := t.altonly || down })).beatBack
      else
        let out := if s.isPortT port then s.directPort 3 1 m else s.directPort 0 0 m
        (match out with
         | some p => .next ((s.rxTake port x).transmit p ⟨m, none⟩)
         | none => .next (s.rxDone port x))

/-- A heartbeat message (Table 15-9). -/
def State.beat (s : State) (typ : Nat) : LinkMsg :=
  { typ := typ, cls := 2, vc := 0, xc := false, enc := false, plot := 0, hops := 0, src := s.modid, dst := s.twinId, tag := 0,
    status := 0, addr := s.eft.twin.count + (if s.eft.twin.lost then 2 ^ 32 else 0), aux := s.now, data := [], gcm := [] }

/-- One message sent on a logical port without plot checks. -/
def State.sendDirect (s : State) (axis dir : Nat) (m : LinkMsg) : State :=
  match s.directPort axis dir m with
  | some p => s.transmit p ⟨m, none⟩
  | none => s

/-- HBT_SEND (R448): both heartbeats, every 5 µs, but not during a device reset. -/
def execHbtSend (s : State) : Res :=
  let t := s.eft.twin
  if !s.eft.coord.twin ∨ s.inReset ∨ (t.count ≠ 0 ∧ s.now < t.hbBase + 5000) then .next s
  else
    let s := s.setTwin (fun t => { t with count := (t.count + 1) % 2 ^ 32, hbBase := s.now })
    .next ((s.sendDirect 0 0 (s.beat 0x20)).sendDirect 3 0 (s.beat 0x21))

/-- Takeover of the lost module's sequences begins (R449). -/
def State.beginTakeover (s : State) : State := s.setTwin (fun t => { t with takeover := some s.now })

/-- TWIN_LOST (R448, R449): takeover begins only in a module that serves (Table 18-13). -/
def execTwinLost (s : State) : Res :=
  if !s.eft.coord.twin ∨ s.eft.twin.lost ∨ s.beating then .next s
  else
    let s := (s.setTwin (fun t => { t with lost := true, back := false })).tellTwin true
    .next (if s.eft.twin.auto && s.serving && !s.inReset then s.beginTakeover else s)

/-- TAKEOVER: EFT_TWIN_CTRL.TAKEOVER written; accepted only while LOST is 1 and TAKEN is 0 (Table 15-14). -/
def execTakeover (rq : Requester) (s : State) : Res :=
  .next (s.regWrite rq 0xC0018 (fun s =>
    if s.eft.twin.lost ∧ !s.eft.twin.taken then s.beginTakeover else s.discard 0x21 0xC0018))

/-- Partitions whose plot is in shared-load mode. -/
def State.sharedPart (s : State) (p : Nat) : Bool :=
  match s.plotOf p with
  | some r => r.shared
  | none => false

/-- Every MIRROR sequence of a shared plot becomes LIVE with LENGTH = REPLPOS (R235). -/
def State.liven (s : State) : State :=
  s.kv.seqs.foldl (fun (s : State) e =>
    if e.2.st = .mirror ∧ s.sharedPart e.2.part then s.putSeq e.2.part e.1 { e.2 with st := .live, length := e.2.replpos } else s) s

/-- TAKEOVER_DONE (R449). -/
def execTakeoverDone (s : State) : Res :=
  match s.eft.twin.takeover with
  | some _ => .next (s.liven.setTwin (fun t => { t with taken := true, takeover := none }))
  | none => .next s

/-- REPLPOS becomes POS0 and REPL_OPEN is sent for every LIVE replicated sequence (R451). -/
def State.reopen (s : State) : State :=
  s.kv.seqs.foldl (fun (s : State) e =>
    if e.2.st = .live ∧ e.2.geo.repl then
      let x := { e.2 with replpos := e.2.pos0 }
      (s.putSeq e.2.part e.1 x).sendOpen e.2.part e.1 x
    else s) s

/-- REJOIN: EFT_TWIN_CTRL.REJOIN written; accepted only while heartbeats arrive (Table 15-14). -/
def execRejoin (rq : Requester) (s : State) : Res :=
  .next (s.regWrite rq 0xC0018 (fun s =>
    if s.beating then (s.setTwin (fun t => { t with lost := false, taken := false, replbrk := false, mustRejoin := false })).reopen
    else s.discard 0x21 0xC0018))

/-! Replication at the twin (Table 07-10). -/

/-- Event 0xA1 of the sequence table's ring: a replication message was refused. -/
def State.replRefused (s : State) (p n : Nat) : State := s.event (islandShed 22) 0xA1 (some p) none (n % 2 ^ 18)

/-- REPL_OPEN applied: a MIRROR descriptor with the same geometry, POS0, and REPLPOS = POS0. It replaces a MIRROR one;
any other sequence that is not FREE refuses it (R451). -/
def State.mirrorOpen (s : State) (p n : Nat) (d : List Byte) : State :=
  let old := s.seq n
  if !(s.ownsSeq p n) ∨ (old.st ≠ .free ∧ old.st ≠ .mirror) then s.replRefused p n
  else
    let t := if old.st = .mirror then s.freeSeq n else s
    let pos0 := leAt d 24 8
    match t.openSeq p (leAt d 1 1 / 8 % 16) (leAt d 2 1) pos0 (BitVec.ofNat 64 (leAt d 8 8)) (BitVec.ofNat 32 (leAt d 4 4)) with
    | none => s.replRefused p n
    | some (x, t) => t.putSeq p n { x with st := .mirror }

/-- A replication message travels only on port t (R435), and is applied in its plot's partition. -/
def State.replStep (port : Nat) (f : Nat → LinkMsg → State → State) (m : LinkMsg) (r : RoutingRec) (s : State) : Bool × State :=
  (true, if s.isPortT port then f r.part m s else s)

/-- REPL_OPEN (R233). -/
def execReplOpen (port : Nat) (m : LinkMsg) (s : State) : Res :=
  s.onArrival port m 0x30 (State.replStep port (fun p m s => s.mirrorOpen p (m.addr % 2 ^ 18) m.data))

/-- REPL_ACK sent for a page. -/
def State.ackPage (s : State) (m : LinkMsg) (page : Nat) (st : Status) : State :=
  (s.originate { typ := 0x35, cls := 1, vc := 0, xc := false, enc := false, plot := m.plot, hops := 0, src := s.modid, dst := m.src,
                 tag := m.tag, status := st.code, addr := m.addr, aux := page, data := [], gcm := [] }).2

/-- The parts of a page that have arrived, in order of offset, as one byte list. -/
def State.pageBytes (s : State) (n lp frames : Nat) : List Byte :=
  (List.range (frames * 8)).flatMap (fun k =>
    match s.eft.parts.find? (fun x => x.1 == n && x.2.1 == lp && x.2.2.1 == k) with
    | some x => x.2.2.2
    | none => [])

/-- A mirror's page with frames of its own: a SHARED page leaves its frames to the others and takes new ones, or keeps
them as PRIVATE when nobody else holds them. -/
def State.mirrorOwn (s : State) (p lp : Nat) (x : Seq) (r : PageRun) : Option (Seq × State) :=
  let g := x.geo
  let a := r.frameAt g.frames lp
  let own (f : Nat) (s : State) : Option (Seq × State) :=
    s.commitRuns p x (mapPages g.frames lp (lp + 1) (fun u => { u with st := .priv, frame := f }) x.runs)
  if r.st ≠ .shared then some (x, s)
  else if Tab.get 0 s.kv.refs a ≤ 1 then own a s
  else (s.allocFrames p g.tier g.frames).bind (fun t => (own t.1 t.2).map (fun u => (u.1, u.2.refDown a g.frames)))

/-- A whole page stored in the mirror: its frames allocated when it is new, and REPLPOS moved to its end. -/
def State.storePage (s : State) (p n lp : Nat) (bs : List Byte) : Option State :=
  let x := s.seq n
  let g := x.geo
  match s.extendRuns p g lp (lp + 1) x.runs with
  | none => none
  | some (rs, t) =>
    match t.commitRuns p x rs with
    | none => none
    | some (x, t) =>
      match runOf x.runs lp with
      | some r =>
        if r.st = .evicted then some t
        else match t.mirrorOwn p lp x r with
          | none => none
          | some (x, t) =>
            let a := ((runOf x.runs lp).map (fun u => u.frameAt g.frames lp)).getD 0
            some ((t.writeLocal (a * frameSize) bs).putSeq p n { x with replpos := x.pos0 + (lp + 1) * g.pp })
      | none => some t

/-- One part of a page; the last one to arrive stores the page and acknowledges it (R234). -/
def State.mirrorPage (s : State) (p : Nat) (m : LinkMsg) : State :=
  let n := m.addr % 2 ^ 18
  let lp := m.aux % 2 ^ 36
  let x := s.seq n
  if x.st ≠ .mirror then s.replRefused p n
  else
    let parts := s.eft.parts.filter (fun y => !(y.1 == n && y.2.1 == lp && y.2.2.1 == m.aux / 2 ^ 36))
    let s := { s with eft := { s.eft with parts := parts ++ [(n, lp, m.aux / 2 ^ 36, m.data)] } }
    let bs := s.pageBytes n lp x.geo.frames
    if bs.length < x.geo.frames * frameSize then s
    else
      let s := { s with eft := { s.eft with parts := s.eft.parts.filter (fun y => !(y.1 == n && y.2.1 == lp)) } }
      match s.storePage p n lp bs with
      | some t => t.ackPage m lp .ok
      | none => s.ackPage m lp .capacity

/-- REPL_PAGE (R233, R234). -/
def execReplPage (port : Nat) (m : LinkMsg) (s : State) : Res :=
  s.onArrival port m 0x31 (State.replStep port (fun p m s => s.mirrorPage p m))

/-- REPL_FORK applied: the fork mirrored at min(P, the parent's REPLPOS). -/
def State.mirrorFork (s : State) (p parent child at_ : Nat) (protect : Bool) : State :=
  let x := s.seq parent
  let c := s.seq child
  if x.st ≠ .mirror ∨ c.st ≠ .mirror then s.replRefused p child
  else
    let t := s.freeSeq child
    let at_ := max x.pos0 (min at_ x.replpos)
    match t.forkSeqs p x at_ protect with
    | .error _ => s.replRefused p child
    | .ok (x, y, t) => (t.putSeq p parent x).putSeq p child { y with st := .mirror, replpos := at_ }

/-- REPL_FORK (R233). -/
def execReplFork (port : Nat) (m : LinkMsg) (s : State) : Res :=
  s.onArrival port m 0x32 (State.replStep port (fun p m s =>
    s.mirrorFork p (m.addr % 2 ^ 18) (m.addr / 2 ^ 18 % 2 ^ 18) m.aux (bit m.addr 36)))

/-- REPL_EVICT (R233): the same group is evicted. -/
def execReplEvict (port : Nat) (m : LinkMsg) (s : State) : Res :=
  s.onArrival port m 0x33 (State.replStep port (fun p m s =>
    let n := m.addr % 2 ^ 18
    if (s.seq n).st ≠ .mirror then s.replRefused p n
    else match s.evictGroup p n m.aux with
      | some t => t
      | none => s.replRefused p n))

/-- REPL_RELEASE (R233): the frames are dropped and the descriptor is FREE. -/
def execReplRelease (port : Nat) (m : LinkMsg) (s : State) : Res :=
  s.onArrival port m 0x34 (State.replStep port (fun p m s =>
    let n := m.addr % 2 ^ 18
    if (s.seq n).st = .mirror then s.freeSeq n else s.replRefused p n))

/-- Every page from REPLPOS up to lp is evicted, so that the page at lp is the next one to replicate. -/
def Seq.nextRepl (x : Seq) (lp : Nat) : Bool :=
  let lo := (x.replpos - x.pos0) / x.geo.pp
  decide (lo ≤ lp) && (List.range (lp - lo)).all (fun i => match runOf x.runs (lo + i) with
    | some r => r.st == .evicted
    | none => false)

/-- REPL_ACK (R234): OK moves REPLPOS over the page; a refusal writes an event and leaves it. -/
def execReplAck (port : Nat) (m : LinkMsg) (s : State) : Res :=
  s.onArrival port m 0x35 (State.replStep port (fun p m s =>
    let n := m.addr % 2 ^ 18
    let x := s.seq n
    if m.status ≠ 0 then s.replRefused p n
    else if x.st = .live ∧ x.nextRepl m.aux then s.putSeq p n { x with replpos := x.pos0 + (m.aux + 1) * x.geo.pp }
    else s))

end Sys2Proof.Machine
end

