-- ==== Sys2Proof/Machine/SyncMods.lean ====
section
/-! DEFINITION. Device time and plot barriers between modules (chapter 16, R453 to R472). -/
namespace Sys2Proof.Machine

/-! Alignment (R470, R472). -/

/-- A partition's islands pass the alignment protocol. -/
def State.align (s : State) (p : Nat) : State := (s.setPart p { s.part p with needAlign := false }).strace 8 p 0 0 0

/-- ALIGNMENT: a deterministic partition that is due for it, while no command of it runs (R470). -/
def execAlignment (p : Nat) (s : State) : Res :=
  if 8 ≤ p ∨ !(s.partRec p).valid ∨ !(s.partRec p).det ∨ !(s.part p).needAlign ∨ s.partRuns p ∨ s.inReset then .next s
  else .next (s.align p)

/-- Start-up phase 8: the restore ramp, then the alignment of the deterministic partitions; then the module serves
(Table 19-17). -/
def State.beginServing (s : State) : State :=
  let s := ({ s with trl := { s.trl with phase := 8 } } : State).ramp
  let s := ((List.range 8).filter (fun p => (s.partRec p).valid && (s.partRec p).det)).foldl (fun (s : State) p => s.align p) s
  { s with trl := { s.trl with phase := 9 } }

/-! Device time (R453 to R458). -/

/-- A change of the time state: an entry of the sync trace and an event. -/
def State.setTimeState (s : State) (st : TimeSt) : State :=
  if s.time.st = st then s
  else
    let s := { s with time := { s.time with st := st } }
    (s.pushTrace ⟨s.now, 7, 0, false, st.code, 0, 0, 0, 0⟩).event (islandShed 20) 0xB0 none none st.code

/-- The module is LOCKED: phase 7 of start-up ends (Table 19-17). -/
def State.nowLocked (s : State) : State :=
  let s := s.setTimeState .locked
  if s.trl.phase = 7 then s.beginServing else s

def State.isRoot (s : State) : Bool := s.trl.st.modrec.root
def State.parentPort (s : State) : Nat := s.trl.st.modrec.parent

/-- A message of the time tree, on one link (R459). -/
def State.timeMsg (s : State) (typ dst addr aux : Nat) (data : List Byte) : LinkMsg :=
  { typ := typ, cls := 2, vc := 0, xc := false, enc := false, plot := 0, hops := 0, src := s.modid, dst := dst, tag := 0, status := 0,
    addr := addr, aux := aux, data := data, gcm := [] }

/-- TIME_EXCHANGE (R455): TREQ on the parent port, once a microsecond, its frame crossing the serialiser at t1. -/
def execTimeExchange (t1 : Nat) (s : State) : Res :=
  let p := s.parentPort
  let due := match s.time.lastReq with
    | some t => decide (t + 1000 ≤ s.now)
    | none => true
  if !s.trl.loaded ∨ s.isRoot ∨ (s.link p).st ≠ .up ∨ !due then .next s
  else
    let n := (s.time.xchg + 1) % 2 ^ 64
    let s := { s with time := { s.time with xchg := n, t1 := some t1, lastReq := some s.now } }
    .next (s.transmit p ⟨s.timeMsg 0x10 (s.link p).farmod n t1 [], none⟩)

/-- TREQ (R455, Table 19-17): answered only by a module that is LOCKED. -/
def execTreq (port : Nat) (m : LinkMsg) (t2 t3 : Nat) (s : State) : Res :=
  if m.typ ≠ 0x10 ∨ 18 ≤ port then .next s
  else match s.rxTurn port m with
    | none => .next s
    | some x =>
      let s := s.rxDone port x
      .next (if s.time.st = .locked then s.transmit port ⟨s.timeMsg 0x11 m.src m.addr t2 (leBytes 8 t3), none⟩ else s)

/-- 1 ns in stamps of 1/64 ns. -/
def stampNs : Int := 64

/-- A value saturated to 16 signed bits. -/
def sat16 (x : Int) : Int := max (-32768) (min 32767 x)

/-- The child's offset from its parent (R455). -/
def timeOffset (t1 t2 t3 t4 : Nat) : Int := (((t2 : Int) - t1) + ((t3 : Int) - t4)) / 2

/-- The 64-bit count moved by a number of stamps, never below 0. -/
def stepCount (now : Nat) (off : Int) : Nat := ((now : Int) + off / stampNs).toNat % 2 ^ 64

/-- What an answer does in each time state (Table 16-1). Slewing is the rate at which nanoseconds pass, and no state. -/
def State.timeAnswer (s : State) (off : Int) : State :=
  let t := { s.time with offset := sat16 off, t1 := none, lastResp := s.now }
  let near := decide (-stampNs ≤ off) && decide (off ≤ stampNs)
  match s.time.st with
  | .free =>
    let (w, s) := s.draw
    let now := stepCount s.now off
    ({ s with time := { t with now := now, lastResp := now, lastReq := t.lastReq.map (fun _ => now), good := 0, depth := 1 + w.toNat % 24 } } : State).setTimeState .locking
  | .locking =>
    if !near then { s with time := { t with good := 0 } }
    else if t.good + 1 < 16 then { s with time := { t with good := t.good + 1 } }
    else ({ s with time := { t with good := 0 } } : State).nowLocked
  | .locked => { s with time := t }
  | .holdover =>
    let t := { t with good := 0 }
    let t := if -1000 * stampNs ≤ off ∧ off ≤ 1000 * stampNs then t
      else if 0 < off then { t with now := stepCount t.now off, lastResp := stepCount t.now off, lastReq := t.lastReq.map (fun _ => stepCount t.now off) }
      else { t with hold := (-off / stampNs).toNat }
    ({ s with time := t } : State).setTimeState .locking

/-- TRESP (R455, R456): the answer to the exchange in progress, on the parent port. -/
def execTresp (port : Nat) (m : LinkMsg) (t4 : Nat) (s : State) : Res :=
  if m.typ ≠ 0x11 ∨ 18 ≤ port then .next s
  else match s.rxTurn port m with
    | none => .next s
    | some x =>
      let s := s.rxDone port x
      match s.time.t1 with
      | some t1 =>
        if s.isRoot ∨ port ≠ s.parentPort ∨ m.addr ≠ s.time.xchg then .next s
        else .next (s.timeAnswer (timeOffset t1 m.aux (leAt m.data 0 8) t4))
      | none => .next s

/-- HOLDOVER_TIMEOUT (R456): no TRESP for 8 µs. -/
def execHoldoverTimeout (s : State) : Res :=
  if s.time.st = .locked ∧ !s.isRoot ∧ s.time.lastResp + 8000 ≤ s.now then .next (s.setTimeState .holdover) else .next s

/-! Barriers (R460 to R469). -/

/-- Fields of EFT_BAR_CFG (Table 16-5). -/
def RoutingRec.barParent (r : RoutingRec) : Nat := bits r.bar 14 0
def RoutingRec.barRoot (r : RoutingRec) : Bool := bit r.bar 15
def RoutingRec.barSize (r : RoutingRec) : Nat := bits r.bar 31 16 + 1
def RoutingRec.barLead (r : RoutingRec) : Nat := bits r.bar 37 32
def RoutingRec.barStrag (r : RoutingRec) : Nat := bits r.bar 47 38
def RoutingRec.barPace (r : RoutingRec) : Bool := bit r.bar 48

/-- Key of barrier `bid` of a plot. -/
def barKey (plot bid : Nat) : Nat := 64 * plot + bid
def State.bar (s : State) (key : Nat) : Bar := Tab.get .reset s.sync.bars key
def State.setBar (s : State) (key : Nat) (b : Bar) : State := { s with sync := { s.sync with bars := Tab.set .reset s.sync.bars key b } }

/-- A generation of which nothing has arrived. -/
def BarGen.fresh (k : Nat) : BarGen := ⟨k, none, false, 0, [], 0, 0, 0, 0, false, none⟩

def Bar.genOf (b : Bar) (k : Nat) : BarGen := (b.gens.find? (fun g => g.gen == k)).getD (.fresh k)
def Bar.putGen (b : Bar) (g : BarGen) : Bar := { b with gens := b.gens.filter (fun x => x.gen != g.gen) ++ [g] }
def Bar.dropGen (b : Bar) (k : Nat) : Bar := { b with gens := b.gens.filter (fun x => x.gen != k) }

/-- Arrivals joined: `newer` says whether they hold the module that arrived last. -/
def BarGen.join (g : BarGen) (members lo hi last level : Nat) (newer : Bool) : BarGen :=
  if g.members = 0 then { g with members := members, earliest := lo, latest := hi, last := last, level := level }
  else { g with
    members := g.members + members, earliest := min g.earliest lo, latest := max g.latest hi,
    last := if newer then last else g.last, level := if newer then level else g.level }

/-- Arrivals counted in a generation; of two latest at one time, which one is last is an open value. -/
def State.joinGen (s : State) (g : BarGen) (members lo hi last level : Nat) : BarGen × State :=
  if hi = g.latest ∧ g.members ≠ 0 then
    let (w, s) := s.draw
    (g.join members lo hi last level (w.toNat % 2 == 1), s)
  else (g.join members lo hi last level (decide (g.latest < hi)), s)

/-- A class 2 message of a plot (Table 16-4). -/
def State.syncMsg (s : State) (r : RoutingRec) (typ dst addr aux : Nat) (data : List Byte) : LinkMsg :=
  { s.timeMsg typ dst addr aux data with plot := r.plot }

/-- RELEASE sent to every child (R463). -/
def State.sendRelease (s : State) (r : RoutingRec) (bid : Nat) (g : BarGen) (rel : Rel) : State :=
  let addr := g.gen + bid * 2 ^ 32 + rel.strag * 2 ^ 38 + boolNat rel.stragV * 2 ^ 53 + rel.pace * 2 ^ 54
  g.kids.foldl (fun (s : State) k => (s.originate (s.syncMsg r 0x13 k addr rel.rt [])).2) s

/-- The root's release (R463, R469). In a plot without pace matching the pace level it carries is an open value. -/
def State.rootRelease (s : State) (r : RoutingRec) (g : BarGen) : Rel × State :=
  let v := r.barStrag != 0 && decide (r.barStrag * 1000 < g.latest - g.earliest)
  let (w, s) := if r.barPace then ((if v then BitVec.ofNat 64 g.level else 15 : Word), s) else s.draw
  (⟨s.now + r.barLead * 1000, g.last, v, w.toNat % 16, false⟩, s)

/-- ARRIVE goes to the parent, or RELEASE to the children, once the subtree is complete (R462, R463). -/
def State.passOn (s : State) (r : RoutingRec) (bid : Nat) (g : BarGen) : State :=
  let key := barKey r.plot bid
  if !g.own || g.sent || g.members != r.barSize then s.setBar key ((s.bar key).putGen g)
  else if r.barRoot then
    let (rel, s) := s.rootRelease r g
    let g := { g with sent := true, rel := some rel }
    (s.setBar key ((s.bar key).putGen g)).sendRelease r bid g rel
  else
    let g := { g with sent := true }
    let s := s.setBar key ((s.bar key).putGen g)
    (s.originate (s.syncMsg r 0x12 r.barParent (g.gen + bid * 2 ^ 32 + g.last * 2 ^ 38 + g.level * 2 ^ 53) g.members
      (leBytes 8 g.earliest ++ leBytes 8 g.latest))).2

/-- BARRIER (R460, R462): this module's arrival at the next generation. -/
def execBarrier (q : Nat) (f : BarrierF) (s : State) : Res :=
  s.runCmd q (.barrier f) (fun x _ p =>
    match s.plotOf p with
    | none => s.completeOk q .denied
    | some r =>
      let key := barKey r.plot f.bid
      let b := s.bar key
      let k := (b.next + 1) % 2 ^ 32
      let s := ((s.strace 3 p f.bid 0 q).waitOutside q f.timeout).setBar key { b with next := k }
      let (g, s) := s.joinGen ((s.bar key).genOf k) 1 x.tDisp x.tDisp s.modid (s.level p)
      s.passOn r f.bid { g with own := true, queue := some q })

/-- ARRIVE (R462): a child's subtree has arrived; a second one of the same child counts nothing. -/
def execArrive (port : Nat) (m : LinkMsg) (s : State) : Res :=
  s.onArrival port m 0x12 (fun m r s =>
    let bid := bits m.addr 37 32
    let g := (s.bar (barKey r.plot bid)).genOf (m.addr % 2 ^ 32)
    if g.kids.contains m.src then (true, s)
    else
      let (g, s) := s.joinGen g (m.aux % 2 ^ 32) (leAt m.data 0 8) (leAt m.data 8 8) (bits m.addr 52 38) (bits m.addr 56 53)
      (true, s.passOn r bid { g with kids := g.kids ++ [m.src] }))

/-- The pace cap of a plot's partition (R469). -/
def State.setPace (s : State) (r : RoutingRec) (p bid pace : Nat) : State :=
  if !r.barPace ∨ (s.part p).paceCap = pace then s
  else
    let s := (s.setPart p { s.part p with paceCap := pace }).refreshLevels
    let s := s.straceEntry ⟨s.now, 6, p, false, bid, 0, 0, pace, 0⟩
    let s := s.event (islandShed 24) 0x64 (some p) none (islandShed 24 + pace * 2 ^ 16)
    s.notify 0x0002 (some p) (pace + (if r.cloche then 0 else r.plot * 2 ^ 4))

/-- A named straggler is traced, and tells its management controller (R468, Table 16-9). -/
def State.nameStraggler (s : State) (r : RoutingRec) (p bid q skew : Nat) (rel : Rel) : State :=
  if !rel.stragV then s
  else
    let s := s.straceEntry ⟨s.now, 5, p, false, bid, rel.strag, q, 0, skew⟩
    let s := s.event (islandShed 20) 0xB1 (some p) none rel.strag
    if rel.strag = s.modid ∧ !r.cloche then s.notify 0x0001 (some p) (rel.strag + r.plot * 2 ^ 15 + bid * 2 ^ 21) else s

/-- The next command of queue q is a LAUNCH whose record is staged and whose program, staged with it, passes validation
(R143, R383, R466). DESIGN CHOICE (log entry 100): a program that can be read now has been staged. -/
def State.programStaged (s : State) (q : Nat) : Bool :=
  match (s.queue q).staged, (s.queue q).fetched.head?.map recCmd with
  | true, some c =>
    (match c.body, s.partOfCtx (s.ctxOf q c.word1) with
     | .launch f, some p => (match (s.readImage q (s.ctxOf q c.word1) p f.prog f.train).1 with
        | .ok _ => true
        | .error _ => false)
     | _, _ => false)
  | _, _ => false

/-- The release time as T_READY of the queue's next command (R464), noted for R466 when the partition's regions are free
and the queue's next LAUNCH is staged. -/
def State.markRelease (s : State) (p q rt : Nat) : State :=
  let x := s.queue q
  s.setQueue q { x with
    tReady := x.tReady.map (fun _ => rt),
    rt := if (s.part p).launch.isNone && !(s.grantOut p) && s.programStaged q then some rt else none }

/-- A release applied (R464, R468, R469). The arrival skew is known at the root; elsewhere it is an open value. -/
def State.applyRelease (s : State) (r : RoutingRec) (bid : Nat) (g : BarGen) (rel : Rel) : State :=
  let key := barKey r.plot bid
  let p := r.part
  let (w, s) := if r.barRoot then ((BitVec.ofNat 64 ((g.latest - g.earliest) / 1000) : Word), s) else s.draw
  let skew := min 262143 (if r.barRoot then w.toNat else w.toNat % 2 ^ 18)
  let s := s.setBar key ((s.bar key).dropGen g.gen)
  let s := s.straceEntry ⟨s.now, 4, p, rel.late, bid, rel.strag, g.queue.getD 0, 0, skew⟩
  let s := (s.nameStraggler r p bid (g.queue.getD 0) skew rel).setPace r p bid rel.pace
  match g.queue with
  | some q => ((s.modRunning q (fun y => { y with first := 0xFFFF })).endCmdAt q rel.rt 0).markRelease p q rel.rt
  | none => s

/-- RELEASE (R463, R464): forwarded to the children on receipt; one that arrives after RT is applied at once. -/
def execRelease (port : Nat) (m : LinkMsg) (s : State) : Res :=
  s.onArrival port m 0x13 (fun m r s =>
    let bid := bits m.addr 37 32
    let key := barKey r.plot bid
    match (s.bar key).gens.find? (fun g => g.gen == m.addr % 2 ^ 32) with
    | none => (true, s)
    | some g =>
      if !g.sent ∨ g.rel.isSome ∨ r.barRoot then (true, s)
      else
        let rel : Rel := ⟨m.aux, bits m.addr 52 38, bit m.addr 53, bits m.addr 57 54, decide (m.aux < s.now)⟩
        let g := { g with rel := some rel }
        let s := (s.setBar key ((s.bar key).putGen g)).sendRelease r bid g rel
        (true, if rel.late then s.applyRelease r bid g rel else s))

/-- RELEASE_APPLY (R464): the local device time has reached RT. -/
def execReleaseApply (plot bid : Nat) (s : State) : Res :=
  match s.routeOf plot with
  | none => .next s
  | some r =>
    match (s.bar (barKey plot bid)).gens.findSome? (fun g => match g.rel with
      | some rel => if rel.rt ≤ s.now then some (g, rel) else none
      | none => none) with
    | some (g, rel) => .next (s.applyRelease r bid g rel)
    | none => .next s

/-- BARRIER_TIMEOUT (R467): TIMEOUT on this module only; the arrival stays counted. -/
def execBarrierTimeout (q : Nat) (s : State) : Res :=
  match (s.queue q).running with
  | some x =>
    match x.cmd.body with
    | .barrier _ =>
      .next (if s.waitOver x then
        ({ s with sync := { s.sync with bars := s.sync.bars.map (fun e => (e.1, e.2.detach q)) } } : State).completeOk q .timeout
        else s)
    | _ => .next s
  | none => .next s

/-- BARRIER_FIRST_ISSUE (R466): a LAUNCH that was held to RT + 1 µs makes its first issue there in every region. -/
def execBarrierFirstIssue (p : Nat) (s : State) : Res :=
  if 8 ≤ p then .next s
  else match (s.part p).launch with
    | none => .next s
    | some l =>
      if l.notBefore = 0 ∨ s.now < l.notBefore then .next s
      else .next ((s.regionsOf p).foldl (fun (s : State) r =>
        let x := s.region r
        match x.firstIssue with
        | some _ => s
        | none => s.setRegion r { x with firstIssue := some l.notBefore }) s)

end Sys2Proof.Machine
end

