-- ==== Sys2Proof/Machine/Compress.lean ====
section
/-! DEFINITION. The compress pass (R281 to R288): codebooks and codes of every segment, the compressed payload, its
digest, and its binding record. -/
namespace Sys2Proof.Machine

/-- Parameters of a pass: PARAMS of Table 09-3, SEGLOG, STLOG, ITER and the seed. -/
structure PackParams where
  params : Nat
  seglog : Nat
  stlog : Nat
  iter : Nat
  seed : Nat
  deriving DecidableEq, Repr

def PackParams.b (c : PackParams) : Nat := vqBits c.params
def PackParams.g (c : PackParams) : Nat := vqG c.params
/-- Elements of a whole segment. -/
def PackParams.segElems (c : PackParams) : Nat := 2 ^ c.seglog * c.g
/-- Bytes of a whole segment in the payload (R285). -/
def PackParams.segLen (c : PackParams) : Nat :=
  blockLen c.b c.g + 2 ^ (c.seglog - c.stlog) * streamLen c.b (2 ^ c.stlog)

/-- Every parameter lies in Table 09-6. -/
def PackParams.ok (c : PackParams) : Bool :=
  decide (12 ≤ c.seglog) && decide (c.seglog ≤ 20) && decide (8 ≤ c.stlog) && decide (c.stlog ≤ c.seglog)
  && decide (1 ≤ c.iter) && decide (c.iter ≤ 16)

/-- A list cut into lists of n elements, the last one possibly short. -/
def chunks {α : Type} (n : Nat) : Nat → List α → List (List α)
  | 0, _ => []
  | fuel + 1, xs =>
    match xs with
    | [] => []
    | _ => xs.take n :: chunks n fuel (xs.drop n)

/-- Elements of a byte list as FP32. -/
def elemsOf (f : Fmt) (bs : List Byte) : List F32 :=
  (chunks (f.width / 8) bs.length bs).map (fun e => (elemToF32 f (leNat e)).1)

/-- A BF16 codebook entry as FP32. -/
def cbVal (c : List Nat) : List F32 := c.map (fun v => (toF32 (FloatFmt.bf16.value v)).1)

/-- The distance of R133. -/
def vqDist : Nat → F32 → List F32 → List F32 → F32
  | n, d, x :: xs, c :: cs =>
    let t := (fSub x c).1
    vqDist (n + 1) (if n = 0 then (fMul t t).1 else (fFma t t d).1) xs cs
  | _, d, _, _ => d

/-- The code of a vector: the lowest entry with the smallest distance, 0 when every distance is NaN (R133). -/
def vqNear (cb : List (List F32)) (x : List F32) : Nat :=
  (((List.range cb.length).zip cb).foldl (fun (b : Option (Nat × F32)) e =>
    let d := vqDist 0 0 x e.2
    if isNaN32 d then b else match b with
      | none => some (e.1, d)
      | some v => if fLt d v.2 then some (e.1, d) else b) none).elim 0 (·.1)

/-- One refinement pass: sums and counts by code in vector order, then every entry that has a vector. -/
def refine (g : Nat) (xs : List (List F32)) (cb : List (List Nat)) : List (List Nat) :=
  let vals := cb.map cbVal
  let acc := xs.foldl (fun (t : List (List F32 × F32)) x =>
    let k := vqNear vals x
    let (s, n) := t.getD k ([], 0)
    t.set k ((List.range g).map (fun e => (fAdd (s.getD e 0) (x.getD e 0)).1), (fAdd n 0x3F800000).1))
    (cb.map (fun _ => (List.replicate g 0, 0)))
  (cb.zip acc).map (fun e => if fLt 0 e.2.2 then e.2.1.map (fun v => (f32ToFmt .bf16 (fDiv v e.2.2).1).1) else e.1)

/-- refine repeated. -/
def refineN (g : Nat) (xs : List (List F32)) : Nat → List (List Nat) → List (List Nat)
  | 0, cb => cb
  | n + 1, cb => refineN g xs n (refine g xs cb)

/-- compress_segment of R284: codebook and codes of segment s. -/
def packSegment (c : PackParams) (s : Nat) (xs : List (List F32)) : List (List Nat) × List Nat :=
  let seed : Word := BitVec.ofNat 64 (c.seed ^^^ s)
  let cb0 := (List.range (2 ^ c.b)).map (fun k =>
    (xs.getD ((mix64 seed (BitVec.ofNat 64 k)).toNat % xs.length) []).map (fun v => (f32ToFmt .bf16 v).1))
  let cb := refineN c.g xs c.iter cb0
  (cb, xs.map (vqNear (cb.map cbVal)))

/-- A codebook block (Table 09-2). -/
def blockBytes (c : PackParams) (s : Nat) (cb : List (List Nat)) : List Byte :=
  let body (crc : Nat) : List Byte := leBytes 4 0x4B324342 ++ leBytes 2 1 ++ leBytes 2 (c.params % 8) ++ leBytes 4 s ++ leBytes 4 crc
    ++ List.replicate 48 0 ++ cb.flatMap (fun e => e.flatMap (leBytes 2))
  let raw := padTo 64 (body 0)
  padTo 64 (body (crc32c raw))

/-- Codes packed under R43. -/
def packCodes (b : Nat) (codes : List Nat) : Nat := codes.foldr (fun k v => v * 2 ^ b + k) 0

/-- A code stream (Table 09-3) at a place in its segment. -/
def streamBytes (c : PackParams) (s k pos : Nat) (codes : List Nat) (tag : List Byte) (crc : Nat) : List Byte :=
  padTo 64 (leBytes 4 0x4B325653 ++ leBytes 2 1 ++ leBytes 2 c.params ++ leBytes 4 codes.length ++ leBytes 4 crc
    ++ leBytes 8 (2 ^ 64 - pos) ++ tag ++ leBytes 4 s ++ leBytes 4 k ++ List.replicate 24 0
    ++ leBytes (cdiv (c.b * codes.length) 8) (packCodes c.b codes))

/-- The streams of a segment, each with its number and place. -/
def segStreams (c : PackParams) (codes : List Nat) : List (Nat × Nat × List Nat) :=
  let cs := chunks (2 ^ c.stlog) codes.length codes
  ((List.range cs.length).zip cs).map (fun e => (e.1, blockLen c.b c.g + e.1 * streamLen c.b (2 ^ c.stlog), e.2))

/-- A segment's bytes with a tag: CRCs are zero while the payload's digest is not known (R278, R285). -/
def segBytes (c : PackParams) (s : Nat) (cb : List (List Nat)) (codes : List Nat) (tag : Option (List Byte)) : List Byte :=
  blockBytes c s cb ++ (segStreams c codes).flatMap (fun e => match tag with
    | none => streamBytes c s e.1 e.2.1 e.2.2 (List.replicate 8 0) 0
    | some t => streamBytes c s e.1 e.2.1 e.2.2 t (crc32c (streamBytes c s e.1 e.2.1 e.2.2 t 0)))

/-- num_s and den_s of R286. -/
def segError (c : PackParams) (out : Fmt) (xs : List (List F32)) (cb : List (List Nat)) (codes : List Nat) : F32 × F32 :=
  let vals := (cb.map cbVal).map (fun e => e.map (fun v => (elemToF32 out (f32ToFmt out v).1).1))
  let hat := codes.flatMap (fun k => vals.getD k (List.replicate c.g 0))
  let x := xs.flatten
  let sq (l : List F32) : F32 := ((reduceRow .sum (l.map (fun v => some (fMul v v).1))).1).getD 0
  (sq ((x.zip hat).map (fun e => (fSub e.1 e.2).1)), sq x)

/-- A quotient of R286: 0 / 0 is +0 and n / 0 with n above 0 is +∞. -/
def errQuot (n d : F32) : F32 := if isZero32 d then (if isZero32 n then 0 else 0x7F800000) else (fDiv n d).1

/-- What the pass gives: the payload, its digest, ERR, WORST and the segment count. -/
structure Packed where
  payload : List Byte
  compdig : List Byte
  err : F32
  worst : F32
  segments : Nat
  deriving DecidableEq, Repr

/-- The whole pass over tensor data in one format (R284 to R286). -/
def packImage (c : PackParams) (f : Fmt) (data : List Byte) : Packed :=
  let vecs := chunks c.g data.length (elemsOf f data)
  let segs := chunks (2 ^ c.seglog) vecs.length vecs
  let done := ((List.range segs.length).zip segs).map (fun e => (e.1, e.2, packSegment c e.1 e.2))
  let blank := done.flatMap (fun e => segBytes c e.1 e.2.2.1 e.2.2.2 none)
  let dig := sha3 blank
  let errs := done.map (fun e => segError c f e.2.1 e.2.2.1 e.2.2.2)
  let total := errs.foldl (fun (a : F32 × F32) e => ((fAdd a.1 e.1).1, (fAdd a.2 e.2).1)) (0, 0)
  { payload := done.flatMap (fun e => segBytes c e.1 e.2.2.1 e.2.2.2 (some (dig.take 8))), compdig := dig,
    err := errQuot total.1 total.2, worst := errs.foldl (fun w e => fMax w (errQuot e.1 e.2)) 0, segments := segs.length }

/-- OUTFMT code of a format that the pass takes; none for another (R281). -/
def packFmt : Fmt → Option Nat
  | .bf16 => some 2 | .fp16 => some 3 | .e4m3 => some 4 | .e5m2 => some 5 | _ => none

/-- Bytes 0 to 255 of a binding record (Table 09-5). -/
def bindingHead (c : PackParams) (signer ubytes : Nat) (k : Packed) (pubdig signkey : List Byte) : List Byte :=
  leBytes 4 0x4B32424E ++ leBytes 2 1 ++ leBytes 2 c.params ++ leBytes 1 c.seglog ++ leBytes 1 c.stlog ++ leBytes 1 c.iter
  ++ leBytes 1 0 ++ leBytes 2 signer ++ leBytes 2 0 ++ leBytes 8 c.seed ++ leBytes 8 ubytes ++ leBytes 8 k.payload.length
  ++ leBytes 4 k.segments ++ leBytes 4 k.err.toNat ++ leBytes 4 k.worst.toNat ++ List.replicate 12 0 ++ pubdig ++ k.compdig ++ signkey

/-- A list of exactly n bytes: cut, or with zeros after it. -/
def fitTo (n : Nat) (bs : List Byte) : List Byte := (bs ++ List.replicate n 0).take n

/-- A whole binding record with its signature. -/
def bindingRecord (head sig : List Byte) : List Byte := fitTo 4883 (head ++ sig) ++ List.replicate 45 0

/-- The parameters that a binding record states. -/
def recordParams (r : List Byte) : PackParams := ⟨leAt r 6 2, leAt r 8 1, leAt r 9 1, leAt r 10 1, leAt r 16 8⟩

/-- A record's own conditions: every field in range, every reserved byte zero (R279). -/
def recordWf (r : List Byte) : Bool :=
  let c := recordParams r
  leAt r 0 4 == 0x4B32424E && leAt r 4 2 == 1 && bits c.params 1 0 != 3 && (vqOut c.params).isSome && c.params / 128 == 0
  && c.ok && zeros r 11 1 && !(bit (leAt r 12 2) 15) && zeros r 14 2 && zeros r 52 12 && zeros r 4883 45

/-- The compressed-payload digest of a payload (R278): every stream's CRC and IMGTAG read as zero. -/
def blankStreams : Nat → List Byte → List Byte
  | 0, bs => bs
  | fuel + 1, bs =>
    if bs.length < 64 then bs
    else
      let params := leAt bs 6 2
      if leAt bs 0 4 = 0x4B325653 then
        let n := streamLen (vqBits params) (leAt bs 8 4)
        blanked (blanked (bs.take n) 12 4) 24 8 ++ blankStreams fuel (bs.drop n)
      else
        let n := blockLen (vqBits params) (vqG params)
        bs.take n ++ blankStreams fuel (bs.drop n)

def payloadDigest (bs : List Byte) : List Byte := sha3 (blankStreams (bs.length / 64 + 1) bs)

end Sys2Proof.Machine
end

