-- ==== Sys2Proof/Machine/Weights.lean ====
section
/-! DEFINITION. Weight generations (chapter 10): container checks, admission and placement, WGT_BUILD to its end,
WGT_SWITCH and WGT_RETIRE. -/
namespace Sys2Proof.Machine

/-! Containers (R295 to R299). -/

def hdrForm (h : List Byte) : Nat := leAt h 6 1
def hdrRole (h : List Byte) : Nat := leAt h 64 1
def hdrData (h : List Byte) : Nat := leAt h 72 8
def hdrTensors (h : List Byte) : Nat := leAt h 80 4
def hdrField (h : List Byte) (o n : Nat) : List Byte := (h.drop o).take n
/-- PUBDIG (R296). -/
def hdrPubdig (h : List Byte) : List Byte := sha3 (hdrField h 64 256)

/-- Check 1 of Table 10-4. The order of the header is read as that of its offsets in Table 10-2: the payload lies before
the binding record (DEDUCED, log entry 99). -/
def containerOk (h : List Byte) : Bool :=
  let tab := leAt h 8 8
  let dat := leAt h 16 8
  let pay := leAt h 24 8
  let bnd := leAt h 32 8
  leAt h 0 4 == 0x4B325749 && leAt h 4 2 == 1 && decide (hdrForm h ≤ 1) && (hdrRole h == 1 || hdrRole h == 2)
  && zeros h 7 1 && zeros h 40 24 && zeros h 65 7 && zeros h 84 44 && zeros h 7603 13
  && hdrData h % 64 == 0 && decide (1 ≤ hdrTensors h) && decide (hdrTensors h ≤ 65536)
  && tab % 64 == 0 && dat % 64 == 0 && pay % 64 == 0 && bnd % 64 == 0 && decide (7616 ≤ tab)
  && (hdrRole h != 1 || zeros h 256 64)
  && (if hdrForm h = 0 then pay == 0 && bnd == 0 && decide (tab + 64 * hdrTensors h ≤ dat)
      else dat == 0 && decide (tab + 64 * hdrTensors h ≤ pay) && decide (pay + 64 ≤ bnd))

/-- The partition's publisher trust list holds a key digest. -/
def State.trusts (s : State) (p : Nat) (dig : List Byte) : Bool :=
  s.trl.st.trust.any (fun t => t.kind == 2 && bit t.parts p && t.digest == dig)

/-- Check 2. -/
def State.keyOk (s : State) (p : Nat) (h : List Byte) : Bool :=
  hdrField h 320 64 == sha3 (hdrField h 384 2592) && s.trusts p (hdrField h 320 64)

/-- One tensor table entry whose data begins at or after `lo` (R297). -/
def tensorOk (lo data : Nat) (e : List Byte) : Bool :=
  let rank := leAt e 5 1
  let sizes := (List.range 4).map (fun k => leAt e (24 + 4 * k) 4)
  match Fmt.ofCode (leAt e 4 1) with
  | none => false
  | some f =>
    decide (1 ≤ rank) && decide (rank ≤ 4) && zeros e 6 2 && leAt e 8 8 % 64 == 0 && decide (lo ≤ leAt e 8 8)
    && decide (leAt e 8 8 + leAt e 16 8 ≤ data) && zeros e 40 24 && (sizes.drop rank).all (· == 0)
    && leAt e 16 8 * 8 == (sizes.take rank).foldl (· * ·) 1 * f.width

/-- The entries of a tensor table in order: ascending, without overlap. -/
def tensorsOk (data : Nat) : Nat → List (List Byte) → Bool
  | _, [] => true
  | lo, e :: es => tensorOk lo data e && tensorsOk data (leAt e 8 8 + leAt e 16 8) es

def tensorEntries (t : List Byte) : List (List Byte) := chunks 64 t.length t

/-- Check 3: the table, R298 for form 1, and TABDIG. -/
def tableOk (h t record : List Byte) : Bool :=
  tensorsOk (hdrData h) 0 (tensorEntries t) && sha3 t == hdrField h 128 64
  && (hdrForm h == 0 || (tensorEntries t).all (fun e => leAt e 4 1 == bits (leAt record 6 2) 6 3) && leAt record 24 8 == hdrData h)

/-- The digest of this module's attestation key in use. -/
def State.ownKey (s : State) : List Byte := sha3 (Config.akPublic s.sec.akSvn)

/-- Check 5 but for COMPDIG (R279). -/
def State.recordOk (s : State) (h record : List Byte) : Bool :=
  let key := hdrField record 192 64
  recordWf record && (key == s.ownKey || s.trl.st.trust.any (fun t => t.kind == 1 && t.digest == key))
  && Config.verifyBy key (sha3 (record.take 256)) (hdrField record 256 4627) && hdrField record 64 64 == hdrPubdig h

/-- An accepted record enters the binding table (R280): the entry, or a status. -/
def State.acceptRecord (s : State) (p : Nat) (record : List Byte) : Except Status (Nat × State) :=
  let dig := hdrField record 128 64
  let at_ (k : Nat) : Option Binding := s.wgt.binds.getD k none
  match (List.range 64).find? (fun k => (at_ k).any (fun b => b.compdig == dig)) with
  | some k =>
    let b := (at_ k).getD ⟨dig, record, []⟩
    let mask := if b.mask.contains p then b.mask else b.mask ++ [p]
    .ok (k, { s with wgt := { s.wgt with binds := s.wgt.binds.set k (some { b with mask := mask }) } })
  | none =>
    if (List.range 64).any (fun k => (at_ k).any (fun b => b.compdig.take 8 == dig.take 8)) then .error .expand
    else match (List.range 64).find? (fun k => (at_ k).isNone) with
      | none => .error .capacity
      | some k => .ok (k, { s with wgt := { s.wgt with binds := s.wgt.binds.set k (some ⟨dig, record, [p]⟩) } })

/-! Free space of the pools (R305, R306). -/

def weightUnit : Nat := 2 ^ 21
def roundUp (n a : Nat) : Nat := cdiv n a * a

/-- A span without the bytes b … b + m − 1. -/
def cutSpan (b m : Nat) (x : Nat × Nat) : List (Nat × Nat) :=
  let lo := max x.1 b
  let hi := min (x.1 + x.2) (b + m)
  if hi ≤ lo then [x]
  else (if x.1 < lo then [(x.1, lo - x.1)] else []) ++ (if hi < x.1 + x.2 then [(hi, x.1 + x.2 - hi)] else [])

/-- Spans without others. -/
def cutSpans (pool used : List (Nat × Nat)) : List (Nat × Nat) :=
  used.foldl (fun ps u => ps.flatMap (cutSpan u.1 u.2)) pool

/-- The first n bytes of a list of spans; none when they hold fewer. -/
def takeSpans : List (Nat × Nat) → Nat → Option (List (Nat × Nat))
  | _, 0 => some []
  | [], _ => none
  | (a, m) :: r, n => if n ≤ m then some [(a, n)] else (takeSpans r (n - m)).map (fun t => (a, m) :: t)

/-- Spans in order of address. -/
def sortSpans (xs : List (Nat × Nat)) : List (Nat × Nat) :=
  xs.foldl (fun t x => t.filter (fun y => decide (y.1 < x.1)) ++ [x] ++ t.filter (fun y => decide (x.1 ≤ y.1))) []

/-- Memory that rootstocks and grafts of generations hold. -/
def State.weightsHeld (s : State) : List (Nat × Nat) :=
  s.wgt.roots.flatMap (fun r => if r.used then r.hbm0 ++ r.hbm1 ++ r.cel else [])
  ++ s.wgt.gens.flatMap (fun e => if e.2.st.live then e.2.grafts.flatMap (·.spans) else [])

/-- A span's part on a die. -/
def onDie (die : Nat) (x : Nat × Nat) : List (Nat × Nat) :=
  let lo := max x.1 (die * 0x4800000000)
  let hi := min (x.1 + x.2) ((die + 1) * 0x4800000000)
  if hi ≤ lo then [] else [(lo, hi - lo)]

def SpanRec.pair (x : SpanRec) : Nat × Nat := (x.base, x.size)

/-- The pool of HBM on a die, of a partition's carve-out or of the module weight area. -/
def State.hbmPool (s : State) (p die : Nat) (own : Bool) : List (Nat × Nat) :=
  if own then (s.spansOf 1 p).flatMap (fun x => onDie die x.pair) else (s.spansOf 5 die).map SpanRec.pair

def State.celPool (s : State) (p : Nat) (own : Bool) : List (Nat × Nat) :=
  (if own then s.spansOf 2 p else s.spansOf 6 0).map SpanRec.pair

/-- n bytes, rounded up to 2 MiB, of the free space of a pool, lowest addresses first. -/
def State.takeWeights (s : State) (pool : List (Nat × Nat)) (n : Nat) : Option (List (Nat × Nat)) :=
  takeSpans (cutSpans (sortSpans pool) s.weightsHeld) (roundUp n weightUnit)

/-! Weight range entries (R293, R349). -/

/-- A range entry of a weight window: V and R set. -/
def weightEntry (start length pbase : Nat) : RangeEntry := ⟨true, true, false, false, 0, start, length, pbase, 0⟩

/-- Granules from window granule `start` mapped onto spans of this module. -/
def mapSpans (modid : Nat) : Nat → List (Nat × Nat) → List RangeEntry
  | _, [] => []
  | start, (a, n) :: r =>
    (if n = 0 then [] else [weightEntry start (cdiv n 4096) ((modid * 2 ^ 48 + a) / 4096)]) ++ mapSpans modid (start + cdiv n 4096) r

/-- Bytes of the payload's segments that go into HBM, and where the cellar's first segment starts in the payload. -/
def hbmCodes (r : Root) (c : PackParams) (f : Fmt) (cbytes : Nat) : Nat :=
  if r.hsplit = r.databytes then cbytes else r.hsplit / (c.segElems * (f.width / 8)) * c.segLen

/-- The ranges of a rootstock: data in HBM at window offset 0, stored codes at 4 TiB plus their payload offset. -/
def rootRanges (modid : Nat) (r : Root) (record : Option (List Byte)) : List RangeEntry :=
  mapSpans modid 0 (r.hbm0 ++ r.hbm1)
  ++ (match record with
      | none => []
      | some rc =>
        let c := recordParams rc
        match vqOut c.params with
        | none => []
        | some f =>
          let lo := hbmCodes r c f (leAt rc 32 8)
          let n := leAt rc 32 8 - lo
          if n = 0 then [] else mapSpans modid (2 ^ 42 / 4096 + lo / 4096) ((takeSpans r.cel (roundUp (lo % 4096 + n) 4096)).getD r.cel))

/-- The ranges of a graft: slot s at 8 TiB + s × 64 GiB. -/
def graftRanges (modid : Nat) (g : GraftHold) : List RangeEntry :=
  mapSpans modid ((2 ^ 43 + g.slot * 2 ^ 36) / 4096) ((takeSpans g.spans (roundUp g.bytes 4096)).getD g.spans)

/-! Reading (R299, R319). -/

/-- A step of a build's checks: it waits (none), ends with a status, or has a value. -/
abbrev Checked (α : Type) := Except (Option Status) α × State

def Checked.bind {α β : Type} (x : Checked α) (f : α → State → Checked β) : Checked β :=
  match x with
  | (.ok a, s) => f a s
  | (.error e, s) => (.error e, s)

/-- The build's read of n bytes; a wait asks for what is missing. -/
def State.bldRead (s : State) (b : Build) (va n : Nat) : Checked (List Byte) :=
  if n = 0 then (.ok [], s)
  else match s.cmdRead b.queue b.ctx b.part .read va n with
    | (.done bs, s) => (.ok bs, s)
    | (.wait, s) => (.error none, s)
    | (.fail st, s) => (.error (some st), s)

/-- A condition, or a status. -/
def need (c : Bool) (st : Status) (s : State) : Checked Unit := (if c then .ok () else .error (some st), s)

/-- Checks 1 to 4 of a container: its header and, in form 1, its binding record, which the payload does not reach. -/
def State.readContainer (s : State) (b : Build) (va role : Nat) (rootdig : List Byte) : Checked (List Byte × List Byte × List Byte) :=
  (s.bldRead b va 7616).bind fun h s =>
  (need (containerOk h) .denied s).bind fun _ s =>
  (need (s.keyOk b.part h) .denied s).bind fun _ s =>
  (s.bldRead b (va + leAt h 8 8) (64 * hdrTensors h)).bind fun t s =>
  (if hdrForm h = 1 then s.bldRead b (va + leAt h 32 8) 4928 else (.ok [], s)).bind fun rc s =>
  (need (tableOk h t rc && (hdrForm h == 0 || decide (leAt h 24 8 + leAt rc 32 8 ≤ leAt h 32 8))) .denied s).bind fun _ s =>
  (need (hdrRole h == role && (role == 1 || hdrField h 256 64 == rootdig)) .state s).bind fun _ s =>
  (.ok (h, t, rc), s)

/-! Placement of the rootstock (R306 to R309). -/

/-- R307: the splits fit the image. -/
def splitsOk (h record : List Byte) (dsplit hsplit : Nat) : Bool :=
  let sb := match vqOut (leAt record 6 2) with
    | some f => (recordParams record).segElems * (f.width / 8)
    | none => 1
  dsplit % weightUnit == 0 && hsplit % weightUnit == 0 && decide (dsplit ≤ hsplit) && decide (hsplit ≤ hdrData h)
  && (hsplit == hdrData h || hdrForm h == 0 || hsplit % sb == 0)

/-- The entry that a build may reuse (R309). -/
def State.reusable (s : State) (p dsplit hsplit : Nat) (h record : List Byte) : Option Nat :=
  if s.inCloche p then none
  else (List.range 16).find? (fun k =>
    let r := s.wgt.roots.getD k .free
    r.used && r.cloche.isNone && r.pubdig == hdrPubdig h && r.hsplit == hsplit && r.dsplit == dsplit
    && (r.compdig == hdrField record 128 64 || r.hsplit == r.databytes))

/-- A compressed source in the module's own HBM crosses no expander (R308). -/
def State.ownHbm (s : State) (b : Build) (va n : Nat) : Bool :=
  (s.piecesOr ⟨b.ctx, b.part, none⟩ .read va n).any (fun x => !(x.remote s) && mapRow x.loc == .hbm)

/-- A DRAINING generation of the partition may still free memory (R311 WAITMEM). -/
def State.draining (s : State) (p : Nat) : Bool := (List.range 8).any (fun e => (s.gen p e).st == .draining)

/-- Check 6 fails: the build waits with WAITMEM while a DRAINING generation may free memory, and fails otherwise (R311). -/
def State.noMemory {α : Type} (s : State) (b : Build) : Checked α :=
  (.error (if b.f.waitmem && s.draining b.part then none else some .capacity), s)

/-- The module rootstock entry of a new load, with its memory (R306). -/
def State.placeRoot (s : State) (b : Build) (dsplit hsplit : Nat) (h record : List Byte) : Checked Nat :=
  let p := b.part
  let own := s.inCloche p
  let d := hdrData h
  match (List.range 16).find? (fun k => !(s.wgt.roots.getD k .free).used) with
  | none => (.error (some .capacity), s)
  | some k =>
    match s.takeWeights (s.hbmPool p 0 own) dsplit, s.takeWeights (s.hbmPool p 1 own) (hsplit - dsplit),
          s.takeWeights (s.celPool p own) (d - hsplit) with
    | some x, some y, some z =>
      let r : Root := ⟨true, hdrPubdig h, if hdrForm h = 1 then hdrField record 128 64 else [], hsplit, dsplit, d,
        if own then some p else none, x, y, z, some b.queue⟩
      (.ok k, { s with wgt := { s.wgt with roots := s.wgt.roots.set k r } })
    | _, _, _ => s.noMemory b

/-- The build's generation entry changed. -/
def State.modGen (s : State) (b : Build) (f : Gen → Gen) : State := s.setGen b.part b.entry (f (s.gen b.part b.entry))

/-- HBM and cellar bytes that a placed rootstock is charged. -/
def Root.charge (r : Root) : Nat × Nat :=
  (roundUp r.dsplit weightUnit + roundUp (r.hsplit - r.dsplit) weightUnit, roundUp (r.databytes - r.hsplit) weightUnit)

/-- A form 1 container's record accepted: the binding table entry that the build uses. -/
def State.acceptFor (s : State) (b : Build) (h rc : List Byte) : Checked (Option Nat) :=
  if hdrForm h = 0 then (.ok none, s)
  else match s.acceptRecord b.part rc with
    | .error e => (.error (some e), s)
    | .ok (k, s) => (.ok (some k), s)

/-- The rootstock of a build that names one: checks 1 to 6, and what is still to load. -/
def State.planRoot (s : State) (b : Build) (va : Nat) (own : Bool) : Checked (Option ImageSrc) :=
  let dsplit := leAt b.pblk 16 8
  let hsplit := leAt b.pblk 24 8
  (s.readContainer b va 1 []).bind fun c s =>
  let h := c.1
  let rc := c.2.2
  (need (splitsOk h rc dsplit hsplit) .range s).bind fun _ s =>
  (need (hsplit == hdrData h || hdrForm h == 1) .state s).bind fun _ s =>
  (need (hdrForm h == 0 || s.recordOk h rc) .expand s).bind fun _ s =>
  (s.acceptFor b h rc).bind fun k s =>
  let s := s.modGen b (fun g => { g with bind := k })
  match s.reusable b.part dsplit hsplit h rc with
  | some k =>
    let r := s.wgt.roots.getD k .free
    (.ok (some ⟨va, h, rc, own⟩), s.modGen b (fun g => { g with root := k, ranges := rootRanges s.modid r (if hdrForm h = 1 then some rc else none) }))
  | none =>
    (s.placeRoot b dsplit hsplit h rc).bind fun k s =>
    let r := s.wgt.roots.getD k .free
    let s := s.modGen b (fun g => { g with
      root := k, hbmChg := r.charge.1, celChg := r.charge.2,
      ranges := rootRanges s.modid r (if hdrForm h = 1 then some rc else none) })
    (need (hdrForm h == 0 || !(s.ownHbm b (va + leAt h 24 8) (leAt rc 32 8))) .expand s).bind fun _ s =>
    (.ok (some ⟨va, h, rc, own⟩), s)

/-- The rootstock and grafts of the current generation (INHERIT). -/
def State.inheritRoot (s : State) (b : Build) : Checked (Option ImageSrc) :=
  match (List.range 8).find? (fun e => (s.gen b.part e).st == .current) with
  | none => (.error (some .state), s)
  | some e =>
    let c := s.gen b.part e
    (.ok none, s.modGen b (fun g => { g with
      inherited := true, root := c.root, bind := c.bind, grafts := c.grafts, loc := c.grafts.any (·.loc),
      ranges := c.ranges.filter (fun x => decide (x.start < 2 ^ 43 / 4096)) }))

/-! Grafts (R310, Table 10-8). -/

/-- Memory for a graft, and the generation that holds it in its slot. -/
def State.placeGraft (s : State) (b : Build) (slot die bytes : Nat) (loc : Bool) : Option (GraftHold × State) :=
  (s.takeWeights (s.hbmPool b.part die true) bytes).map (fun sp =>
    let x : GraftHold := ⟨slot, sp, bytes, loc⟩
    (x, s.modGen b (fun g => { g with
      grafts := g.grafts.filter (fun y => y.slot != slot) ++ [x], hbmChg := g.hbmChg + roundUp bytes weightUnit })))

/-- One entry of the graft list. -/
def State.planGraft (s : State) (b : Build) (e : List Byte) : Checked (Option GraftSrc) :=
  let w := leAt e 0 8
  let src := leAt e 8 8
  let slot := bits w 3 0
  let loc := bit w 4
  let die := bits w 5 5
  let n := bits w 43 8
  let root := s.wgt.roots.getD (s.gen b.part b.entry).root .free
  (need (bits w 7 6 == 0 && bits w 63 44 == 0 && (loc || n == 0)) .denied s).bind fun _ s =>
  if src = 0 then (.ok none, s.modGen b (fun g => { g with grafts := g.grafts.filter (fun y => y.slot != slot) }))
  else if loc then
    (need (s.partRec b.part).lgraft .denied s).bind fun _ s =>
    match s.placeGraft b slot die n true with
    | none => s.noMemory b
    | some (x, s) => (.ok (some ⟨x, src, none⟩), s)
  else
    (s.readContainer b src 2 root.pubdig).bind fun c s =>
    (need (hdrForm c.1 == 0 && decide (hdrData c.1 ≤ 2 ^ 36)) .state s).bind fun _ s =>
    match s.placeGraft b slot die (hdrData c.1) false with
    | none => s.noMemory b
    | some (x, s) => (.ok (some ⟨x, src, some c.1⟩), s)

/-- Every entry of the graft list in order. -/
def State.planGrafts (b : Build) : List (List Byte) → State → Checked (List GraftSrc)
  | [], s => (.ok [], s)
  | e :: es, s =>
    (s.planGraft b e).bind fun x s =>
    (State.planGrafts b es s).bind fun xs s =>
    (.ok ((match x with
      | some g => [g]
      | none => []) ++ xs), s)

/-- Checks 1 to 6 of every container, and the weight range entries (R312 step 3). -/
def State.planBuild (s : State) (b : Build) : Checked BuildPlan :=
  let own := b.f.compress
  (if b.f.inherit then s.inheritRoot b
   else s.planRoot b (if own then leAt b.pblk 40 8 else leAt b.pblk 8 8) own).bind fun r s =>
  (s.bldRead b (leAt b.pblk 32 8) (16 * leAt b.pblk 2 1)).bind fun gl s =>
  (State.planGrafts b (chunks 16 gl.length gl) s).bind fun gs s =>
  -- a later entry for a slot takes the place of an earlier one
  let g := s.gen b.part b.entry
  let gs := gs.filter (fun x => g.grafts.contains x.hold)
  let ranges := g.ranges ++ g.grafts.flatMap (graftRanges s.modid)
  let s := s.modGen b (fun g => { g with ranges := ranges, loc := g.grafts.any (·.loc) })
  (need (decide (ranges.length ≤ 64)) .capacity s).bind fun _ s =>
  (.ok ⟨r, gs⟩, s)

/-! The compress pass (R281 to R287). -/

/-- Parameters of the pass for a source format. -/
def packParams (pblk : List Byte) (fmt : Nat) : PackParams :=
  ⟨leAt pblk 3 1 % 8 + 8 * fmt, leAt pblk 56 1, leAt pblk 57 1, leAt pblk 58 1, leAt pblk 48 8⟩

/-- The carve-out that the pass needs in every region (R283). -/
def packNeed (c : PackParams) (f : Fmt) : Nat := c.segElems * ((if f = .fp16 then 4 else 2) + f.width / 8) + 65536

/-- The pass leaves open values in the carve-outs it works in. -/
def State.spoilCarve (s : State) (ctx p n : Nat) : State :=
  let c := s.ctxRec ctx
  (s.regionsOf p).foldl (fun (s : State) r =>
    let bs := (List.range (n / 8)).flatMap (fun k => leBytes 8 (Config.freeValue (s.fresh + k)).toNat)
    { s.setRegion r ((s.region r).sramStore c.sramOff bs) with fresh := s.fresh + n / 8 }) s

/-- Header of the form 1 container that the pass writes for a payload of n bytes: its parts follow one another without a
gap. -/
def packedHeader (h : List Byte) (n : Nat) : List Byte :=
  let tab := 7616
  let pay := tab + 64 * hdrTensors h
  h.take 6 ++ leBytes 1 1 ++ leBytes 1 0 ++ leBytes 8 tab ++ leBytes 8 0 ++ leBytes 8 pay ++ leBytes 8 (pay + n) ++ h.drop 40

/-- A write of the build's command. -/
def State.bldWrite (s : State) (b : Build) (va : Nat) (bs : List Byte) : Checked Unit :=
  match s.cmdWrite b.queue b.ctx b.part va bs with
  | (.done _, s) => (.ok (), s)
  | (.wait, s) => (.error none, s)
  | (.fail st, s) => (.error (some st), s)

/-- The output lies in the partition's cellar carve-out. -/
def State.outOk (s : State) (b : Build) (va n : Nat) : Checked Unit :=
  match s.translate ⟨b.ctx, b.part, none⟩ .write va n with
  | .error e => (.error (some e), s)
  | .ok ps => need (ps.all (fun x => !(x.remote s) && (s.spansOf 2 b.part).any (fun y => within x.loc x.len y.base y.size))) .range s

/-- One format of every tensor that the pass takes. -/
def packSource (t : List Byte) : Option Fmt :=
  match (tensorEntries t).map (fun e => leAt e 4 1) with
  | [] => none
  | f :: fs => if fs.all (· == f) then (Fmt.ofCode f).bind (fun x => (packFmt x).map (fun _ => x)) else none

/-- Checks of the source and its parameters before any output is written. -/
def State.packCheck (s : State) (b : Build) : Checked (List Byte × List Byte × Fmt × PackParams) :=
  (s.readContainer b (leAt b.pblk 8 8) 1 []).bind fun x s =>
  let h := x.1
  match packSource x.2.1 with
  | none => (.error (some .state), s)
  | some f =>
    let c := packParams b.pblk ((packFmt f).getD 0)
    (need (hdrData h % (c.g * (f.width / 8)) == 0) .range s).bind fun _ s =>
    (need (hdrForm h == 0) .state s).bind fun _ s =>
    (need (decide (packNeed c f ≤ (s.ctxRec b.ctx).sramSize)) .capacity s).bind fun _ s =>
    (.ok (h, x.2.1, f, c), s)

/-- A built container stored: header, payload and record at their places, then the record accepted for the build (R287).
`x` is what packCheck gives: the source's header, its tensor table, the format and the parameters. -/
def State.packStore (s : State) (b : Build) (out : Nat) (x : List Byte × List Byte × Fmt × PackParams) (data : List Byte) : Checked Unit :=
  let h := x.1
  let f := x.2.2.1
  let c := x.2.2.2
  let k := packImage c f data
  let h1 := packedHeader h k.payload.length
  (s.outOk b out (leAt h1 32 8 + 4928)).bind fun _ s =>
  let s := s.spoilCarve b.ctx b.part (packNeed c f)
  (s.bldWrite b (out + leAt h1 24 8) k.payload).bind fun _ s =>
  (need (sha3 data == hdrField h 192 64 && Config.verify (hdrField h 384 2592) (hdrPubdig h) (hdrField h 2976 4627)) .denied s).bind fun _ s =>
  let head := bindingHead c s.modid (hdrData h) k (hdrPubdig h) s.ownKey
  let rc := bindingRecord head (fitTo 4627 (Config.akSign s.sec.akSvn (sha3 head)))
  (s.bldWrite b out h1).bind fun _ s =>
  (s.bldWrite b (out + 7616) x.2.1).bind fun _ s =>
  (s.bldWrite b (out + leAt h1 32 8) rc).bind fun _ s =>
  match s.acceptRecord b.part rc with
  | .error e => (.error (some e), s)
  | .ok (n, s) => (.ok (), s.modGen b (fun g => { g with bind := some n }))

/-- The pass itself: the codes, and when DATADIG and the publisher's signature hold, the container with its signed
binding record, which enters the binding table (R287). -/
def State.packRun (s : State) (b : Build) : Checked Unit :=
  (s.packCheck b).bind fun x s =>
  (s.bldRead b (leAt b.pblk 8 8 + leAt x.1 16 8) (hdrData x.1)).bind fun data s =>
  s.packStore b (leAt b.pblk 40 8) x data

/-! Loading (R299 check 7, R308). -/

/-- Bytes stored over spans from an offset, as local writes. -/
def State.putSpans (s : State) (spans : List (Nat × Nat)) (off : Nat) (bs : List Byte) : State :=
  ((sliceSpans spans off bs.length).foldl (fun (a : State × List Byte) x => (a.1.writeLocal x.1 (a.2.take x.2), a.2.drop x.2)) (s, bs)).1

/-- The publisher's signature over PUBDIG holds. -/
def sigOk (h : List Byte) : Bool := Config.verify (hdrField h 384 2592) (hdrPubdig h) (hdrField h 2976 4627)

/-- Check 7 of a form 0 image whose data has been stored. -/
def form0Ok (h data : List Byte) : Bool := sha3 data == hdrField h 192 64 && sigOk h

/-- The path of a form 1 payload: expanded into HBM below place `lo`, stored in the cellar from there (R308). A block is
one of the payload's own. -/
def loadPath (p lo : Nat) (payload : List Byte) : XcPath where
  part := p
  mode := fun pos _ _ _ => .ok (if pos < lo then .expand else .store)
  fetch := fun at_ n s => (if 0 ≤ at_ ∧ at_ + n ≤ payload.length then .done ((payload.drop at_.toNat).take n) else .fail .expand, s)

/-- A form 1 payload expanded and stored, as writes relative to the HBM and to the cellar memory of the rootstock and a
status. -/
def State.loadCodes (s : State) (p : Nat) (r : Root) (rc payload : List Byte) : List (Nat × List Byte) × List (Nat × List Byte) × Status :=
  let c := recordParams rc
  match vqOut c.params with
  | none => ([], [], .expand)
  | some f =>
    let lo := hbmCodes r c f payload.length
    let x := ((loadPath p lo payload).payload (payload.take lo) s).1
    let fuel := payload.length / 64 + 1
    let y := ((loadPath p lo payload).all fuel ⟨payload.drop lo, lo, lo % 4096, x.blocks, [], none, false⟩ s).1
    match x.fail with
    | some st => (x.writes, [], st)
    | none => (x.writes, y.writes, y.fail.getD (if y.rest = [] then .ok else .expand))

/-- A die-to-die receiver that a form 1 source crosses into a rootstock's HBM has all its cache entries held (R276). -/
def State.loadBlocked (s : State) (b : Build) (r : Root) (va n : Nat) : Bool :=
  let src := s.piecesOr ⟨b.ctx, b.part, none⟩ .read va n
  let dies := (if r.hbm0.isEmpty then [] else [0]) ++ (if r.hbm1.isEmpty then [] else [1])
  src.any (fun x => dies.any (fun d => match s.expanderFor (8 * d) x with
    | some e => s.cacheFull e
    | none => false))

/-- The rootstock's data stored in the memory of its entry, and its check 7. -/
def State.storeRoot (s : State) (b : Build) (x : ImageSrc) : Checked Unit :=
  let h := x.hdr
  let r := s.wgt.roots.getD (s.gen b.part b.entry).root .free
  if hdrForm h = 0 then
    (s.bldRead b (x.va + leAt h 16 8) (hdrData h)).bind fun data s =>
    need (form0Ok h data) .denied (s.putSpans (r.hbm0 ++ r.hbm1) 0 data)
  else
    (s.bldRead b (x.va + leAt h 24 8) (leAt x.record 32 8)).bind fun pay s =>
    if s.loadBlocked b r (x.va + leAt h 24 8) (leAt x.record 32 8) then (.error none, s) else
    let w := s.loadCodes b.part r x.record pay
    let s := w.1.foldl (fun (s : State) e => s.putSpans (r.hbm0 ++ r.hbm1) e.1 e.2) s
    let s := w.2.1.foldl (fun (s : State) e => s.putSpans r.cel e.1 e.2) s
    (need (w.2.2 == .ok) w.2.2 s).bind fun _ s =>
    (need (x.own || sigOk h) .denied s).bind fun _ s =>
    need (x.own || payloadDigest pay == hdrField x.record 128 64) .expand s

/-- The rootstock of a build: a loaded entry is reused once the publisher's signature verifies, an entry that another
build still loads is waited for, and any other is loaded (R309; DESIGN CHOICE, log entry 106). -/
def State.loadRoot (s : State) (b : Build) (x : ImageSrc) : Checked Unit :=
  let k := (s.gen b.part b.entry).root
  let r := s.wgt.roots.getD k .free
  match r.loader with
  | none => need (sigOk x.hdr) .denied s
  | some q =>
    if q ≠ b.queue ∧ s.wgt.builds.any (fun y => y.queue == q) then (.error none, s)
    else
      (s.storeRoot b x).bind fun _ s =>
      (.ok (), { s with wgt := { s.wgt with roots := s.wgt.roots.set k { r with loader := none } } })

/-- The grafts loaded in order with their checks 7. -/
def State.loadGrafts (b : Build) : List GraftSrc → State → Checked Unit
  | [], s => (.ok (), s)
  | g :: gs, s =>
    let at_ := match g.hdr with
      | some h => g.va + leAt h 16 8
      | none => g.va
    (s.bldRead b at_ g.hold.bytes).bind fun data s =>
    let s := s.putSpans g.hold.spans 0 data
    (need (match g.hdr with
      | some h => form0Ok h data
      | none => true) .denied s).bind fun _ s =>
    State.loadGrafts b gs s

/-- Everything a planned build loads. -/
def State.loadBuild (s : State) (b : Build) (x : BuildPlan) : Checked Unit :=
  (match x.root with
   | some r => s.loadRoot b r
   | none => (.ok (), s)).bind fun _ s =>
  State.loadGrafts b x.grafts s

/-! WGT_BUILD (R312). -/

/-- The build of a queue. -/
def State.buildOf (s : State) (q : Nat) : Option Build := s.wgt.builds.find? (fun b => b.queue == q)

def State.setBuild (s : State) (b : Build) : State :=
  { s with wgt := { s.wgt with builds := s.wgt.builds.map (fun x => if x.queue = b.queue then b else x) } }

/-- The build of a queue ends with a status: what a failed one took is released, and its entry is FREE. -/
def State.endBuild (s : State) (b : Build) (st : Status) (keep : Bool) : State :=
  let s := if st = .ok ∧ keep then s.modGen b (fun g => { g with st := .ready, tReady := s.now }) else s.freeGen b.part b.entry
  let s := { s with wgt := { s.wgt with builds := s.wgt.builds.filter (fun x => x.queue != b.queue) } }
  (s.dropFetched (.cmd b.queue)).completeOk b.queue st

/-- The checks of a build made from their beginning: it waits, fails, or has its plan. What they took while they must
still wait is given back. -/
def State.tryPlan (s : State) (b : Build) : State :=
  match s.planBuild b with
  | (.ok x, s) => s.setBuild { b with plan := some x }
  | (.error none, t) => { t with wgt := s.wgt }
  | (.error (some st), t) => t.endBuild b st false

/-- The parameter block's own conditions: DENIED for a reserved bit or an unlisted encoding (R377), RANGE for a value out
of its range. -/
def pblkCheck (f : WgtBuildF) (bs : List Byte) : Status :=
  if leAt bs 3 1 / 8 ≠ 0 ∨ leAt bs 3 1 % 4 = 3 ∨ !(zeros bs 59 5) ∨ leAt bs 0 2 = 0xFFFF then .denied
  else if 16 < leAt bs 2 1 ∨ (f.inherit ∧ !f.compress ∧ leAt bs 8 8 ≠ 0) ∨ (f.compress ∧ !(packParams bs 0).ok) then .range
  else .ok

/-- The generation entry taken (R312 step 1). -/
def State.takeEntry (s : State) (q ctx p : Nat) (f : WgtBuildF) (bs : List Byte) : Except Status (Build × State) :=
  match (List.range 8).find? (fun e => (s.gen p e).st == .free) with
  | none => .error .capacity
  | some e =>
    if (s.entryOf p (leAt bs 0 2)).isSome ∨ (f.inherit ∧ !((List.range 8).any (fun k => (s.gen p k).st == .current)))
        ∨ (f.compress ∧ s.wgt.builds.any (fun b => b.part == p && b.f.compress && !b.packed)) then .error .state
    else
      let b : Build := ⟨q, ctx, p, e, f, bs, !f.compress, none⟩
      let s := s.setGen p e { Gen.free with gen := leAt bs 0 2, st := .building, root := 16 }
      .ok (b, { s with wgt := { s.wgt with builds := s.wgt.builds ++ [b] } })

/-- WGT_BUILD: the entry is taken, and its source is checked; the data is loaded until WGT_BUILD_DONE. -/
def execWgtBuild (q : Nat) (f : WgtBuildF) (s : State) : Res :=
  s.runCmd q (.wgtBuild f) (fun _ ctx p =>
    match s.cmdRead q ctx p .read f.pblk 64 with
    | (.wait, s) => s
    | (.fail e, s) => (s.dropFetched (.cmd q)).completeOk q e
    | (.done bs, s) =>
      if pblkCheck f bs ≠ .ok then (s.dropFetched (.cmd q)).completeOk q (pblkCheck f bs)
      else match s.takeEntry q ctx p f bs with
        | .error e => (s.dropFetched (.cmd q)).completeOk q e
        | .ok (b, s) =>
          let s := s.modRunning q (fun x => { x with started := true })
          if f.compress then
            match s.packCheck b with
            | (.error (some e), s) => s.endBuild b e false
            | (_, s) => s
          else s.tryPlan b)

/-- The next stage of a build that its data is here for. -/
def State.buildStep (s : State) (b : Build) : State :=
  if !b.packed then
    match s.packRun b with
    | (.error none, t) => { t with wgt := s.wgt }
    | (.error (some e), t) => t.endBuild b e false
    | (.ok _, t) => if b.f.nogen then
        let t := t.dropFetched (.cmd b.queue)
        ({ t.setGen b.part b.entry .free with wgt := { (t.setGen b.part b.entry .free).wgt with
            builds := t.wgt.builds.filter (fun x => x.queue != b.queue) } } : State).completeOk b.queue .ok
      else t.setBuild { b with packed := true }
  else match b.plan with
    | none => s.tryPlan b
    | some x =>
      match s.loadBuild b x with
      | (.error none, t) => t
      | (.error (some e), t) => t.endBuild b e false
      | (.ok _, t) => t.endBuild b .ok true

/-- Stages until the build ends or waits. -/
def State.buildSteps (q : Nat) : Nat → State → State
  | 0, s => s
  | n + 1, s =>
    match s.buildOf q with
    | none => s
    | some b => State.buildSteps q n (s.buildStep b)

/-- WGT_BUILD_DONE: the hash has reached the last byte (R300, R312). -/
def execWgtBuildDone (q : Nat) (s : State) : Res := .next (if s.inReset then s else State.buildSteps q 3 s)

/-! WGT_SWITCH and WGT_RETIRE (R313, R314). -/

/-- WGT_SWITCH (R313). -/
def execWgtSwitch (q gen : Nat) (s : State) : Res :=
  s.runCmd q (.wgtSwitch gen) (fun _ _ p =>
    let es := List.range 8
    match s.entryOf p gen with
    | none => s.completeOk q .state
    | some e =>
      let g := s.gen p e
      if es.any (fun k => (s.gen p k).st == .building) then s.completeOk q .state
      else match g.st with
        | .current => s.completeOk q .ok
        | .ready =>
          let s := es.foldl (fun (s : State) k =>
            let x := s.gen p k
            if x.st = .current then s.setGen p k { x with st := .ready } else s) s
          (s.setGen p e { g with st := .current }).completeOk q .ok
        | _ => s.completeOk q .state)

/-- WGT_RETIRE (R314). -/
def execWgtRetire (q gen : Nat) (s : State) : Res :=
  s.runCmd q (.wgtRetire gen) (fun _ _ p =>
    match s.entryOf p gen with
    | none => s.completeOk q .state
    | some e =>
      let g := s.gen p e
      match g.st with
      | .ready =>
        if g.refs = 0 then (s.freeGen p e).completeOk q .ok
        else (s.setGen p e { g with st := .draining }).completeOk q .ok
      | .draining => s.completeOk q .ok
      | _ => s.completeOk q .state)

end Sys2Proof.Machine
end

