-- ==== Sys2Proof/Machine/Cloche.lean ====
section
/-! DEFINITION. Wiping a partition, scrubbing, and the Cloche states (chapter 20, R544 to R556). -/
namespace Sys2Proof.Machine

/-- A change of a partition's Cloche state: an event of the security engine (Table 21-12). It names no partition, since
R569 withholds the entries of one that is not OFF. -/
def State.setClocheSt (s : State) (p : Nat) (st : ClocheSt) : State :=
  if (s.cloche p).st = st then s
  else (s.setCloche p { s.cloche p with st := st }).event (islandShed 23) 0x90 none none st.code

/-- The spans that a partition's scrub overwrites: kinds 1 to 4 (R553). -/
def State.scrubSet (s : State) (p : Nat) : List (Nat × Nat) :=
  (s.trl.st.spans.filter (fun x => decide (1 ≤ x.kind) && decide (x.kind ≤ 4) && x.owner == p)).map SpanRec.pair

/-- The contexts of a partition. -/
def State.ctxsOf (s : State) (p : Nat) : List Nat := (List.range 64).filter (fun c => s.partOfCtx c == some p)

/-- The sequences in a partition's range are FREE. -/
def State.freeSeqs (s : State) (p : Nat) : State :=
  (s.kv.seqs.map (·.1)).foldl (fun (s : State) n => if s.ownsSeq p n then s.freeSeq n else s) s

/-- The generations of a partition are FREE, its builds are abandoned, and it leaves every binding's mask (R280). -/
def State.freeGens (s : State) (p : Nat) : State :=
  let s := { s with wgt := { s.wgt with builds := s.wgt.builds.filter (fun b => b.part != p) } }
  let s := (List.range 8).foldl (fun (s : State) e => if (s.gen p e).st = .free then s else s.freeGen p e) s
  { s with wgt := { s.wgt with binds := s.wgt.binds.map (fun b => match b with
      | some x => let m := x.mask.filter (· != p)
                  if m = [] then none else some { x with mask := m }
      | none => none) } }

/-- The range tables of a partition's contexts are flushed, and the cached entries with them (R352). -/
def State.flushTables (s : State) (p : Nat) : State :=
  let cs := s.ctxsOf p
  let s := { s with mem := { s.mem with
    tables := Tab.dropWhere (fun c => cs.contains c) s.mem.tables,
    rtBusy := match s.mem.rtBusy with
      | some o => if cs.contains o.ctx then none else some o
      | none => none } }
  (s.regionsOf p).foldl (fun (s : State) r =>
    let x := s.region r
    s.setRegion r { x with rlc := x.rlc.filter (fun c => c.weight || !(cs.contains c.tag)) }) s

/-- What a teardown does to a partition, with the structure in force (Table 19-15, R545): memory scrubbed, sequences
and generations FREE, fences absent, range tables flushed, carve-outs unwritten. -/
def State.wipePart (s : State) (p : Nat) : State :=
  let spans := s.scrubSet p
  let s := ((s.freeSeqs p).freeGens p).flushTables p
  let s := s.setPart p { s.part p with fences := [], fenceBy := [] }
  let s := (s.ctxsOf p).foldl (fun (s : State) c => s.unwriteCtx c) s
  let old := (s.cloche p).scrubSpans.filter (fun x => !(spans.contains x))
  s.setCloche p { s.cloche p with scrub := true, scrubSpans := spans ++ old }

/-- Every queue of the partition is DISABLED. -/
def State.queuesOff (s : State) (p : Nat) : Bool :=
  (List.range 512).all (fun q => s.partOfQueue q != some p || (s.queue q).state == .disabled)

/-- Offset of SEC_CLOCHEp. -/
def clocheOff (p : Nat) : Nat := 0x100100 + 8 * p

/-- CLOCHE_ENTER (R545): accepted for a partition that is OFF, may enter, and has every queue DISABLED. -/
def execClocheEnter (rq : Requester) (p : Nat) (s : State) : Res :=
  if 8 ≤ p then .next s
  else .next (s.regWrite rq (clocheOff p) (fun s =>
    if (s.partRec p).valid ∧ (s.partRec p).clocheOk ∧ s.queuesOff p ∧ (s.cloche p).st = .off then
      (s.setClocheSt p .entering).wipePart p
    else s.discard 0x21 (clocheOff p)))

/-- A span written with zeros; units with an uncorrectable error are replaced. -/
def State.zeroSpan (s : State) (x : Nat × Nat) : State :=
  { s with mem := { s.mem with
      loc := s.mem.loc.clear x.1 x.2, bad := s.mem.bad.filter (fun u => !(within (64 * u) 64 x.1 x.2)) } }

/-- SCRUB_DONE (R553): the spans hold zeros; a teardown's scrub leaves the partition OFF (R549). -/
def execScrubDone (p : Nat) (s : State) : Res :=
  let c := s.cloche p
  if 8 ≤ p ∨ !c.scrub then .next s
  else
    let s := c.scrubSpans.foldl (fun (s : State) x => s.zeroSpan x) s
    let s := s.setCloche p { c with scrub := false, scrubSpans := [], teardown := false }
    .next (if c.teardown then s.setClocheSt p .off else s)

/-- CLOCHE_WIPE_DONE (Table 20-9): the wipe that entry began is complete. -/
def execClocheWipeDone (p : Nat) (s : State) : Res :=
  if (s.cloche p).st = .entering ∧ ¬(s.cloche p).scrub ∧ p < 8 then .next (s.setClocheSt p .locked) else .next s

/-- A session that FINISH completed over Data Object Exchange. -/
def State.doeSession (s : State) (id : Nat) : Bool := s.sec.spdm.sessions.any (fun x => x.id == id && x.up && x.doe)

/-- CLOCHE_ADMIT (R546): both IDE streams have keys from the session, and the host's TEE security manager has locked the
configuration and accepted the module within it. -/
def execClocheAdmit (p session : Nat) (s : State) : Res :=
  if 8 ≤ p ∨ (s.cloche p).st ≠ .locked ∨ !(s.doeSession session) ∨ s.host.perst ∨ !s.board.rails then .next s
  else .next ((s.setCloche p { s.cloche p with ide := true, tsp := true, session := some session }).setClocheSt p .admitted)

/-- Admission of a partition is lost: LOCKED at once, an event, and the security interrupt (R546). -/
def State.loseAdmission (s : State) (p : Nat) (ide tsp : Bool) : State :=
  if (s.cloche p).st = .admitted then
    let s := s.setCloche p { s.cloche p with st := .locked, ide := ide, tsp := tsp, session := none }
    (s.event (islandShed 23) 0x91 none none ClocheSt.locked.code).irq 7
  else s

/-- Every partition's admission is lost, where `f` says so. -/
def State.loseAdmissions (s : State) (ide tsp : Bool) (f : Cloche → Bool) : State :=
  (List.range 8).foldl (fun (s : State) p => if f (s.cloche p) then s.loseAdmission p ide tsp else s) s

/-- ADMISSION_LOST (R546): `ide` and `tsp` tell what still holds. -/
def execAdmissionLost (p : Nat) (ide tsp : Bool) (s : State) : Res :=
  if 8 ≤ p then .next s else .next (s.loseAdmission p ide tsp)

end Sys2Proof.Machine
end

