-- ==== Sys2Proof/Machine/Power.lean ====
section
/-! DEFINITION. The power manager, droop, telemetry, VR_ALERT_N, thermal control, ageing trims and overwintering (chapter
17, R477 to R500). Energies are in 1/256 pJ, powers in energy per 100 ns window. -/
namespace Sys2Proof.Machine

def State.setPwr (s : State) (f : Pwr → Pwr) : State := { s with pwr := f s.pwr }

/-- The power manager's event: DATA holds an island and a level (Table 21-12). -/
def State.pwrEvent (s : State) (code level : Nat) : State := s.event (islandShed 24) code none none (islandShed 24 + level * 2 ^ 16)

/-! The estimator (R483). -/

/-- Island kind whose supply scales an estimator kind (Table 17-3; kinds in the row order of Table 01-6). -/
def kindIsland : Nat → Nat
  | 0 | 1 | 4 => 0
  | 2 => 1
  | 3 => 2
  | 5 => 4
  | 7 => 3
  | _ => 5

/-- Energy of one count entry: count × coef × (v(level) / v(15))². -/
def State.countEnergy (s : State) (c : PCount) : Nat :=
  let v := s.supply (kindIsland c.kind) (s.level c.group)
  let v15 := s.supply (kindIsland c.kind) 15
  c.count * s.pwr.coef.getD c.kind 0 * (v * v) / (v15 * v15)

/-- The tag of a group's static energy: its running LAUNCH's queue, its idle activity, or the module. -/
def State.staticTag (s : State) (n : Nat) : PTag :=
  if n < 8 then
    match (s.part n).launch with
    | some l => .queue l.queue
    | none => .idle n
  else .module_

/-- The energy of a window by tag. -/
def State.windowEnergy (s : State) (cs : List PCount) : List (PTag × Nat) :=
  cs.map (fun c => (c.tag, s.countEnergy c))
  ++ ((List.range 11).filter s.groupOn).map (fun n => (s.staticTag n, Config.staticEnergy n (s.level n)))

/-- The partition that a tag belongs to. -/
def State.tagPart (s : State) (t : PTag) : Option Nat :=
  match t with
  | .queue q =>
    (match (s.queue q).running with
     | some x => s.partOfCtx (s.ctxOf q x.cmd.word1)
     | none => s.partOfQueue q)
  | .idle p => some p
  | .module_ => none

/-- Energy with the factor K in force. -/
def State.withK (s : State) (e : Nat) : Nat := e * s.pwr.k / 2 ^ 14

/-- A tagged estimate added to the energy counters (R495). -/
def State.addEnergy (s : State) (t : PTag) (e : Nat) : State :=
  let k := s.withK e
  let addP (p : Nat) (l : List Nat) : List Nat := l.set p (l.getD p 0 + k)
  match t with
  | .queue q =>
    s.setPwr (fun w => { w with
      enQ := Tab.modify 0 w.enQ q (· + k),
      enP := match s.tagPart t with
        | some p => addP p w.enP
        | none => w.enP })
  | .idle p => s.setPwr (fun w => { w with enIdle := addP p w.enIdle, enP := addP p w.enP })
  | .module_ => s.setPwr (fun w => { w with enMod := w.enMod + k })

/-- Counted events that a lane's counters select (Table 21-8, codes 0x01 to 0x0B). -/
def State.countKinds (s : State) (cs : List PCount) : State :=
  cs.foldl (fun (s : State) c => match c.tag with
    | .queue q => s.bump q (c.kind + 1) c.count
    | _ => s) s

/-- The blocks' counts of products computed and gated in partition p since they were last read (R102), tagged as R483
says. -/
def State.productCounts (s : State) (p : Nat) : List PCount :=
  let sum (f : Block → Nat) : Nat := (s.regionsOf p).foldl (fun n r => (s.region r).blocks.foldl (fun n b => n + f b) n) 0
  [⟨s.staticTag p, p, 0, sum (·.products)⟩, ⟨s.staticTag p, p, 1, sum (·.gated)⟩].filter (fun c => 0 < c.count)

/-- Every block's product counts start again from 0 (R102). -/
def State.restartCounts (s : State) : State :=
  { s with regions := s.regions.map (fun r => { r with blocks := r.blocks.map (fun b => { b with products := 0, gated := 0 }) }) }

/-- The part of a window's estimate that a partition accounts for. -/
def State.partEnergy (s : State) (es : List (PTag × Nat)) (p : Nat) : Nat :=
  es.foldl (fun n e => if s.tagPart e.1 = some p then n + e.2 else n) 0

/-! Control power and capping (R486 to R488). -/

/-- 0.1 W as energy of a window. -/
def deciWatt (x : Nat) : Nat := x * 2560000

/-- P_c of a step whose raw estimate is e (R486, Table 17-17). -/
def State.controlPower (s : State) (e : Nat) : Nat :=
  let w := s.pwr
  if !w.diverge ∨ w.telemlost then s.withK e
  else max e (if w.eLast = 0 then 0 else deciWatt w.mLast * e / w.eLast)

/-- A group drops one level below the level in effect; one that an aligned partition's command holds drops once. -/
def State.drop (s : State) (n : Nat) : State :=
  if s.levelHeld n ∨ s.level n = 0 then s
  else (s.setPwr (fun w => { w with mgr := w.mgr.set n (s.level n - 1) })).refreshLevel n

/-- Above level 0 and not a deterministic partition with a command running (R488). -/
def State.eligibleGroup (s : State) (n : Nat) : Bool := s.groupOn n && decide (0 < s.level n) && !(s.detRuns n)

/-- The eligible partition with the most attributed energy. -/
def State.hungriest (s : State) (es : List (PTag × Nat)) : Option Nat :=
  ((List.range 8).filter s.eligibleGroup).foldl (fun (b : Option Nat) p => match b with
    | none => some p
    | some c => if s.partEnergy es c < s.partEnergy es p then some p else b) none

/-- The second row of Table 17-5: one partition drops, or the uncore groups, or the shed. -/
def State.dropOne (s : State) (es : List (PTag × Nat)) : State :=
  let s := s.setPwr (fun w => { w with lastDrop := s.now })
  match s.hungriest es with
  | some p => s.drop p
  | none => if s.eligibleGroup 8 ∨ s.eligibleGroup 9 then (s.drop 8).drop 9 else s.drop 10

/-- A partition exceeds its own limit (R486). -/
def State.overLimit (s : State) (p : Nat) : Bool :=
  (s.partRec p).valid && s.pwr.plimit.getD p 0 != 0 && decide (wattEnergy (s.pwr.plimit.getD p 0) < s.pwr.partPower.getD p 0)

/-- Every partition over its own limit drops one level, at most once per 1 µs each (Table 17-5). -/
def State.dropLimited (s : State) : State :=
  ((List.range 8).filter (fun p => s.overLimit p && decide (Tab.get 0 s.pwr.limitDrop p + 1000 ≤ s.now))).foldl (fun (s : State) p =>
    (s.setPwr (fun w => { w with limitDrop := Tab.set 0 w.limitDrop p s.now })).drop p) s

/-- A group may rise: below its trellis maximum, its partition within 0.95 of its limit. -/
def State.mayRise (s : State) (n : Nat) : Bool :=
  s.groupOn n && decide (s.pwr.mgr.getD n 0 < s.groupMax n) && !(s.forced n)
  && (decide (8 ≤ n) || s.pwr.plimit.getD n 0 == 0 || decide (100 * s.pwr.partPower.getD n 0 ≤ 95 * wattEnergy (s.pwr.plimit.getD n 0)))

/-- The last row of Table 17-5: the lowest-level group rises by one. -/
def State.rise (s : State) : State :=
  let b := ((List.range 11).filter s.mayRise).foldl (fun (b : Option Nat) n => match b with
    | none => some n
    | some c => if s.level n < s.level c then some n else b) none
  match b with
  | some n => (s.setPwr (fun w => { w with mgr := w.mgr.set n (w.mgr.getD n 0 + 1), lastRise := s.now })).refreshLevel n
  | none => s

/-- The first row of Table 17-5 holds. -/
def State.hardCap (s : State) (pc : Nat) : Bool :=
  let w := s.pwr
  decide (wattEnergy w.peak < pc)
  || (match w.excurSince with
      | some t => decide (t + 10000000 ≤ s.now)
      | none => false)
  || (decide (wattEnergy w.sust < pc) && (match w.excurEnd with
      | some t => decide (s.now ≤ t + 40000000)
      | none => false))

/-- The excursion begins, where the first row of Table 17-5 does not hold, or ends. -/
def State.trackExcursion (s : State) (pc : Nat) : State :=
  let ps := wattEnergy s.pwr.sust
  match s.pwr.excurSince with
  | some _ => if pc ≤ ps then s.setPwr (fun w => { w with excurSince := none, excurEnd := some s.now }) else s
  | none => if ps < pc ∧ !(s.hardCap pc) then s.setPwr (fun w => { w with excurSince := some s.now }) else s

/-- P_c has been at or below 0.95 × P_S since. -/
def State.trackLow (s : State) (pc : Nat) : State :=
  if 100 * pc ≤ 95 * wattEnergy s.pwr.sust then
    s.setPwr (fun w => { w with lowSince := match w.lowSince with
      | some t => some t
      | none => some s.now })
  else s.setPwr (fun w => { w with lowSince := none })

/-- The capping rules of one step: the first row that holds acts. -/
def State.capStep (s : State) (pc : Nat) (es : List (PTag × Nat)) : State :=
  let s := (s.trackExcursion pc).trackLow pc
  let w := s.pwr
  if s.hardCap pc then (List.range 11).foldl (fun (s : State) n => if s.groupOn n then s.drop n else s) s
  else if wattEnergy w.sust < pc then (if w.lastDrop + 1000 ≤ s.now then s.dropOne es else s)
  else
    if (List.range 8).any s.overLimit then s.dropLimited
    else match w.lowSince with
      | some t => if t + 10000 ≤ s.now ∧ w.lastRise + 10000 ≤ s.now then s.rise else s
      | none => s

/-- POWER_STEP (R102, R483, R486, R488, R495): one 100 ns window with its counted events; the blocks' product counts are
read and start again. -/
def execPowerStep (counts : List PCount) (s : State) : Res :=
  if !s.board.rails then .next s
  else
    let counts := counts ++ (List.range 8).flatMap s.productCounts
    let es := s.windowEnergy counts
    let e := es.foldl (fun n x => n + x.2) 0
    let pc := s.controlPower e
    let s := s.restartCounts
    let s := es.foldl (fun (s : State) x => s.addEnergy x.1 x.2) (s.countKinds counts)
    let s := s.setPwr (fun w => { w with
      ctrl := min 65535 (pc / 2560000), ewSum := w.ewSum + e, ewSteps := w.ewSteps + 1,
      partAcc := (List.range 8).map (fun p => w.partAcc.getD p 0 + s.withK (s.partEnergy es p)) })
    .next ((s.refreshLevels).capStep pc es)

/-! Telemetry (R484, R485, R496). -/

/-- K between 0.85 and 1.15 in Q2.14. -/
def clampK (k : Nat) : Nat := max 13926 (min 18841 k)

/-- µJ of a counter in 1/256 pJ, wrapping as R495 says. -/
def microJoule (e : Nat) : Nat := e / 256000000 % 2 ^ 64

/-- What a Cloche partition's counters show outside: its µJ rounded down to 10,000 (R496). -/
def coarse (e : Nat) : Nat := microJoule e / 10000 * 10000

/-- The end of a 1 ms window: coarse values, the partitions' mean powers, and new sums. -/
def State.endWindow (s : State) : State :=
  s.setPwr (fun w => { w with
    partPower := w.partAcc.map (fun x => if w.ewSteps = 0 then 0 else x / w.ewSteps), partAcc := List.replicate 8 0, ewSum := 0, ewSteps := 0,
    visQ := w.enQ.foldl (fun (t : Tab Nat) (e : Nat × Nat) => Tab.set 0 t e.1 (coarse e.2)) [], visP := w.enP.map coarse, visIdle := w.enIdle.map coarse,
    visMeas := w.meas / 100 * 100, visCtrl := w.ctrl / 100 * 100 })

/-- DIVERGE set or cleared (R485). -/
def State.setDiverge (s : State) (v : Bool) : State :=
  if s.pwr.diverge = v then s
  else
    let s := s.setPwr (fun w => { w with diverge := v })
    let s := if v then (s.pwrEvent 0x61 0).irq 4 else s
    s.notify 0x0003 none (boolNat v)

/-- One window judged (R485). -/
def State.judge (s : State) (divergent : Bool) : State :=
  let s := s.setPwr (fun w => { w with divStreak := if divergent then w.divStreak + 1 else 0, okStreak := if divergent then 0 else w.okStreak + 1 })
  if 10 ≤ s.pwr.divStreak then s.setDiverge true else if 10 ≤ s.pwr.okStreak then s.setDiverge false else s

/-- K of a window: K_raw = M / E_w clamped. With no energy estimated at all the ratio is an open value. -/
def State.windowK (s : State) (m e : Nat) : Nat × State :=
  if e = 0 then
    let (w, s) := s.draw
    (clampK (w.toNat % 2 ^ 16), s)
  else (clampK (deciWatt m * 2 ^ 14 / e), s)

/-- TELEMETRY_WINDOW (R484): power in 0.1 W, input voltage in 10 mV. -/
def execTelemetryWindow (power vin : Nat) (s : State) : Res :=
  if !s.board.rails then .next s
  else
    let e := if s.pwr.ewSteps = 0 then 0 else s.pwr.ewSum / s.pwr.ewSteps
    let m := deciWatt power
    let (k, s) := s.windowK power e
    let s := s.setPwr (fun w => { w with meas := power % 65536, mLast := power, eLast := e, k := k, vin := vin, telemlost := false, missed := 0 })
    .next ((s.judge (decide (m * 100 < 85 * e) || decide (115 * e < m * 100))).endWindow)

/-- TELEMETRY_LOST (R484): a window goes unreported; after the third K is 1.15. -/
def execTelemetryLost (s : State) : Res :=
  if !s.board.rails then .next s
  else
    let n := s.pwr.missed + 1
    .next ((s.setPwr (fun w => { w with missed := n, telemlost := w.telemlost || decide (3 ≤ n), k := if 3 ≤ n then 18841 else w.k })).endWindow)

/-- COEF_WRITE (Table 17-4): ENERGY is written, DIVERGE cleared and the counts restarted. -/
def execCoefWrite (rq : Requester) (k : Nat) (v : Word) (s : State) : Res :=
  if 11 ≤ k then .next s
  else .next (s.regWrite rq (0xE0100 + 8 * k) (fun s =>
    (s.setPwr (fun w => { w with coef := w.coef.set k (v.toNat % 2 ^ 24), divStreak := 0, okStreak := 0 })).setDiverge false))

/-! Droop (R482). -/

/-- What a shortfall stretches a cycle by, in units of 1/16,000 of its period (R482). -/
def stretchOf (shortfall : Nat) : Nat := if 45 < shortfall then 8000 else if 30 < shortfall then 4000 else if 15 < shortfall then 2000 else 0

/-- The region that a region-control island serves. -/
def State.regionOfIsland (s : State) (island : Nat) : Option Nat := if island / 2 ^ 12 = 2 then (List.range 16).find? (fun r => s.regionIsland r == island) else none

/-- DROOP_DETECT: a cycle is stretched when the shortfall exceeds 15 mV, and counted; a region-control island's stretch
lengthens its cycle. -/
def execDroopDetect (island shortfall : Nat) (s : State) : Res :=
  if shortfall ≤ 15 then .next s
  else
    let s := s.setPwr (fun w => { w with stretched := Tab.modify 0 w.stretched island (· + 1) })
    let s := match s.regionOfIsland island with
      | some r => s.setRegion r { s.region r with clkLost := (s.region r).clkLost + stretchOf shortfall }
      | none => s
    .next (match s.partOfIsland island with
      | some p => if island / 2 ^ 12 = 0 then s.bumpPart p 0x12 1 else s
      | none => s)

/-- DROOP_PERSIST: an event of the island. -/
def execDroopPersist (island : Nat) (s : State) : Res :=
  let level := match s.partOfIsland island with
    | some p => s.level p
    | none => if island / 2 ^ 12 = 5 then s.level 10 else s.level (8 + island / 2 ^ 11 % 2)
  let ring := if island / 2 ^ 12 = 1 then island + 2 ^ 12 else island
  .next (s.event (ring) 0x62 none none (island + level * 2 ^ 16))

/-! VR_ALERT_N (R490). -/

/-- The manager's levels of groups start again from 0. -/
def Pwr.zero (w : Pwr) (p : Nat → Bool) : Pwr :=
  { w with mgr := (List.range 11).map (fun n => if p n then 0 else w.mgr.getD n 0), lowSince := none }

/-- VR_ALERT_ASSERT: every island to level 0; counted and reported. -/
def execVrAlertAssert (s : State) : Res :=
  if !s.board.rails ∨ s.pwr.vra then .next s
  else
    let s := s.setPwr (fun w => ({ w with vra := true, vrHold := false, vrRelease := none, vrcount := min 255 (w.vrcount + 1) } : Pwr).zero (fun _ => true))
    .next ((((s.refreshLevels).pwrEvent 0x60 0).irq 4).notify 0x0004 none s.pwr.vrcount)

/-- VR_ALERT_RELEASE: the islands stay at level 0 for 100 µs. -/
def execVrAlertRelease (s : State) : Res :=
  if s.pwr.vra then .next (s.setPwr (fun w => { w with vra := false, vrHold := true, vrRelease := some s.now })) else .next s

/-- VR_HOLD_EXPIRE. -/
def execVrHoldExpire (s : State) : Res :=
  match s.pwr.vrRelease with
  | some t => if s.pwr.vrHold ∧ t + 100000 ≤ s.now then .next ((s.setPwr (fun w => { w with vrHold := false, vrRelease := none })).refreshLevels) else .next s
  | none => .next s

/-! Thermal control (R491, R492). Sensors 0 to 63 lie on the compute dies, 32 a die, 64 to 71 on the shed, and 72 to 83
are the stacks. -/

/-- Thermal domain of a sensor: its die, or the shed. -/
def sensorDomain (i : Nat) : Nat := if i < 32 then 0 else if i < 64 then 1 else if i < 72 then 2 else if i < 78 then 0 else 1

def State.setSensor (s : State) (i v : Nat) : State := s.setPwr (fun w => { w with sensors := w.sensors.set i v })

/-- Refresh rate and bandwidth of a stack at a reading (Table 17-10). -/
def State.stackHeat (s : State) (i v : Nat) : State :=
  if 72 ≤ i ∧ i < 84 then
    s.setPwr (fun w => { w with refresh2x := w.refresh2x.set (i - 72) (decide (85 < v)), halved := w.halved.set (i - 72) (decide (95 < v)) })
  else s

/-- THERMAL_THROTTLE: a junction above THROTTLE lowers its domain's cap by one level per 100 µs; a stack refreshes faster
or runs at half bandwidth. -/
def execThermalThrottle (sensor reading : Nat) (s : State) : Res :=
  if 84 ≤ sensor ∨ !s.board.rails then .next s
  else
    let s := (s.setSensor sensor reading).stackHeat sensor reading
    let d := sensorDomain sensor
    let cap := s.pwr.therm.getD d 15
    if 72 ≤ sensor ∨ reading ≤ s.pwr.throttle ∨ cap = 0 ∨ s.now < s.pwr.thermAt.getD d 0 + 100000 then .next s
    else .next (((s.setPwr (fun w => { w with therm := w.therm.set d (cap - 1), thermAt := w.thermAt.set d s.now })).refreshLevels).pwrEvent 0x63 (cap - 1))

/-- Readings of every junction sensor of a domain. -/
def State.setReadings (s : State) (domain : Nat) (readings : List Nat) : State :=
  let lo := if domain = 0 then 0 else if domain = 1 then 32 else 64
  let n := if domain = 2 then 8 else 32
  ((List.range n).zip readings).foldl (fun (s : State) x => s.setSensor (lo + x.1) x.2) s

/-- Every junction sensor of a domain is at or below a temperature. -/
def State.coolTo (s : State) (domain t : Nat) : Bool :=
  (List.range 72).all (fun i => sensorDomain i != domain || decide (s.pwr.sensors.getD i 0 ≤ t))

/-- THERMAL_CAP_RISE: every sensor is 5 °C below THROTTLE; one level per 1 ms. -/
def execThermalCapRise (domain : Nat) (readings : List Nat) (s : State) : Res :=
  if 3 ≤ domain ∨ !s.board.rails then .next s
  else
    let s := s.setReadings domain readings
    let cap := s.pwr.therm.getD domain 15
    if 15 ≤ cap ∨ !(s.coolTo domain (s.pwr.throttle - 5)) ∨ s.now < s.pwr.thermAt.getD domain 0 + 1000000 then .next s
    else .next (((s.setPwr (fun w => { w with therm := w.therm.set domain (cap + 1), thermAt := w.thermAt.set domain s.now })).refreshLevels).pwrEvent 0x63 (cap + 1))

/-- The highest reading now (PWR_THERM.HOT). -/
def State.hottest (s : State) : Nat := s.pwr.sensors.foldl max 0

/-- TRIP of a sensor: the register, or 105 °C for a stack. -/
def State.tripOfSensor (s : State) (i : Nat) : Nat := if i < 72 then s.pwr.trip else 105

/-- THERMAL_TRIP: the domain's islands go to level 0 (R491, R492). -/
def execThermalTrip (sensor reading : Nat) (s : State) : Res :=
  if 84 ≤ sensor ∨ !s.board.rails then .next s
  else
    let s := (s.setSensor sensor reading).stackHeat sensor reading
    let d := sensorDomain sensor
    if reading ≤ s.tripOfSensor sensor ∨ s.pwr.tripped.getD d false then .next s
    else
      let s := s.setPwr (fun w => { w with tripped := w.tripped.set d true })
      let s := (s.setPwr (fun w => w.zero (fun n => (s.domainsOf n).contains d))).refreshLevels
      .next ((s.pwrEvent 0x63 0).notify 0x0005 none (s.hottest % 256))

/-- THERMAL_TRIP_CLEAR: every sensor of the domain is 10 °C below TRIP. -/
def execThermalTripClear (domain : Nat) (readings : List Nat) (s : State) : Res :=
  if 3 ≤ domain ∨ !s.board.rails then .next s
  else
    let s := s.setReadings domain readings
    let stacksCool := (List.range 84).all (fun i => i < 72 || sensorDomain i != domain || decide (s.pwr.sensors.getD i 0 ≤ 95))
    if !(s.pwr.tripped.getD domain false) ∨ !(s.coolTo domain (s.pwr.trip - 10)) ∨ !stacksCool then .next s
    else .next ((s.setPwr (fun w => { w with tripped := w.tripped.set domain false })).refreshLevels)

/-! Ageing trims (R493, R494). -/

/-- AGEING_TRIM: a trim only increases, to at most 24 steps, and is logged. -/
def execAgeingTrim (island steps : Nat) (slack : Int) (s : State) : Res :=
  let old := Tab.get 0 s.pwr.trims island
  if steps ≤ old ∨ 24 < steps ∨ !s.board.rails then .next s
  else .next (s.setPwr (fun w => { w with
    trims := Tab.set 0 w.trims island steps, trimLog := (⟨s.now, island, old, steps, slack⟩ :: w.trimLog).take 1024 }))

/-! Overwintering (R497 to R499). -/

/-- Offset of PWR_OW_CTRL. -/
def owOff : Nat := 0xE0018

/-- OW_ENTER: discarded with an event unless STATE is SERVING (Table 17-16). -/
def execOwEnter (rq : Requester) (s : State) : Res :=
  .next (s.regWrite rq owOff (fun s =>
    if s.pwr.ow = .serving then s.setPwr (fun w => { w with ow := .entering }) else s.discard 0x21 owOff))

/-- OVERWINTER_REACHED: no command runs any more; the memory is in self-refresh, the islands are off, and the caches that
every command rebuilds are lost. -/
def execOverwinterReached (s : State) : Res :=
  if s.pwr.ow ≠ .entering ∨ allQueues.any (fun q => (s.queue q).running.isSome) then .next s
  else
    let s := s.setPwr (fun w => ({ w with ow := .overwintering } : Pwr).zero (fun _ => true))
    .next ({ s with
      mem := { s.mem with selfRefresh := true, wokenUntil := none },
      regions := s.regions.map (fun x => { x with rlc := [], plans := [], walk := none }) } : State).refreshLevels

/-- WAKE: discarded unless STATE is ENTERING or OVERWINTERING (Table 17-16). -/
def execWake (rq : Requester) (s : State) : Res :=
  .next (s.regWrite rq owOff (fun s =>
    match s.pwr.ow with
    | .entering | .overwintering => s.wakeUp
    | _ => s.discard 0x21 owOff))

/-- Every deterministic partition is to be aligned. -/
def State.loseAllAlign (s : State) : State :=
  (List.range 8).foldl (fun (s : State) p => if (s.partRec p).valid ∧ (s.partRec p).det then s.loseAlign p else s) s

/-- WAKE_COMPLETE: memory is back, the groups have risen by the restore ramp, and aligned partitions are aligned before
their first command (Table 17-15). -/
def execWakeComplete (s : State) : Res :=
  if s.pwr.ow ≠ .waking then .next s
  else
    let s := s.setPwr (fun w => { w with ow := .serving })
    .next (({ s with mem := { s.mem with selfRefresh := false, wokenUntil := none } } : State).ramp).loseAllAlign

/-- RETENTION_SCRUB: SRAM and bank words are read in retention; an uncorrectable one, given by address and tier, is logged
with SOURCE 3; the corrected words change no state. -/
def execRetentionScrub (bad : List (Nat × Nat)) (_corrected : Nat) (s : State) : Res :=
  if s.pwr.ow ≠ .overwintering then .next s
  else .next (bad.foldl (fun (s : State) b => s.logError b.1 b.2 3 none 0 0 0) s)

/-- SELF_REFRESH_REENTER: 100 µs without an access. -/
def execSelfRefreshReenter (s : State) : Res :=
  match s.mem.wokenUntil with
  | some t => if s.mem.selfRefresh ∧ t ≤ s.now then .next { s with mem := { s.mem with wokenUntil := none } } else .next s
  | none => .next s

end Sys2Proof.Machine
end

