-- ==== Sys2Proof/Machine/Reliab.lean ====
section
/-! DEFINITION. Repair, self-test and the device reset (chapter 18). -/
namespace Sys2Proof.Machine

/-! The module's repair record (R518). -/

/-- A list of bytes brought to n bytes with zeros. -/
def padBytes (n : Nat) (bs : List Byte) : List Byte := bs ++ List.replicate (n - bs.length) 0

/-- Bytes of a repair entry and of a trim entry (Table 19-4). -/
def RepairEntry.bytes (e : RepairEntry) : List Byte := leBytes 4 e.unit ++ leBytes 4 e.action
def TrimEntry.bytes (e : TrimEntry) : List Byte := leBytes 2 e.island ++ leBytes 2 e.trim

/-- A repair record of the entries and trims in service, made now and signed with the attestation key (R518). -/
def State.makeRepair (s : State) : List Byte :=
  let es := s.trl.st.entries
  let ts := s.pwr.trims
  let head := padBytes 64 (leBytes 4 0x4B325250 ++ leBytes 2 1 ++ leBytes 2 s.modid ++ leBytes 4 es.length ++ leBytes 4 ts.length ++ leBytes 8 s.now)
  let tail := es.flatMap RepairEntry.bytes ++ ts.flatMap (fun t => (TrimEntry.mk t.1 t.2).bytes)
  let sig := Config.akSign s.sec.akSvn (sha3 (head ++ tail))
  head ++ s.ownKey ++ fitTo 4672 sig ++ tail

/-- The module's current record made anew. -/
def State.newRepair (s : State) : State := { s with trl := { s.trl with st := { s.trl.st with repair := s.makeRepair } } }

/-! The pending repair list (R504, R507, Tables 18-4 and 18-5). -/

def State.setRel (s : State) (f : Rel18 → Rel18) : State := { s with rel := f s.rel }

/-- A decision recorded; with 256 entries in the list it goes to the event ring only. -/
def State.recordRepair (s : State) (kind st count unit : Nat) : State :=
  s.setRel (fun r => if 256 ≤ r.pending.length then { r with full := true }
    else { r with pending := r.pending ++ [⟨s.now, kind, st, count % 65536, unit⟩] })

/-- An event of the control cores about a repair. -/
def State.repairEvent (s : State) (code unit : Nat) : State := s.event (islandShed 25) code none none (unit % 2 ^ 32)

/-- No spare is left for a unit (R507). -/
def State.noSpare (s : State) (unit : Nat) : State :=
  (((s.setRel (fun r => { r with exhaust := true })).irq 5).notify 0x0007 none (unit % 2 ^ 32 + 2 ^ 32)).repairEvent 0x72 unit

/-- A repair has been applied (R506 step 5). -/
def State.repaired (s : State) (unit : Nat) : State :=
  let s := s.setRel (fun r => { r with
    applied := min 0xFFFF (r.applied + 1),
    pending := r.pending.map (fun e => if e.unit = unit ∧ e.st ≠ 3 then { e with st := 1 } else e) })
  ((s.irq 5).notify 0x0007 none (unit % 2 ^ 32)).repairEvent 0x71 unit

/-- A column decision of the same block whose mapping has not taken effect (Table 18-13). -/
def Rel18.waitingColumn (r : Rel18) (unit : Nat) : Option PendRepair :=
  r.pending.find? (fun e => e.kind == 1 && e.st == 0 && e.unit / 2 ^ 20 == unit / 2 ^ 20 && e.unit != unit)

/-- The parent of a column, block or region, and its last physical unit, the spare. -/
def unitLevel (u : Nat) : Option (Nat × Nat) :=
  match u / 2 ^ 28 with
  | 1 => some (u / 2 ^ 20 * 2 ^ 20, u / 2 ^ 20 * 2 ^ 20 + 8 * 2 ^ 16)
  | 2 => some (u / 2 ^ 23 * 2 ^ 23, u / 2 ^ 23 * 2 ^ 23 + 6 * 2 ^ 20)
  | 3 => some (u / 2 ^ 27 * 2 ^ 27, u / 2 ^ 27 * 2 ^ 27 + 8 * 2 ^ 23)
  | _ => none

/-- The spare of a unit's parent can take its place. -/
def State.spareFor (s : State) (u : Nat) : Bool :=
  match unitLevel u with
  | none => false
  | some (parent, spare) =>
    !(s.trl.st.entries.any (fun x => x.action == 0 && (unitLevel x.unit).map (·.1) == some parent))
    && !(s.trl.st.entries.any (fun x => x.action == 1 && x.unit == spare)) && !(s.rel.failedUnits.contains spare)

/-- The parent of a unit whose spares its own repair mechanism holds: an SRAM bank, a stack, a cellar channel. -/
def ownParent (unit : Nat) : Nat :=
  match unit / 2 ^ 28 with
  | 6 => unit / 2 ^ 23
  | 7 => unit / 2 ^ 22
  | _ => unit / 2 ^ 17

/-- A spare is left for a unit: no other decision waits for it, and no entry or decision has used it. -/
def State.spareLeft (s : State) (unit : Nat) : Bool :=
  match unitLevel unit with
  | some (parent, _) =>
    s.spareFor unit && !(s.rel.pending.any (fun e => e.st == 0 && (unitLevel e.unit).map (·.1) == some parent))
  | none =>
    decide ((s.rel.pending.filter (fun e => e.kind == unit / 2 ^ 28 && e.st != 3 && ownParent e.unit == ownParent unit)).length
      < Config.spareUnits (unit / 2 ^ 28) (ownParent unit))

/-- A unit that the repair map has replaced. -/
def State.mappedOut (s : State) (unit : Nat) : Bool := s.trl.st.entries.any (fun e => e.action == 0 && e.unit == unit)

/-- A cell column qualifies: 3 cell check failures within 24 h, or one whose retest failed (Table 18-2). -/
def State.columnQualifies (s : State) (u : Nat) : Bool :=
  decide (3 ≤ (s.faults24 u).length) || (s.faults24 u != [] && s.faults24 (besideKey (blockOfUnit u)) != [])

/-- A block qualifies: a second column of it, or its spare column, or 4 bank double-bit errors within 24 h. -/
def State.blockQualifies (s : State) (u : Nat) : Bool :=
  decide (4 ≤ (s.faults24 u).length) || decide (2 ≤ ((columnsOf u).filter (fun c => s.columnQualifies c || s.mappedOut c)).length)

/-- A region qualifies: a second block of it, or 3 failures of its vector engine or its region control within 24 h. -/
def State.regionQualifies (s : State) (u : Nat) : Bool :=
  let blocks := (List.range 7).map (fun b => 2 * 2 ^ 28 + u % 2 ^ 28 / 2 ^ 23 * 2 ^ 23 + b * 2 ^ 20)
  decide (3 ≤ (s.faults24 u).length) || decide (3 ≤ (s.faults24 (islandVector (bits u 27 27) (bits u 26 23))).length)
  || decide (2 ≤ (blocks.filter (fun b => s.blockQualifies b || s.mappedOut b)).length)

/-- A trigger of Table 18-2 holds. `hard` and `soft` are what the unit's controller has counted in the trigger's window, of
errors that are not corrected or a failed training, and of corrected errors. -/
def State.qualifies (s : State) (unit hard soft : Nat) : Bool :=
  match unit / 2 ^ 28 with
  | 1 => s.columnQualifies unit
  | 2 => s.blockQualifies unit
  | 3 => s.regionQualifies unit
  | 4 => decide (2 ≤ (s.faults24 unit).length) || decide (64 ≤ (s.faults24 (besideKey unit)).length)
  | 5 => decide (2 ≤ hard) || decide (64 ≤ soft)
  | 6 => decide (1 ≤ hard) || decide (1024 < soft)
  | 7 => decide (1 ≤ hard) || decide (16 ≤ soft)
  | _ => false

/-- Faults that lead to a decision (Table 18-5 COUNT). -/
def State.faultCount (s : State) (unit hard soft : Nat) : Nat :=
  if unit / 2 ^ 28 ≤ 3 then (s.faults24 unit).length
  else if unit / 2 ^ 28 = 4 then (s.faults24 unit).length + (s.faults24 (besideKey unit)).length else hard + soft

/-- A decision: pending with a spare, STATE 3 without one (R504, R507). -/
def State.decideRepair (s : State) (unit count : Nat) : State :=
  let spare := s.spareLeft unit
  let s := (s.recordRepair (unit / 2 ^ 28) (if spare then 0 else 3) count unit).repairEvent 0x70 unit
  if spare then s else s.noSpare unit

/-- A decision about the unit is in the list and not applied. -/
def State.decided (s : State) (unit : Nat) : Bool := s.rel.pending.any (fun e => e.unit == unit && e.st != 1)

/-- A column decision in a block whose spare column is in use is one about the block, and a block decision in a region whose
spare block is in use one about the region (Table 18-2). -/
def State.decisionUnit (s : State) (unit : Nat) : Nat :=
  match unit / 2 ^ 28 with
  | 1 => if (columnsOf unit).any s.mappedOut then blockOfUnit unit else unit
  | 2 => if s.trl.st.entries.any (fun e => e.action == 0 && e.unit / 2 ^ 23 == unit / 2 ^ 23) then 3 * 2 ^ 28 + unit % 2 ^ 28 / 2 ^ 23 * 2 ^ 23 else unit
  | _ => unit

/-- REPAIR_DECIDE (R504, R507): firmware reads a unit's fault counts and decides where a trigger of Table 18-2 holds. A
second column of a block before the first mapping took effect makes one spare-block decision of both (R515). -/
def execRepairDecide (unit hard soft : Nat) (s : State) : Res :=
  if !s.sec.fwok ∨ !(s.qualifies unit hard soft) ∨ s.decided unit then .next s
  else
    let n := s.faultCount unit hard soft
    match (if unit / 2 ^ 28 = 1 then s.rel.waitingColumn unit else none) with
    | some e =>
      let s := s.setRel (fun r => { r with pending := r.pending.filter (fun x => x != e) })
      .next (s.decideRepair (blockOfUnit unit) (e.count + n))
    | none => .next (s.decideRepair (s.decisionUnit unit) n)

/-! Physical units in service (R520). -/

/-- The logical region, on its die, that a physical region serves as. -/
def State.logicalRegion (s : State) (die pr : Nat) : Option Nat := ((List.range 8).map (8 * die + ·)).find? (fun r => s.physRegion r == pr)

/-- A physical block or region serves: its logical region. A spare serves as none. -/
def State.servesAs (s : State) (unit : Nat) : Option Nat :=
  match s.logicalRegion (bits unit 27 27) (bits unit 26 23) with
  | some r => if unit / 2 ^ 28 = 2 then (if (List.range 6).any (fun b => s.physBlock r b == bits unit 22 20) then some r else none) else some r
  | none => none

/-- SPARE_COLUMN_MAP (R108): a decided mapping takes effect in a block that holds no row in flight: no LAUNCH runs in its
partition. -/
def execSpareColumnMap (die region block : Nat) (s : State) : Res :=
  let base := unitColumn die region block 0
  match s.rel.pending.find? (fun e => e.kind == 1 && e.st == 0 && e.unit / 2 ^ 20 == base / 2 ^ 20) with
  | none => .next s
  | some e =>
    let busy : Bool := match (s.logicalRegion die region).bind s.partOfRegion with
      | some p => (s.part p).launch.isSome
      | none => false
    let mapped := s.trl.st.entries.any (fun x => x.action == 0 && x.unit / 2 ^ 20 == e.unit / 2 ^ 20)
    if busy ∨ mapped ∨ 8 ≤ bits e.unit 19 16 then .next s
    else
      let s := { s with trl := { s.trl with st := { s.trl.st with entries := s.trl.st.entries ++ [RepairEntry.mk e.unit 0] } } }
      .next ((s.repaired e.unit).newRepair)

/-! Self-test (R505, R509). -/

/-- A slice may test the unit now: it is a spare, or its partition has no LAUNCH running and none ready that is not held for
this slice (R505, R509). -/
def State.sliceOk (s : State) (unit : Nat) : Bool :=
  match (s.servesAs unit).bind s.partOfRegion with
  | none => true
  | some p => (s.part p).launch.isNone && (s.retestHolds p || !(allQueues.any (fun q => (s.queue q).ready && (s.queue q).headOpcode == some 1 && s.headPart q == some p)))

/-- Faults counted against the columns of a block that a passing retest found transient (R505). -/
def State.transient (s : State) (unit : Nat) : State :=
  s.setRel (fun r => { r with faults := (columnsOf unit).foldl (fun (t : Tab (List Nat)) c => Tab.modify [] t c List.tail) r.faults })

/-- A slice in a block that serves uses its weight sets, its row buffers and its 8 test entries, and writes no carve-out. -/
def State.sliceUses (s : State) (unit r : Nat) : State :=
  match (if unit / 2 ^ 28 = 2 then (List.range 6).find? (fun b => s.physBlock r b == bits unit 22 20) else none) with
  | some b =>
    let (v, s) := s.draw
    s.setRegion r ((s.region r).setBlock b ((((s.region r).block b).startCommand).putTest (Config.testWord v)))
  | none => s

/-- A unit that serves fails its slice: a failed retest of a block, or a failure of a region's vector engine. -/
def State.sliceFails (s : State) (unit : Nat) : State :=
  s.countFault (if unit / 2 ^ 28 = 2 then besideKey unit else islandVector (bits unit 27 27) (bits unit 26 23))

/-- A slice's outcome. A fault in a spare marks it unusable (R515); one in a unit that serves counts against it. -/
def State.sliceEnd (s : State) (unit : Nat) (pass : Bool) : State :=
  let s := s.setRel (fun r => { r with
    slices := (r.slices + 1) % 2 ^ 32, fails := if pass then r.fails else min 0xFFFF (r.fails + 1),
    last := if pass then r.last else unit / 2 ^ 16 % 2 ^ 16 })
  let s := match (s.servesAs unit) with
    | some r =>
      let s := s.sliceUses unit r
      let s := if pass then (if unit / 2 ^ 28 = 2 then s.transient unit else s) else s.sliceFails unit
      (match s.partOfRegion r with
       | some p => if (s.partRec p).det then s.loseAlign p else s
       | none => s)
    | none => if pass then s else s.recordRepair (unit / 2 ^ 28) 3 1 unit
  s

/-- SELFTEST_SLICE (R509). Before the image is loaded it is the power-on self-test of phase 4 that reports a unit (R529). -/
def execSelftestSlice (unit : Nat) (pass : Bool) (s : State) : Res :=
  if !s.sec.fwok ∨ s.inReset then .next s
  else if !s.trl.loaded then
    .next (if pass ∨ s.rel.failedUnits.contains unit then s else s.setRel (fun r => { r with failedUnits := r.failedUnits ++ [unit] }))
  else if !s.rel.stEn ∨ !(s.sliceOk unit) then .next s
  else .next (s.sliceEnd unit pass)

/-! The die network and the die-to-die links (Table 18-1). -/

/-- DIE_LINK_LANE_SPARE: the lane's spare is brought in live; with more bad lanes than spares trigger 6 follows. -/
def execDieLinkLaneSpare (link lane : Nat) (s : State) : Res :=
  if 3 ≤ link ∨ !s.board.rails then .next s
  else
    let n := Tab.get 0 s.rel.dieBad link + 1
    let unit := 8 * 2 ^ 28 + link * 2 ^ 26 + lane % 2 ^ 26
    let s := s.setRel (fun r => { r with dieBad := Tab.set 0 r.dieBad link n })
    .next (if Config.dieSpares link < n then s.trigger 6 ((if link = 2 then 1 else 0) * 2 ^ 8 + link)
      else (s.recordRepair 8 0 1 unit).repaired unit)

/-- DIE_NETWORK_RETRY: a packet's retries so far; it is counted against its segment, and the eighth failure triggers 6. -/
def execDieNetworkRetry (die segment attempts : Nat) (s : State) : Res :=
  if 2 ≤ die ∨ 9 ≤ segment ∨ !s.board.rails then .next s
  else
    let s := s.setRel (fun r => { r with retries := Tab.modify 0 r.retries (die * 16 + segment) (· + 1) })
    let s := s.countFault (9 * 2 ^ 28 + die * 2 ^ 27 + segment)
    .next (if 8 ≤ attempts then s.trigger 6 (die * 2 ^ 8 + segment) else s)

/-! Triggers (Table 18-3). -/

/-- FW_WATCHDOG_EXPIRE: trigger 1. -/
def execFwWatchdogExpire (core : Nat) (s : State) : Res := if s.sec.fwok then .next (s.trigger 1 core) else .next s

/-- FIRMWARE_FATAL: trigger 7. -/
def execFirmwareFatal (code : Nat) (s : State) : Res := if s.sec.fwok then .next (s.trigger 7 code) else .next s

/-- FE_DEVRESET (R511): KEY 0xA5C3 starts a device reset; any other key is discarded with an event. -/
def execFeDevreset (rq : Requester) (key : Word) (s : State) : Res :=
  .next (s.regWrite rq 0x20020 (fun s => if key.toNat % 65536 = 0xA5C3 then s.trigger 3 0 else s.discard 0x20 0x20020))

/-! The device reset (R512 to R514). -/

/-- A queue across a device reset (R392, R397): STOPPED unless DISABLED; completed records not yet written are shadowed.
FIDX, as HEAD, CTAIL, PHASE and the tail, is kept (R373); ENABLE fetches from HEAD. -/
def Queue.afterReset (x : Queue) : Queue :=
  if x.state = .disabled then x
  else
    { x with
      state := .stopped, prior := .stopped, fprior := .stopped, fetched := [], staged := false, seqNext := none, tReady := none,
      pass := none, running := none, shadow := x.shadow ++ x.inflight, inflight := [], abortTail := none, batch := none,
      granted := false, rt := none, enable := false }

/-- A partition's run-time state across a device reset (Table 18-11). -/
def Part.afterReset (x : Part) : Part :=
  { x with launch := none, counters := [], held := [], rounds := [], dropped := 0, filter := [], needAlign := false }

/-- A region across a device reset: SRAM and banks keep their contents in retention (Table 18-11). -/
def Region.afterReset (x : Region) : Region :=
  { Region.reset with
    blocks := x.blocks.map Block.startCommand, sram := x.sram, sramMark := x.sramMark, sramCorrected := x.sramCorrected }

/-- Generations across a device reset (Table 10-11): BUILDING and DRAINING entries become FREE, REFS of the others 0. -/
def State.gensAfterReset (s : State) : State :=
  let s := { s with wgt := { s.wgt with builds := [], caches := [], xfers := [] } }
  (List.range 64).foldl (fun (s : State) k =>
    let g := s.gen (k / 8) (k % 8)
    match g.st with
    | .building | .draining => s.freeGen (k / 8) (k % 8)
    | .free => s
    | _ => s.setGen (k / 8) (k % 8) { g with refs := 0 }) s

/-- Memory, translation and hot-segment registers: RW fields at their Reset values, kept state and the RO fields that
report it kept (R12). -/
def Mem.afterReset (m : Mem) : Mem :=
  { m with
    rtCtx := 0, rtOp := 0, rtDrain := false, rtData := [0, 0, 0, 0], rtBusy := none, hotThresh := 0x1000, hotEpoch := 6,
    hotEn := false, hotBase := 0, hotSizelog := 8, hotTail := 0, held := [], selfRefresh := false, wokenUntil := none }

/-- Links stay UP; what the module asked of others is given up; the RW registers take their Reset values. -/
def Eft.afterReset (e : Eft) : Eft :=
  { e with
    links := e.links.map (fun l => { l with lthresh := 0x0400 }), reqs := [], fetched := [],
    twin := { e.twin with auto := true, back := false, takeover := none } }

/-- Power across a device reset: the islands start at level 0, overwintering ends (R515). -/
def Pwr.afterReset (w : Pwr) : Pwr :=
  let w := w.zero (fun _ => true)
  { w with throttle := 0x5F, trip := 0x69, wakedb := true, ow := .serving }

/-- Observation across a device reset; a return record in assembly is assembled from the kept logs (Table 21-16). -/
def Obs.afterReset (o : Obs) : Obs :=
  { o with csel := [], rake := none, bdp := o.bdp.map (fun c => { c with space := 0, offset := 0, err := false, seen := 0 }) }

/-- Security across a device reset: the engine's sessions and plot keys are lost with the shed units' reset (Table 18-12). -/
def Sec.afterReset (x : Sec) : Sec := { x with spdm := .reset, keys := [], kid := [], fwBytes := 0 }

/-- Sessions of Cloche partitions end, and their wipe begins, or begins again (R512, R545, R553, R556). -/
def State.clocheAfterReset (s : State) : State :=
  (List.range 8).foldl (fun (s : State) p =>
    let c := s.cloche p
    if c.st = .off then s
    else ((s.setCloche p { c with ide := false, tsp := false, session := none }).setClocheSt p .entering).wipePart p) s

/-- Two consecutive resets that name one record leave its queue DISABLED (R514). -/
def State.nameRecord (s : State) : State :=
  let r := s.rel.resets
  if r.cause % 16 = 1 ∨ r.cause % 16 = 2 then
    let s1 := s.setRel (fun x => { x with resets := { x.resets with lastNamed := some (r.queue, r.seq) } })
    if r.lastNamed = some (r.queue, r.seq) then s1.setQueue r.queue { s1.queue r.queue with state := .disabled } else s1
  else s.setRel (fun x => { x with resets := { x.resets with lastNamed := none } })

/-- A cellar row that waits because it holds a unit with an uncorrectable error (R508). -/
def State.rowWaits (s : State) (unit : Nat) : Bool := s.mem.bad.any (fun u => Config.cellarRow (64 * u) == unit % 2 ^ 28)

/-- Repairs that a device reset applies: HBM lanes, and cellar rows that R508 allows (Table 18-2). -/
def State.repairsAtReset (s : State) : State :=
  (s.rel.pending.filter (fun e => (e.kind == 6 || e.kind == 7) && (e.st == 0 || e.st == 2))).foldl (fun (s : State) e =>
    if e.kind = 7 ∧ s.rowWaits e.unit then
      s.setRel (fun r => { r with pending := r.pending.map (fun x => if x = e then { x with st := 2 } else x) })
    else s.repaired e.unit) s

/-- A DISABLE field returns to 0: the port may train. -/
def State.enablePorts (s : State) : State := (List.range 18).foldl (fun (s : State) p => s.setDisable p false) s

/-- Page copies that a device reset ends leave their new frames free. -/
def State.dropCopies (s : State) : State := s.queuedActs.foldl (fun (s : State) x => s.dropCopy x) s

/-- Steps 1 to 4 of Table 18-12: what a device reset keeps and loses (R512, Table 18-11). -/
def State.loseState (s : State) : State :=
  let s := s.dropCopies
  let s := { s with
    front := .reset, queues := s.queues.map (fun (e : Nat × Queue) => (e.1, e.2.afterReset)),
    slots := s.slots.map (fun (t : Slot) => { t with sel := none, tSel := 0 }), parts := s.parts.map Part.afterReset,
    regions := s.regions.map Region.afterReset, transit := [], mem := s.mem.afterReset, eft := s.eft.afterReset,
    sync := { s.sync with bars := s.sync.bars.map (fun (e : Nat × Bar) => (e.1, { e.2 with gens := e.2.gens.map (fun (g : BarGen) => { g with queue := none }) })) },
    trl := { s.trl with busy := none, bytes := 0 }, pwr := s.pwr.afterReset, sec := s.sec.afterReset, obs := s.obs.afterReset,
    rel := { s.rel with stEn := true, stPeriod := 0x3E8 }, host := { s.host with halves := [] } }
  (((s.gensAfterReset.clocheAfterReset).nameRecord).enablePorts).repairsAtReset

/-- Vectors that became due while none could be sent: 1,038 first, then the others in ascending order (R589). -/
def State.flushVectors (s : State) : State :=
  (s.host.msixPend.map (·.1)).foldl (fun (s : State) v =>
    if s.host.msixEn && !s.host.fmask && !(Tab.get .reset s.host.msix v).mask then
      ({ s with host := { s.host with msixPend := Tab.set false s.host.msixPend v false } } : State).emit (.vector v)
    else s) s

/-- FE_RESET_TRIG (Table 18-9). -/
def Resets.trigWord (r : Resets) : Nat := r.trig + 2 ^ 4 * r.detail + 2 ^ 16 * boolNat r.busy

/-- Deterministic partitions are aligned. -/
def State.alignAll (s : State) : State :=
  ((List.range 8).filter (fun p => (s.partRec p).valid && (s.partRec p).det)).foldl (fun (s : State) p => s.align p) s

/-- The ready point (R513): the groups have risen, aligned partitions are aligned, BUSY is 0, and what waited is told. -/
def State.readyPoint (s : State) : State :=
  let s := if s.trl.phase = 9 then s.ramp.alignAll else s
  let s := s.setRel (fun r => { r with resets := { r.resets with busy := false, waitFw := false } })
  ((s.irq 6).notify 0x0008 none s.rel.resets.trigWord).flushVectors

/-- The firmware image slot still holds the image measured at power-on (Table 18-12 step 5). -/
def State.imageGood (s : State) : Bool := sha3 (s.sec.fwStage.load 0 (leNat (s.sec.fwStage.load 16 8))) == s.sec.fwdig

/-- DEVICE_RESET (R512 to R514): a reset that has begun runs to its ready point. `fwGood` says that the image was read as
stored; when its digest does not match, the module waits for a firmware load. -/
def execDeviceReset (fwGood : Bool) (s : State) : Res :=
  let r := s.rel.resets
  if !r.busy ∨ r.waitFw ∨ !s.board.rails then .next s
  else
    let s := s.loseState
    .next (if s.sec.fwok ∧ ¬(fwGood ∧ s.imageGood) then
        { s with sec := { s.sec with fwok := false }, rel := { s.rel with resets := { s.rel.resets with waitFw := true } } }
      else s.readyPoint)

end Sys2Proof.Machine
end

