-- ==== Sys2Proof/Machine/Image.lean ====
section
/-! DEFINITION. The trellis container: its header, directory and records, and the checks of Table 19-14 (chapter 19). -/
namespace Sys2Proof.Machine

/-- A check that fails names its RESULT, the section at fault and the record (Table 19-13). -/
abbrev TCheck (α : Type) := Except (Nat × Nat × Nat) α

/-- A condition of a check. -/
def tneed (c : Bool) (result sec rcd : Nat) : TCheck Unit := if c then .ok () else .error (result, sec, rcd)

/-- Bytes o to o + n − 1 are zero. -/
def zeroAt (bs : List Byte) (o n : Nat) : Bool := ((bs.drop o).take n).all (· == 0)

/-! Records (Tables 19-3 to 19-11). Each parser answers none for a reserved bit that is set or an unlisted encoding. -/

def parsePart (b : List Byte) : Option PartRec :=
  let f := leAt b 0 1
  if f < 16 ∧ leAt b 1 1 < 16 ∧ leAt b 4 4 < 2 ^ 18 ∧ zeroAt b 16 16 then
    some ⟨bit f 0, bit f 1, bit f 2, bit f 3, leAt b 1 1, leAt b 2 2, leAt b 4 4, leAt b 8 4, leAt b 12 2, leAt b 14 2⟩
  else none

def parseCtx (b : List Byte) : Option CtxRec :=
  let f := leAt b 0 1
  if f < 16 ∧ zeroAt b 1 3 ∧ zeroAt b 24 8 then
    some ⟨bit f 0, bits f 3 1, leAt b 4 4, leAt b 8 4, leAt b 12 2, leAt b 14 2, leAt b 16 8⟩
  else none

def parseMod (b : List Byte) : Option ModRec :=
  let f := leAt b 0 1
  let coef := (List.range 11).map (fun k => leAt b (16 + 4 * k) 4)
  if f < 64 ∧ zeroAt b 8 8 ∧ zeroAt b 60 68 ∧ coef.all (fun c => decide (c < 2 ^ 24)) then
    some ⟨bits f 4 0, bit f 5, leAt b 1 1 % 16, leAt b 1 1 / 16, leAt b 2 2, leAt b 4 2, leAt b 6 2, coef⟩
  else none

def parseSpan (b : List Byte) : Option SpanRec :=
  let k := leAt b 0 1
  if 1 ≤ k ∧ k ≤ 10 ∧ zeroAt b 2 6 ∧ zeroAt b 24 8 then some ⟨k, leAt b 1 1, leAt b 8 8, leAt b 16 8⟩ else none

def parseRouting (b : List Byte) : Option RoutingRec :=
  let route := leAt b 8 16
  let bar := leAt b 24 8
  if leAt b 0 1 < 64 ∧ zeroAt b 1 7 ∧ route / 2 ^ 105 = 0 ∧ bar / 2 ^ 49 = 0 then
    some ⟨leAt b 0 1, route, bar, (List.range 32768).filter (fun m => bit (leAt b (32 + m / 8) 1) (m % 8))⟩
  else none

def parseTrust (b : List Byte) : Option TrustRec :=
  let k := leAt b 0 1
  if (k = 1 ∨ k = 2) ∧ zeroAt b 2 14 then some ⟨k, leAt b 1 1, (b.drop 16).take 64⟩ else none

/-- A repair record's entries and trims. -/
def parseRepair (b : List Byte) : Option (List RepairEntry × List TrimEntry) :=
  let ne := leAt b 8 4
  let nt := leAt b 12 4
  let es := (List.range ne).map (fun i => let o := 4800 + 8 * i; (RepairEntry.mk (leAt b o 4) (leAt b (o + 4) 1), zeroAt b (o + 5) 3))
  let ts := (List.range nt).map (fun i => let o := 4800 + 8 * ne + 4 * i; (TrimEntry.mk (leAt b o 2) (leAt b (o + 2) 1), zeroAt b (o + 3) 1))
  if leAt b 0 4 = 0x4B325250 ∧ leAt b 4 2 = 1 ∧ leAt b 6 2 < 2 ^ 15 ∧ ne ≤ 4096 ∧ nt ≤ 256 ∧ zeroAt b 24 40 ∧ zeroAt b 4755 45
      ∧ es.all (fun e => e.2 && decide (e.1.action ≤ 2)) ∧ ts.all (fun t => t.2) then
    some (es.map (·.1), ts.map (·.1))
  else none

/-- One record put into the structure; none where its contents or its index are not listed. -/
def TStruct.put (t : TStruct) (sec i : Nat) (b : List Byte) : Option TStruct :=
  let at_ {α : Type} (l : List α) (x : α) : List α := if i < l.length then l.set i x else l ++ [x]
  match sec with
  | 1 => (parseRepair b).bind (fun r => if i = 0 then some { t with repair := b, entries := r.1, trims := r.2 } else none)
  | 2 => (parseMod b).bind (fun m => if i = 0 then some { t with modrec := m } else none)
  | 3 => if i < 112 ∧ leAt b 0 4 < 2 ^ 26 then some { t with clocks := t.clocks.set i (leAt b 0 4) } else none
  | 4 => (parsePart b).bind (fun p => if i < 8 then some { t with parts := t.parts.set i p } else none)
  | 5 => (parseCtx b).bind (fun c => if i < 64 then some { t with ctxs := t.ctxs.set i c } else none)
  | 6 => (parseSpan b).bind (fun x => if i ≤ t.spans.length ∧ i < 256 then
      some { t with spans := at_ t.spans (if x.size = 0 then { x with base := 0 } else x) } else none)
  | 7 => if i < 512 then (if bits (leAt b 0 2) 7 5 = 0 then some { t with queues := t.queues.set i (leAt b 0 2) } else none)
      else if i < 544 ∧ leAt b 0 1 < 16 then some { t with slotCfg := t.slotCfg.set (i - 512) (leAt b 0 1) } else none
  | 8 => if i < 16 then
        (if leAt b 0 8 < 2 ^ 32 ∧ ¬bit (leAt b 0 8) 23 ∧ bits (leAt b 0 8) 20 18 ≤ 5 then some { t with ports := t.ports.set i (leAt b 0 8) } else none)
      else if i < 34 ∧ b.all (fun x => decide (x.toNat ≤ 16)) then
        some { t with shares := t.shares.set (i - 16) (b.map BitVec.toNat) } else none
  | 9 => (parseRouting b).bind (fun r => if i ≤ t.routing.length ∧ i < 64 then some { t with routing := at_ t.routing r } else none)
  | 10 => (parseTrust b).bind (fun r => if i ≤ t.trust.length ∧ i < 1024 then some { t with trust := at_ t.trust r } else none)
  | _ => none

/-- Bytes of record i of a section, whose first bytes are b. -/
def recBytes (sec i : Nat) (b : List Byte) : Nat :=
  match sec with
  | 1 => 4800 + 8 * leAt b 8 4 + 4 * leAt b 12 4
  | 2 => 128 | 3 => 4 | 4 => 32 | 5 => 32 | 6 => 32
  | 7 => if i < 512 then 2 else 1
  | 8 => if i < 16 then 8 else 64
  | 9 => 4128
  | _ => 80

/-- Records that a full image holds in a section: the least and the most. -/
def recCount (sec : Nat) : Nat × Nat :=
  match sec with
  | 1 => (1, 1) | 2 => (1, 1) | 3 => (112, 112) | 4 => (8, 8) | 5 => (64, 64) | 6 => (0, 256) | 7 => (544, 544)
  | 8 => (34, 34) | 9 => (0, 64) | _ => (0, 1024)

/-- The records of a section as (index, bytes), and the bytes it fills; in a patch an index word precedes each (R517). -/
def sectionRecs (sec : Nat) (patch : Bool) : Nat → Nat → List Byte → Option (List (Nat × List Byte) × Nat)
  | 0, _, _ => some ([], 0)
  | n + 1, k, b =>
    let i := if patch then leAt b 0 8 else k
    let b := if patch then b.drop 8 else b
    let len := recBytes sec i b
    if 2 ^ 16 ≤ i ∨ b.length < len then none
    else (sectionRecs sec patch n (k + 1) (b.drop len)).map
      (fun r => ((i, b.take len) :: r.1, r.2 + len + (if patch then 8 else 0)))

/-- A checked container: its FORM, its digests and signature, its records as (section, index, bytes). -/
structure Container where
  form : Nat
  modid : Nat
  basedig : List Byte
  keydig : List Byte
  pubkey : List Byte
  sig : List Byte
  recs : List (Nat × Nat × List Byte)
  deriving DecidableEq, Repr

/-- One directory entry's section: its records, and the span it fills. -/
def parseSection (b : List Byte) (patch : Bool) (k : Nat) : TCheck (Nat × List (Nat × List Byte) × Nat × Nat) :=
  let d := (b.drop (7424 + 16 * k)).take 16
  let sec := leAt d 0 1
  let count := leAt d 4 4
  let off := leAt d 8 8
  let (lo, hi) := recCount sec
  if 1 ≤ sec ∧ sec ≤ 10 ∧ zeroAt d 1 3 ∧ off % 64 = 0 ∧ 7680 ≤ off ∧ count ≤ hi ∧ (patch ∨ lo ≤ count) then
    match sectionRecs sec patch count 0 (b.drop off) with
    | some (rs, n) => .ok (sec, rs, off, n)
    | none => .error (1, sec, 0)
  else .error (1, if sec ≤ 10 then sec else 0, 0)

/-- Every section of the directory. -/
def parseSections (b : List Byte) (patch : Bool) : Nat → TCheck (List (Nat × List (Nat × List Byte) × Nat × Nat))
  | 0 => .ok []
  | k + 1 => (parseSections b patch k).bind (fun xs => (parseSection b patch k).bind (fun x => .ok (xs ++ [x])))

/-- No two of the spans overlap. -/
def disjointSpans : List (Nat × Nat) → Bool
  | [] => true
  | x :: xs => xs.all (fun y => !(overlaps x.1 x.2 y.1 y.2)) && disjointSpans xs

/-- Check 1: header, directory and sections (R516, R517). -/
def parseContainer (b : List Byte) : TCheck Container := do
  let form := leAt b 6 1
  let n := leAt b 7 1
  tneed (leAt b 0 4 == 0x4B325452 && leAt b 4 2 == 1 && decide (form ≤ 2) && decide (1 ≤ n) && decide (n ≤ 16) && decide (leAt b 8 2 < 2 ^ 15)
    && zeroAt b 10 6 && leAt b 16 8 == b.length && b.length % 64 == 0 && decide (7680 ≤ b.length) && decide (b.length ≤ 2 ^ 21) && zeroAt b 24 40
    && zeroAt b 7411 13 && (form != 0 || (zeroAt b 64 64 && n == 10)) && zeroAt b (7424 + 16 * n) (256 - 16 * n)) 1 0 0
  let secs ← parseSections b (form != 0) n
  let types := secs.map (·.1)
  tneed (types.eraseDups.length == types.length && secs.all (fun x => decide (x.2.2.1 + x.2.2.2 ≤ b.length))
    && disjointSpans (secs.map (fun x => x.2.2))) 1 0 0
  .ok ⟨form, leAt b 8 2, (b.drop 64).take 64, (b.drop 128).take 64, (b.drop 192).take 2592, (b.drop 2784).take 4627,
    secs.flatMap (fun x => x.2.1.map (fun r => (x.1, r.1, r.2)))⟩

/-- Every record put into a structure, in order (check 1 for its contents). -/
def putRecs : List (Nat × Nat × List Byte) → TStruct → TCheck TStruct
  | [], t => .ok t
  | (sec, i, b) :: rs, t =>
    match t.put sec i b with
    | some t => putRecs rs t
    | none => .error (1, sec, i % 2 ^ 16)

/-! Check 3: signatures. -/

/-- The digest that a signature field covers: the whole container, the field read as zero. -/
def signedDigest (b : List Byte) (off : Nat) : List Byte := sha3 (b.take off ++ List.replicate 4627 0 ++ b.drop (off + 4627))

/-- A repair record is this module's (R518, R524). -/
def State.repairOk (s : State) (b : List Byte) : Bool :=
  leAt b 6 2 == s.modid && (b.drop 64).take 64 == s.ownKey
  && Config.verify (Config.akPublic s.sec.akSvn) (sha3 (b.take 64 ++ b.drop 4800)) ((b.drop 128).take 4627)

/-- A key digest names an owner slot that is programmed and not revoked (R538). -/
def State.ownerKey (s : State) (d : List Byte) : Bool := s.sec.fuses.owner.any (fun k => k.programmed && !k.revoked && k.digest == d)

def State.signOk (s : State) (c : Container) (b : List Byte) : Bool :=
  c.keydig == sha3 c.pubkey && Config.verify c.pubkey (signedDigest b 2784) c.sig
  && (if c.form = 2 then c.keydig == s.ownKey && c.recs.all (fun r => r.1 == 1) else s.ownerKey c.keydig)
  && c.recs.all (fun r => r.1 != 1 || s.repairOk r.2.2)

/-! Check 5: repair entries (R519, R520). -/

/-- The unit number has listed location fields. -/
def unitExists (u : Nat) : Bool :=
  let region := bits u 26 23
  match u / 2 ^ 28 with
  | 1 => decide (region ≤ 8) && decide (bits u 22 20 ≤ 6) && decide (bits u 19 16 ≤ 8) && u % 2 ^ 16 == 0
  | 2 => decide (region ≤ 8) && decide (bits u 22 20 ≤ 6) && u % 2 ^ 20 == 0
  | 3 => decide (region ≤ 8) && u % 2 ^ 23 == 0
  | 4 | 5 => decide (region ≤ 8)
  | 6 => decide (region ≤ 5) && bits u 22 10 == 0
  | 7 => true
  | 8 => decide (bits u 27 26 ≤ 2) && bits u 24 8 == 0
  | 9 => decide (bits u 3 0 ≤ 8) && bits u 26 4 == 0
  | _ => false

/-- Unit v lies inside unit u, a block or a region. -/
def unitInside (u v : Nat) : Bool :=
  match u / 2 ^ 28, v / 2 ^ 28 with
  | 2, 1 => u % 2 ^ 28 / 2 ^ 20 == v % 2 ^ 28 / 2 ^ 20
  | 3, 1 | 3, 2 => u % 2 ^ 28 / 2 ^ 23 == v % 2 ^ 28 / 2 ^ 23
  | _, _ => false

/-- An island number of R519. -/
def islandExists (i : Nat) : Bool :=
  ringUnits.contains i || (i / 2 ^ 12 == 1 && ringUnits.contains (i + 2 ^ 12))

/-- An entry beside the others (R520). -/
def entryOk (es : List RepairEntry) (e : RepairEntry) : Bool :=
  unitExists e.unit && (e.action != 0 || (match unitLevel e.unit with
    | some (parent, spare) =>
      (es.filter (fun x => x.action == 0 && (unitLevel x.unit).map (·.1) == some parent)).length == 1
      && !(es.any (fun x => x.action == 1 && x.unit == spare)) && !(es.any (fun x => x.action == 0 && unitInside x.unit e.unit))
    | none => true))

def checkRepair (t : TStruct) : TCheck Unit := do
  tneed (t.entries.all (entryOk t.entries)) 5 1 0
  tneed (t.trims.all (fun x => decide (x.trim ≤ 24) && islandExists x.island)) 5 1 0

/-! Check 6: partitions, contexts, queues and the MODULE record. -/

def TStruct.part (t : TStruct) (p : Nat) : PartRec := t.parts.getD p .none
def TStruct.ctx (t : TStruct) (c : Nat) : CtxRec := t.ctxs.getD c .none
def TStruct.valid (t : TStruct) (p : Nat) : Bool := (t.part p).valid

/-- The first index below n that a test does not pass, as a check. -/
def tall (n result sec : Nat) (f : Nat → Bool) : TCheck Unit :=
  match (List.range n).find? (fun i => !(f i)) with
  | some i => .error (result, sec, i)
  | none => .ok ()

/-- R401, and the sequence ranges. -/
def TStruct.partOk (t : TStruct) (p : Nat) : Bool :=
  let x := t.part p
  !x.valid || (decide (x.seqBase + x.seqCount ≤ 262144) && decide (x.limit < 4096) && (List.range p).all (fun k =>
    let y := t.part k
    !y.valid || ((x.regions &&& y.regions) == 0 && (x.seqCount == 0 || y.seqCount == 0 || !(overlaps x.seqBase x.seqCount y.seqBase y.seqCount)))))

/-- R402 and Table 19-8. -/
def TStruct.ctxOk (t : TStruct) (c : Nat) : Bool :=
  let x := t.ctx c
  !x.valid || (t.valid x.part && x.sramOff % 65536 == 0 && x.sramSize % 65536 == 0 && decide (65536 ≤ x.sramSize)
    && decide (x.sramOff + x.sramSize ≤ 0x3000000) && x.bank0 % 64 == 0 && x.bankN % 64 == 0 && decide (x.bank0 + x.bankN ≤ 512)
    && x.wbase % 2 ^ 44 == 0 && decide (x.wbase ≤ 2 ^ 57 - 2 ^ 44) && (List.range c).all (fun k =>
      let y := t.ctx k
      !y.valid || y.part != x.part || (!(overlaps x.sramOff x.sramSize y.sramOff y.sramSize)
        && (x.bankN == 0 || y.bankN == 0 || !(overlaps x.bank0 x.bankN y.bank0 y.bankN)))))

/-- Fields of a queue's word (Table 14-3). -/
def qmapOfWord (w : Nat) : QMap := ⟨w % 32, bits w 13 8, bit w 14, bit w 15⟩

def TStruct.queueOk (t : TStruct) (q : Nat) : Bool :=
  let m := qmapOfWord (t.queues.getD q 0)
  let slot := t.slotCfg.getD m.slot 0
  !m.assigned || ((t.ctx m.ctx).valid && bit slot 3 && slot % 8 == (t.ctx m.ctx).part)

def TStruct.slotOk (t : TStruct) (i : Nat) : Bool := let w := t.slotCfg.getD i 0; !(bit w 3) || t.valid (w % 8)

def checkParts (t : TStruct) : TCheck Unit := do
  tneed ((List.range 8).any t.valid) 6 4 0
  tall 8 6 4 t.partOk
  tall 64 6 5 t.ctxOk
  tall 512 6 7 t.queueOk
  tall 32 6 7 t.slotOk
  let m := t.modrec
  tneed (decide (600 ≤ m.sustMax) && decide (m.sustMax ≤ 2000) && decide (600 ≤ m.sust) && decide (m.sust ≤ m.sustMax)
    && decide (m.sust ≤ m.peak) && decide (m.peak ≤ 2400)) 6 2 0

/-! Check 7: memory spans (Table 19-11). -/

/-- A span lies within the union of others. -/
def coveredBy (x : Nat × Nat) (ys : List (Nat × Nat)) : Bool := (cutSpans [x] ys).isEmpty

def spanAlign (kind : Nat) : Nat :=
  match kind with
  | 1 | 2 | 5 | 6 => 2 ^ 21
  | 3 | 4 => 65536
  | 9 => 2 ^ 28
  | _ => 4096

/-- The partition that a plot's route entry names. -/
def TStruct.plotPart (t : TStruct) (plot : Nat) : Option Nat :=
  (t.routing.find? (fun r => r.plot == plot && bit r.route 104 && r.member)).map RoutingRec.part

/-- A span lies in the memory of its kind; kinds 7 and 8 give host physical addresses. -/
def TStruct.spanPlace (t : TStruct) (x : SpanRec) : Bool :=
  let own (p : Nat) : List (Nat × Nat) := (t.spans.filter (fun y => (y.kind == 1 || y.kind == 2) && y.owner == p)).map SpanRec.pair
  match x.kind with
  | 1 | 3 => within x.base x.size 0 0x9000000000
  | 5 => within x.base x.size (x.owner * 0x4800000000) 0x4800000000
  | 2 | 4 | 6 => within x.base x.size 0x10000000000 0x20000000000
  | 7 | 8 => decide (x.base < 2 ^ 48) && decide (x.base % 2 ^ 47 + x.size ≤ 2 ^ 47)
  | 9 => coveredBy x.pair (own x.owner)
  | _ => match t.plotPart x.owner with
    | some p => coveredBy x.pair (own p)
    | none => false

def TStruct.spanOwner (t : TStruct) (x : SpanRec) : Bool :=
  match x.kind with
  | 5 => decide (x.owner < 2)
  | 6 | 8 => x.owner == 0
  | 10 => decide (x.owner < 64)
  | _ => decide (x.owner < 8) && t.valid x.owner

def TStruct.spanOk (t : TStruct) (i : Nat) : Bool :=
  match t.spans[i]? with
  | none => true
  | some x =>
    x.size == 0 || (t.spanOwner x && x.base % spanAlign x.kind == 0 && x.size % spanAlign x.kind == 0 && t.spanPlace x
      && (x.kind != 9 || decide ((t.spans.take (i + 1)).countP (fun y => y.kind == 9 && y.size != 0) ≤ 8))
      && (decide (6 < x.kind) || (!(inSystemArea x.base x.size) && (t.spans.take i).all (fun y =>
        decide (6 < y.kind) || y.size == 0 || !(overlaps x.base x.size y.base y.size)))))

def checkMemory (t : TStruct) : TCheck Unit := tall t.spans.length 7 6 t.spanOk

/-! Check 8: clocks (R480). -/

/-- Nominal clock of an island kind in units of 62.5 kHz (Table 01-6). -/
def nominalClock (kind : Nat) : Nat :=
  match kind with
  | 0 | 1 => 48000
  | 2 | 3 => 24000
  | 4 => 19200
  | 5 => 32000
  | _ => 16000

def clockOf (w : Nat) : Nat := w % 65536
def milliVolts (w : Nat) : Nat := bits w 25 16
/-- The default plan. -/
def defaultClock (kind l : Nat) : Nat := nominalClock kind * (l + 1) / 16
def defaultMv (l : Nat) : Nat := 600 + 20 * l

def TStruct.clockOk (t : TStruct) (i : Nat) : Bool :=
  let k := i / 16
  let l := i % 16
  let w := t.clocks.getD i 0
  let v := t.clocks.getD (i - 1) 0
  (l == 0 || (decide (clockOf v ≤ clockOf w) && decide (milliVolts v ≤ milliVolts w)))
  && (l != 15 || decide (clockOf w ≤ nominalClock k)) && (l != 0 || (clockOf w == defaultClock k 0 && milliVolts w == defaultMv 0))
  && (l != 2 || !(k == 3 || k == 4 || k == 5) || (decide (defaultClock k 2 ≤ clockOf w) && decide (defaultMv 2 ≤ milliVolts w)))
  && (decide (2 ≤ k) || !((List.range 8).any (fun p => t.valid p && (t.part p).det)) || clockOf w == 2 * clockOf (t.clocks.getD (32 + l) 0))

/-! Check 9: links and routing (R438, R441, R443, R454). -/

def portOn (w : Nat) : Bool := bit w 22

def TStruct.portOk (t : TStruct) (i : Nat) : Bool :=
  let w := t.ports.getD i 0
  let n := ((List.range 18).filter (bit w)).length
  !(portOn w) || (decide (1 ≤ n) && decide (n ≤ 12) && (List.range i).all (fun k =>
    let v := t.ports.getD k 0
    !(portOn v) || (bits v 21 18 != bits w 21 18 && (v % 2 ^ 18 &&& w % 2 ^ 18) == 0)))

/-- Coordinates that a route entry's axis encodes. -/
def axisWidth (axis : Nat) : Nat := if axis = 0 then 2 else if axis < 3 then 16 else 4

/-- HERE for the module's own coordinate on every axis, and for no other (R443). -/
def RoutingRec.hereOk (r : RoutingRec) (modid : Nat) : Bool :=
  (List.range 6).all (fun a => (List.range (axisWidth a)).all (fun c => (r.action a c == 0) == (c == coordOf modid a)))

def TStruct.routeOk (t : TStruct) (modid i : Nat) : Bool :=
  match t.routing[i]? with
  | none => true
  | some r =>
    (t.routing.take i).all (fun x => x.plot != r.plot) && (!(bit r.route 104) || (r.hereOk modid && r.members.contains modid == r.member
      && (!r.member || (t.valid r.part && (t.routing.take i).all (fun x => !(bit x.route 104) || !x.member || x.part != r.part)))))

/-- A module reaches every other member of its plots: the action of its own entry for the member is PLUS or MINUS, through a
logical port in use (R447). The rest of the way lies in other modules' images (log entry 81). -/
def TStruct.reachOk (t : TStruct) (modid i : Nat) : Bool :=
  match t.routing[i]? with
  | none => true
  | some r => !(bit r.route 104 && r.member) || r.members.all (fun d => d == modid || (match r.firstAxis d with
      | none => false
      | some (a, x) => x != 3 && t.ports.any (fun w => portOn w && bits w 20 18 == a && bits w 21 21 == x - 1)))

/-- Links on the shortest way between two modules (R423, R424). -/
def Coord.links (c : Coord) (a b : Nat) : Nat :=
  ((List.range 6).map (fun x =>
    let n := c.ring x
    let d := (coordOf a x + n - coordOf b x) % n
    min d (n - d))).foldl (· + ·) 0

/-- A plot's barrier parent is no more than 14 links away (R461). The depth of the tree and the number of its children lie
in other modules' images. -/
def TStruct.barOk (t : TStruct) (c : Coord) (i : Nat) : Bool :=
  match t.routing[i]? with
  | none => true
  | some r => !(bit r.route 104 && r.member) || bit r.bar 15 || decide (c.links c.modid (bits r.bar 14 0) ≤ 14)

def checkLinks (t : TStruct) (c : Coord) : TCheck Unit := do
  tall 16 9 8 t.portOk
  tall 18 9 8 (fun p => decide ((t.shares.getD p []).foldl (· + ·) 0 ≤ 16))
  tall t.routing.length 9 9 (t.routeOk c.modid)
  tall t.routing.length 9 9 (t.reachOk c.modid)
  tall t.routing.length 9 9 (t.barOk c)
  tneed (t.modrec.root || decide (t.modrec.parent < 18)) 9 2 0

/-- Checks 5 to 9 of a structure. -/
def checkStruct (t : TStruct) (c : Coord) : TCheck Unit := do
  checkRepair t
  checkParts t
  checkMemory t
  tall 112 8 3 t.clockOk
  checkLinks t c

end Sys2Proof.Machine
end

