-- ==== Sys2Proof/Machine/Trellis.lean ====
section
/-! DEFINITION. Loading a trellis image, and patches (chapter 19, R523 to R529). -/
namespace Sys2Proof.Machine

/-- Offset of TRL_CTRL. -/
def trlOff : Nat := 0x180000

/-! What a patch needs (Table 19-15). -/

/-- A patch tears a partition down: REGIONS or VALID changes, or DET or CLOCHEOK, which change only with it (R549). -/
def tears (o n : TStruct) (p : Nat) : Bool :=
  let a := o.part p
  let b := n.part p
  a.valid != b.valid || (a.valid && (a.regions != b.regions || a.det != b.det || a.clocheOk != b.clocheOk))

/-- What the new structure's spans of one kind and owner no longer cover of an old one. -/
def lostSpans (n : TStruct) (x : SpanRec) : List (Nat × Nat) :=
  if x.size = 0 then [] else cutSpans [x.pair] ((n.spans.filter (fun y => y.kind == x.kind && y.owner == x.owner && y.size != 0)).map SpanRec.pair)

/-- Nothing in a local span is held by a frame, a generation, a range entry or a committed decoder. -/
def State.spanFree (s : State) (a len : Nat) : Bool :=
  s.kv.refs.all (fun f => !(overlaps (65536 * f.1) 65536 a len)) && s.weightsHeld.all (fun x => !(overlaps x.1 x.2 a len))
  && s.mem.tables.all (fun t => t.2.all (fun e => e.pbase * 4096 / 2 ^ 48 != s.modid || !(overlaps (e.pbase * 4096 % 2 ^ 48) (4096 * e.length) a len)))
  && s.mem.hdm.all (fun d => d.2 == 0 || !(overlaps d.1 d.2 a len))

/-- Memory that the patch takes away is free; a torn-down partition's memory is freed by its scrub. -/
def State.memFree (s : State) (n : TStruct) : Bool :=
  s.trl.st.spans.all (fun x => decide (6 < x.kind) || (decide (x.kind ≤ 4) && tears s.trl.st n x.owner)
    || (lostSpans n x).all (fun y => s.spanFree y.1 y.2))

/-- Sequence numbers that leave a partition's range are FREE. -/
def State.seqsFree (s : State) (n : TStruct) (p : Nat) : Bool :=
  s.kv.seqs.all (fun e => !(s.ownsSeq p e.1) || within e.1 1 (n.part p).seqBase (n.part p).seqCount)

/-- Every queue of a context is DISABLED. -/
def State.ctxQuiet (s : State) (c : Nat) : Bool :=
  (List.range 512).all (fun q => !(s.qmapOf q).assigned || (s.qmapOf q).ctx != c || (s.queue q).state == .disabled)

/-- The conditions of one record of a patch that no wait can bring about (R526). -/
def State.recordReady (s : State) (n : TStruct) (names : List (Nat × Nat)) (x : Nat × Nat) : Bool :=
  match x.1 with
  | 4 => if tears s.trl.st n x.2 then s.queuesOff x.2 else s.seqsFree n x.2
  | 5 => s.ctxQuiet x.2
  | 7 => if x.2 < 512 then (s.queue x.2).state == .disabled
      else (List.range 512).all (fun q => !(s.qmapOf q).assigned || (s.qmapOf q).slot != x.2 - 512 || names.contains (7, q))
  | _ => true

def State.patchReady (s : State) (n : TStruct) (names : List (Nat × Nat)) : Bool :=
  names.all (s.recordReady n names) && s.memFree n

/-- ACTION 0 entries of KIND 1 to 5 that one record has and another has not. -/
def newRepairs (o n : TStruct) : List Nat :=
  (n.entries.filter (fun e => e.action == 0 && decide (e.unit / 2 ^ 28 ≤ 5) && !(o.entries.contains e))).map (·.unit)

/-- A unit's repair changes the units that serve a partition. -/
def State.unitServes (s : State) (p u : Nat) : Bool :=
  (s.regionsOf p).any (fun r => r / 8 == bits u 27 27 && (u / 2 ^ 28 == 3 || s.physRegion r == bits u 26 23))

/-- Partitions to which dispatch is held until they are between commands (R481, R506, Table 19-15). -/
def State.patchHold (s : State) (n : TStruct) (names : List (Nat × Nat)) : List Nat :=
  let o := s.trl.st
  let units := newRepairs o n ++ newRepairs n o
  (List.range 8).filter (fun p => (o.part p).valid && (
    (names.any (fun x => x.1 == 1) && units.any (s.unitServes p)) || (names.any (fun x => x.1 == 3) && (o.part p).det)
    || (names.contains (4, p) && !(tears o n p))))

/-- No command of the partition runs, and none has been granted its regions. -/
def State.betweenCommands (s : State) (p : Nat) : Bool := !(s.partRuns p) && !(s.grantOut p)

/-! Committing (R525, R526). -/

/-- Queue and slot registers from the structure's maps. -/
def State.putQueue (s : State) (q : Nat) : State := { s with qmap := Tab.set .reset s.qmap q (qmapOfWord (s.trl.st.queues.getD q 0)) }
def State.putSlot (s : State) (i : Nat) : State :=
  let w := s.trl.st.slotCfg.getD i 0
  s.setSlot i { s.slot i with part := w % 8, en := bit w 3 }

/-- Power fields from the MODULE record (Table 19-9). -/
def State.putPower (s : State) : State :=
  let m := s.trl.st.modrec
  s.setPwr (fun w => { w with sust := m.sust, peak := m.peak, coef := m.coef })

/-- Ageing trims from the record. -/
def State.putTrims (s : State) : State :=
  s.setPwr (fun w => { w with trims := s.trl.st.trims.foldl (fun (t : Tab Nat) e => Tab.set 0 t e.island e.trim) [] })

def State.putLimit (s : State) (p : Nat) : State := s.setPwr (fun w => { w with plimit := w.plimit.set p (s.partRec p).limit })

/-- The time state after a MODULE record that changes the parent or the root (Table 19-15). DEPTH is 0 at the root, and an
open value under a new parent. -/
def State.putTime (s : State) (o : ModRec) : State :=
  let m := s.trl.st.modrec
  if m.root = o.root ∧ m.parent = o.parent then s
  else if m.root then ({ s with time := { s.time with depth := 0 } } : State).setTimeState .locked
  else
    let (w, s) := s.draw
    let s := { s with time := { s.time with depth := 1 + w.toNat % 24 } }
    match s.time.st with
    | .locked | .locking => s.setTimeState .holdover
    | _ => s

/-- A physical port changed by a LINKS patch retrains; one that was DOWN may train (R431). -/
def State.relink (s : State) (o : State) : State :=
  (List.range 18).foldl (fun (s : State) p =>
    if s.roleOf p != o.roleOf p || s.trl.st.shares.getD p [] != o.trl.st.shares.getD p [] then (s.retrain p).tryTrain p else s) s

/-- A context's carve-out is a new one: created, moved, resized, or of a partition that was torn down (R555). -/
def newCarve (o n : TStruct) (c : Nat) : Bool :=
  let a := o.ctx c
  let b := n.ctx c
  b.valid && (!a.valid || a.part != b.part || a.carve != b.carve || tears o n b.part)

/-- A torn-down partition is wiped; one in Cloche is OFF once the scrub completes (R549). -/
def State.teardown (s : State) (p : Nat) : State :=
  let s := s.wipePart p
  if (s.cloche p).st = .off then s else s.setCloche p { s.cloche p with teardown := true }

/-- Partition p's part of a structure: its contexts, memory spans, queues, slots and plot. -/
def TStruct.partView (t : TStruct) (p : Nat) : List CtxRec × List SpanRec × List Nat × List Nat × List RoutingRec :=
  let mine (c : Nat) : Bool := (t.ctx c).valid && (t.ctx c).part == p
  let plots := t.routing.filter (fun r => bit r.route 104 && r.member && r.part == p)
  ((List.range 64).map (fun c => if mine c then t.ctx c else .none),
   t.spans.filter (fun x => (x.kind != 5 && x.kind != 6 && x.kind != 8 && x.kind != 10 && x.owner == p) || (x.kind == 10 && plots.any (fun r => r.plot == x.owner))),
   (List.range 512).map (fun q => let w := t.queues.getD q 0; if (qmapOfWord w).assigned && mine (qmapOfWord w).ctx then w else 0),
   (List.range 32).map (fun i => let w := t.slotCfg.getD i 0; if bit w 3 && w % 8 == p then w else 0), plots)

/-- A patch touches a partition (R472): its own record, the units that serve it, or what the structure gives it. -/
def State.patchTouches (o : State) (n : TStruct) (names : List (Nat × Nat)) (p : Nat) : Bool :=
  names.contains (4, p) || (newRepairs o.trl.st n ++ newRepairs n o.trl.st).any (o.unitServes p) || o.trl.st.partView p != n.partView p

/-- Port 17 in a logical port that it was not in takes the share table of the link that it replaces (R439): the member that
leaves the port with this patch, or else one of it that has FAILED. -/
def State.spareShares (s o : State) : State :=
  match (s.trl.st.ports.zip o.trl.st.ports).find? (fun x => bit x.1 22 && bit x.1 17 && !(bit x.2 22 && bit x.2 17)) with
  | none => s
  | some (w, v) =>
    let was := (List.range 17).filter (fun p => bit v 22 && bit v p)
    match (was.filter (fun p => !(bit w p))) ++ was.filter (fun p => (s.link p).st == .failed) with
    | [] => s
    | p :: _ => { s with trl := { s.trl with st := { s.trl.st with shares := s.trl.st.shares.set 17 (o.trl.st.shares.getD p []) } } }

/-- The effects of the records of a patch once the new structure is in force (Table 19-15). -/
def State.patchEffects (s o : State) (names : List (Nat × Nat)) : State :=
  let n := s.trl.st
  let has (sec : Nat) : Bool := names.any (fun x => x.1 == sec)
  let aligned := (List.range 8).filter (fun p => (n.part p).valid && (n.part p).det)
  let s := if has 1 then
      let us := newRepairs o.trl.st n
      let s := (us.foldl (fun (s : State) u => s.repaired u) s).putTrims
      let s := if us = [] then s.irq 5 else s
      (aligned.filter (fun p => (us ++ newRepairs n o.trl.st).any (fun u => s.unitServes p u || o.unitServes p u))).foldl (fun (s : State) p => s.align p) s
    else s
  let s := if has 2 then (s.putPower).putTime o.trl.st.modrec else s
  let s := if has 3 then aligned.foldl (fun (s : State) p => s.align p) s else s
  let s := names.foldl (fun (s : State) x =>
    if x.1 = 4 then s.putLimit x.2
    else if x.1 = 7 then (if x.2 < 512 then s.putQueue x.2 else s.putSlot (x.2 - 512)) else s) s
  let s := ((List.range 64).filter (newCarve o.trl.st n)).foldl (fun (s : State) c => s.unwriteCtx c) s
  let s := (aligned.filter (fun p => o.patchTouches n names p && !(has 1))).foldl (fun (s : State) p => s.loseAlign p) s
  (if has 8 then (s.spareShares o).relink o else s).refreshLevels

/-- A GO that has finished: RESULT 0, and the interrupt. -/
def State.trlDone (s : State) : State :=
  ({ s with trl := { s.trl with busy := none, result := 0, section_ := 0, record := 0 } } : State).irq 8

/-- A repair copies the storage that holds a word into a spare: a spare region of the die, or an SRAM row or column of the
region (R506 step 2). -/
def State.copiedBy (s : State) (us : List Nat) (l : CopyLoss) : Bool :=
  match l with
  | .bank r b entry col => decide (r < 16 ∧ b < 6 ∧ entry < 512 ∧ col < 128) && us.any (fun u => u / 2 ^ 27 == 2 * 3 + r / 8)
  | .sram r off => decide (r < 16 ∧ off < 786432 * 64) && us.any (fun u => u / 2 ^ 27 == 2 * 3 + r / 8
      || (decide (4 ≤ u / 2 ^ 28 ∧ u / 2 ^ 28 ≤ 5) && u / 2 ^ 17 % 2 ^ 11 == unitSramRow (r / 8) (s.physRegion r) (off / 256 % 64) 0 / 2 ^ 17 % 2 ^ 11
        && (u / 2 ^ 28 == 5 || u % 2 ^ 17 == off / 16384)))

/-- A word lost in the copy: marked unwritten in the spare, and logged with SOURCE 6 naming the partition. -/
def State.loseWord (s : State) (l : CopyLoss) : State :=
  match l with
  | .bank r b entry col =>
    let s := s.setRegion r ((s.region r).setBlock b (((s.region r).block b).dropWord entry col))
    s.logError (tier4Addr r b entry) 4 6 (s.partOfRegion r) 0 0 0
  | .sram r off =>
    let s := s.setRegion r ((s.region r).sramUnwrite (off / 64 * 64) 64)
    s.logError (0x40000000000 + r * 2 ^ 26 + off / 64 * 64) 3 6 (s.partOfRegion r) 0 0 0

/-- A repair among a patch's records copies storage. -/
def State.copiesStorage (s : State) (n : TStruct) : Bool := (newRepairs s.trl.st n).any (fun u => decide (3 ≤ u / 2 ^ 28))

/-- A patch's records committed in one step. -/
def State.commitPatch (s : State) (b : Patch) : State :=
  let o := s
  let torn := (List.range 8).filter (fun p => b.names.contains (4, p) && tears s.trl.st b.next p && (s.partRec p).valid)
  let s := torn.foldl (fun (s : State) p => s.teardown p) s
  let s := { s with trl := { s.trl with st := b.next, tdig := b.digest, patches := (s.trl.patches + 1) % 2 ^ 32 } }
  (s.patchEffects o b.names).trlDone

/-- The conditions of a patch hold now. -/
def State.patchDue (s : State) (b : Patch) : Bool := s.patchReady b.next b.names && b.hold.all s.betweenCommands

/-- PATCH_COMMIT (R506, R526): a checked patch whose conditions hold, with the words that were uncorrectable in the copy of
replaced storage. -/
def execPatchCommit (lost : List CopyLoss) (s : State) : Res :=
  match s.trl.busy with
  | some b =>
    if s.patchDue b ∧ ¬s.inReset then
      .next (((lost.filter (s.copiedBy (newRepairs s.trl.st b.next))).foldl (fun (s : State) l => s.loseWord l) s).commitPatch b)
    else .next s
  | none => .next s

/-! A full image (R525, R529). -/

/-- A repair patch that firmware makes and signs with the module's own key (Table 19-1 FORM 2, R506). -/
def State.ownPatch (s : State) (record : List Byte) : List Byte :=
  let n := (7680 + 8 + record.length + 63) / 64 * 64
  let head := padBytes 64 (leBytes 4 0x4B325452 ++ leBytes 2 1 ++ leBytes 1 2 ++ leBytes 1 1 ++ leBytes 2 s.modid ++ leBytes 6 0 ++ leBytes 8 n)
  let keys := s.trl.tdig ++ s.ownKey ++ fitTo 2592 (Config.akPublic s.sec.akSvn)
  let dir := padBytes 256 (leBytes 1 1 ++ leBytes 3 0 ++ leBytes 4 1 ++ leBytes 8 7680)
  let body := padBytes (n - 7680) (leBytes 8 0 ++ record)
  let sig := Config.akSign s.sec.akSvn (sha3 (head ++ keys ++ List.replicate 4640 0 ++ dir ++ body))
  head ++ keys ++ fitTo 4627 sig ++ List.replicate 13 0 ++ dir ++ body

/-- A unit in service that failed self-test is replaced by its spare, or reported without one; a spare that failed is
marked unusable (R529, R532). -/
def State.bootRepair (s : State) (u : Nat) : State :=
  let entry (a : Nat) : State := { s with trl := { s.trl with st := { s.trl.st with entries := s.trl.st.entries ++ [RepairEntry.mk u a] } } }
  match s.servesAs u with
  | none => entry 1
  | some _ => if s.spareFor u then ((entry 0).recordRepair (u / 2 ^ 28) 0 1 u).repaired u else (s.recordRepair (u / 2 ^ 28) 3 1 u).noSpare u

/-- The self-test's findings repaired before phase 8 (R529). -/
def State.bootRepairs (s : State) : State :=
  if s.rel.failedUnits = [] then s
  else
    let t := (s.rel.failedUnits.foldl (fun (s : State) u => s.bootRepair u) s).newRepair
    { t with trl := { t.trl with tdig := sha3 (s.trl.tdig ++ s.ownPatch t.trl.st.repair), patches := (t.trl.patches + 1) % 2 ^ 32 } }

/-- A full image in force: every LK field and every section (R525). A running loopback stops (R606). -/
def State.loadImage (s : State) (t : TStruct) (digest : List Byte) : State :=
  let s := { s with trl := { s.trl with st := t, tdig := digest, loaded := true, phase := 6 }, board := { s.board with hbmsel := none } }
  let s := (List.range 512).foldl (fun (s : State) q => s.putQueue q) s
  let s := (List.range 32).foldl (fun (s : State) i => s.putSlot i) s
  let s := (List.range 8).foldl (fun (s : State) p => s.putLimit p) s.putPower.putTrims
  let s := ((List.range 64).filter (fun c => (t.ctx c).valid)).foldl (fun (s : State) c => s.unwriteCtx c) s
  let s := (List.range 18).foldl (fun (s : State) p => s.tryTrain p) (s.endLoopback 6)
  s.bootRepairs.trlDone

/-- Checks 1 to 10 of Table 19-14 on a staged container, in order. -/
def State.judgeImage (s : State) (b : List Byte) : TCheck (Container × TStruct) := do
  let c ← parseContainer b
  let t ← putRecs c.recs (if c.form = 0 then .empty else s.trl.st)
  tneed (s.eft.coord.valid && c.modid == s.modid) 2 0 0
  tneed (s.signOk c b) 3 0 0
  tneed (c.form == 0 || c.basedig == s.trl.tdig) 4 0 0
  checkStruct t s.eft.coord
  tneed ((c.form == 0) != s.trl.loaded && (c.form == 0 || s.patchReady t (c.recs.map (fun r => (r.1, r.2.1))))) 10 0 0
  .ok (c, t)

/-- GO (R524 to R526): a full image commits; a patch commits when its conditions hold, and waits, BUSY, until then and, where a
repair copies storage, for the copy. -/
def State.trlGo (s : State) : State :=
  let b := s.trl.staging.load 0 s.trl.bytes
  match s.judgeImage b with
  | .error (r, sec, rcd) => ({ s with trl := { s.trl with result := r, section_ := sec, record := rcd } } : State).irq 8
  | .ok (c, t) =>
    if c.form = 0 then s.loadImage t (sha3 b)
    else
      let names := c.recs.map (fun r => (r.1, r.2.1))
      let p : Patch := ⟨t, sha3 (s.trl.tdig ++ b), s.patchHold t names, names⟩
      if s.patchDue p ∧ !(s.copiesStorage t) then s.commitPatch p else { s with trl := { s.trl with busy := some p } }

/-- TRELLIS_GO (R524): TRL_CTRL written with GO; discarded while BUSY, and before phase 5. -/
def execTrellisGo (rq : Requester) (s : State) : Res :=
  .next (s.regWrite rq trlOff (fun s => if s.trl.busy.isSome || decide (s.trl.phase < 5) then s.discard 0x21 trlOff else s.trlGo))

end Sys2Proof.Machine
end

