-- ==== Sys2Proof/Machine/Startup.lean ====
section
/-! DEFINITION. Power, reset and reference inputs, and start-up (chapters 19 and 23, R528 to R530, R595 to R599). -/
namespace Sys2Proof.Machine

/-! Rails (R595, R596). -/

/-- Every rail off: every field is at its Reset value but for the fuses, the levels of pins and cables, the host's
memory, and what the board remembers of a trip (R510, R596, Table 17-11 CRITSEEN). -/
def State.powerOff (s : State) : State :=
  let b := s.board
  { State.reset with
    eft := { Eft.reset with links := s.eft.links.map (fun l => { Link.reset with cable := l.cable, active := l.active }) },
    mem := { Mem.reset with host := s.mem.host, hostUnmapped := s.mem.hostUnmapped },
    pwr := { Pwr.reset with critseen := !b.rails && s.pwr.critseen },
    sec := { Sec.reset with fuses := s.sec.fuses },
    host := { HostPort.reset with perst := s.host.perst },
    board := { Board.reset with
      input := b.input, railFails := b.railFails, heldOff := b.heldOff, critOff := b.critOff, sysReset := b.sysReset,
      sysResetAt := b.sysResetAt, tbLocal := b.tbLocal },
    fresh := s.fresh, out := s.out, pending := s.pending }

/-- Nothing keeps the rails off. -/
def Board.mayRise (b : Board) : Bool := b.input && !b.rails && !b.heldOff && !b.critOff && !b.sysReset

/-- Phases 0 and 1: the rails come up, the shed leaves power-on reset and ROM reads the fuses; phase 2 waits for firmware.
An analogue trip before this power-on is reported (Table 21-2). -/
def State.powerUp (s : State) : State :=
  let s := { s with board := { s.board with rails := true }, trl := { s.trl with phase := 2 } }
  if s.pwr.critseen then
    let (w, s) := s.draw
    s.notify 0x0005 none (w.toNat % 256)
  else s

/-- POWER_ON (R528, R595): the input reaches 44 V. -/
def execPowerOn (millivolts : Nat) (s : State) : Res :=
  if s.board.input ∨ millivolts < 44000 then .next s
  else
    let s := { s with board := { s.board with input := true, railFails := 0 } }
    .next (if s.board.mayRise then s.powerUp else s)

/-- RAIL_TIMEOUT (R595): a rail misses its window. Phase 0 begins once more after 1 s; after a second failure every rail
stays off until the input falls below 40 V. -/
def execRailTimeout (_step : Nat) (s : State) : Res :=
  if !s.board.rails ∨ 2 < s.trl.phase then .next s
  else
    let s := s.powerOff
    let n := s.board.railFails + 1
    .next { s with board := { s.board with railFails := n, heldOff := s.board.heldOff || decide (2 ≤ n) } }

/-- PHASE0_RESTART (R595): 1 s after the first failure. -/
def execPhase0Restart (s : State) : Res := if s.board.railFails = 1 ∧ s.board.mayRise then .next s.powerUp else .next s

/-- POWER_LOSS (R596): the input falls below 40 V. -/
def execPowerLoss (millivolts : Nat) (s : State) : Res :=
  if 40000 ≤ millivolts ∨ !s.board.input then .next s
  else
    let s := s.powerOff
    .next { s with board := { s.board with input := false, railFails := 0, heldOff := false, critOff := false } }

/-- INPUT_OVERVOLTAGE (R477): above 63 V the regulators shut down, until the input has been removed. -/
def execInputOvervoltage (millivolts : Nat) (s : State) : Res :=
  if millivolts ≤ 63000 ∨ !s.board.input then .next s
  else
    let s := s.powerOff
    .next { s with board := { s.board with heldOff := true } }

/-- ANALOG_TRIP (R492): a sensor at or above 115 °C shuts the regulators down until power is cycled. -/
def execAnalogTrip (sensor reading : Nat) (s : State) : Res :=
  if 84 ≤ sensor ∨ reading < 115 ∨ !s.board.rails then .next s
  else
    let s := s.powerOff
    .next { s with board := { s.board with critOff := true }, pwr := { s.pwr with critseen := true } }

/-- SYS_RESET_N (R597): low for at least 1 µs acts as a loss of power and holds the rails off; a pulse below 250 ns is
ignored, and what one between does is open. On release phase 0 begins. -/
def execSysResetN (low : Bool) (nanoseconds : Nat) (s : State) : Res :=
  if low then
    let (w, s) := if 250 ≤ nanoseconds ∧ nanoseconds < 1000 then s.draw else ((BitVec.ofNat 64 (nanoseconds / 1000) : Word), s)
    if s.board.sysReset ∨ nanoseconds < 250 ∨ (nanoseconds < 1000 ∧ w.toNat % 2 = 0) then .next s
    else
      let now := s.now
      let s := s.powerOff
      .next { s with board := { s.board with sysReset := true, sysResetAt := now, railFails := 0 } }
  else if !s.board.sysReset then .next s
  else
    let s := { s with board := { s.board with sysReset := false } }
    .next (if s.board.mayRise then s.powerUp else s)

/-- PERST_N_ASSERT (R598): the CXL port is held in reset: configuration space at its defaults, admission lost. Lines that
the host held are gone with the link. -/
def execPerstNAssert (s : State) : Res :=
  if s.host.perst then .next s
  else
    let s := { s with
      host := { s.host with perst := true, bar0 := 0, msixEn := false, fmask := false, msix := [], msixPend := [] },
      mem := { s.mem with hdm := List.replicate 8 (0, 0), hdmSet := List.replicate 8 (0, 0), snoop := [], snooping := [], cxlWait := [] } }
    .next (s.loseAdmissions false false (fun _ => true))

/-- PERST_N_RELEASE (R598). -/
def execPerstNRelease (s : State) : Res := .next { s with host := { s.host with perst := false } }

/-- TB_REF_LOSS (R599): the timebase island runs on the on-board oscillator; nothing else changes. -/
def execTbRefLoss (s : State) : Res := .next { s with board := { s.board with tbLocal := true } }

/-- TB_REF_RETURN (R599). -/
def execTbRefReturn (s : State) : Res := .next { s with board := { s.board with tbLocal := false } }

/-! Firmware (R534, R565). -/

/-- FWRESULT of a container: 0 accepted, or the condition that fails (Table 20-11). -/
def State.fwJudge (s : State) (b : List Byte) : Nat :=
  let keydig := (b.drop 64).take 64
  let pub := (b.drop 128).take 2592
  if !(leAt b 0 4 == 0x4B324657 && leAt b 4 2 == 1 && zeroAt b 6 2 && decide (leAt b 8 4 ≤ 255) && zeroAt b 12 4 && leAt b 16 8 == b.length
    && b.length % 64 == 0 && decide (7424 ≤ b.length) && decide (b.length ≤ 2 ^ 26) && zeroAt b 24 40 && zeroAt b 7347 77) then 1
  else if !(keydig == sha3 pub && s.sec.fuses.vendor.any (fun k => !k.revoked && k.digest == keydig)) then 2
  else if leAt b 8 4 < s.sec.fuses.svn then 3
  else if Config.verify pub (signedDigest b 2720) ((b.drop 2720).take 4627) then 0 else 4

/-- Firmware accepted: its measurement and SVN, and the attestation key of the fuse SVN (R533 to R536). -/
def State.fwStart (s : State) (b : List Byte) : State :=
  { s with sec := { s.sec with fwok := true, fwresult := 0, runSvn := leAt b 8 4, fwdig := sha3 b } }

/-- Offset of MGT_FW_CTRL. -/
def fwOff : Nat := 0x120000

/-- GO of MGT_FW_CTRL: phases 3 and 4, or the end of a device reset that waits for firmware. -/
def State.fwGo (s : State) : State :=
  let b := s.sec.fwStage.load 0 s.sec.fwBytes
  let r := s.fwJudge b
  if r ≠ 0 then { s with sec := { s.sec with fwresult := r } }
  else if s.rel.resets.waitFw then (s.fwStart b).readyPoint
  else
    let s := s.fwStart b
    ({ s with
      sec := { s.sec with akSvn := s.sec.fuses.svn }, trl := { s.trl with phase := 5 },
      board := { s.board with railFails := 0 } } : State).newRepair

/-- FW_GO (R565): accepted in phase 2 and in a device reset that waits for firmware. -/
def execFwGo (rq : Requester) (s : State) : Res :=
  .next (s.regWrite rq fwOff (fun s => if s.trl.phase = 2 ∨ s.rel.resets.waitFw then s.fwGo else s.discard 0x21 fwOff))

/-! Management messages of start-up (R530, R558). -/

/-- A message of the management controller reaches a module that has power: the first one names the endpoint of the
notifications (R559). -/
def State.mgmtMsg (s : State) (f : State → State) : State :=
  if !s.board.rails then s
  else match s.obs.endpoint with
    | some _ => f s
    | none =>
      let s := { s with obs := { s.obs with
        endpoint := some 0, notices := s.obs.notices.map (fun (n : Notice) => { n with sentAt := s.now }) } }
      f (s.obs.notices.foldl (fun (s : State) n => s.sendNotice n) s)

/-- A response with a status and a payload. -/
def State.mgmtReply (s : State) (cmd tag : Nat) (st : Status) (payload : List Byte) : State := s.emit (.mgmt cmd tag st.code payload)

/-- A management request: one whose payload is not `n` bytes long, or that has something in a reserved field, is answered
with RANGE (R558). -/
def State.mgmtCmd (s : State) (h : MgmtHdr) (cmd n : Nat) (f : State → State) : State :=
  s.mgmtMsg (fun s => if h.fits n then f s else s.mgmtReply cmd h.tag .range [])

/-- COORD (R424, R530); reserved bits beside MODID and TWIN are answered with RANGE (R558). -/
def execCoord (h : MgmtHdr) (modid usz vsz twin : Nat) (s : State) : Res :=
  .next (s.mgmtCmd h 0x01 4 (fun s =>
    if 2 ^ 15 ≤ modid ∨ 16 ≤ usz ∨ 16 ≤ vsz ∨ 2 ≤ twin then s.mgmtReply 0x01 h.tag .range []
    else if s.trl.loaded then s.mgmtReply 0x01 h.tag .state []
    else
      let s := { s with eft := { s.eft with coord := ⟨modid, true, usz, vsz, twin == 1⟩ } }
      let s := if s.sec.fwok then s.newRepair else s
      ((List.range 18).foldl (fun (s : State) p => s.tryTrain p) s).mgmtReply 0x01 h.tag .ok []))

/-- Phase 7: the root takes its device time and is LOCKED; another module waits for its parent (R454, Table 19-17). -/
def State.startTime (s : State) (time : Nat) : State :=
  let s := { s with trl := { s.trl with phase := 7 } }
  if s.isRoot then ({ s with time := { s.time with now := time % 2 ^ 64 } } : State).nowLocked
  else if s.time.st = .locked then s.nowLocked else s

/-- START (R530): refused before the load and a second time since power-on. -/
def execStart (h : MgmtHdr) (time : Nat) (s : State) : Res :=
  .next (s.mgmtCmd h 0x02 8 (fun s =>
    if s.trl.phase ≠ 6 then s.mgmtReply 0x02 h.tag .state [] else (s.startTime time).mgmtReply 0x02 h.tag .ok []))

end Sys2Proof.Machine
end

