-- ==== Sys2Proof/Machine/Spdm.lean ====
section
/-! DEFINITION. The attestation report, SPDM, plot keys, the fuses (chapter 20, R533 to R542, R550). -/
namespace Sys2Proof.Machine

def State.setSec (s : State) (f : Sec → Sec) : State := { s with sec := f s.sec }
def State.setSpdm (s : State) (f : Spdm → Spdm) : State := s.setSec (fun x => { x with spdm := f x.spdm })

/-! The attestation report (R541). -/

/-- Byte 0 of a partition record. -/
def PartRec.flags (r : PartRec) : Nat := boolNat r.valid + 2 * boolNat r.det + 4 * boolNat r.lgraft + 8 * boolNat r.clocheOk

/-- Bytes 0 to 15 of the PUBDIG of a partition's CURRENT rootstock, zero when it has none. -/
def State.curPub (s : State) (p : Nat) : List Byte :=
  match (List.range 8).find? (fun e => (s.gen p e).st == .current) with
  | some e => fitTo 16 (s.wgt.roots.getD (s.gen p e).root .free).pubdig
  | none => List.replicate 16 0

/-- A partition entry (Table 20-6). -/
def State.partEntry (s : State) (p : Nat) : List Byte :=
  let r := s.partRec p
  leBytes 1 r.flags ++ leBytes 1 (s.cloche p).st.code ++ leBytes 2 r.regions ++ leBytes 4 r.seqBase ++ leBytes 4 r.seqCount ++ leBytes 4 0 ++ s.curPub p

/-- Bits of a list of flags, the first at bit 0. -/
def flagWord (l : List Bool) : Nat := l.foldr (fun b n => boolNat b + 2 * n) 0

/-- FUSE of the report. -/
def Fuses.word (f : Fuses) : Nat :=
  flagWord (f.vendor.map (·.revoked) ++ f.owner.map KeySlot.programmed ++ f.owner.map (·.revoked) ++ [f.privlock])

/-- DEBUG of the report. -/
def State.debugWord (s : State) : Nat := flagWord [s.sec.fuses.opened, s.sec.privopen, s.obs.dbgen] + 8 * min 255 s.sec.fuses.unlocks

/-- "KT2-M56-A" in ASCII. -/
def orderCode : List Byte := padBytes 16 ([0x4B, 0x54, 0x32, 0x2D, 0x4D, 0x35, 0x36, 0x2D, 0x41] : List Byte)

/-- Public key of the identity key, made from the first 32 bytes of SHA3-512 of "K2-IDK" and the UDS (Table 20-3). -/
def idkPublic : List Byte := Config.idkPublic ((sha3 (([0x4B, 0x32, 0x2D, 0x49, 0x44, 0x4B] : List Byte) ++ Config.uds)).take 32)

/-- Bytes 0 to 3,231 of a report (Table 20-5). -/
def State.reportBody (s : State) (nonce : List Byte) : List Byte :=
  leBytes 4 0x4B324154 ++ leBytes 2 1 ++ leBytes 1 s.sec.fuses.stepping ++ leBytes 1 0 ++ orderCode
  ++ leBytes 2 (s.modid + 2 ^ 15 * boolNat s.eft.coord.valid) ++ leBytes 2 0 ++ leBytes 4 s.sec.fuses.svn ++ leBytes 8 s.now
  ++ leBytes 8 s.sec.fuses.word ++ leBytes 8 s.debugWord ++ leBytes 8 0 ++ padBytes 64 (nonce.take 32) ++ fitTo 64 Config.romDigest
  ++ fitTo 64 s.sec.fwdig ++ fitTo 64 s.trl.tdig ++ sha3 idkPublic ++ (List.range 8).flatMap s.partEntry
  ++ fitTo 2592 (Config.akPublic s.sec.akSvn)

/-- An attestation report of 7,936 bytes, signed with the attestation key. -/
def State.report (s : State) (nonce : List Byte) : List Byte :=
  let body := s.reportBody nonce
  body ++ fitTo 4704 (fitTo 4627 (Config.akSign s.sec.akSvn (sha3 body)))

/-! SPDM (R542). Error codes are SPDM's own. -/

/-- The responder answers from phase 3 (R531). -/
def State.spdmUp (s : State) : Bool := s.board.rails && s.sec.fwok

def State.spdmSay (s : State) (r : SpdmResp) : State := s.emit (.spdm r)

/-- A request is served when the connection has reached a stage; earlier it is unexpected (code 0x04). -/
def State.spdmAt (s : State) (stage : Nat) (f : State → State) : Res :=
  if !s.spdmUp then .next s
  else if s.sec.spdm.stage < stage then .next (s.spdmSay (.error 0x04))
  else .next (f s)

/-- A response whose message may exceed 4,096 bytes travels in chunks. -/
def State.spdmLarge (s : State) (r : SpdmResp) (bytes : List Byte) : State :=
  if bytes.length ≤ 4096 then s.spdmSay r
  else (s.setSpdm (fun x => { x with chunkOut := some bytes, chunkSeq := 0 })).spdmSay (.large bytes.length)

/-- GET_VERSION: 1.3 only; negotiation starts again. -/
def execGetVersion (s : State) : Res :=
  s.spdmAt 0 (fun s => (s.setSpdm (fun x => { x with stage := 1, chunkIn := none, chunkOut := none, chunkSeq := 0 })).spdmSay (.version [0x13]))

/-- GET_CAPABILITIES. -/
def execGetCapabilities (s : State) : Res :=
  s.spdmAt 1 (fun s => (s.setSpdm (fun x => { x with stage := 2 })).spdmSay .capabilities)

/-- NEGOTIATE_ALGORITHMS: secp384r1, AES-256-GCM, ML-DSA-87 and SHA3-512 must be offered. -/
def execNegotiateAlgorithms (dhe aead sig hash : Bool) (s : State) : Res :=
  s.spdmAt 2 (fun s =>
    if dhe && aead && sig && hash then (s.setSpdm (fun x => { x with stage := 3 })).spdmSay .algorithms else s.spdmSay (.error 0x01))

/-- GET_DIGESTS: the digest of certificate slot 0. -/
def execGetDigests (s : State) : Res := s.spdmAt 3 (fun s => s.spdmSay (.digests (sha3 (Config.certChain s.sec.akSvn))))

/-- GET_CERTIFICATE: a part of the chain of slot 0. -/
def execGetCertificate (slot offset length : Nat) (s : State) : Res :=
  s.spdmAt 3 (fun s =>
    let chain := Config.certChain s.sec.akSvn
    if slot ≠ 0 ∨ chain.length ≤ offset then s.spdmSay (.error 0x01)
    else
      let part := (chain.drop offset).take length
      s.spdmLarge (.certificate part (chain.length - offset - part.length)) part)

/-- A 32-byte nonce of the responder's own: four open values. -/
def State.drawNonce (s : State) : List Byte × State :=
  let (a, s) := s.draw
  let (b, s) := s.draw
  let (c, s) := s.draw
  let (d, s) := s.draw
  (leBytes 8 a.toNat ++ leBytes 8 b.toNat ++ leBytes 8 c.toNat ++ leBytes 8 d.toNat, s)

/-- CHALLENGE: signed with the attestation key. -/
def execChallenge (slot : Nat) (nonce : List Byte) (s : State) : Res :=
  s.spdmAt 3 (fun s =>
    if slot ≠ 0 then s.spdmSay (.error 0x01)
    else
      let (own, s) := s.drawNonce
      let dig := sha3 (Config.certChain s.sec.akSvn)
      let sig := Config.akSign s.sec.akSvn (sha3 (nonce ++ dig ++ own))
      s.spdmLarge (.challengeAuth dig own sig) (dig ++ own ++ fitTo 4627 sig))

/-- The fuse fields as read (Tables 20-1 and 20-4), but for the UDS. -/
def Fuses.bytes (f : Fuses) : List Byte :=
  f.vendor.flatMap (·.digest) ++ f.owner.flatMap (·.digest) ++ leBytes 8 f.word ++ leBytes 1 f.svn ++ leBytes 1 f.stepping ++ leBytes 1 (boolNat f.opened)

/-- A measurement block: 1 to 5 in the order of Table 20-1, and 16, the report. -/
def State.measurement (s : State) (block : Nat) (nonce : List Byte) : Option (List Byte) :=
  match block with
  | 1 => some (fitTo 64 Config.romDigest)
  | 2 => some (sha3 s.sec.fuses.bytes)
  | 3 => some s.sec.fwdig
  | 4 => some s.trl.tdig
  | 5 => some (sha3 ((List.range 8).flatMap s.partEntry))
  | 16 => some (s.report nonce)
  | _ => none

/-- GET_MEASUREMENTS. Block 0xFF asks for all. -/
def execGetMeasurements (block : Nat) (nonce : List Byte) (s : State) : Res :=
  s.spdmAt 3 (fun s =>
    let ks := if block = 0xFF then [1, 2, 3, 4, 5, 16] else [block]
    let bs := ks.filterMap (fun k => (s.measurement k nonce).map (fun b => (k, b)))
    if bs = [] then s.spdmSay (.error 0x01)
    else
      let (own, s) := s.drawNonce
      let flat := bs.flatMap (fun x => leBytes 1 x.1 ++ x.2)
      let sig := Config.akSign s.sec.akSvn (sha3 (nonce ++ flat ++ own))
      s.spdmLarge (.measurements bs own sig) (flat ++ own ++ fitTo 4627 sig))

/-- KEY_EXCHANGE: a session begins; a fifth is refused. -/
def execKeyExchange (doe : Bool) (s : State) : Res :=
  s.spdmAt 3 (fun s =>
    let x := s.sec.spdm
    if 4 ≤ x.sessions.length then s.spdmSay (.error 0x0A)
    else (s.setSpdm (fun x => { x with sessions := x.sessions ++ [⟨x.nextId, false, doe, 0⟩], nextId := x.nextId + 1 })).spdmSay (.keyExchange x.nextId))

/-- A session ends: partitions admitted in it lose admission (R546). -/
def State.endSession (s : State) (id : Nat) : State :=
  (s.setSpdm (fun x => { x with sessions := x.sessions.filter (fun y => y.id != id) })).loseAdmissions false false (fun c => c.session == some id)

/-- FINISH: the session is established, or given up when its proof fails. -/
def execFinish (session : Nat) (verified : Bool) (s : State) : Res :=
  s.spdmAt 3 (fun s =>
    if !(s.sec.spdm.sessions.any (fun y => y.id == session && !y.up)) then s.spdmSay (.error 0x02)
    else if !verified then (s.endSession session).spdmSay (.error 0x06)
    else (s.setSpdm (fun x => { x with sessions := x.sessions.map (fun y => if y.id = session then { y with up := true } else y) })).spdmSay .finish)

/-- A request inside an established session; another is answered with code 0x02. -/
def State.inSession (s : State) (session : Nat) (f : State → State) : Res :=
  s.spdmAt 3 (fun s => if s.sec.spdm.sessions.any (fun y => y.id == session && y.up) then f s else s.spdmSay (.error 0x02))

/-- HEARTBEAT. -/
def execHeartbeat (session : Nat) (s : State) : Res := s.inSession session (fun s => s.spdmSay .heartbeatAck)

/-- KEY_UPDATE. -/
def execKeyUpdate (session : Nat) (s : State) : Res :=
  s.inSession session (fun s =>
    (s.setSpdm (fun x => { x with sessions := x.sessions.map (fun y => if y.id = session then { y with updates := y.updates + 1 } else y) })).spdmSay .keyUpdateAck)

/-- END_SESSION. -/
def execEndSession (session : Nat) (s : State) : Res := s.inSession session (fun s => (s.endSession session).spdmSay .endSessionAck)

/-- CHUNK_SEND: a part of a large request. No request that the module supports exceeds one message, so a complete large
request is answered as unexpected. -/
def execChunkSend (seq : Nat) (last : Bool) (data : List Byte) (s : State) : Res :=
  s.spdmAt 2 (fun s =>
    let x := s.sec.spdm
    let n := if x.chunkIn.isSome then x.chunkSeq else 0
    if seq ≠ n then (s.setSpdm (fun x => { x with chunkIn := none, chunkSeq := 0 })).spdmSay (.error 0x01)
    else if last then (s.setSpdm (fun x => { x with chunkIn := none, chunkSeq := 0 })).spdmSay (.error 0x04)
    else (s.setSpdm (fun x => { x with chunkIn := some ((x.chunkIn.getD []) ++ data), chunkSeq := n + 1 })).spdmSay .chunkSendAck)

/-- CHUNK_GET: the next part of a large response. -/
def execChunkGet (seq : Nat) (s : State) : Res :=
  s.spdmAt 2 (fun s =>
    let x := s.sec.spdm
    match x.chunkOut with
    | none => s.spdmSay (.error 0x04)
    | some bs =>
      if seq ≠ x.chunkSeq then s.spdmSay (.error 0x01)
      else
        let last := decide (bs.length ≤ 4096)
        (s.setSpdm (fun x => { x with
          chunkOut := if last then none else some (bs.drop 4096), chunkSeq := if last then 0 else x.chunkSeq + 1 })).spdmSay (.chunk seq last (bs.take 4096)))

/-- The session in which the partition that a plot's route entry names is admitted. -/
def State.plotSession (s : State) (plot : Nat) : Option Nat :=
  match s.routeOf plot with
  | some r => if r.member ∧ (s.cloche r.part).st = .admitted then (s.cloche r.part).session else none
  | none => none

/-- PLOT_KEY (R550): accepted only in the session in which the plot's partition was admitted; the sender then uses KID. -/
def execPlotKey (session plot kid : Nat) (key : List Byte) (s : State) : Res :=
  s.inSession session (fun s =>
    if s.plotSession plot = some session ∧ kid < 2 ∧ plot < 64 ∧ key.length = 32 then
      (s.setSec (fun x => { x with keys := Tab.set none x.keys (2 * plot + kid) (some key), kid := Tab.set 0 x.kid plot kid })).spdmSay .vendor
    else s.spdmSay (.error 0x01))

/-! Fuses (R535, R538 to R540). -/

/-- SVNCOMMIT (R535): the fuse SVN rises to the running SVN; discarded before phase 9. -/
def execSvncommit (rq : Requester) (s : State) : Res :=
  .next (s.regWrite rq 0x100008 (fun s =>
    if s.trl.phase ≠ 9 then s.discard 0x21 0x100008
    else s.setSec (fun x => { x with fuses := { x.fuses with svn := max x.fuses.svn (min 255 x.runSvn) } })))

/-- UNLOCK (R540): a vendor-signed container in the unlock staging area; refused while a partition is not OFF. OPENED is
blown before private modes open. -/
def execUnlock (bytes : Nat) (s : State) : Res :=
  if !s.board.rails ∨ 2 ^ 20 < bytes ∨ (List.range 8).any s.inCloche
      ∨ !(Config.unlockValid (s.sec.unlockStage.load 0 bytes) ((s.sec.fuses.vendor.filter (fun k => !k.revoked)).map (·.digest))) then .next s
  else .next ((s.setSec (fun x => { x with
    fuses := { x.fuses with opened := true, unlocks := min 255 (x.fuses.unlocks + 1) }, privopen := true })).event (islandShed 23) 0x92 none none 0)

/-- ENROL (R538, Table 21-1): an owner slot is programmed once. -/
def execEnrol (h : MgmtHdr) (slot : Nat) (digest : List Byte) (s : State) : Res :=
  .next (s.mgmtCmd h 0x0A 65 (fun s =>
    if 4 ≤ slot ∨ digest.length ≠ 64 then s.mgmtReply 0x0A h.tag .range []
    else if (s.sec.fuses.owner.getD slot .blank).programmed then s.mgmtReply 0x0A h.tag .state []
    else (s.setSec (fun x => { x with fuses := { x.fuses with owner := x.fuses.owner.set slot { x.fuses.owner.getD slot .blank with digest := digest } } })).mgmtReply
      0x0A h.tag .ok []))

/-- Slots of a list that are programmed and not revoked. -/
def liveSlots (ks : List KeySlot) : Nat := (ks.filter (fun k => k.programmed && !k.revoked)).length

/-- A list of slots with one revoked. -/
def revokeSlot (ks : List KeySlot) (slot : Nat) : List KeySlot := ks.set slot { ks.getD slot .blank with revoked := true }

/-- REVOKE (R538): refused when no slot would be left unrevoked. -/
def execRevoke (h : MgmtHdr) (owner : Bool) (slot : Nat) (s : State) : Res :=
  .next (s.mgmtCmd h 0x0B 1 (fun s =>
    let ks := if owner then s.sec.fuses.owner else s.sec.fuses.vendor
    let n := revokeSlot ks slot
    if ks.length ≤ slot then s.mgmtReply 0x0B h.tag .range []
    else if liveSlots n = 0 then s.mgmtReply 0x0B h.tag .state []
    else (s.setSec (fun x => { x with fuses := if owner then { x.fuses with owner := n } else { x.fuses with vendor := n } })).mgmtReply 0x0B h.tag .ok []))

end Sys2Proof.Machine
end

