-- ==== Sys2Proof/Machine/RegMap.lean ====
section
/-! DEFINITION. The register map (chapter 22): which register lies at an offset, its value, which registers are split, the
read-only windows, and who may read what. -/
namespace Sys2Proof.Machine

/-- The registers of Table 22-2, with their instances. -/
inductive Reg where
  | feId | feWdog | resetCause | resetTrig | devreset | irqStat | rteDiscard (p : Nat)
  | ring (q : Nat) | cring (q : Nat) | db (q : Nat) | chead (q : Nat) | qctrl (q : Nat) | qstat (q : Nat)
  | slotCfg (i : Nat) | slotQmap (q : Nat) | epochCmd | epochStat (p : Nat) | slotCount (i k : Nat)
  | csel (lane half : Nat) | cnt (lane k : Nat)
  | rtCmd | rtStat | rtData (w : Nat) | hotCtrl | hotBase | hotSize | hotHead | hotTail | hotLost | errlogLost
  | geomA (k : Nat) | geomB (k : Nat)
  | coord | eftTime | timeCtrl | twinCtrl | twinStat | linkCtrl (p : Nat) | linkStat (p : Nat) | eftPort (n : Nat)
  | barCfg (j : Nat) | eftRt (j half : Nat) | eftShare (p k : Nat)
  | pwrLimit | pwrStat | pwrTherm | owCtrl | coef (k : Nat) | plimit (p : Nat) | level (n : Nat)
  | energyQ (q : Nat) | energyP (p : Nat) | energyIdle (p : Nat) | energyMod
  | secStat | secCtrl | secCloche (p : Nat)
  | fwCtrl | rrCtrl | nlost | bdpAddr (c : Nat) | bdpStat (c : Nat)
  | dbgCtrl | stCtrl | stStat | snapCnt | straceCnt | trlCtrl | trlStat | trlRstat
  deriving DecidableEq, Repr

/-- Instance number of an offset in an array of n registers at a base and stride. -/
def instAt (base stride n o : Nat) : Option Nat :=
  if base ≤ o ∧ (o - base) % stride = 0 ∧ (o - base) / stride < n then some ((o - base) / stride) else none

/-- The first of several answers. -/
def firstOf {α : Type} : List (Option α) → Option α
  | [] => none
  | some x :: _ => some x
  | none :: r => firstOf r

/-- The register at an 8-byte aligned offset (Table 22-2). -/
def regOf (o : Nat) : Option Reg :=
  if o % 8 ≠ 0 then none
  else match blockOf o with
    | .fe =>
      if o = 0x20000 then some .feId else if o = 0x20008 then some .feWdog else if o = 0x20010 then some .resetCause
      else if o = 0x20018 then some .resetTrig else if o = 0x20020 then some .devreset else if o = 0x20028 then some .irqStat
      else (instAt 0x20100 8 8 o).map .rteDiscard
    | .feq q =>
      (match (o - 0x40000) % 64 with
       | 0x00 => some (.ring q) | 0x08 => some (.cring q) | 0x10 => some (.db q) | 0x18 => some (.chead q)
       | 0x20 => some (.qctrl q) | 0x28 => some (.qstat q) | _ => none)
    | .slot =>
      firstOf [(instAt 0x60000 8 32 o).map .slotCfg, (instAt 0x61000 8 512 o).map .slotQmap,
        if o = 0x62000 then some .epochCmd else none, (instAt 0x62100 8 8 o).map .epochStat,
        (instAt 0x63000 8 256 o).bind (fun i => if i % 8 < 5 then some (.slotCount (i / 8) (i % 8)) else none),
        (instAt 0x64000 8 72 o).map (fun i => .csel (i / 2) (i % 2)), (instAt 0x65000 8 576 o).map (fun i => .cnt (i / 16) (i % 16))]
    | .mmu =>
      if o = 0x80000 then some .rtCmd else if o = 0x80008 then some .rtStat else if o = 0x80040 then some .hotCtrl
      else if o = 0x80048 then some .hotBase else if o = 0x80050 then some .hotSize else if o = 0x80058 then some .hotHead
      else if o = 0x80060 then some .hotTail else if o = 0x80068 then some .hotLost else if o = 0x80080 then some .errlogLost
      else (instAt 0x80010 8 4 o).map .rtData
    | .kv => (instAt 0xA0000 8 256 o).map (fun i => if i % 2 = 0 then .geomA (i / 2) else .geomB (i / 2))
    | .eft =>
      firstOf [if o = 0xC0000 then some .coord else if o = 0xC0008 then some .eftTime else if o = 0xC0010 then some .timeCtrl
          else if o = 0xC0018 then some .twinCtrl else if o = 0xC0020 then some .twinStat else none,
        (instAt 0xC0100 8 18 o).map .linkCtrl, (instAt 0xC0200 8 18 o).map .linkStat, (instAt 0xC0300 8 16 o).map .eftPort,
        (instAt 0xC0400 8 64 o).map .barCfg, (instAt 0xC1000 8 128 o).map (fun i => .eftRt (i / 2) (i % 2)),
        (instAt 0xC2000 8 144 o).map (fun i => .eftShare (i / 8) (i % 8))]
    | .pwr =>
      firstOf [if o = 0xE0000 then some .pwrLimit else if o = 0xE0008 then some .pwrStat else if o = 0xE0010 then some .pwrTherm
          else if o = 0xE0018 then some .owCtrl else if o = 0xE3200 then some .energyMod else none,
        (instAt 0xE0100 8 11 o).map .coef, (instAt 0xE0200 8 8 o).map .plimit, (instAt 0xE0300 8 11 o).map .level,
        (instAt 0xE1000 8 516 o).map .energyQ, (instAt 0xE3000 8 8 o).map .energyP, (instAt 0xE3100 8 8 o).map .energyIdle]
    | .sec =>
      if o = 0x100000 then some .secStat else if o = 0x100008 then some .secCtrl else (instAt 0x100100 8 8 o).map .secCloche
    | .mgt => if o = 0x120000 then some .fwCtrl else if o = 0x120008 then some .rrCtrl else if o = 0x120010 then some .nlost else none
    | .bdp => firstOf [(instAt 0x140000 8 3 o).map .bdpAddr, (instAt 0x140040 8 3 o).map .bdpStat]
    | .dbg =>
      if o = 0x160000 then some .dbgCtrl else if o = 0x160008 then some .stCtrl else if o = 0x160010 then some .stStat
      else if o = 0x160018 then some .snapCnt else if o = 0x160020 then some .straceCnt else none
    | .trl => if o = 0x180000 then some .trlCtrl else if o = 0x180008 then some .trlStat else if o = 0x180010 then some .trlRstat else none
    | _ => none

/-- The register is split: a field holds both bit 31 and bit 32 (R581). -/
def Reg.split : Reg → Bool
  | .ring _ | .cring _ | .slotCount _ _ | .cnt _ _ | .rtData _ | .hotBase | .geomA _ | .eftTime | .linkStat _ | .eftRt _ _
  | .energyQ _ | .energyP _ | .energyIdle _ | .energyMod | .fwCtrl | .bdpAddr _ | .snapCnt | .straceCnt => true
  | _ => false

/-! Values. -/

/-- FE_Q_RING or FE_Q_CRING (Table 13-2). -/
def RingReg.word (g : RingReg) : Nat := boolNat g.loc + 2 * g.sizelog + g.base

/-- FE_Q_STAT (Table 13-6). CFULL is 1 while the completion ring is full (R384). -/
def Queue.statWord (x : Queue) : Nat :=
  x.state.code + 2 ^ 3 * boolNat (!x.ringFree) + 2 ^ 4 * boolNat x.rung + 2 ^ 5 * boolNat x.phase + 2 ^ 6 * (x.shadow.length % 16)
  + 2 ^ 16 * ((x.head + x.shadow.length) % x.ring.size) + 2 ^ 32 * x.ctail + 2 ^ 48 * x.fidx

/-- SLOT_QMAP (Table 14-3). -/
def QMap.word (m : QMap) : Nat := m.slot + 2 ^ 8 * m.ctx + 2 ^ 14 * boolNat m.tune + 2 ^ 15 * boolNat m.assigned

/-- SLOT_EPOCH_STAT (Table 14-8); STALE reads as zero for a Cloche partition (R414). -/
def State.epochStatWord (s : State) (p : Nat) : Nat :=
  let x := s.part p
  (match x.launch with
   | some l => l.epoch + 2 ^ 16
   | none => 0) + 2 ^ 17 * x.epochResult + 2 ^ 32 * (if s.inCloche p then 0 else x.partialStale % 2 ^ 32)

/-- A slot counter (Table 14-5); zero while the slot's partition is in Cloche (R414). -/
def State.slotCountWord (s : State) (i k : Nat) : Nat :=
  let t := s.slot i
  if s.inCloche t.part then 0 else (([t.cmds, t.act, t.est, t.wait, t.miss] : List Word).getD k 0).toNat

/-- EFT_TIME_CTRL.OFFSET: signed, in 1/64 ns, saturating. -/
def offsetField (x : Int) : Nat := trunc 16 (max (-32768) (min 32767 x))

/-- EFT_TIME_CTRL (Table 16-3). -/
def State.timeCtrlWord (s : State) : Nat :=
  let m := s.trl.st.modrec
  m.parent + 2 ^ 5 * boolNat m.root + 2 ^ 8 * s.time.st.code + 2 ^ 16 * offsetField s.time.offset + 2 ^ 32 * (s.time.depth % 32)

/-- EFT_TWIN_STAT (Table 15-15); HBAGE is its Reset value while no heartbeat has arrived. -/
def State.twinStatWord (s : State) : Nat :=
  let t := s.eft.twin
  let age := match t.lastHbt, t.lastAlt with
    | some a, some b => s.now - max a b
    | some a, none => s.now - a
    | none, some b => s.now - b
    | none, none => 0
  flagWord [t.lost, t.altonly, t.taken, t.back, t.replbrk] + 2 ^ 32 * min age (2 ^ 32 - 1)

/-- EFT_LINK_STAT (Table 15-7). -/
def Link.statWord (l : Link) : Nat :=
  l.st.code + 2 ^ 3 * l.cause.code + 2 ^ 6 * (l.good % 512) + 2 ^ 15 * boolNat (decide (lanes l.good < 8)) + 2 ^ 16 * l.farmod
  + 2 ^ 31 * l.farport + 2 ^ 36 * min l.retrains 0xFFFF

/-- The routing record of a plot. -/
def State.routing (s : State) (j : Nat) : Option RoutingRec := s.trl.st.routing.find? (fun r => r.plot == j)

/-- EFT_BAR_CFG (Table 16-5). -/
def State.barCfgWord (s : State) (j : Nat) : Nat :=
  match s.routing j with
  | some r => r.bar
  | none => 0x0C * 2 ^ 32

/-- EFT_RT (Table 15-11): the low or the high 64 bits. -/
def State.routeWord (s : State) (j half : Nat) : Nat :=
  match s.routing j with
  | some r => r.route / 2 ^ (64 * half) % 2 ^ 64
  | none => 0

/-- Any partition is in a Cloche state other than OFF. -/
def State.anyCloche (s : State) : Bool := (List.range 8).any s.inCloche

/-- A group is held below its trellis maximum (Table 17-8 CAPPED). -/
def State.capped (s : State) : Bool := (List.range 11).any (fun n => s.groupOn n && decide (s.level n < s.groupMax n))

/-- PWR_STAT (Table 17-8), with MEAS and CTRL coarsened under R496. -/
def State.pwrStatWord (s : State) : Nat :=
  let w := s.pwr
  (if s.anyCloche then w.visMeas else w.meas) % 2 ^ 16 + 2 ^ 16 * (min 0xFFFF (if s.anyCloche then w.visCtrl else w.ctrl))
  + 2 ^ 32 * flagWord [w.diverge, w.excurSince.isSome, s.capped, w.telemlost, w.vra] + 2 ^ 40 * min 255 w.vrcount + 2 ^ 48 * w.k

/-- PWR_THERM (Table 17-11). -/
def State.thermWord (s : State) : Nat :=
  let w := s.pwr
  w.throttle + 2 ^ 8 * w.trip + 2 ^ 16 * min 255 s.hottest
  + 2 ^ 24 * flagWord [w.therm.any (fun c => decide (c < 15)), w.tripped.any (fun b => b), w.critseen]

/-- PWR_LEVELn (Table 17-9); LEVEL and THERM read zero for a Cloche partition (Table 20-14). -/
def State.levelWord (s : State) (n : Nat) : Nat :=
  let pace := if n < 8 then (s.part n).paceCap else 15
  let held := 2 ^ 12 * boolNat (s.levelHeld n)
  if n < 8 ∧ s.inCloche n then 2 ^ 4 * pace + held
  else s.level n + 2 ^ 4 * pace + 2 ^ 8 * s.thermCap n + held

/-- PWR_PLIMIT (Table 17-7). -/
def State.plimitWord (s : State) (p : Nat) : Nat :=
  s.pwr.plimit.getD p 0 + 2 ^ 12 * (if (s.partRec p).valid then (s.partRec p).maxlvl else 15)

/-- PWR_ENERGY_Qq (Table 17-13, R496). -/
def State.energyQWord (s : State) (q : Nat) : Nat :=
  match s.partOfQueue q with
  | some p => if s.inCloche p then Tab.get 0 s.pwr.visQ q else microJoule (Tab.get 0 s.pwr.enQ q)
  | none => microJoule (Tab.get 0 s.pwr.enQ q)

/-- FE_RESET_CAUSE (Table 13-17). -/
def Resets.causeWord (r : Resets) : Nat := r.cause + 2 ^ 8 * r.queue + 2 ^ 32 * r.seq

/-- SEC_STAT (Table 20-11). -/
def Sec.statWord (x : Sec) : Nat :=
  boolNat x.fwok + 2 * x.fwresult + 2 ^ 4 * x.fuses.svn + 2 ^ 12 * flagWord ([x.fuses.opened, x.privopen] ++ x.fuses.owner.map KeySlot.programmed)

/-- SEC_CLOCHEn (Table 20-10). -/
def Cloche.word (c : Cloche) : Nat := 2 * c.st.code + 2 ^ 3 * flagWord [c.scrub, c.ide, c.tsp]

/-- DBG_ST_STAT (Table 18-7) and TRL_RSTAT (Table 18-4). -/
def Rel18.stWord (r : Rel18) : Nat := r.slices + 2 ^ 32 * r.fails + 2 ^ 48 * r.last
def Rel18.rstatWord (r : Rel18) : Nat :=
  (r.pending.filter (fun e => e.st == 0 || e.st == 2)).length + 2 ^ 9 * flagWord [r.exhaust, r.full] + 2 ^ 16 * r.applied

/-- TRL_STAT (Table 19-13). -/
def Trl.statWord (t : Trl) : Nat :=
  flagWord [t.loaded, t.busy.isSome] + 2 ^ 2 * t.result + 2 ^ 6 * t.section_ + 2 ^ 10 * t.record + 2 ^ 26 * t.phase + 2 ^ 32 * (t.patches % 2 ^ 32)

/-- The value of a register (R12): write-only fields read as zero. -/
def State.regValue (s : State) : Reg → Nat
  | .feId => 0x4B320141
  | .feWdog => s.front.wdog.base + 2 ^ 16 * s.front.wdog.perIssue + 2 ^ 32 * s.front.wdog.long
  | .resetCause => s.rel.resets.causeWord
  | .resetTrig => s.rel.resets.trigWord
  | .devreset => 0
  | .irqStat => s.host.irqStat
  | .rteDiscard p => (s.part p).rteDiscarded % 2 ^ 32 + 2 ^ 32 * ((s.part p).rteStale % 2 ^ 32)
  | .ring q => (s.queue q).ring.word
  | .cring q => (s.queue q).cring.word
  | .db _ => 0
  | .chead q => (s.queue q).chead
  | .qctrl q => boolNat (s.queue q).enable
  | .qstat q => (s.queue q).statWord
  | .slotCfg i => (s.slot i).part + 8 * boolNat (s.slot i).en
  | .slotQmap q => (s.qmapOf q).word
  | .epochCmd => s.front.epochBatch + 2 ^ 32 * s.front.epochEpoch + 2 ^ 48 * s.front.epochPart
  | .epochStat p => s.epochStatWord p
  | .slotCount i k => s.slotCountWord i k
  | .csel l h => leNat ((List.range 8).map (fun k => BitVec.ofNat 8 (Tab.get 0 s.obs.csel (16 * l + 8 * h + k))))
  | .cnt l k => (Tab.get 0 s.obs.cnt (16 * l + k)).toNat
  | .rtCmd => s.mem.rtCtx + 2 ^ 6 * s.mem.rtOp + 2 ^ 8 * boolNat s.mem.rtDrain
  | .rtStat => boolNat s.mem.rtBusy.isSome + 2 * s.mem.rtResult + 2 ^ 16 * s.mem.rtCount
  | .rtData w => (s.mem.rtData.getD w 0).toNat
  | .hotCtrl => s.mem.hotThresh + 2 ^ 16 * s.mem.hotEpoch + 2 ^ 20 * boolNat s.mem.hotEn
  | .hotBase => s.mem.hotBase
  | .hotSize => s.mem.hotSizelog
  | .hotHead => s.mem.hotHead
  | .hotTail => s.mem.hotTail
  | .hotLost => s.mem.hotLost
  | .errlogLost => s.mem.errLost
  | .geomA k => (Tab.get 0 s.kv.geomA k).toNat
  | .geomB k => (Tab.get 0 s.kv.geomB k).toNat
  | .coord => let c := s.eft.coord; c.modid + 2 ^ 15 * boolNat c.valid + 2 ^ 16 * c.usz + 2 ^ 20 * c.vsz + 2 ^ 24 * boolNat c.twin
  | .eftTime => s.now
  | .timeCtrl => s.timeCtrlWord
  | .twinCtrl => boolNat s.eft.twin.auto
  | .twinStat => s.twinStatWord
  | .linkCtrl p => boolNat (s.link p).disable + 2 ^ 16 * (s.link p).lthresh
  | .linkStat p => (s.link p).statWord
  | .eftPort n => s.trl.st.ports.getD n 0
  | .barCfg j => s.barCfgWord j
  | .eftRt j h => s.routeWord j h
  | .eftShare p k => leNat ((((s.trl.st.shares.getD p []).drop (8 * k)).take 8).map (BitVec.ofNat 8))
  | .pwrLimit => s.pwr.sust + 2 ^ 12 * s.pwr.peak
  | .pwrStat => s.pwrStatWord
  | .pwrTherm => s.thermWord
  | .owCtrl => 4 * boolNat s.pwr.wakedb + 2 ^ 4 * s.pwr.ow.code
  | .coef k => s.pwr.coef.getD k 0
  | .plimit p => s.plimitWord p
  | .level n => s.levelWord n
  | .energyQ q => s.energyQWord q
  | .energyP p => if s.inCloche p then s.pwr.visP.getD p 0 else microJoule (s.pwr.enP.getD p 0)
  | .energyIdle p => if s.inCloche p then s.pwr.visIdle.getD p 0 else microJoule (s.pwr.enIdle.getD p 0)
  | .energyMod => microJoule s.pwr.enMod
  | .secStat => s.sec.statWord
  | .secCtrl => 0
  | .secCloche p => (s.cloche p).word
  | .fwCtrl => 2 ^ 8 * s.sec.fwBytes
  | .rrCtrl => 2 * boolNat s.obs.rrBusy + 4 * boolNat s.obs.rrDone
  | .nlost => s.obs.nlost
  | .bdpAddr c => let x := s.obs.bdp.getD c .reset; x.offset + 2 ^ 60 * x.space
  | .bdpStat c => let x := s.obs.bdp.getD c .reset; x.status + 2 ^ 4 * boolNat x.err + 2 ^ 16 * x.erroff
  | .dbgCtrl => boolNat s.obs.dbgen
  | .stCtrl => boolNat s.rel.stEn + 2 * s.rel.stPeriod
  | .stStat => s.rel.stWord
  | .snapCnt => s.obs.snapCnt % 2 ^ 64
  | .straceCnt => s.sync.count
  | .trlCtrl => 2 ^ 8 * s.trl.bytes
  | .trlStat => s.trl.statWord
  | .trlRstat => s.rel.rstatWord

/-! The read-only windows (Table 22-1). -/

/-- A generation entry (Table 10-5). -/
def Gen.bytes (g : Gen) : List Byte :=
  leBytes 2 g.gen ++ leBytes 1 g.st.code ++ leBytes 1 (flagWord [g.inherited, g.loc]) ++ leBytes 4 g.refs
  ++ leBytes 2 (flagWord ((List.range 16).map (fun i => g.grafts.any (fun x => x.slot == i)))) ++ leBytes 1 (g.root % 16)
  ++ leBytes 1 g.ranges.length ++ leBytes 4 0 ++ leBytes 8 g.hbmChg ++ leBytes 8 g.celChg ++ leBytes 8 g.tReady ++ leBytes 24 0

/-- Frames a sequence holds a count on. -/
def Seq.held (x : Seq) : Nat :=
  (x.runs.filter (fun r => r.st != .evicted)).foldl (fun n r => n + r.count * x.geo.frames) 0 + x.runFrames.length
  + boolNat x.scoreFrame.isSome

/-- A frame number with its valid bit. -/
def frameWord (f : Option Nat) : Nat :=
  match f with
  | some n => n % 2 ^ 26 + 2 ^ 31
  | none => 0

/-- A sequence descriptor (Table 07-2); a FREE one reads as all zeros (R201). -/
def Seq.bytes (x : Seq) : List Byte :=
  if x.st = .free then leBytes 128 0
  else leBytes 1 x.st.code ++ leBytes 1 (x.part + 8 * x.gidx) ++ leBytes 1 (x.spread + 4 * boolNat x.closed) ++ leBytes 1 0
    ++ leBytes 4 x.decay.toNat ++ leBytes 8 x.geom.toNat ++ leBytes 8 x.length ++ leBytes 8 x.pos0 ++ leBytes 8 x.replpos
    ++ leBytes 4 x.runs.length ++ leBytes 4 x.held ++ (List.range 4).flatMap (fun k => leBytes 4 (frameWord x.runFrames[k]?))
    ++ leBytes 4 (frameWord x.scoreFrame) ++ leBytes 4 x.evicted ++ leBytes 56 0

/-- The partition of generation entry k, or of a sequence, hides its window entry (Table 22-3). -/
def State.genWindow (s : State) (k : Nat) : List Byte := if s.inCloche (k / 8) then leBytes 64 0 else (s.gen (k / 8) (k % 8)).bytes
def State.seqWindow (s : State) (n : Nat) : List Byte :=
  if (s.seq n).st ≠ .free ∧ s.inCloche (s.seq n).part then leBytes 128 0 else (s.seq n).bytes

/-- The ring of the i-th unit in the ring window, while DBGEN is 1. -/
def State.ringWindow (s : State) (i : Nat) : List Byte :=
  if s.obs.dbgen then (Tab.get .reset s.obs.rings (ringUnits.getD i 0)).bytes else leBytes 4096 0

/-- n bytes of a window at an offset; an access of n bytes does not cross an entry. -/
def State.windowRead (s : State) (o n : Nat) : List Byte :=
  match blockOf o with
  | .genWin => ((s.genWindow ((o - 0x200000) / 64)).drop (o % 64)).take n
  | .ringWin => ((s.ringWindow ((o - 0x300000) / 4096)).drop (o % 4096)).take n
  | .seqWin => ((s.seqWindow ((o - 0x4000000) / 128)).drop (o % 128)).take n
  | _ => leBytes n 0

/-- A window access is 4 to 64 bytes, aligned to 4, within a 64-byte unit (R580). -/
def windowFits (o n : Nat) : Bool := decide (4 ≤ n) && decide (n ≤ 64) && o % 4 == 0 && n % 4 == 0 && decide (o % 64 + n ≤ 64)

/-! Reads (R527, R580 to R583). -/

/-- Registers that may be read before the trellis image (Table 19-16). -/
def readableUnloaded (o : Nat) : Bool :=
  match blockOf o with
  | .mgt | .bdp | .bdpWin | .sec | .trl | .component | .msix => true
  | _ => o == 0x20010 || o == 0x20018 || o == 0xC0000 || o == 0xC0008 || o == 0xC0010 || (decide (0xC0200 ≤ o) && decide (o < 0xC0290))
      || o == 0xE0000 || o == 0xE0008 || o == 0xE0010 || o == 0x160010

/-- What a requester reads from the register at an aligned offset. -/
def State.regSeen (s : State) (o : Nat) : Nat :=
  match regOf o with
  | some g => if s.trl.loaded || readableUnloaded o then s.regValue g % 2 ^ 64 else 0
  | none => 0

/-- The latch of a requester is used up by its next access to the register (R581). -/
def State.dropLatch (s : State) (rq : Requester) (o : Nat) : State :=
  match (s.halves rq).latch with
  | some (off, _) => if off = o then s.setHalves rq { s.halves rq with latch := none } else s
  | none => s

/-- A register read of 4 or 8 bytes aligned to its width; any other returns zero (R580, R581). -/
def State.regRead (s : State) (rq : Requester) (o n : Nat) : List Byte × State :=
  let base := o / 8 * 8
  let v := s.regSeen base
  if n = 8 ∧ o % 8 = 0 then (leBytes 8 v, s.dropLatch rq base)
  else if n = 4 ∧ o % 8 = 0 then
    (leBytes 4 v, match regOf base with
      | some g => if g.split then s.setHalves rq { s.halves rq with latch := some (base, v / 2 ^ 32) } else s
      | none => s)
  else if n = 4 ∧ o % 8 = 4 then
    (match (s.halves rq).latch with
     | some (off, w) => (leBytes 4 (if off = base then w else v / 2 ^ 32), s.dropLatch rq base)
     | none => (leBytes 4 (v / 2 ^ 32), s))
  else (leBytes n 0, s)

/-- A read of n bytes at an offset of the register aperture by the management controller or a bulk data port channel
(Table 22-3). -/
def State.apertureRead (s : State) (rq : Requester) (o n : Nat) : List Byte × State :=
  let s := s.dropHeld rq
  match blockOf o with
  | .component | .msix | .bdpWin | .reserved => (leBytes n 0, s)
  | .genWin | .ringWin | .seqWin => (if windowFits o n && s.trl.loaded then s.windowRead o n else leBytes n 0, s)
  | _ => s.regRead rq o n

end Sys2Proof.Machine
end

