-- ==== Sys2Proof/Machine/Observe.lean ====
section
/-! DEFINITION. Observation and management (chapter 21): notifications, sensors, the record area and the return record. -/
namespace Sys2Proof.Machine

def State.setObs (s : State) (f : Obs → Obs) : State := { s with obs := f s.obs }

/-! Notifications (R559). -/

/-- NOTIFY_ACK: the controller has the notification. -/
def execNotifyAck (nseq : Nat) (s : State) : Res :=
  .next (s.mgmtMsg (fun s => s.setObs (fun o => { o with notices := o.notices.filter (fun n => n.nseq != nseq) })))

/-- NOTIFY_RESEND: 1 ms without an acknowledgement: sent again, 8 times in all, then dropped and counted. -/
def execNotifyResend (nseq : Nat) (s : State) : Res :=
  match s.obs.endpoint, s.obs.notices.find? (fun n => n.nseq == nseq) with
  | some _, some n =>
    if s.now < n.sentAt + 1000000 then .next s
    else if 8 ≤ n.tries then
      .next (s.setObs (fun o => { o with notices := o.notices.filter (fun x => x.nseq != nseq), nlost := (o.nlost + 1) % 2 ^ 32 }))
    else
      let n' := { n with tries := n.tries + 1, sentAt := s.now }
      .next ((s.setObs (fun o => { o with notices := o.notices.map (fun (x : Notice) => if x.nseq = nseq then n' else x) })).sendNotice n')
  | _, _ => .next s

/-! Sensors (R560). -/

/-- Lowest power level of any group in use. -/
def State.lowestLevel (s : State) : Nat := ((List.range 11).filter s.groupOn).foldl (fun m n => min m (s.level n)) 15

/-- The reading of a numeric sensor (Table 21-3); none for a sensor that is not listed. -/
def State.sensor (s : State) (i : Nat) : Option Nat :=
  if i = 1 then some s.pwr.vin
  else if i = 2 then some (if s.anyCloche then s.pwr.visMeas else s.pwr.meas)
  else if i = 3 then some ((s.pwr.sensors.take 72).foldl max 0)
  else if 4 ≤ i ∧ i ≤ 15 then some (s.pwr.sensors.getD (68 + i) 0)
  else if i = 16 then some s.lowestLevel
  else none

/-- GET_SENSOR_READING. -/
def execGetSensorReading (sensor : Nat) (s : State) : Res := .next (s.mgmtMsg (fun s => s.emit (.pldm (s.sensor sensor))))

/-- ENTDAA (R557): a target without a dynamic address takes the one assigned. -/
def execEntdaa (address : Nat) (s : State) : Res :=
  if !s.board.rails || s.obs.i3c.isSome || decide (128 ≤ address) then .next s
  else .next (s.setObs (fun o => { o with i3c := some address }))

/-! Log entries as bytes. -/

/-- An error-range log entry (Table 12-10); of a Cloche partition only TIER, PART and TIME show. -/
def State.errBytes (s : State) (e : ErrEntry) : List Byte :=
  let hide := match e.part with
    | some p => s.inCloche p
    | none => false
  let part := match e.part with
    | some p => p
    | none => 128
  let v (n : Nat) : Nat := if hide then 0 else n
  leBytes 8 (v e.addr) ++ leBytes 4 (v e.units) ++ leBytes 1 e.tier ++ leBytes 1 (v e.source) ++ leBytes 1 part ++ leBytes 1 0
  ++ leBytes 4 (v e.seq) ++ leBytes 2 (v e.queue) ++ leBytes 2 (v e.hits) ++ leBytes 8 e.time

/-- A trim log entry (Table 17-12). -/
def TrimLog.bytes (e : TrimLog) : List Byte :=
  leBytes 8 e.time ++ leBytes 2 e.island ++ leBytes 1 e.old ++ leBytes 1 e.new ++ leBytes 2 (trunc 16 e.slack) ++ leBytes 2 0

/-- A pending repair list entry (Table 18-5). -/
def PendRepair.bytes (e : PendRepair) : List Byte :=
  leBytes 8 e.time ++ leBytes 1 e.kind ++ leBytes 1 e.st ++ leBytes 2 e.count ++ leBytes 4 e.unit

/-- A sync trace entry (Table 16-8). -/
def STrace.bytes (e : STrace) : List Byte :=
  leBytes 8 e.time ++ leBytes 8 (e.kind % 16 + 2 ^ 4 * (e.part % 8) + 2 ^ 7 * boolNat e.late + 2 ^ 8 * (e.id % 512) + 2 ^ 17 * (e.who % 2 ^ 15)
    + 2 ^ 32 * (e.queue % 2 ^ 10) + 2 ^ 42 * (e.level % 16) + 2 ^ 46 * min e.skew 262143)

/-- The error-range log, the trim log and the pending repair list, oldest entry first. -/
def State.errLogBytes (s : State) : List Byte := padBytes 0x8000 (s.mem.errlog.reverse.flatMap s.errBytes)
def State.trimLogBytes (s : State) : List Byte := padBytes 0x4000 (s.pwr.trimLog.reverse.flatMap TrimLog.bytes)
def State.pendBytes (s : State) : List Byte := padBytes 0x1000 (s.rel.pending.flatMap PendRepair.bytes)

/-- Entry n of the sync trace lies at (n mod 65,536) × 16 (R568): the bytes of place k. -/
def State.straceAt (s : State) (k : Nat) : List Byte :=
  match s.sync.trace[(s.sync.count + 65535 - k) % 65536]? with
  | some e => e.bytes
  | none => leBytes 16 0

/-- One byte of the record area (Table 21-9). -/
def State.recordByte (s : State) (a : Nat) : Byte :=
  if a < 0x300000 then (Tab.get [] s.obs.snaps (a / 192)).getD (a % 192) 0
  else if 0x400000 ≤ a ∧ a < 0x500000 then (s.straceAt ((a - 0x400000) / 16)).getD (a % 16) 0
  else if 0x500000 ≤ a ∧ a < 0x508000 then s.errLogBytes.getD (a - 0x500000) 0
  else if 0x510000 ≤ a ∧ a < 0x514000 then s.trimLogBytes.getD (a - 0x510000) 0
  else if 0x520000 ≤ a ∧ a < 0x521000 then s.pendBytes.getD (a - 0x520000) 0
  else if 0x530000 ≤ a ∧ a < 0x53A000 then s.trl.st.repair.getD (a - 0x530000) 0
  else if 0x1000000 ≤ a ∧ a < 0x1100000 then s.obs.record.byte (a - 0x1000000)
  else 0

/-! The return record (R574). -/

/-- Its header: the report section is missing before the end of phase 3 (NOREP). -/
def State.recordHeader (s : State) : List Byte :=
  padBytes 4096 (leBytes 4 0x4B325252 ++ leBytes 2 1 ++ leBytes 1 (boolNat (!s.sec.fwok)) ++ leBytes 1 0 ++ leBytes 8 s.now
    ++ ([.resetCause, .resetTrig, .trlRstat, .pwrTherm, .stStat, .secStat, .pwrStat, .nlost, .errlogLost] : List Reg).flatMap
      (fun g => leBytes 8 (s.regValue g)))

/-- Record bytes 0 to 0xE0FFF. -/
def State.recordFront (s : State) : List Byte :=
  s.recordHeader ++ s.rakeBytes 200 ++ s.errLogBytes ++ fitTo 0xA000 s.trl.st.repair ++ s.pendBytes ++ s.trimLogBytes

/-- The whole record of 929,792 bytes; the report's NONCE binds what comes before it. -/
def State.returnRecord (s : State) : List Byte :=
  let front := s.recordFront
  front ++ padBytes 0x2000 (if s.sec.fwok then s.report (sha3 front) else [])

/-- Offset of MGT_RR_CTRL. -/
def rrOff : Nat := 0x120008

/-- CAPTURE: assembly starts; discarded with an event while BUSY (Table 21-15). -/
def execCapture (rq : Requester) (s : State) : Res :=
  .next (s.regWrite rq rrOff (fun s =>
    if s.obs.rrBusy then s.discard 0x21 rrOff else s.setObs (fun o => { o with rrBusy := true, rrDone := false })))

/-- RETURN_RECORD_DONE: the record lies in the record area and notification 0x0009 is sent. -/
def execReturnRecordDone (s : State) : Res :=
  if s.obs.rrBusy then
    .next ((s.setObs (fun o => { o with rrBusy := false, rrDone := true, record := Memory.store [] 0 s.returnRecord })).notify 0x0009 none 0xE3000)
  else .next s

end Sys2Proof.Machine
end

