-- ==== Sys2Proof/Machine/RegPut.lean ====
section
/-! DEFINITION. Register writes (chapter 22): what a write does to each register of Table 22-2, and the widths, halves and
reach under which it gets there (R580 to R584). -/
namespace Sys2Proof.Machine

/-- The next state of a meaning; the state itself where it has none. -/
def nextOf (r : Res) (s : State) : State :=
  match r with
  | .next t => t
  | _ => s

/-- An unlisted encoding leaves its field and an event (R15). -/
def State.unlisted (s : State) (ok : Bool) (o : Nat) : State := if ok then s else s.discard 0x20 o

/-- Software's write of a field is taken when its value is listed. -/
def taken (ok : Bool) (v old : Nat) : Nat := if ok then v else old

/-! The bulk data port's address registers (Table 21-4). -/

def State.bdpCh (s : State) (c : Nat) : BdpCh := s.obs.bdp.getD c .reset
def State.setBdp (s : State) (c : Nat) (x : BdpCh) : State := s.setObs (fun o => { o with bdp := o.bdp.set c x })

/-- BDP_ADDRc takes a value and its tracking restarts (R561). An unlisted SPACE keeps the space and leaves an event. -/
def State.setBdpAddr (s : State) (c : Nat) (v : Word) : State :=
  let x := s.bdpCh c
  let sp := v.toNat / 2 ^ 60
  (s.setBdp c { x with offset := v.toNat % 2 ^ 48, space := taken (decide (sp < 5)) sp x.space, seen := 0 }).unlisted (decide (sp < 5))
    (0x140000 + 8 * c)

/-- BDP_ADDR_WRITE (R561). -/
def execBdpAddrWrite (rq : Requester) (c : Nat) (v : Word) (s : State) : Res :=
  if 3 ≤ c then .next s else .next (s.regWrite rq (0x140000 + 8 * c) (fun s => s.setBdpAddr c v))

/-! Writes of single registers. Each takes the whole new value; `lo` and `hi` say which halves the access wrote. -/

/-- The state takes this value of ENABLE (Table 13-5). -/
def QState.takesEnable (st : QState) (v : Bool) : Bool :=
  match st with
  | .disabled => v
  | .stopped => true
  | .idle => !v
  | _ => false

/-- FE_Q_CTRL (Table 13-5): an ENABLE bit that the present state does not take is discarded; then ACTION, ZERO and ENABLE
act in this order. Beside an ACTION or ZERO an ENABLE bit that keeps its value asks for nothing. -/
def State.putQctrl (s : State) (rq : Requester) (q v : Nat) : State :=
  let x := s.queue q
  let act := bits v 2 1
  let asks := !((act != 0 || bit v 3) && bit v 0 == x.enable)
  let s0 := if asks && !(x.state.takesEnable (bit v 0)) then nextOf (if bit v 0 then execQueueEnable rq q (2 ^ 16) s else execQueueDisable rq q s) s
    else s
  let s1 := match act with
    | 1 => nextOf (execSkip rq q s0) s0
    | 2 => nextOf (execAbort rq q s0) s0
    | 3 => nextOf (execResume rq q (2 ^ 16) s0) s0
    | _ => s0
  let s2 := if bit v 3 then nextOf (execZero rq q s1) s1 else s1
  if asks && x.state.takesEnable (bit v 0) then
    nextOf (if bit v 0 then execQueueEnable rq q (2 ^ 16) s2 else execQueueDisable rq q s2) s2
  else s2

/-- FE_RESET_CAUSE (Table 13-17). -/
def State.putCause (s : State) (o v : Nat) : State :=
  let r := s.rel.resets
  let c := bits v 3 0
  let k := bits v 7 4
  let q := bits v 17 8
  let s := s.setRel (fun x => { x with resets := { r with
    cause := taken (decide (c ≤ 3)) c (r.cause % 16) + 16 * taken (decide (k ≤ 5)) k (r.cause / 16),
    queue := taken (decide (q < 516)) q r.queue, seq := bits v 63 32 } })
  s.unlisted (decide (c ≤ 3) && decide (k ≤ 5) && decide (q < 516)) o

/-- FE_RESET_TRIG (Table 18-9). -/
def State.putTrig (s : State) (o v : Nat) : State :=
  let t := bits v 3 0
  (s.setRel (fun x => { x with resets := { x.resets with trig := taken (decide (t ≤ 7)) t x.resets.trig, detail := bits v 15 4 } })).unlisted
    (decide (t ≤ 7)) o

/-- An event code that a counter may select (Table 21-8). -/
def cselOk (c : Nat) : Bool := decide (c ≤ 0x0B) || (decide (0x10 ≤ c) && decide (c ≤ 0x1C))

/-- SLOT_CSEL: each field takes a listed code. -/
def State.putCsel (s : State) (l h o v : Nat) (lo hi : Bool) : State :=
  (List.range 8).foldl (fun (s : State) k =>
    let c := v / 2 ^ (8 * k) % 256
    if if k < 4 then lo else hi then
      (s.setObs (fun (x : Obs) => { x with csel := if cselOk c then Tab.set 0 x.csel (16 * l + 8 * h + k) c else x.csel })).unlisted (cselOk c) o
    else s) s

/-- SLOT_EPOCH_CMD (Table 14-7). -/
def State.putEpochCmd (s : State) (rq : Requester) (v : Nat) : State :=
  if bit v 51 then nextOf (execEpochRaise rq (bits v 31 0) (bits v 47 32) (bits v 50 48) s) s
  else { s with front := { s.front with epochBatch := bits v 31 0, epochEpoch := bits v 47 32, epochPart := bits v 50 48 } }

/-- MMU_RT_CMD (Table 12-4): without GO only its fields are written; while BUSY a write is discarded (R350). -/
def State.putRtCmd (s : State) (rq : Requester) (o v : Nat) : State :=
  if s.mem.rtBusy.isSome then s.discard 0x21 o
  else if bit v 9 then
    (match bits v 7 6 with
     | 0 => nextOf (execRtInsert rq (bits v 5 0) (bit v 8) s) s
     | 1 => nextOf (execRtRemove rq (bits v 5 0) (bit v 8) s) s
     | 2 => nextOf (execRtReplace rq (bits v 5 0) (bit v 8) s) s
     | _ => nextOf (execRtFlush rq (bits v 5 0) (bit v 8) s) s)
  else { s with mem := { s.mem with rtCtx := bits v 5 0, rtOp := bits v 7 6, rtDrain := bit v 8 } }

/-- MMU_RT_DATAw: discarded while BUSY (R350). -/
def State.putRtData (s : State) (w o v : Nat) : State :=
  if s.mem.rtBusy.isSome then s.discard 0x21 o else { s with mem := { s.mem with rtData := s.mem.rtData.set w (BitVec.ofNat 64 v) } }

/-- MMU_HOT_CTRL (Table 12-7). The first epoch begins when EN is set. -/
def State.putHotCtrl (s : State) (o v : Nat) : State :=
  let t := bits v 15 0
  let e := bits v 19 16
  ({ s with mem := { s.mem with
    hotThresh := taken (t != 0) t s.mem.hotThresh, hotEpoch := taken (decide (e ≤ 10)) e s.mem.hotEpoch, hotEn := bit v 20,
    hotSince := if bit v 20 && !s.mem.hotEn then s.now else s.mem.hotSince } } : State).unlisted
    (t != 0 && decide (e ≤ 10)) o

/-- MMU_HOT_SIZE (Table 22-7). -/
def State.putHotSize (s : State) (o v : Nat) : State :=
  let n := bits v 4 0
  if s.mem.hotEn then s.discard 0x21 o
  else ({ s with mem := { s.mem with hotSizelog := taken (decide (8 ≤ n) && decide (n ≤ 16)) n s.mem.hotSizelog } } : State).unlisted
    (decide (8 ≤ n) && decide (n ≤ 16)) o

/-- MMU_HOT_TAIL (Table 22-7). -/
def State.putHotTail (s : State) (o v : Nat) : State :=
  let n := bits v 15 0
  let ok := decide (n < 2 ^ s.mem.hotSizelog)
  ({ s with mem := { s.mem with hotTail := taken ok n s.mem.hotTail } } : State).unlisted ok o

/-- Fields of KV_GEOM_A with unlisted encodings (Table 07-3): (high bit, low bit, listed). -/
def geomFields (v : Nat) : List (Nat × Nat × Bool) :=
  let f := bits v 3 0
  [(3, 0, f == 0 || (decide (2 ≤ f) && decide (f ≤ 5))), (7, 4, decide (bits v 7 4 ≤ 10)), (52, 48, decide (bits v 52 48 ≤ 24)),
    (55, 53, decide (bits v 55 53 ≤ 6)), (57, 56, decide (bits v 57 56 ≤ 2))]

/-- KV_GEOM_A: each field takes a listed encoding. -/
def State.putGeomA (s : State) (k o v : Nat) : State :=
  let old := (Tab.get 0 s.kv.geomA k).toNat
  let fs := geomFields v
  let new := fs.foldl (fun w f => if f.2.2 then w else setBits w f.1 f.2.1 (bits old f.1 f.2.1)) (v % 2 ^ 60)
  ({ s with kv := { s.kv with geomA := Tab.set 0 s.kv.geomA k (BitVec.ofNat 64 new) } } : State).unlisted (fs.all (·.2.2)) o

/-- EFT_TWIN_CTRL (Table 15-14). -/
def State.putTwinCtrl (s : State) (rq : Requester) (v : Nat) : State :=
  let s := s.setTwin (fun t => { t with auto := bit v 0 })
  let s := if bit v 1 then nextOf (execTakeover rq s) s else s
  if bit v 2 then nextOf (execRejoin rq s) s else s

/-- EFT_LINK_CTRL (Table 15-6). -/
def State.putLinkCtrl (s : State) (rq : Requester) (p v : Nat) : State :=
  let s := s.setLink p { s.link p with lthresh := bits v 31 16 }
  let s := if bit v 2 then nextOf (execClrbad rq p s) s else s
  let s := if bit v 1 then nextOf (execLinkRetrain rq p s) s else s
  nextOf (execLinkDisable rq p (bit v 0) s) s

/-- PWR_LIMIT (Table 17-6). -/
def State.putPwrLimit (s : State) (o v : Nat) : State :=
  let a := bits v 11 0
  let b := bits v 23 12
  let okA := decide (600 ≤ a) && decide (a ≤ s.trl.st.modrec.sustMax)
  let sust := taken okA a s.pwr.sust
  let okB := decide (sust ≤ b) && decide (b ≤ 2400)
  (s.setPwr (fun w => { w with sust := sust, peak := taken okB b w.peak })).unlisted (okA && okB) o

/-- PWR_THERM (Table 17-11). -/
def State.putTherm (s : State) (o v : Nat) : State :=
  let a := bits v 7 0
  let b := bits v 15 8
  let okB := decide (80 ≤ b) && decide (b ≤ 110)
  let trip := taken okB b s.pwr.trip
  let okA := decide (70 ≤ a) && decide (a ≤ 100) && decide (a < trip)
  (s.setPwr (fun w => { w with throttle := taken okA a w.throttle, trip := trip, critseen := bit v 26 })).unlisted (okA && okB) o

/-- PWR_OW_CTRL (Table 17-16). -/
def State.putOwCtrl (s : State) (rq : Requester) (v : Nat) : State :=
  let s := s.setPwr (fun w => { w with wakedb := bit v 2 })
  let s := if bit v 0 then nextOf (execOwEnter rq s) s else s
  if bit v 1 then nextOf (execWake rq s) s else s

/-- MGT_FW_CTRL (Table 21-7). -/
def State.putFwCtrl (s : State) (rq : Requester) (o v : Nat) : State :=
  let n := bits v 34 8
  let s := ({ s with sec := { s.sec with fwBytes := taken (decide (n ≤ 2 ^ 26)) n s.sec.fwBytes } } : State).unlisted (decide (n ≤ 2 ^ 26)) o
  if bit v 0 then nextOf (execFwGo rq s) s else s

/-- TRL_CTRL (Table 19-12). -/
def State.putTrlCtrl (s : State) (rq : Requester) (v : Nat) : State :=
  let s := { s with trl := { s.trl with bytes := bits v 29 8 } }
  if bit v 0 then nextOf (execTrellisGo rq s) s else s

/-- A write of an LK field after the load (Table 00-1). -/
def State.locked (s : State) (o : Nat) (written : Bool) : State := if written then s.discard 0x22 o else s

/-- The effect of a write that the gate lets through. A read-only register takes none (R12). -/
def State.regEffect (s : State) (rq : Requester) (o v : Nat) (lo hi : Bool) : Reg → State
  | .feWdog => { s with front := { s.front with wdog := ⟨bits v 15 0, bits v 31 16, bits v 55 32⟩ } }
  | .resetCause => s.putCause o v
  | .resetTrig => if lo then s.putTrig o v else s
  | .devreset => if lo then nextOf (execFeDevreset rq (BitVec.ofNat 64 v) s) s else s
  | .irqStat => if lo then { s with host := { s.host with irqStat := s.host.irqStat ^^^ (s.host.irqStat &&& v) } } else s
  | .ring q => nextOf (execFeQRing rq q (BitVec.ofNat 64 v) s) s
  | .cring q => nextOf (execFeQCring rq q (BitVec.ofNat 64 v) s) s
  | .db q => if lo then nextOf (execDoorbell rq q (bits v 15 0) [] s) s else s
  | .chead q => if lo then nextOf (execFeQChead rq q (BitVec.ofNat 64 v) s) s else s
  | .qctrl q => if lo then s.putQctrl rq q v else s
  | .slotCfg _ => s.locked o lo
  | .slotQmap q => if lo then (nextOf (execSlotQmapWrite rq q (v % 32) s) s).locked o true else s
  | .epochCmd => s.putEpochCmd rq v
  | .csel l h => s.putCsel l h o v lo hi
  | .rtCmd => if lo then s.putRtCmd rq o v else s
  | .rtData w => s.putRtData w o v
  | .hotCtrl => if lo then s.putHotCtrl o v else s
  | .hotBase => nextOf (execHotBaseWrite rq (BitVec.ofNat 64 v) s) s
  | .hotSize => if lo then s.putHotSize o v else s
  | .hotTail => if lo then s.putHotTail o v else s
  | .geomA k => s.putGeomA k o v
  | .geomB k => if lo then { s with kv := { s.kv with geomB := Tab.set 0 s.kv.geomB k (BitVec.ofNat 64 (v % 2 ^ 32)) } } else s
  | .timeCtrl => s.locked o lo
  | .twinCtrl => if lo then s.putTwinCtrl rq v else s
  | .twinStat => if lo && bit v 3 then s.setTwin (fun t => { t with back := false }) else s
  | .linkCtrl p => if lo then s.putLinkCtrl rq p v else s
  | .eftPort _ => s.locked o lo
  | .barCfg _ => s.locked o true
  | .pwrLimit => if lo then s.putPwrLimit o v else s
  | .pwrTherm => if lo then s.putTherm o v else s
  | .owCtrl => if lo then s.putOwCtrl rq v else s
  | .coef k => if lo then nextOf (execCoefWrite rq k (BitVec.ofNat 64 v) s) s else s
  | .plimit p => if lo then (s.setPwr (fun w => { w with plimit := w.plimit.set p (bits v 11 0) })).locked o true else s
  | .secCtrl => if lo && bit v 0 then nextOf (execSvncommit rq s) s else s
  | .secCloche p => if lo && bit v 0 then nextOf (execClocheEnter rq p s) s else s
  | .fwCtrl => s.putFwCtrl rq o v
  | .rrCtrl => if lo && bit v 0 then nextOf (execCapture rq s) s else s
  | .bdpAddr c => nextOf (execBdpAddrWrite rq c (BitVec.ofNat 64 v) s) s
  | .bdpStat c => if lo && bit v 4 then s.setBdp c { s.bdpCh c with err := false } else s
  | .dbgCtrl => if lo then s.setObs (fun x => { x with dbgen := bit v 0 }) else s
  | .stCtrl => if lo then s.setRel (fun r => { r with stEn := bit v 0, stPeriod := bits v 15 1 }) else s
  | .trlCtrl => if lo then s.putTrlCtrl rq v else s
  | _ => s

/-- A write of one register: the gate of R527, R583 and R584, then its effect. -/
def State.regPut (s : State) (rq : Requester) (g : Reg) (o v : Nat) (lo hi : Bool) : State :=
  match s.gateCode rq o with
  | some c => s.discard c o
  | none => s.regEffect rq o v lo hi g

/-- The half that a 32-bit write leaves alone keeps its value; a write of 1 to clear leaves the other half alone by zeros. -/
def State.mergeHalf (s : State) (g : Reg) (o v : Nat) : Nat :=
  let old := match g with
    | .irqStat | .twinStat | .bdpStat _ => 0
    | _ => s.regValue g
  if o % 8 = 0 then v % 2 ^ 32 + old / 2 ^ 32 * 2 ^ 32 else old % 2 ^ 32 + v % 2 ^ 32 * 2 ^ 32

/-- A 32-bit write of a half of a split register (R581): the low half is held; the high half commits both when it is the
requester's next access. -/
def State.splitWrite (s : State) (rq : Requester) (g : Reg) (o v : Nat) : State :=
  let base := o / 8 * 8
  match s.gateCode rq base with
  | some c => (s.dropHeld rq).discard c o
  | none =>
    if o % 8 = 0 then
      let s := s.dropHeld rq
      s.setHalves rq { s.halves rq with held := some (base, v % 2 ^ 32) }
    else match (s.halves rq).held with
      | some (b, w) =>
        if b = base then
          let s := s.setHalves rq { s.halves rq with held := none }
          s.regPut rq g base (w + v % 2 ^ 32 * 2 ^ 32) true true
        else (s.dropHeld rq).discard 0x21 o
      | none => s.discard 0x21 o

/-- A write of n bytes at an offset that a register occupies (R580, R581). -/
def State.regStore (s : State) (rq : Requester) (g : Reg) (o n v : Nat) : State :=
  let base := o / 8 * 8
  let s := s.dropLatch rq base
  if n = 8 ∧ o % 8 = 0 then (s.dropHeld rq).regPut rq g base (v % 2 ^ 64) true true
  else if n = 4 ∧ o % 4 = 0 then
    if g.split then s.splitWrite rq g o v
    else
      let s := s.dropHeld rq
      s.regPut rq g base (s.mergeHalf g o v) (o % 8 == 0) (o % 8 == 4)
  else (s.dropHeld rq).discard 0x20 o

/-! The component registers and the MSI-X table, which only the host reaches. -/

/-- An MSI-X vector is sent now when its entry lets it. -/
def State.sendPending (s : State) (v : Nat) : State :=
  if Tab.get false s.host.msixPend v && s.host.msixEn && !s.host.fmask && !(Tab.get .reset s.host.msix v).mask && !s.inReset then
    ({ s with host := { s.host with msixPend := Tab.set false s.host.msixPend v false } } : State).emit (.vector v)
  else s

/-- An MSI-X entry written. -/
def State.setMsix (s : State) (v : Nat) (x : Msix) : State := { s with host := { s.host with msix := Tab.set .reset s.host.msix v x } }

/-- A vector unmasked is sent when it is pending (R586). -/
def State.unmask (s : State) (v : Nat) : State := (s.setMsix v { Tab.get .reset s.host.msix v with mask := false }).sendPending v

/-- MSIX_UNMASK. -/
def execMsixUnmask (v : Nat) (s : State) : Res := if 2048 ≤ v ∨ !(s.portUp .host) then .next s else .next (s.unmask v)

/-- A dword of the MSI-X table written: message address, message data, or the mask. -/
def State.putMsix (s : State) (o v : Nat) : State :=
  let i := o / 16
  let x := Tab.get .reset s.host.msix i
  match o % 16 / 4 with
  | 0 => s.setMsix i { x with addr := x.addr / 2 ^ 32 * 2 ^ 32 + v % 2 ^ 32 / 4 * 4 }
  | 1 => s.setMsix i { x with addr := x.addr % 2 ^ 32 + v % 2 ^ 32 * 2 ^ 32 }
  | 2 => s.setMsix i { x with data := v % 2 ^ 32 }
  | _ => if bit v 0 then s.setMsix i { x with mask := true } else s.unmask i

/-- Offset of the first HDM decoder's registers in the component register block, and their places (the CXL standard's). -/
def hdmOff : Nat := 0x1110

/-- A decoder may be committed for this span: a multiple of 256 MiB that lies in a host-exposed span (R364, R531). -/
def State.hdmOk (s : State) (d : Nat × Nat) : Bool :=
  s.trl.loaded && decide (0 < d.2) && d.2 % 2 ^ 28 == 0 && s.trl.st.spans.any (fun x => x.kind == 9 && within d.1 d.2 x.base x.size)

/-- A dword of HDM decoder i written: base and size while it is not committed, and Commit. -/
def State.putHdm (s : State) (i k v : Nat) : State :=
  let d := s.mem.hdmSet.getD i (0, 0)
  let on := decide (0 < (s.mem.hdm.getD i (0, 0)).2)
  let set (x : Nat × Nat) : State := if on then s else { s with mem := { s.mem with hdmSet := s.mem.hdmSet.set i x } }
  let hi := v % 2 ^ 32 * 2 ^ 32
  let lo := v % 2 ^ 32 / 2 ^ 28 * 2 ^ 28
  match k with
  | 0 => set (d.1 / 2 ^ 32 * 2 ^ 32 + lo, d.2)
  | 1 => set (d.1 % 2 ^ 32 + hi, d.2)
  | 2 => set (d.1, d.2 / 2 ^ 32 * 2 ^ 32 + lo)
  | 3 => set (d.1, d.2 % 2 ^ 32 + hi)
  | 4 =>
    if bit v 9 then (if !on && s.hdmOk d then { s with mem := { s.mem with hdm := s.mem.hdm.set i d } } else s)
    else { s with mem := { s.mem with hdm := s.mem.hdm.set i (0, 0) } }
  | _ => s

/-- A dword of the component registers or the MSI-X table written. -/
def State.putDword (s : State) (o v : Nat) : State :=
  if hdmOff ≤ o ∧ o < hdmOff + 256 then s.putHdm ((o - hdmOff) / 32) ((o - hdmOff) % 32 / 4) v
  else if 0x10000 ≤ o ∧ o < 0x18000 then s.putMsix (o - 0x10000) v
  else s

/-- A host write of 4 or 8 bytes there. -/
def State.hostStore (s : State) (o n v : Nat) : State :=
  if n = 4 ∧ o % 4 = 0 then s.putDword o v
  else if n = 8 ∧ o % 8 = 0 then (s.putDword o v).putDword (o + 4) (v / 2 ^ 32)
  else s.discard 0x20 o

/-- A write of n bytes at an offset of BAR 0, the channel 2 window apart (R578 to R584). -/
def State.busWrite (s : State) (rq : Requester) (o n v : Nat) : State :=
  if !(s.portUp rq) then s
  else match blockOf o with
    | .reserved => s.dropHeld rq
    | .component | .msix =>
      let s := s.dropHeld rq
      (match s.gateCode rq o with
       | some c => s.discard c o
       | none => s.hostStore o n v)
    | .genWin | .ringWin | .seqWin | .bdpWin =>
      let s := s.dropHeld rq
      s.discard ((s.gateCode rq o).getD 0x21) o
    | _ =>
      match regOf (o / 8 * 8) with
      | some g => s.regStore rq g o n v
      | none => s.dropHeld rq

end Sys2Proof.Machine
end

