-- ==== Sys2Proof/Machine/Bdp.lean ====
section
/-! DEFINITION. The bulk data port (R561 to R564), the management controller's register and bulk messages (R558), register
writes without a row of their own (R581), and CXL configuration space (R576). -/
namespace Sys2Proof.Machine

/-! The bulk data port. -/

/-- Bytes of a space (Table 21-5). -/
def bdpSize (space : Nat) : Nat := ([2 ^ 48, 2 ^ 21, 2 ^ 26, 2 ^ 25, 2 ^ 20] : List Nat).getD space 0

/-- Region of an address in the region SRAM window, and the byte offset in its 64 MiB (Table 12-1). -/
def sramRegion (a : Nat) : Nat := (a - 0x40000000000) / 0x4000000
def sramOffset (a : Nat) : Nat := a % 0x4000000

/-- The access touches a carve-out or a frame pool of a partition that is in a Cloche state other than OFF (R548). -/
def State.bdpCloche (s : State) (a n : Nat) : Bool :=
  match mapRow a with
  | .regionWin => (match s.partOfRegion (sramRegion a) with
    | some p => s.inCloche p && (s.ctxsOf p).any (fun c =>
        overlaps (sramOffset a) n (s.ctxRec c).carve.sramBase (s.ctxRec c).carve.sramSize)
    | none => false)
  | _ => s.trl.st.spans.any (fun x => decide (1 ≤ x.kind) && decide (x.kind ≤ 4) && overlaps a n x.base x.size && s.inCloche x.owner)

/-- A row of the local map that the bulk data port reaches (Table 12-1). -/
def bdpRow (a n : Nat) : Bool :=
  let z := a + n - 1
  mapRow a == mapRow z && (match mapRow a with
    | .hbm | .cellar | .regs => true
    | .regionWin => sramRegion a == sramRegion z && decide (sramOffset z < 0x3000000)
    | _ => false)

/-- HBM or cellar. -/
def isMem (a : Nat) : Bool :=
  match mapRow a with
  | .hbm | .cellar => true
  | _ => false

/-- The status with which an access of n bytes at address a of a space is refused (R562), the first that applies. -/
def State.bdpFail (s : State) (write : Bool) (space a n : Nat) : Option Status :=
  if (space == 0 && (s.bdpCloche a n || s.scrubHit a n || inSystemArea a n)) || (space == 3 && write) || (space == 4 && !write)
      || (space == 1 && write && s.trl.busy.isSome) then some .denied
  else if bdpSize space < a + n ∨ (space = 0 ∧ !(bdpRow a n)) then some .range
  else if space = 0 ∧ isMem a ∧ (s.trl.phase < 5 ∨ s.rel.resets.waitFw) then some .state
  else if space = 0 ∧ isMem a ∧ (if write then s.badPartial a n else s.badUnit a n).isSome then some .data
  else none

/-- A region's SRAM after bytes are stored through the window. -/
def State.sramWrite (s : State) (a : Nat) (bs : List Byte) : State :=
  let r := sramRegion a
  s.setRegion r ((s.region r).sramStore (sramOffset a) bs)

/-- Bytes of space 0. -/
def State.bdpRead0 (s : State) (c a n : Nat) : List Byte × State :=
  match mapRow a with
  | .regs => s.apertureRead (.bdp c) (a % 2 ^ 32) n
  | .regionWin => ((s.region (sramRegion a)).sramLoad (sramOffset a) n, s)
  | _ => (s.readLocal a n, s.wakeMem)

/-- Bytes of a space that an access may read. -/
def State.bdpGet (s : State) (c space a n : Nat) : List Byte × State :=
  match space with
  | 0 => s.bdpRead0 c a n
  | 1 => (s.trl.staging.load a n, s)
  | 2 => (s.sec.fwStage.load a n, s)
  | _ => ((List.range n).map (fun i => s.recordByte (a + i)), s)

/-- Bytes stored into a space that an access may write. -/
def State.bdpPut (s : State) (c space a : Nat) (bs : List Byte) : State :=
  match space with
  | 0 => (match mapRow a with
    | .regs => s.busWrite (.bdp c) (a % 2 ^ 32) bs.length (leNat bs)
    | .regionWin => s.sramWrite a bs
    | _ => s.wakeMem.writeLocal a bs)
  | 1 => { s with trl := { s.trl with staging := s.trl.staging.store a bs } }
  | 2 => { s with sec := { s.sec with fwStage := s.sec.fwStage.store a bs } }
  | _ => { s with sec := { s.sec with unlockStage := s.sec.unlockStage.store a bs } }

/-- The window bytes o … o + n − 1 have been accessed; when all 4,096 have, the address rises and tracking restarts
(R561). -/
def BdpCh.track (x : BdpCh) (o n : Nat) : BdpCh :=
  let m := x.seen ||| ((2 ^ n - 1) * 2 ^ o)
  if m = 2 ^ 4096 - 1 then { x with offset := (x.offset + 4096) % 2 ^ 48, seen := 0 } else { x with seen := m }

/-- A refused access is recorded in BDP_STATc. -/
def BdpCh.refuse (x : BdpCh) (st : Status) (o : Nat) : BdpCh := { x with status := st.code, err := true, erroff := o }

/-- An access of a channel at window offset o: its status and, for a read, its bytes; a refused one changes nothing, reads
as zeros, and still counts toward the tracking (R561, R562). -/
def State.bdpAccess (s : State) (c o n : Nat) (data : Option (List Byte)) : Status × List Byte × State :=
  let x := s.bdpCh c
  let a := x.offset + o
  match s.bdpFail data.isSome x.space a n with
  | some st =>
    let s := s.setBdp c ((x.refuse st o).track o n)
    let s := if st = .data then s.logError ((s.badUnit a n).getD a) (if mapRow a = .hbm then 1 else 2) 6 none 0 0 0 else s
    (st, leBytes n 0, s)
  | none =>
    let s := s.setBdp c (x.track o n)
    match data with
    | some bs => (.ok, [], s.bdpPut c x.space a bs)
    | none => let r := s.bdpGet c x.space a n; (.ok, r.1, r.2)

/-- Lines that the host may hold among those of an access that is not refused: the access is made when the host has answered
for them (R365). -/
def State.bdpHeld (s : State) (c o n : Nat) (write : Bool) : List Nat :=
  let x := s.bdpCh c
  let a := x.offset + o
  if x.space = 0 ∧ isMem a ∧ s.bdpFail write x.space a n = none then s.heldLocal a n else []

/-- The access stays in the window and moves at least one byte (R561). -/
def bdpFits (o n : Nat) : Bool := decide (0 < n) && decide (o + n ≤ 4096)

/-! Channel 1: management messages (R558, Table 21-1). -/

/-- BDP_SET. -/
def execBdpSet (h : MgmtHdr) (v : Word) (s : State) : Res :=
  .next (s.mgmtCmd h 0x05 8 (fun s => (s.setBdpAddr 1 v).mgmtReply 0x05 h.tag .ok []))

/-- BDP_WRITE. -/
def execBdpWrite (h : MgmtHdr) (offset : Nat) (data : List Byte) (s : State) : Res :=
  .next (s.mgmtCmd h 0x06 (4 + data.length) (fun s =>
    let held := s.bdpHeld 1 offset data.length true
    if !(bdpFits offset data.length) then s.mgmtReply 0x06 h.tag .range []
    else if held ≠ [] then s.snoopLines held
    else
      let r := s.bdpAccess 1 offset data.length (some data)
      r.2.2.mgmtReply 0x06 h.tag r.1 []))

/-- BDP_READ. -/
def execBdpRead (h : MgmtHdr) (offset length : Nat) (s : State) : Res :=
  .next (s.mgmtCmd h 0x07 4 (fun s =>
    let held := s.bdpHeld 1 offset length false
    if !(bdpFits offset length) then s.mgmtReply 0x07 h.tag .range []
    else if held ≠ [] then s.snoopLines held
    else
      let r := s.bdpAccess 1 offset length none
      r.2.2.mgmtReply 0x07 h.tag r.1 r.2.1))

/-! Channel 0: the bulk lane (R564). -/

/-- A frame whose CRC fails has no effect and is answered with DATA; without power nothing answers. -/
def State.bulkFrame (s : State) (op : Nat) (h : BulkHdr) (f : State → State) : State :=
  if !s.board.rails then s
  else if !h.crcOk then s.emit (.bulk op h.tag Status.data.code [])
  else f s

/-- SETADDR. -/
def execSetaddr (h : BulkHdr) (v : Word) (s : State) : Res :=
  .next (s.bulkFrame 1 h (fun s => (s.setBdpAddr 0 v).emit (.bulk 1 h.tag Status.ok.code [])))

/-- WRITE on the bulk lane. -/
def execBulkWrite (h : BulkHdr) (data : List Byte) (s : State) : Res :=
  .next (s.bulkFrame 2 h (fun s =>
    let held := s.bdpHeld 0 h.offset data.length true
    if !(bdpFits h.offset data.length) then s.emit (.bulk 2 h.tag Status.range.code [])
    else if held ≠ [] then s.snoopLines held
    else
      let r := s.bdpAccess 0 h.offset data.length (some data)
      r.2.2.emit (.bulk 2 h.tag r.1.code [])))

/-- READ on the bulk lane. -/
def execBulkRead (h : BulkHdr) (length : Nat) (s : State) : Res :=
  .next (s.bulkFrame 3 h (fun s =>
    let held := s.bdpHeld 0 h.offset length false
    if !(bdpFits h.offset length) then s.emit (.bulk 3 h.tag Status.range.code [])
    else if held ≠ [] then s.snoopLines held
    else
      let r := s.bdpAccess 0 h.offset length none
      r.2.2.emit (.bulk 3 h.tag r.1.code r.2.1)))

/-- ECHO returns its data unchanged. -/
def execEcho (h : BulkHdr) (data : List Byte) (s : State) : Res :=
  .next (s.bulkFrame 4 h (fun s =>
    if 4096 < data.length then s.emit (.bulk 4 h.tag Status.range.code []) else s.emit (.bulk 4 h.tag Status.ok.code data)))

/-! Channel 2: the host's window (R561, R580). -/

/-- A host access to the channel 2 window: no status is reported but in BDP_STAT2. -/
def State.window2 (s : State) (o n : Nat) (data : Option (List Byte)) : State :=
  if !(s.portUp .host) then s
  else
    let s := s.dropHeld .host
    match data with
    | some bs =>
      if s.inReset then s.discard 0x21 (0x141000 + o)
      else if !(windowFits o n && bdpFits o n) then s.discard 0x20 (0x141000 + o)
      else if s.bdpHeld 2 o n true ≠ [] then s.snoopLines (s.bdpHeld 2 o n true)
      else (s.bdpAccess 2 o n (some bs)).2.2
    | none =>
      if windowFits o n && bdpFits o n && s.bdpHeld 2 o n false != [] then s.snoopLines (s.bdpHeld 2 o n false)
      else if windowFits o n && bdpFits o n then
        let r := s.bdpAccess 2 o n none
        r.2.2.emit (.windowData r.2.1)
      else s.emit (.windowData (leBytes n 0))

/-- BDP_WINDOW_ACCESS. -/
def execBdpWindowAccess (offset length : Nat) (data : Option (List Byte)) (s : State) : Res :=
  .next (s.window2 offset (match data with
    | some bs => bs.length
    | none => length) data)

/-! Register messages and writes. -/

/-- REGISTER_WRITE (R581): a write of `width` bytes at a BAR 0 offset. -/
def execRegisterWrite (rq : Requester) (offset width : Nat) (v : Word) (s : State) : Res :=
  if rq = .host ∧ blockOf offset = .bdpWin then .next (s.window2 (offset % 4096) width (some (leBytes width v.toNat)))
  else .next (s.busWrite rq offset width v.toNat)

/-- n words read in ascending order. -/
def State.readWords (o : Nat) : Nat → State → List Byte × State
  | 0, s => ([], s)
  | n + 1, s =>
    let a := s.apertureRead .mgmt o 8
    let b := State.readWords (o + 8) n a.2
    (a.1 ++ b.1, b.2)

/-- REG_READ (Table 21-1). -/
def execRegRead (h : MgmtHdr) (offset words : Nat) (s : State) : Res :=
  .next (s.mgmtCmd h 0x03 9 (fun s =>
    if words = 0 ∨ 32 < words then s.mgmtReply 0x03 h.tag .range []
    else
      let r := State.readWords offset words s
      r.2.mgmtReply 0x03 h.tag .ok r.1))

/-- Words written in ascending order. -/
def State.writeWords (o : Nat) : List Word → State → State
  | [], s => s
  | w :: ws, s => State.writeWords (o + 8) ws (s.busWrite .mgmt o 8 w.toNat)

/-- REG_WRITE (Table 21-1). -/
def execRegWrite (h : MgmtHdr) (offset : Nat) (words : List Word) (s : State) : Res :=
  .next (s.mgmtCmd h 0x04 (9 + 8 * words.length) (fun s =>
    if words.length = 0 ∨ 32 < words.length then s.mgmtReply 0x04 h.tag .range []
    else (State.writeWords offset words s).mgmtReply 0x04 h.tag .ok []))

/-- RESET (Table 21-1): with its key, trigger 4 of Table 18-3. -/
def execMgtReset (h : MgmtHdr) (key : Nat) (s : State) : Res :=
  .next (s.mgmtCmd h 0x08 2 (fun s => if key = 0xA5C3 then (s.mgmtReply 0x08 h.tag .ok []).trigger 4 0 else s.mgmtReply 0x08 h.tag .range []))

/-- WAKE (R499): refused with STATE where PWR_OW_CTRL.WAKE would be discarded. -/
def execMgtWake (h : MgmtHdr) (s : State) : Res :=
  .next (s.mgmtCmd h 0x09 0 (fun s =>
    match s.pwr.ow with
    | .entering | .overwintering => s.wakeUp.mgmtReply 0x09 h.tag .ok []
    | _ => s.mgmtReply 0x09 h.tag .state []))

/-! CXL configuration space (R528, R576, R586). -/

/-- A dword of configuration space: BAR 0, and what the spec does not list. -/
def State.configWord (s : State) (o : Nat) : Nat :=
  if o = 0x10 then s.host.bar0 % 2 ^ 32 + 4 else if o = 0x14 then s.host.bar0 / 2 ^ 32 else (Config.configSpace o).toNat

/-- A request that the space takes. -/
def State.configTake (s : State) : CfgReq → State
  | .read o => s.emit (.config (some (s.configWord o)))
  | .bar0 base => { s with host := { s.host with bar0 := base % 2 ^ 64 / 2 ^ 32 * 2 ^ 32 } }
  | .msixControl enable fmask =>
    let s := { s with host := { s.host with msixEn := enable, fmask := fmask } }
    if s.inReset then s else s.flushVectors

/-- CONFIGURATION_REQUEST: Retry Status from the end of phase 1 to phase 3, and full answers after it. -/
def execConfigurationRequest (c : CfgReq) (s : State) : Res :=
  if !s.board.rails || s.host.perst then .next s
  else if s.trl.phase < 3 then .next (s.emit (.config none))
  else .next (s.configTake c)

end Sys2Proof.Machine
end

