-- ==== Sys2Proof/Machine/Jtag.lean ====
section
/-! DEFINITION. The test access port and the loopbacks (chapter 23, R602 to R606). Each test instruction is one scan: the
instruction is loaded, its data register is captured, shifted out and updated. -/
namespace Sys2Proof.Machine

def State.setBoard (s : State) (f : Board → Board) : State := { s with board := f s.board }

/-- An instruction loaded; only EXTEST drives pins (R603). -/
def State.loadIr (s : State) (code : Nat) : State := s.setBoard (fun b => { b with ir := code, driven := 0 })

/-- A scan through the one-bit bypass register: what goes in comes out one bit later. -/
def State.bypassScan (s : State) (code shift : Nat) : State := (s.loadIr code).emit (.tdo (2 * shift))

/-- VR_ALERT_N is driven low: the regulators' alert, or rails off at full input (R490, R595). -/
def State.vrAlertLow (s : State) : Bool := s.pwr.vra || (s.board.input && !s.board.rails)

/-- Cell i of the boundary register as a capture finds it (Table 23-9). -/
def State.cell (s : State) (i : Nat) : Bool :=
  if i < 36 then (if i % 2 = 0 then !(s.link (i / 2)).cable else !(s.link (i / 2)).active)
  else if i = 36 then !s.host.perst
  else if i = 37 then !s.board.sysReset
  else if i = 50 then !s.vrAlertLow
  else if i = 51 then s.vrAlertLow
  else Config.pinLevel i

/-- The 52 cells as a number. -/
def State.cells (s : State) : Nat := (List.range 52).foldl (fun n i => n + boolNat (s.cell i) * 2 ^ i) 0

/-- EXTEST (R602, R603): before the load it captures the pins and drives what is shifted in; after it, BYPASS. -/
def execExtest (shift : Nat) (s : State) : Res :=
  if !s.board.rails then .next s
  else if s.trl.loaded then .next (s.bypassScan 0x00 shift)
  else
    let v := shift % 2 ^ 52
    .next ((s.setBoard (fun b => { b with ir := 0x00, boundary := v, driven := v })).emit (.tdo s.cells))

/-- SAMPLE/PRELOAD (R603): captures the pins and preloads the cells; drives nothing. -/
def execSamplePreload (shift : Nat) (s : State) : Res :=
  if !s.board.rails then .next s
  else .next (((s.loadIr 0x01).setBoard (fun b => { b with boundary := shift % 2 ^ 52 })).emit (.tdo s.cells))

/-- IDCODE (R602). -/
def execIdcode (s : State) : Res := if !s.board.rails then .next s else .next ((s.loadIr 0x02).emit (.tdo 0x14B3258B))

/-- BYPASS (R602). -/
def execBypass (shift : Nat) (s : State) : Res := if !s.board.rails then .next s else .next (s.bypassScan 0xFF shift)

/-- LBRES (Table 23-11). -/
def Board.lbres (b : Board) : Nat := b.lbState + 2 ^ 3 * b.lbErrors + 2 ^ 19 * b.lbBits

/-- LBRES (R604): the result register shifted out. -/
def execLbres (s : State) : Res := if !s.board.rails then .next s else .next ((s.loadIr 0x11).emit (.tdo s.board.lbres))

/-- HBMSEL (R602): a stack 0 to 11 is selected and its controller held idle; after the load, BYPASS. -/
def execHbmsel (shift : Nat) (s : State) : Res :=
  if !s.board.rails then .next s
  else if s.trl.loaded then .next (s.bypassScan 0x20 shift)
  else
    let old := match s.board.hbmsel with
      | some k => k
      | none => 0
    .next (((s.loadIr 0x20).setBoard (fun b => { b with hbmsel := if shift % 16 < 12 then some (shift % 16) else none })).emit (.tdo old))

/-- A scan of the selected stack's IEEE 1500 register; BYPASS after the load and with no stack selected. -/
def State.hbmScan (s : State) (code : Nat) (isWir : Bool) (shift : Nat) : State :=
  match s.board.hbmsel with
  | none => s.bypassScan code shift
  | some k =>
    if s.trl.loaded then s.bypassScan code shift
    else ((s.loadIr code).setBoard (fun b =>
        if isWir then { b with wir := Tab.set 0 b.wir k shift } else { b with wdr := Tab.set 0 b.wdr k shift })).emit
      (.tdo (Config.hbmShift k isWir (Tab.get 0 (if isWir then s.board.wir else s.board.wdr) k)))

/-- HBMWIR (R602). -/
def execHbmwir (shift : Nat) (s : State) : Res := if !s.board.rails then .next s else .next (s.hbmScan 0x21 true shift)

/-- HBMWDR (R602). -/
def execHbmwdr (shift : Nat) (s : State) : Res := if !s.board.rails then .next s else .next (s.hbmScan 0x22 false shift)

/-- TEST_LOGIC_RESET (R602): the instruction is IDCODE; no pin is driven and no stack selected. -/
def execTestLogicReset (s : State) : Res :=
  if !s.board.rails then .next s else .next ((s.loadIr 0x02).setBoard (fun b => { b with hbmsel := none }))

/-! Loopbacks (R604 to R606). -/

/-- Units and depths of an interface (Tables 23-10 and 23-12). -/
def loopUnits (iface : Nat) : Nat := match iface with
  | 0 => 18 | 1 => 1 | 2 => 3 | 3 => 12 | 4 => 64 | _ => 0
def loopDepths (iface : Nat) : Nat := if iface < 2 then 4 else 3

/-- The precondition of Table 23-12: 0 when it holds, else the STATE of the refusal. -/
def State.loopRefusal (s : State) (iface unit depth dur : Nat) : Nat :=
  if loopUnits iface ≤ unit ∨ loopDepths iface ≤ depth ∨ dur = 0 then 4
  else match iface with
    | 0 =>
      let l := s.link unit
      if !(l.disable || l.st == .failed) then 4 else if depth = 2 ∧ !l.active then 5 else 0
    | 1 => if s.host.perst then 0 else 4
    | _ => if 4 ≤ s.trl.phase ∧ ¬s.trl.loaded then 0 else 4

/-- A local address lies in the stack, or the cellar channel, of a loopback. -/
def loopHolds (iface unit a : Nat) : Bool :=
  if iface = 3 then decide (a < 0x9000000000) && a / 0x4800000000 * 6 + Config.stackOf a % 6 == unit
  else iface == 4 && decide (0x10000000000 ≤ a ∧ a < 0x30000000000) && Config.channelOf a % 64 == unit

/-- The array of a stack or a channel overwritten with the pattern (Table 23-12 depth 2): its bytes are open values. -/
def State.overwriteArray (s : State) (iface unit : Nat) : State :=
  let (w, s) := s.draw
  { s with mem := { s.mem with
      loc := (s.mem.loc.filter (fun c => loopHolds iface unit c.1)).foldl (fun (m : Memory) c => m.put c.1 (Config.loopByte w c.1)) s.mem.loc,
      bad := s.mem.bad.filter (fun u => !(loopHolds iface unit (64 * u))) } }

/-- LOOPBACK_GO (R604): LBCFG is shifted out and takes its fields, and with GO one loopback starts, unless one runs. -/
def execLoopbackGo (v : Word) (s : State) : Res :=
  if !s.board.rails then .next s
  else
    let n := v.toNat
    let iface := bits n 3 0
    let unit := bits n 11 4
    let depth := bits n 13 12
    let dur := bits n 35 16
    let s := ((s.emit (.tdo s.board.lbcfg)).loadIr 0x10).setBoard (fun b => { b with lbcfg := n % 2 ^ 36 })
    if !(bit n 36) ∨ s.board.lb.isSome then .next s
    else
      let r := s.loopRefusal iface unit depth dur
      if r ≠ 0 then .next (s.setBoard (fun b => { b with lbState := r }))
      else
        let s := s.setBoard (fun b => { b with lb := some ⟨iface, unit, depth, s.now, dur⟩, lbState := 1, lbErrors := 0, lbBits := 0 })
        .next (if iface = 0 then
            let l := s.link unit
            s.setLink unit { l with st := .loopback, prior := l.st, priorCause := l.cause }
          else if depth = 2 ∧ 3 ≤ iface then s.overwriteArray iface unit
          else s)

/-- LOOPBACK_END (R604, R605): the duration is over. `bits_` counts the bits compared in units of 1,024; `partner` says
that the far end ran the remote protocol loopback within 1 ms. -/
def execLoopbackEnd (errors bits_ : Nat) (partner : Bool) (s : State) : Res :=
  match s.board.lb with
  | none => .next s
  | some x =>
    if s.now < x.started + 1000 * x.dur then .next s
    else
      let e := min 65535 errors
      let s := s.setBoard (fun b => { b with lbErrors := e, lbBits := bits_ % 2 ^ 45 })
      .next (s.endLoopback (if x.iface = 0 ∧ x.depth = 3 ∧ ¬partner then 5 else if e = 0 ∧ bits_ % 2 ^ 45 ≠ 0 then 2 else 3))

end Sys2Proof.Machine
end

