-- ==== Sys2Proof/Machine/Matrix.lean ====
section
/-! DEFINITION. The MAT instructions (R151 to R156) and the events of weight sets (R78). -/
namespace Sys2Proof.Machine

/-- An operand reads a scale array in the matrix array: only FP4 has one there (R40, R152). -/
def Opnd.matAux (o : Opnd) : Bool := o.d.fmt == .fp4

/-- Element L as bits and FP4 scale byte. -/
def Opnd.elem (rd : Reader) (o : Opnd) (l : Nat) : Nat × Nat := (o.bits rd l, if o.d.fmt = .fp4 then o.scaleByte rd l else 0)

/-- One streamed row. -/
def Opnd.actRow (rd : Reader) (o : Opnd) (i : Nat) : ActRow := (List.range (o.d.dim 0)).map (fun j => o.elem rd (i * o.d.dim 0 + j))

/-- The span of bank entries e … e + n − 1 of a block. -/
def bankSpan (b e n : Nat) (write : Bool) : Span := ⟨.bank b, (512 * e : Nat), (512 * (e + n) : Nat) - 1, write⟩

/-- What a MUL does to one block, with what its checks find there: the first cell of each failed check, and the failed mark
of its set (Table 03-9); none where it fails at issue (R83, R153). -/
def Region.mulBlock (x : Region) (c : Carve) (f : MulF) (af : Fmt) (rows : List ActRow) (b : Nat) : Option (MulOut × List RetireFault) :=
  let k := x.block b
  (k.mulClass f af).map (fun pc =>
    let o := k.mul f af pc c.bankFirst rows
    (o, ((k.set f.set).failed.map (fun e => RetireFault.setFailed b e.1 e.2)).toList ++ o.bad.eraseDups.map (fun e => .cell b e.1 e.2)))

/-- The columns' flag sets of block b, keyed as an issued instruction keys them. -/
def MulOut.columns (o : MulOut) (b : Nat) : FlagSets := o.flags.map (fun e => (128 * b + e.1, e.2))

/-- The size that R122 gives an operand's outermost dimension: none retires the instruction, an error fails it. -/
def Opnd.sized (o : Opnd) (v : Option Nat) : Except Status (Option Opnd) :=
  match v with
  | none => .ok (some o)
  | some n => if n = 0 then .ok none else if o.d.outer < n then .error .range else .ok (some { o with d := o.d.resize n })

/-- MAT MUL (R152, R153). -/
def execMatMul (r : Nat) (f : MulF) (s : State) : Res :=
  s.runUnit r (.mul f) (fun s p _ =>
    let x := s.region r
    let c := s.regCarve r
    let blocks := blocksOf f.blocks
    match x.opnd f.adesc f.offa with
    | none => s.passOver r
    | some o =>
      match o.sized (x.sizeOverride f.szreg) with
      | .error e => s.failIssue r e
      | .ok none => s.passOver r
      | .ok (some o) =>
        let n := o.d.dim 1
        let units := blocks.map RUnit.block
        let spans := bySpan units (o.spans o.matAux false) ++ blocks.map (fun b => ⟨some (.block b), bankSpan b f.e0 n true⟩)
        if !(o.ok c o.matAux) then s.failIssue r .range
        else if blocks.any (fun b => ((x.block b).set f.set).st == .loading) || x.heldBack spans then s
        else
          let rd := x.view c
          let rows := (List.range n).map (o.actRow rd)
          let rs := blocks.map (fun b => (b, x.mulBlock c f o.d.fmt rows b))
          let y := rs.foldl (fun (y : Region) e => match e.2 with
            | some t => y.setBlock e.1 t.1.block
            | none => y) x
          let fl := rs.flatMap (fun e => match e.2 with
            | some t => t.1.columns e.1
            | none => [])
          let bad := rs.flatMap (fun e => match e.2 with
            | some t => t.2
            | none => [])
          let entered := (rs.filter (fun e => e.2.isSome)).length
          let s := s.setRegion r (y.issue units spans { flags := fl, bad := bad })
          let s := s.bumpPart p 0x10 (n * entered)
          if rs.any (fun e => e.2.isNone) then s.failRegion r .state else s)

/-- MAT LOADW (R79, R80, R154). -/
def execLoadw (r : Nat) (f : LoadwF) (s : State) : Res :=
  s.runUnit r (.loadw f) (fun s _ _ =>
    let x := s.region r
    let c := s.regCarve r
    let blocks := blocksOf f.blocks
    match x.desc f.wdesc with
    | none => s.passOver r
    | some d =>
      let os := blocks.map (fun b => (b, d.at_ (offBlock (x.reg f.offw) (x.reg f.bsreg) b)))
      let spans := os.flatMap (fun e => bySpan [.block e.1] (e.2.spans e.2.matAux false))
      let units := blocks.map RUnit.block
      if os.any (fun e => !(e.2.ok c e.2.matAux)) then s.failIssue r .range
      else if blocks.any (fun b => match ((x.block b).set f.set).st with
          | .free | .ready => false
          | _ => true) || x.heldBack spans then s
      else
        let rd := x.view c
        let y := os.foldl (fun (y : Region) e =>
          y.setBlock e.1 ((y.block e.1).load f.set d.fmt (f.two == 1) (d.dim 0) (fun j n => e.2.elem rd (n * d.dim 0 + j)))) x
        s.setRegion r (y.issue units spans {}))

/-- MAT PRELOAD (R89, R155). -/
def execPreload (r : Nat) (f : PreloadF) (s : State) : Res :=
  s.runUnit r (.preload f) (fun s _ _ =>
    let x := s.region r
    let c := s.regCarve r
    let blocks := blocksOf f.blocks
    match x.opnd f.sdesc f.off with
    | none => s.passOver r
    | some o =>
      let units := blocks.map RUnit.block
      let spans := bySpan units (o.spans o.matAux false)
      if !(o.ok c o.matAux) then s.failIssue r .range
      else if x.heldBack spans then s
      else
        let rd := x.view c
        let elems := (List.range 16).map (fun m =>
          if f.two = 1 then o.bits rd (2 * m) + 16 * o.bits rd (2 * m + 1) else o.bits rd m)
        let scale := (o.elem rd 0).2
        let y := blocks.foldl (fun (y : Region) b => y.setBlock b ((y.block b).preload f.q elems scale)) x
        s.setRegion r (y.issue units spans {}))

/-- The operand of a bank copy in block b. -/
def Region.bankOpnd (x : Region) (f : BankF) (b : Nat) : Option Opnd :=
  (x.desc f.sdesc).map (fun d => d.at_ (offBlock (x.reg f.off) (x.reg f.bsreg) b))

/-- Entries copied: COUNT, or as many as the descriptor has rows. -/
def BankF.entries (f : BankF) (d : Desc) : Nat := min f.count d.rows

/-- A bank copy whose effect on one block is `g`: checks, spans, issue (R156). -/
def State.bankCopy (s : State) (r : Nat) (f : BankF) (write : Bool) (g : Carve → Opnd → Nat → Region → Region) : State :=
  let x := s.region r
  let c := s.regCarve r
  let blocks := blocksOf f.blocks
  let units := blocks.map RUnit.block
  match x.desc f.sdesc with
  | none => s.passOver r
  | some _ =>
    let os := blocks.filterMap (fun b => (x.bankOpnd f b).map (fun o => (b, o)))
    let spans := os.flatMap (fun e => bySpan [.block e.1] (e.2.spans false write)) ++ blocks.map (fun b => ⟨some (.block b), bankSpan b f.e0 f.count (!write)⟩)
    if os.any (fun e => !(e.2.ok c false)) then s.failIssue r .range
    else if x.heldBack spans then s
    else s.setRegion r ((os.foldl (fun (y : Region) e => g c e.2 e.1 y) x).issue units spans {})

/-- Entries of a block written to the descriptor's rows in order. -/
def bstoreBlock (f : BankF) (c : Carve) (o : Opnd) (b : Nat) (y : Region) : Region :=
  let k := y.block b
  let rd := y.view c
  let es := (List.range (f.entries o.d)).flatMap (fun i => (List.range 128).map (fun n =>
    (i * 128 + n, (k.word (c.bankFirst + f.e0 + i) n).toNat)))
  y.pokes c (o.writes rd ⟨es, []⟩)

/-- The descriptor's rows written to entries of a block in order. -/
def bloadBlock (f : BankF) (c : Carve) (o : Opnd) (b : Nat) (y : Region) : Region :=
  let rd := y.view c
  let k := (List.range (f.entries o.d)).foldl (fun (k : Block) i => (List.range 128).foldl (fun (k : Block) n =>
    k.putWord (c.bankFirst + f.e0 + i) n (BitVec.ofNat 32 (o.bits rd (i * 128 + n)))) k) (y.block b)
  y.setBlock b k

/-- MAT BSTORE (R156). -/
def execBstore (r : Nat) (f : BankF) (s : State) : Res :=
  s.runUnit r (.bank .bstore f) (fun s _ _ => s.bankCopy r f true (bstoreBlock f))

/-- MAT BLOAD (R156). -/
def execBload (r : Nat) (f : BankF) (s : State) : Res :=
  s.runUnit r (.bank .bload f) (fun s _ _ => s.bankCopy r f false (bloadBlock f))

/-- MAT BCLEAR (R156). -/
def execBclear (r : Nat) (f : BankF) (s : State) : Res :=
  s.runUnit r (.bank .bclear f) (fun s _ _ =>
    let x := s.region r
    let c := s.regCarve r
    let blocks := blocksOf f.blocks
    let units := blocks.map RUnit.block
    let spans : List USpan := blocks.map (fun b => ⟨some (.block b), bankSpan b f.e0 f.count true⟩)
    if x.heldBack spans then s
    else
      let y := blocks.foldl (fun (y : Region) b =>
        y.setBlock b ((List.range f.count).foldl (fun (k : Block) i => (List.range 128).foldl (fun (k : Block) n =>
          k.putWord (c.bankFirst + f.e0 + i) n 0) k) (y.block b))) x
      s.setRegion r (y.issue units spans {}))

/-- The LOADW that fills a set of a block: its list index. -/
def Region.loadIndex (x : Region) (b set : Nat) : Nat :=
  ((x.issued.find? (fun i => match i.instr.body with
    | .loadw f => i.units.contains (.block b) && f.set == set
    | _ => false)).map (·.index)).getD 0

/-- A lane row failed parity: an event names the physical cell and the LOADW, whose SET field names the set (R110); a second
failure of the row counts against the cell's physical column (Table 18-1). -/
def State.rowParity (s : State) (r b set : Nat) (f : RowFault) : State :=
  let s1 := s.event (s.blockIsland r b) 0x10 (s.partOfRegion r) none
    ((s.region r).loadIndex b set % 65536 + (16 * f.row + s.physCol r b f.col) % 65536 * 65536)
  if f.twice then s1.countFault (unitColumn (r / 8) (s.physRegion r) (s.physBlock r b) (s.physCol r b f.col)) else s1

/-- WEIGHT_SET_READY (Table 03-3, Table 03-9): the last lane row is in; a row that failed parity was rewritten in the next
cycle, and one that failed twice marks the set failed. -/
def execWeightSetReady (r b set : Nat) (parity : Option RowFault) (s : State) : Res :=
  let x := s.region r
  if 16 ≤ r ∨ 6 ≤ b ∨ 4 ≤ set ∨ ((x.block b).set set).st ≠ .loading then .next s
  else
    let s1 := s.setRegion r (x.setBlock b ((x.block b).loadDone set (match parity with
      | some f => if f.twice then some (f.row, f.col) else none
      | none => none)))
    match parity with
    | some f => if f.row < 8 ∧ f.col < 8 then .next (s1.rowParity r b set f) else .next s1
    | none => .next s1

/-- WEIGHT_SET_FREE (Table 03-3): the last row that used a RETIRING set has left the array. -/
def execWeightSetFree (r b set : Nat) (s : State) : Res :=
  let x := s.region r
  if 16 ≤ r ∨ 6 ≤ b ∨ 4 ≤ set ∨ ((x.block b).set set).st ≠ .retiring then .next s
  else .next (s.setRegion r (x.setBlock b ((x.block b).setFree set)))

end Sys2Proof.Machine
end

