-- ==== Sys2Proof/Machine/Scalar.lean ====
section
/-! DEFINITION. The sequencer's own instructions but SYNC (R158, R159, R163): scalar MOV, LD, LD32, ST, SPEC and LOOP. They
execute in skip mode too (R175). -/
namespace Sys2Proof.Machine

/-- A scalar MOV that only writes SD: the value is computed from the registers at issue (R147, R158). -/
def State.scalar (s : State) (r : Nat) (op : MovOp) (f : MovF) (v : Word → Word → Word → Word) : Res :=
  s.runInstr r (.mov op f) (fun s _ _ =>
    let x := s.region r
    s.setRegion r (x.setReg f.sd (v (x.reg f.sa) (x.reg f.sb) (BitVec.ofNat 64 f.imm))).advance)

/-- MOV SET (Table 05-9). -/
def execMovSet (r : Nat) (f : MovF) (s : State) : Res := s.scalar r .set f (fun _ _ i => i)
/-- MOV ADD. -/
def execMovAdd (r : Nat) (f : MovF) (s : State) : Res := s.scalar r .add f (fun a b i => a + b + i)
/-- MOV SUB. -/
def execMovSub (r : Nat) (f : MovF) (s : State) : Res := s.scalar r .sub f (fun a b i => a - b - i)
/-- MOV MUL. -/
def execMovMul (r : Nat) (f : MovF) (s : State) : Res := s.scalar r .mul f (fun a b i => a * (b + i))
/-- MOV AND. -/
def execMovAnd (r : Nat) (f : MovF) (s : State) : Res := s.scalar r .and f (fun a b i => a &&& (b ^^^ i))
/-- MOV OR. -/
def execMovOr (r : Nat) (f : MovF) (s : State) : Res := s.scalar r .or f (fun a b i => a ||| (b ^^^ i))
/-- MOV XOR. -/
def execMovXor (r : Nat) (f : MovF) (s : State) : Res := s.scalar r .xor f (fun a b i => a ^^^ (b ^^^ i))
/-- MOV SHL. -/
def execShl (r : Nat) (f : MovF) (s : State) : Res := s.scalar r .shl f (fun a b i => a <<< ((b + i).toNat % 64))
/-- MOV SHR. -/
def execShr (r : Nat) (f : MovF) (s : State) : Res := s.scalar r .shr f (fun a b i => a >>> ((b + i).toNat % 64))
/-- MOV MINU. -/
def execMinu (r : Nat) (f : MovF) (s : State) : Res := s.scalar r .minu f (fun a b i => if a.toNat ≤ (b + i).toNat then a else b + i)
/-- MOV MAXU. -/
def execMaxu (r : Nat) (f : MovF) (s : State) : Res := s.scalar r .maxu f (fun a b i => if (b + i).toNat ≤ a.toNat then a else b + i)

/-- The SRAM offset of LD, LD32 and ST. -/
def Region.movAddr (x : Region) (f : MovF) : Nat := (x.reg f.sa + BitVec.ofNat 64 f.imm).toNat

/-- An aligned access of n bytes inside the carve-out (R159). -/
def Carve.okAt (c : Carve) (a n : Nat) : Bool := a % n == 0 && decide (a + n ≤ c.sramSize)

/-- A span of region SRAM. -/
def sramSpan (a n : Nat) (write : Bool) : Span := ⟨.sram, (a : Nat), (a + n : Nat) - 1, write⟩

/-- A scalar load of n bytes (R158, R159). -/
def State.scalarLoad (s : State) (r : Nat) (op : MovOp) (f : MovF) (n : Nat) : Res :=
  s.runInstr r (.mov op f) (fun s _ _ =>
    let x := s.region r
    let c := s.regCarve r
    let a := x.movAddr f
    if !(c.okAt a n) then s.failIssue r .range
    else if x.heldBack (bySpan [] [sramSpan a n false]) then s
    else s.setRegion r (x.setReg f.sd (BitVec.ofNat 64 (leNat (x.sramLoad (c.sramBase + a) n)))).advance)

/-- MOV LD. -/
def execLd (r : Nat) (f : MovF) (s : State) : Res := s.scalarLoad r .ld f 8
/-- MOV LD32. -/
def execLd32 (r : Nat) (f : MovF) (s : State) : Res := s.scalarLoad r .ld32 f 4

/-- MOV ST (R158, R159). -/
def execSt (r : Nat) (f : MovF) (s : State) : Res :=
  s.runInstr r (.mov .st f) (fun s _ _ =>
    let x := s.region r
    let c := s.regCarve r
    let a := x.movAddr f
    if !(c.okAt a 8) then s.failIssue r .range
    else if x.heldBack (bySpan [] [sramSpan a 8 true]) then s
    else s.setRegion r (x.sramStore (c.sramBase + a) (leBytes 8 (x.reg f.sb).toNat)).advance)

/-- MOV SPEC (Table 05-10). Validation refuses every other selector (R158). -/
def execSpec (r : Nat) (f : MovF) (s : State) : Res :=
  s.runInstr r (.mov .spec f) (fun s p _ =>
    let x := s.region r
    let v := match f.imm % 256 with
      | 0 => x.flags.toNat
      | 1 => s.now
      | _ => s.regionCycles p r
    s.setRegion r (x.setReg f.sd (BitVec.ofNat 64 v)).advance)

/-- The trip count of a LOOP, or none where it fails: above MAXTRIP, negative, or a trip word that R159 refuses. -/
def Region.tripOf (x : Region) (c : Carve) (f : LoopF) : Option Nat :=
  let n : Option Int := match f.src with
    | 0 => some f.trip
    | 1 => some (x.reg f.tripreg).toNat
    | _ =>
      let a := (x.reg f.tripreg + BitVec.ofNat 64 f.trip).toNat
      if c.okAt a 4 then some (sext 32 (leNat (x.sramLoad (c.sramBase + a) 4))) else none
  match n with
  | some v => if 0 ≤ v ∧ v ≤ (f.maxtrip : Int) then some v.toNat else none
  | none => none

/-- The span of a trip read (R163). -/
def Region.tripSpans (x : Region) (f : LoopF) : List Span :=
  if f.src = 2 then [sramSpan (x.reg f.tripreg + BitVec.ofNat 64 f.trip).toNat 4 false] else []

/-- LOOP (R162, R163). -/
def execLoop (r : Nat) (f : LoopF) (s : State) : Res :=
  s.runInstr r (.loop f) (fun s _ _ =>
    let x := s.region r
    if x.heldBack (bySpan [] (x.tripSpans f)) then s
    else match x.tripOf (s.regCarve r) f with
      | none =>
        let s := s.failRegion r .range
        let x := s.region r
        s.setRegion r (x.goto (x.pc + f.bodylen + 1))
      | some 0 => s.setRegion r (x.goto (x.pc + f.bodylen + 1))
      | some n =>
        s.setRegion r (({ x with loops := ⟨x.pc, 0, n, f.bodylen, f.idxreg⟩ :: x.loops, pc := x.pc + 1 } : Region).setReg f.idxreg 0))

end Sys2Proof.Machine
end

