-- ==== Sys2Proof/Machine/VectorOps.lean ====
section
/-! DEFINITION. The VEC instructions (chapter 04, R157) and TAP (R169, R571 to R573): operands, size override, presence,
spans and issue around the operations of Vector.lean. -/
namespace Sys2Proof.Machine

/-- The operands of a VEC instruction at issue. -/
structure VecOpnds where
  d : Opnd
  a : Opnd
  b : Option Opnd
  c : Option Opnd
  m : Option Opnd

/-- Operands named by an instruction, before R122. -/
def Region.vecOpnds (x : Region) (f : VecF) : Option VecOpnds :=
  match x.opnd f.dst f.offd, x.opnd f.srca f.offa with
  | some d, some a =>
    some ⟨d, a, if f.scalsel = 1 then none else x.opnd f.srcb f.offb, if f.scalsel = 2 then none else x.opnd f.srcc f.offc, x.opnd f.mask 0⟩
  | _, _ => none

/-- Which operands take the size of R122 (Table 04-8): destination, A, B, C. -/
def VecOp.takers (op : VecOp) (all : Bool) : Bool × Bool × Bool × Bool :=
  match op with
  | .sel => (true, true, true, false)
  | .cmp => (false, true, true, false)
  | .iscale => (true, true, false, false)
  | .rsum | .rmax | .rmin | .ramax => (!all, true, false, false)
  | .scan => (true, true, false, false)
  | .gather => (true, false, true, false)
  | .scatter | .scatterAdd => (false, true, true, false)
  | .vqnear => (true, true, false, true)
  | _ => (true, true, true, true)

/-- The override of R122 applied to the operands that take it: none retires the instruction. -/
def VecOpnds.sized (o : VecOpnds) (t : Bool × Bool × Bool × Bool) (v : Option Nat) : Except Status (Option VecOpnds) :=
  match v with
  | none => .ok (some o)
  | some n =>
    let takes (take : Bool) (x : Option Opnd) : Bool := take && (match x with
      | some y => decide (y.d.outer < n)
      | none => false)
    let re (take : Bool) (x : Opnd) : Opnd := if take then { x with d := x.d.resize n } else x
    if n = 0 then .ok none
    else if takes t.1 (some o.d) || takes t.2.1 (some o.a) || takes t.2.2.1 o.b || takes t.2.2.2 o.c then .error .range
    else .ok (some ⟨re t.1 o.d, re t.2.1 o.a, o.b.map (re t.2.2.1), o.c.map (re t.2.2.2), o.m⟩)

/-- Every operand lies in the carve-outs (R159). -/
def VecOpnds.ok (o : VecOpnds) (c : Carve) : Bool :=
  o.d.ok c true && o.a.ok c true && (o.b.map (·.ok c true)).getD true && (o.c.map (·.ok c true)).getD true && (o.m.map (·.ok c true)).getD true

/-- The spans of the operands; SRCC of an operation with a second destination is written. -/
def VecOpnds.spans (o : VecOpnds) (op : VecOp) : List Span :=
  o.d.spans true true ++ o.a.spans true false ++ (o.b.map (·.spans true false)).getD []
  ++ (o.c.map (·.spans true op.dest2)).getD [] ++ (o.m.map (·.spans true false)).getD []

/-- A source operand, or the scalar that replaces it. -/
def Region.vsrc (x : Region) (f : VecF) (sel : Nat) (o : Option Opnd) : VSrc :=
  if f.scalsel = sel then .scalar (BitVec.ofNat 32 (x.reg f.scalreg).toNat)
  else match o with
    | some y => .tensor y
    | none => .absent

/-- Operations of the narrow class (Table 04-7). -/
def VecOp.narrow : VecOp → Bool
  | .add | .sub | .mul | .fma | .min | .max | .abs | .neg | .cvt | .cmp | .sel => true
  | _ => false

/-- W of an instruction (R112, R140): 1,024 when its operation and every tensor operand are of the narrow class. -/
def VecOpnds.width (o : VecOpnds) (op : VecOp) : Nat :=
  let ok (x : Opnd) : Bool := decide (x.d.fmt.width ≤ 16)
  if op.narrow && ok o.d && ok o.a && (o.b.map ok).getD true && (o.c.map ok).getD true then 1024 else 512

/-- What a VEC instruction computes: the byte writes, latest first, the flags of its lanes, and an index out of range
(R132). -/
def vecCompute (x : Region) (rd : Reader) (op : VecOp) (f : VecF) (o : VecOpnds) : List (Space × Nat × Byte) × Raises × Bool :=
  let present (l : Nat) : Bool := match o.m with
    | some m => m.maskBit rd l
    | none => true
  let n := o.a.d.count
  let ln := laneOf (o.width op) (o.a.d.dim 0)
  let a := VSrc.tensor o.a
  let b := x.vsrc f 1 o.b
  let c := x.vsrc f 2 o.c
  let one (r : VRes) : List (Space × Nat × Byte) × Raises × Bool := (o.d.writes rd r.dst, r.flags, r.range)
  let two (y : Opnd) (r : VRes) : List (Space × Nat × Byte) × Raises × Bool :=
    let w := o.d.writes rd r.dst
    (y.writes (rd.over w) r.dst2 ++ w, r.flags, r.range)
  let nothing : List (Space × Nat × Byte) × Raises × Bool := ([], [], false)
  match op with
  | .sel => (match o.c with
      | some m => one (vecSel rd ln n present o.d a b m)
      | none => nothing)
  | .iscale => (match o.b, o.c with
      | some w, some r => one (vecIscale rd ln n present o.d o.a w r)
      | _, _ => nothing)
  | .cmp => one (vecCmp rd ln (f.auxop % 4) n (((x.desc f.srca).map Desc.count).getD n) present a b)
  | .rsum => one (vecReduce rd ln .sum false (bit f.auxop 0) o.a.d.rows present o.d o.a)
  | .rmax => one (vecReduce rd ln .max false (bit f.auxop 0) o.a.d.rows present o.d o.a)
  | .rmin => one (vecReduce rd ln .min false (bit f.auxop 0) o.a.d.rows present o.d o.a)
  | .ramax => one (vecReduce rd ln .max true (bit f.auxop 0) o.a.d.rows present o.d o.a)
  | .scan =>
    let k : Combine := if f.auxop % 4 = 0 then .sum else if f.auxop % 4 = 1 then .max else .min
    one (vecScan rd ln k (bit f.auxop 2) o.a.d.rows present o.d o.a)
  | .sort =>
    let g := 2 ^ (f.auxop % 8 + 1)
    (match o.b, o.c with
     | some q, some out => two out (vecSort rd ln (bit f.auxop 3) g o.a.d.rows present o.a o.d (some (q, out)))
     | _, _ => one (vecSort rd ln (bit f.auxop 3) g o.a.d.rows present o.a o.d none))
  | .topk => (match o.c with
      | some out => two out (vecTopk rd ln (f.auxop % 64 + 1) o.a.d.rows present o.a o.d)
      | none => nothing)
  | .gather => (match o.b with
      | some i => one (vecGather rd ln false present o.a i o.d)
      | none => nothing)
  | .scatter => (match o.b with
      | some i => one (vecGather rd ln true present o.a i o.d)
      | none => nothing)
  | .scatterAdd => (match o.b with
      | some i => vecScatterAdd rd ln present o.a i o.d
      | none => nothing)
  | .vqnear => (match o.b, o.c with
      | some q, some out => two out (vecVqnear rd o.a.d.rows present o.a q)
      | _, _ => nothing)
  | _ => one (vecElementwise rd ln op n present o.d a b c)

/-- One VEC instruction (R157): override, carve-outs, spans, results, issue. An index out of range skips its row, and the
command takes RANGE without the instruction failing (R132). -/
def State.vec (s : State) (r : Nat) (op : VecOp) (f : VecF) : Res :=
  s.runUnit r (.vec op f) (fun s _ _ =>
    let x := s.region r
    let c := s.regCarve r
    match x.vecOpnds f with
    | none => s.passOver r
    | some o =>
      match o.sized (op.takers (bit f.auxop 0)) (x.sizeOverride f.szreg) with
      | .error e => s.failIssue r e
      | .ok none => s.passOver r
      | .ok (some o) =>
        let spans := bySpan [.engine] (o.spans op)
        if !(o.ok c) then s.failIssue r .range
        else if x.heldBack spans then s
        else
          let (ws, fl, bad) := vecCompute x (x.view c) op f o
          s.setRegion r ((x.pokes c ws).issue [.engine] spans { flags := raiseAll fl, note := if bad then .range else .ok }))

/-- VEC ADD (R123). -/
def execVecAdd (r : Nat) (f : VecF) (s : State) : Res := s.vec r .add f
/-- VEC SUB (R123). -/
def execVecSub (r : Nat) (f : VecF) (s : State) : Res := s.vec r .sub f
/-- VEC MUL (R123). -/
def execVecMul (r : Nat) (f : VecF) (s : State) : Res := s.vec r .mul f
/-- VEC FMA (R123). -/
def execVecFma (r : Nat) (f : VecF) (s : State) : Res := s.vec r .fma f
/-- VEC DIV (R123). -/
def execVecDiv (r : Nat) (f : VecF) (s : State) : Res := s.vec r .div f
/-- VEC SQRT (R123). -/
def execVecSqrt (r : Nat) (f : VecF) (s : State) : Res := s.vec r .sqrt f
/-- VEC MIN (R61). -/
def execVecMin (r : Nat) (f : VecF) (s : State) : Res := s.vec r .min f
/-- VEC MAX (R61). -/
def execVecMax (r : Nat) (f : VecF) (s : State) : Res := s.vec r .max f
/-- VEC ABS (R123). -/
def execVecAbs (r : Nat) (f : VecF) (s : State) : Res := s.vec r .abs f
/-- VEC NEG (R123). -/
def execVecNeg (r : Nat) (f : VecF) (s : State) : Res := s.vec r .neg f
/-- VEC CVT (R46). -/
def execVecCvt (r : Nat) (f : VecF) (s : State) : Res := s.vec r .cvt f
/-- VEC RCP (R125). -/
def execVecRcp (r : Nat) (f : VecF) (s : State) : Res := s.vec r .rcp f
/-- VEC RSQ (R125). -/
def execVecRsq (r : Nat) (f : VecF) (s : State) : Res := s.vec r .rsq f
/-- VEC EXP (R125). -/
def execVecExp (r : Nat) (f : VecF) (s : State) : Res := s.vec r .exp f
/-- VEC LOG (R125). -/
def execVecLog (r : Nat) (f : VecF) (s : State) : Res := s.vec r .log f
/-- VEC SIN (R125). -/
def execVecSin (r : Nat) (f : VecF) (s : State) : Res := s.vec r .sin f
/-- VEC COS (R125). -/
def execVecCos (r : Nat) (f : VecF) (s : State) : Res := s.vec r .cos f
/-- VEC CMP (R129). -/
def execVecCmp (r : Nat) (f : VecF) (s : State) : Res := s.vec r .cmp f
/-- VEC SEL (R123). -/
def execVecSel (r : Nat) (f : VecF) (s : State) : Res := s.vec r .sel f
/-- VEC ISCALE (R41). -/
def execIscale (r : Nat) (f : VecF) (s : State) : Res := s.vec r .iscale f
/-- VEC RSUM (R126). -/
def execRsum (r : Nat) (f : VecF) (s : State) : Res := s.vec r .rsum f
/-- VEC RMAX (R126). -/
def execRmax (r : Nat) (f : VecF) (s : State) : Res := s.vec r .rmax f
/-- VEC RMIN (R126). -/
def execRmin (r : Nat) (f : VecF) (s : State) : Res := s.vec r .rmin f
/-- VEC RAMAX (R126). -/
def execRamax (r : Nat) (f : VecF) (s : State) : Res := s.vec r .ramax f
/-- VEC SCAN (R128). -/
def execScan (r : Nat) (f : VecF) (s : State) : Res := s.vec r .scan f
/-- VEC SORT (R130). -/
def execSort (r : Nat) (f : VecF) (s : State) : Res := s.vec r .sort f
/-- VEC TOPK (R131). -/
def execTopk (r : Nat) (f : VecF) (s : State) : Res := s.vec r .topk f
/-- VEC GATHER (R132). -/
def execGather (r : Nat) (f : VecF) (s : State) : Res := s.vec r .gather f
/-- VEC SCATTER (R132). -/
def execScatter (r : Nat) (f : VecF) (s : State) : Res := s.vec r .scatter f
/-- VEC SCATTER_ADD (R132). -/
def execScatterAdd (r : Nat) (f : VecF) (s : State) : Res := s.vec r .scatterAdd f
/-- VEC VQNEAR (R133). -/
def execVqnear (r : Nat) (f : VecF) (s : State) : Res := s.vec r .vqnear f

/-! TAP (R169, R572, R573). -/

/-- The digest of R573. -/
def tapDigest (ordered : Bool) (bs : List Nat) : Word :=
  ((List.range bs.length).zip bs).foldl (fun d e =>
    if ordered then mix64 (d ^^^ BitVec.ofNat 64 e.2) (BitVec.ofNat 64 e.1)
    else d + mix64 (BitVec.ofNat 64 e.2) (BitVec.ofNat 64 e.1)) 0

/-- An element's bits for the digest: an FP4 element with 16 times its scale byte. -/
def Opnd.tapBits (rd : Reader) (o : Opnd) (l : Nat) : Nat :=
  if o.d.fmt = .fp4 then o.bits rd l + 16 * o.scaleByte rd l else o.bits rd l

/-- Bytes 16 to 55 of a tap record but for ORDINAL: COUNT, MIN, MAX, MEAN, NANS, INFS, and the digest apart. -/
def tapStats (rd : Reader) (o : Opnd) (ordered : Bool) : List Byte × List Byte :=
  let n := o.d.count
  let xs := (List.range n).map (fun l => (o.f32 rd l).1)
  let fin (v : F32) : Bool := !(isNaN32 v) && !(isInf32 v)
  let fs := xs.filter fin
  let opts : List (Option F32) := xs.map (fun v => if fin v then some v else none)
  let sum := (reduceRow .sum opts).1
  let mean : F32 := match sum with
    | some v => (fDiv v (int32ToF32 fs.length).1).1
    | none => f32nan
  let mn := fs.foldl fMin 0x7F800000
  let mx := fs.foldl fMax 0xFF800000
  (leBytes 8 n ++ leBytes 4 mn.toNat ++ leBytes 4 mx.toNat ++ leBytes 4 mean.toNat
    ++ leBytes 4 (min 0xFFFFFFFF (xs.filter isNaN32).length) ++ leBytes 4 (min 0xFFFFFFFF (xs.filter isInf32).length),
   leBytes 8 (tapDigest ordered ((List.range n).map (o.tapBits rd))).toNat)

/-- Bytes 8 to 63 of a tap record (Table 21-14); TIME is put in at retirement. -/
def tapBody (seq queue r : Nat) (ordered : Bool) (stats digest : List Byte) (ordinal : Nat) : List Byte :=
  leBytes 4 seq ++ leBytes 2 queue ++ leBytes 1 r ++ leBytes 1 (if ordered then 1 else 0) ++ stats ++ leBytes 4 ordinal ++ digest
  ++ List.replicate 8 0

/-- TAP (R169, R572). -/
def execTap (r : Nat) (f : TapF) (s : State) : Res :=
  s.runUnit r (.tap f) (fun s p l =>
    let x := s.region r
    let c := s.regCarve r
    match x.opnd f.desc f.offreg with
    | none => s.passOver r
    | some o =>
      let spans := bySpan [.engine] (o.spans true false)
      if !(o.ok c true) then s.failIssue r .range
      else if x.heldBack spans then s
      else
        let y := { x with taps := x.taps + 1 }
        match (if s.inCloche p then none else Tab.get none (s.part p).taps f.tapid) with
        | none => s.setRegion r (y.issue [.engine] spans {})
        | some area =>
          let det := (s.partRec p).det
          let (stats, digest) := tapStats (x.view c) o det
          let seq := match (s.queue l.queue).running with
            | some t => t.cmd.seq
            | none => 0
          let body := tapBody seq l.queue r det stats digest x.taps
          s.setRegion r (y.issue [.engine] spans { pend := .tapArea area body }))

end Sys2Proof.Machine
end

