-- ==== Sys2Proof/Machine/Dispatch.lean ====
section
/-! DEFINITION. One arm per command: a direct call of its meaning. -/
namespace Sys2Proof.Machine

def exec (i : Instr) (s : State) : Host.Outcome State Fault Refusal :=
  match i with
  | .nop q => Sys2Proof.Machine.execNop q s
  | .launch q f => Sys2Proof.Machine.execLaunch q f s
  | .fenceSignal q f => Sys2Proof.Machine.execFenceSignal q f s
  | .fenceWait q f => Sys2Proof.Machine.execFenceWait q f s
  | .copy q f => Sys2Proof.Machine.execCopy q f s
  | .barrier q f => Sys2Proof.Machine.execBarrier q f s
  | .kvAppend q f => Sys2Proof.Machine.execKvAppend q f s
  | .kvFork q f => Sys2Proof.Machine.execKvFork q f s
  | .kvRelease q f => Sys2Proof.Machine.execKvRelease q f s
  | .kvPrune q f => Sys2Proof.Machine.execKvPrune q f s
  | .wgtBuild q f => Sys2Proof.Machine.execWgtBuild q f s
  | .wgtSwitch q gen => Sys2Proof.Machine.execWgtSwitch q gen s
  | .wgtRetire q gen => Sys2Proof.Machine.execWgtRetire q gen s
  | .tapSet q f => Sys2Proof.Machine.execTapSet q f s
  | .rake q f => Sys2Proof.Machine.execRake q f s
  | .matMul r f => Sys2Proof.Machine.execMatMul r f s
  | .loadw r f => Sys2Proof.Machine.execLoadw r f s
  | .preload r f => Sys2Proof.Machine.execPreload r f s
  | .bstore r f => Sys2Proof.Machine.execBstore r f s
  | .bload r f => Sys2Proof.Machine.execBload r f s
  | .bclear r f => Sys2Proof.Machine.execBclear r f s
  | .vecAdd r f => Sys2Proof.Machine.execVecAdd r f s
  | .vecSub r f => Sys2Proof.Machine.execVecSub r f s
  | .vecMul r f => Sys2Proof.Machine.execVecMul r f s
  | .vecFma r f => Sys2Proof.Machine.execVecFma r f s
  | .vecDiv r f => Sys2Proof.Machine.execVecDiv r f s
  | .vecSqrt r f => Sys2Proof.Machine.execVecSqrt r f s
  | .vecMin r f => Sys2Proof.Machine.execVecMin r f s
  | .vecMax r f => Sys2Proof.Machine.execVecMax r f s
  | .vecAbs r f => Sys2Proof.Machine.execVecAbs r f s
  | .vecNeg r f => Sys2Proof.Machine.execVecNeg r f s
  | .vecCvt r f => Sys2Proof.Machine.execVecCvt r f s
  | .vecRcp r f => Sys2Proof.Machine.execVecRcp r f s
  | .vecRsq r f => Sys2Proof.Machine.execVecRsq r f s
  | .vecExp r f => Sys2Proof.Machine.execVecExp r f s
  | .vecLog r f => Sys2Proof.Machine.execVecLog r f s
  | .vecSin r f => Sys2Proof.Machine.execVecSin r f s
  | .vecCos r f => Sys2Proof.Machine.execVecCos r f s
  | .vecCmp r f => Sys2Proof.Machine.execVecCmp r f s
  | .vecSel r f => Sys2Proof.Machine.execVecSel r f s
  | .iscale r f => Sys2Proof.Machine.execIscale r f s
  | .rsum r f => Sys2Proof.Machine.execRsum r f s
  | .rmax r f => Sys2Proof.Machine.execRmax r f s
  | .rmin r f => Sys2Proof.Machine.execRmin r f s
  | .ramax r f => Sys2Proof.Machine.execRamax r f s
  | .scan r f => Sys2Proof.Machine.execScan r f s
  | .sort r f => Sys2Proof.Machine.execSort r f s
  | .topk r f => Sys2Proof.Machine.execTopk r f s
  | .gather r f => Sys2Proof.Machine.execGather r f s
  | .scatter r f => Sys2Proof.Machine.execScatter r f s
  | .scatterAdd r f => Sys2Proof.Machine.execScatterAdd r f s
  | .vqnear r f => Sys2Proof.Machine.execVqnear r f s
  | .movSet r f => Sys2Proof.Machine.execMovSet r f s
  | .movAdd r f => Sys2Proof.Machine.execMovAdd r f s
  | .movSub r f => Sys2Proof.Machine.execMovSub r f s
  | .movMul r f => Sys2Proof.Machine.execMovMul r f s
  | .movAnd r f => Sys2Proof.Machine.execMovAnd r f s
  | .movOr r f => Sys2Proof.Machine.execMovOr r f s
  | .movXor r f => Sys2Proof.Machine.execMovXor r f s
  | .shl r f => Sys2Proof.Machine.execShl r f s
  | .shr r f => Sys2Proof.Machine.execShr r f s
  | .minu r f => Sys2Proof.Machine.execMinu r f s
  | .maxu r f => Sys2Proof.Machine.execMaxu r f s
  | .ld r f => Sys2Proof.Machine.execLd r f s
  | .ld32 r f => Sys2Proof.Machine.execLd32 r f s
  | .st r f => Sys2Proof.Machine.execSt r f s
  | .spec r f => Sys2Proof.Machine.execSpec r f s
  | .dmain r f => Sys2Proof.Machine.execDmain r f s
  | .dmaout r f => Sys2Proof.Machine.execDmaout r f s
  | .loop r f => Sys2Proof.Machine.execLoop r f s
  | .waitall r f => Sys2Proof.Machine.execWaitall r f s
  | .rbar r f => Sys2Proof.Machine.execRbar r f s
  | .post r f => Sys2Proof.Machine.execPost r f s
  | .waitge r f => Sys2Proof.Machine.execWaitge r f s
  | .recv r f => Sys2Proof.Machine.execRecv r f s
  | .syncWaitEnd r => Sys2Proof.Machine.execSyncWaitEnd r s
  | .syncTimeout r => Sys2Proof.Machine.execSyncTimeout r s
  | .append r f => Sys2Proof.Machine.execAppend r f s
  | .kvRead r f => Sys2Proof.Machine.execKvRead r f s
  | .score r f => Sys2Proof.Machine.execScore r f s
  | .len r f => Sys2Proof.Machine.execLen r f s
  | .place r f => Sys2Proof.Machine.execPlace r f s
  | .send r f => Sys2Proof.Machine.execSend r f s
  | .returnSlot r f => Sys2Proof.Machine.execReturnSlot r f s
  | .returnAcc r f => Sys2Proof.Machine.execReturnAcc r f s
  | .tap r f => Sys2Proof.Machine.execTap r f s
  | .instructionRetire r u fault => Sys2Proof.Machine.execInstructionRetire r u fault s
  | .weightSetReady r b set parity => Sys2Proof.Machine.execWeightSetReady r b set parity s
  | .weightSetFree r b set => Sys2Proof.Machine.execWeightSetFree r b set s
  | .cowCopyDone r => Sys2Proof.Machine.execCowCopyDone r s
  | .sequenceFree n => Sys2Proof.Machine.execSequenceFree n s
  | .roundPlace p round => Sys2Proof.Machine.execRoundPlace p round s
  | .roundEntryExpire p round => Sys2Proof.Machine.execRoundEntryExpire p round s
  | .cancelFilterExpire p batch => Sys2Proof.Machine.execCancelFilterExpire p batch s
  | .recordLand t => Sys2Proof.Machine.execRecordLand t s
  | .routeRecordLand t => Sys2Proof.Machine.execRouteRecordLand t s
  | .heldRecordExpire p => Sys2Proof.Machine.execHeldRecordExpire p s
  | .doorbell rq q tail stores => Sys2Proof.Machine.execDoorbell rq q tail stores s
  | .ringFetch q good => Sys2Proof.Machine.execRingFetch q good s
  | .slotSelect j => Sys2Proof.Machine.execSlotSelect j s
  | .commandDispatch q hub => Sys2Proof.Machine.execCommandDispatch q hub s
  | .regionGrant p => Sys2Proof.Machine.execRegionGrant p s
  | .launchComplete p => Sys2Proof.Machine.execLaunchComplete p s
  | .copyDone q => Sys2Proof.Machine.execCopyDone q s
  | .wgtBuildDone q => Sys2Proof.Machine.execWgtBuildDone q s
  | .completionWriteAck q => Sys2Proof.Machine.execCompletionWriteAck q s
  | .completionWriteFailed q => Sys2Proof.Machine.execCompletionWriteFailed q s
  | .fenceWaitTimeout q => Sys2Proof.Machine.execFenceWaitTimeout q s
  | .feQRing rq q v => Sys2Proof.Machine.execFeQRing rq q v s
  | .feQCring rq q v => Sys2Proof.Machine.execFeQCring rq q v s
  | .feQChead rq q v => Sys2Proof.Machine.execFeQChead rq q v s
  | .queueEnable rq q good => Sys2Proof.Machine.execQueueEnable rq q good s
  | .queueDisable rq q => Sys2Proof.Machine.execQueueDisable rq q s
  | .skip rq q => Sys2Proof.Machine.execSkip rq q s
  | .abort rq q => Sys2Proof.Machine.execAbort rq q s
  | .resume rq q good => Sys2Proof.Machine.execResume rq q good s
  | .zero rq q => Sys2Proof.Machine.execZero rq q s
  | .watchdogExpire q => Sys2Proof.Machine.execWatchdogExpire q s
  | .fwWatchdogExpire core => Sys2Proof.Machine.execFwWatchdogExpire core s
  | .cancelStopTimeout r => Sys2Proof.Machine.execCancelStopTimeout r s
  | .feDevreset rq key => Sys2Proof.Machine.execFeDevreset rq key s
  | .deviceReset fwGood => Sys2Proof.Machine.execDeviceReset fwGood s
  | .rtInsert rq ctx drain => Sys2Proof.Machine.execRtInsert rq ctx drain s
  | .rtRemove rq ctx drain => Sys2Proof.Machine.execRtRemove rq ctx drain s
  | .rtReplace rq ctx drain => Sys2Proof.Machine.execRtReplace rq ctx drain s
  | .rtFlush rq ctx drain => Sys2Proof.Machine.execRtFlush rq ctx drain s
  | .rtOpDone => Sys2Proof.Machine.execRtOpDone s
  | .rlcWalkDone r va => Sys2Proof.Machine.execRlcWalkDone r va s
  | .hotBaseWrite rq v => Sys2Proof.Machine.execHotBaseWrite rq v s
  | .hotEpochHalve => Sys2Proof.Machine.execHotEpochHalve s
  | .cxlMemRead addr bytes => Sys2Proof.Machine.execCxlMemRead addr bytes s
  | .cxlMemWrite addr data => Sys2Proof.Machine.execCxlMemWrite addr data s
  | .biSnoopResponse line => Sys2Proof.Machine.execBiSnoopResponse line s
  | .backgroundRead addr found => Sys2Proof.Machine.execBackgroundRead addr found s
  | .remoteTimeout tag => Sys2Proof.Machine.execRemoteTimeout tag s
  | .epochRaise rq batch epoch part => Sys2Proof.Machine.execEpochRaise rq batch epoch part s
  | .slotQmapWrite rq q slot => Sys2Proof.Machine.execSlotQmapWrite rq q slot s
  | .dataFrame port f => Sys2Proof.Machine.execDataFrame port f s
  | .idleFrame port f => Sys2Proof.Machine.execIdleFrame port f s
  | .nak port f => Sys2Proof.Machine.execNak port f s
  | .trainFrame port farmod farport => Sys2Proof.Machine.execTrainFrame port farmod farport s
  | .ackTimeout port => Sys2Proof.Machine.execAckTimeout port s
  | .retrainDone port t => Sys2Proof.Machine.execRetrainDone port t s
  | .linkTrainDone port t => Sys2Proof.Machine.execLinkTrainDone port t s
  | .laneBad port lane corrected => Sys2Proof.Machine.execLaneBad port lane corrected s
  | .linkRetrain rq port => Sys2Proof.Machine.execLinkRetrain rq port s
  | .clrbad rq port => Sys2Proof.Machine.execClrbad rq port s
  | .linkDisable rq port v => Sys2Proof.Machine.execLinkDisable rq port v s
  | .cablePresentChange port present active => Sys2Proof.Machine.execCablePresentChange port present active s
  | .wr port m => Sys2Proof.Machine.execWr port m s
  | .rd port m => Sys2Proof.Machine.execRd port m s
  | .wrack port m => Sys2Proof.Machine.execWrack port m s
  | .rddata port m => Sys2Proof.Machine.execRddata port m s
  | .hbt port m => Sys2Proof.Machine.execHbt port m s
  | .hbtAlt port m => Sys2Proof.Machine.execHbtAlt port m s
  | .hbtSend => Sys2Proof.Machine.execHbtSend s
  | .twinLost => Sys2Proof.Machine.execTwinLost s
  | .takeover rq => Sys2Proof.Machine.execTakeover rq s
  | .takeoverDone => Sys2Proof.Machine.execTakeoverDone s
  | .rejoin rq => Sys2Proof.Machine.execRejoin rq s
  | .replOpen port m => Sys2Proof.Machine.execReplOpen port m s
  | .replPage port m => Sys2Proof.Machine.execReplPage port m s
  | .replFork port m => Sys2Proof.Machine.execReplFork port m s
  | .replEvict port m => Sys2Proof.Machine.execReplEvict port m s
  | .replRelease port m => Sys2Proof.Machine.execReplRelease port m s
  | .replAck port m => Sys2Proof.Machine.execReplAck port m s
  | .timeExchange t1 => Sys2Proof.Machine.execTimeExchange t1 s
  | .treq port m t2 t3 => Sys2Proof.Machine.execTreq port m t2 t3 s
  | .tresp port m t4 => Sys2Proof.Machine.execTresp port m t4 s
  | .holdoverTimeout => Sys2Proof.Machine.execHoldoverTimeout s
  | .arrive port m => Sys2Proof.Machine.execArrive port m s
  | .release port m => Sys2Proof.Machine.execRelease port m s
  | .releaseApply plot bid => Sys2Proof.Machine.execReleaseApply plot bid s
  | .barrierTimeout q => Sys2Proof.Machine.execBarrierTimeout q s
  | .alignment p => Sys2Proof.Machine.execAlignment p s
  | .spareColumnMap die region block => Sys2Proof.Machine.execSpareColumnMap die region block s
  | .powerStep counts => Sys2Proof.Machine.execPowerStep counts s
  | .telemetryWindow power vin => Sys2Proof.Machine.execTelemetryWindow power vin s
  | .telemetryLost => Sys2Proof.Machine.execTelemetryLost s
  | .coefWrite rq k v => Sys2Proof.Machine.execCoefWrite rq k v s
  | .droopDetect island shortfall => Sys2Proof.Machine.execDroopDetect island shortfall s
  | .droopPersist island => Sys2Proof.Machine.execDroopPersist island s
  | .vrAlertAssert => Sys2Proof.Machine.execVrAlertAssert s
  | .vrAlertRelease => Sys2Proof.Machine.execVrAlertRelease s
  | .vrHoldExpire => Sys2Proof.Machine.execVrHoldExpire s
  | .thermalThrottle sensor reading => Sys2Proof.Machine.execThermalThrottle sensor reading s
  | .thermalCapRise domain readings => Sys2Proof.Machine.execThermalCapRise domain readings s
  | .thermalTrip sensor reading => Sys2Proof.Machine.execThermalTrip sensor reading s
  | .thermalTripClear domain readings => Sys2Proof.Machine.execThermalTripClear domain readings s
  | .analogTrip sensor reading => Sys2Proof.Machine.execAnalogTrip sensor reading s
  | .ageingTrim island steps slack => Sys2Proof.Machine.execAgeingTrim island steps slack s
  | .owEnter rq => Sys2Proof.Machine.execOwEnter rq s
  | .overwinterReached => Sys2Proof.Machine.execOverwinterReached s
  | .wake rq => Sys2Proof.Machine.execWake rq s
  | .wakeComplete => Sys2Proof.Machine.execWakeComplete s
  | .retentionScrub bad corrected => Sys2Proof.Machine.execRetentionScrub bad corrected s
  | .selfRefreshReenter => Sys2Proof.Machine.execSelfRefreshReenter s
  | .repairDecide unit hard soft => Sys2Proof.Machine.execRepairDecide unit hard soft s
  | .selftestSlice unit pass => Sys2Proof.Machine.execSelftestSlice unit pass s
  | .dieLinkLaneSpare link lane => Sys2Proof.Machine.execDieLinkLaneSpare link lane s
  | .dieNetworkRetry die segment attempts => Sys2Proof.Machine.execDieNetworkRetry die segment attempts s
  | .trellisGo rq => Sys2Proof.Machine.execTrellisGo rq s
  | .patchCommit lost => Sys2Proof.Machine.execPatchCommit lost s
  | .powerOn millivolts => Sys2Proof.Machine.execPowerOn millivolts s
  | .railTimeout step => Sys2Proof.Machine.execRailTimeout step s
  | .powerLoss millivolts => Sys2Proof.Machine.execPowerLoss millivolts s
  | .sysResetN low nanoseconds => Sys2Proof.Machine.execSysResetN low nanoseconds s
  | .perstNAssert => Sys2Proof.Machine.execPerstNAssert s
  | .perstNRelease => Sys2Proof.Machine.execPerstNRelease s
  | .tbRefLoss => Sys2Proof.Machine.execTbRefLoss s
  | .tbRefReturn => Sys2Proof.Machine.execTbRefReturn s
  | .fwGo rq => Sys2Proof.Machine.execFwGo rq s
  | .coord h modid usz vsz twin => Sys2Proof.Machine.execCoord h modid usz vsz twin s
  | .start h time => Sys2Proof.Machine.execStart h time s
  | .regRead h offset words => Sys2Proof.Machine.execRegRead h offset words s
  | .regWrite h offset words => Sys2Proof.Machine.execRegWrite h offset words s
  | .bdpSet h v => Sys2Proof.Machine.execBdpSet h v s
  | .bdpWrite h offset data => Sys2Proof.Machine.execBdpWrite h offset data s
  | .bdpRead h offset length => Sys2Proof.Machine.execBdpRead h offset length s
  | .mgtReset h key => Sys2Proof.Machine.execMgtReset h key s
  | .mgtWake h => Sys2Proof.Machine.execMgtWake h s
  | .enrol h slot digest => Sys2Proof.Machine.execEnrol h slot digest s
  | .revoke h owner slot => Sys2Proof.Machine.execRevoke h owner slot s
  | .notifyAck nseq => Sys2Proof.Machine.execNotifyAck nseq s
  | .notifyResend nseq => Sys2Proof.Machine.execNotifyResend nseq s
  | .getSensorReading sensor => Sys2Proof.Machine.execGetSensorReading sensor s
  | .setaddr h v => Sys2Proof.Machine.execSetaddr h v s
  | .bulkWrite h data => Sys2Proof.Machine.execBulkWrite h data s
  | .bulkRead h length => Sys2Proof.Machine.execBulkRead h length s
  | .echo h data => Sys2Proof.Machine.execEcho h data s
  | .bdpWindowAccess offset length data => Sys2Proof.Machine.execBdpWindowAccess offset length data s
  | .bdpAddrWrite rq c v => Sys2Proof.Machine.execBdpAddrWrite rq c v s
  | .capture rq => Sys2Proof.Machine.execCapture rq s
  | .returnRecordDone => Sys2Proof.Machine.execReturnRecordDone s
  | .clocheEnter rq p => Sys2Proof.Machine.execClocheEnter rq p s
  | .scrubDone p => Sys2Proof.Machine.execScrubDone p s
  | .clocheWipeDone p => Sys2Proof.Machine.execClocheWipeDone p s
  | .clocheAdmit p session => Sys2Proof.Machine.execClocheAdmit p session s
  | .admissionLost p ide tsp => Sys2Proof.Machine.execAdmissionLost p ide tsp s
  | .svncommit rq => Sys2Proof.Machine.execSvncommit rq s
  | .unlock bytes => Sys2Proof.Machine.execUnlock bytes s
  | .getVersion => Sys2Proof.Machine.execGetVersion s
  | .getCapabilities => Sys2Proof.Machine.execGetCapabilities s
  | .negotiateAlgorithms dhe aead sig hash => Sys2Proof.Machine.execNegotiateAlgorithms dhe aead sig hash s
  | .getDigests => Sys2Proof.Machine.execGetDigests s
  | .getCertificate slot offset length => Sys2Proof.Machine.execGetCertificate slot offset length s
  | .challenge slot nonce => Sys2Proof.Machine.execChallenge slot nonce s
  | .getMeasurements block nonce => Sys2Proof.Machine.execGetMeasurements block nonce s
  | .keyExchange doe => Sys2Proof.Machine.execKeyExchange doe s
  | .finish session verified => Sys2Proof.Machine.execFinish session verified s
  | .heartbeat session => Sys2Proof.Machine.execHeartbeat session s
  | .keyUpdate session => Sys2Proof.Machine.execKeyUpdate session s
  | .endSession session => Sys2Proof.Machine.execEndSession session s
  | .chunkSend seq last data => Sys2Proof.Machine.execChunkSend seq last data s
  | .chunkGet seq => Sys2Proof.Machine.execChunkGet seq s
  | .plotKey session plot kid key => Sys2Proof.Machine.execPlotKey session plot kid key s
  | .loopbackGo v => Sys2Proof.Machine.execLoopbackGo v s
  | .loopbackEnd errors bits partner => Sys2Proof.Machine.execLoopbackEnd errors bits partner s
  | .extest shift => Sys2Proof.Machine.execExtest shift s
  | .samplePreload shift => Sys2Proof.Machine.execSamplePreload shift s
  | .idcode => Sys2Proof.Machine.execIdcode s
  | .lbres => Sys2Proof.Machine.execLbres s
  | .hbmsel shift => Sys2Proof.Machine.execHbmsel shift s
  | .hbmwir shift => Sys2Proof.Machine.execHbmwir shift s
  | .hbmwdr shift => Sys2Proof.Machine.execHbmwdr shift s
  | .bypass shift => Sys2Proof.Machine.execBypass shift s
  | .msixUnmask v => Sys2Proof.Machine.execMsixUnmask v s
  | .registerWrite rq offset width v => Sys2Proof.Machine.execRegisterWrite rq offset width v s
  | .firmwareFatal code => Sys2Proof.Machine.execFirmwareFatal code s
  | .inputOvervoltage millivolts => Sys2Proof.Machine.execInputOvervoltage millivolts s
  | .phase0Restart => Sys2Proof.Machine.execPhase0Restart s
  | .barrierFirstIssue p => Sys2Proof.Machine.execBarrierFirstIssue p s
  | .rakeDone q => Sys2Proof.Machine.execRakeDone q s
  | .testLogicReset => Sys2Proof.Machine.execTestLogicReset s
  | .entdaa address => Sys2Proof.Machine.execEntdaa address s
  | .configurationRequest c => Sys2Proof.Machine.execConfigurationRequest c s

end Sys2Proof.Machine
end

