-- ==== Sys2Proof/Machine/Idle.lean ====
section
/-! DEFINITION. What the module does while no command waits: device time counts (R453). -/
namespace Sys2Proof.Machine

/-- One nanosecond of device time; the count stands still while a holdover step-back holds it (Table 16-1), and while no
rail is up. DESIGN CHOICE: the step of an empty queue is one nanosecond. -/
def idle (s : State) : State :=
  if s.board.rails then
    if s.time.hold = 0 then { s with time := { s.time with now := (s.time.now + 1) % 2 ^ 64 } }
    else { s with time := { s.time with hold := s.time.hold - 1 } }
  else s

end Sys2Proof.Machine
end

