-- ==== Sys2Proof/Safety.lean ====
section
/-! DEFINITION. What the statements call safe: memories in canonical form, the trust invariant of the fuses, and the
conditions on state and operands under which a command runs. -/
namespace Sys2Proof.Machine

/-- Every memory of the module is in its canonical form. -/
def State.memWf (s : State) : Bool :=
  s.mem.loc.wf && s.mem.host.wf && s.trl.staging.wf && s.sec.fwStage.wf && s.sec.unlockStage.wf && s.obs.record.wf
  && s.regions.all (fun r => Memory.wf r.sram)

/-- Private modes are open only on a part whose OPENED fuse is blown (R540). -/
def State.trustInv (s : State) : Prop := s.sec.privopen = true → s.sec.fuses.opened = true

/-- What the state reports of its fuses and private modes. -/
def State.trust (s : State) : Fuses × Bool := (s.sec.fuses, s.sec.privopen)

/-- A run is safe when no step of it faults or is refused. -/
def State.stepSafe (s : State) : Prop := ∃ t, step s = .next t

/-! When a command of the sequencers and queues runs. -/

/-- Region r stands at this instruction of the LAUNCH l that partition p runs, and the LAUNCH may issue now (R147, R466). -/
def State.mayIssue (s : State) (r : Nat) (b : RBody) (p : Nat) (l : LaunchRun) : Prop :=
  s.atInstr r b = true ∧ s.regRun r = some (p, l) ∧ l.notBefore ≤ s.now

/-- The same for an instruction of a unit, in a region that is not in skip mode (R175). -/
def State.mayStart (s : State) (r : Nat) (b : RBody) (p : Nat) (l : LaunchRun) : Prop :=
  s.mayIssue r b p l ∧ (s.region r).skip = false

/-- The region with its first issue noted. -/
def State.issuing (s : State) (r : Nat) : Region := (s.region r).noteFirst s.now

/-- The state with region r's first issue noted. -/
def State.begun (s : State) (r : Nat) : State := s.setRegion r (s.issuing r)

/-- A space that region x has: SRAM, or the bank of one of its blocks. -/
def Region.hasSpace (x : Region) (sp : Space) : Prop :=
  match sp with
  | .sram => True
  | .bank b => b < x.blocks.length

/-- Queue q's command x with this body has been dispatched and accepted, and acts in context ctx of partition p. -/
def State.mayRun (s : State) (q : Nat) (b : CmdBody) (x : Running) (ctx p : Nat) : Prop :=
  (s.queue q).running = some x ∧ x.cmd.body = b ∧ x.started = false ∧ queueAccepts q x.cmd.opcode = true ∧
    s.ctxOf q x.cmd.word1 = ctx ∧ s.partOfCtx ctx = some p

/-- Requester rq may write the register at an offset now: the module hears it, the gate lets the write act, and the
requester holds no half of another register (R581 to R584). -/
def State.mayWrite (s : State) (rq : Requester) (o : Nat) : Prop :=
  s.portUp rq = true ∧ (s.halves rq).held = none ∧ s.gateCode rq o = none

/-- The module hears the management controller, whose endpoint it knows (R558, R559). -/
def State.hears (s : State) : Prop := s.board.rails = true ∧ s.obs.endpoint.isSome = true

end Sys2Proof.Machine
end

