-- ==== Sys2Proof/Certificates/Slice0/Obligations.lean ====
section
/-! DEFINITION. The statements for the provers. -/
open Sys2Proof Sys2Proof.Machine

/-! What a region instruction leaves of region x as y. -/

/-- Register n of y holds v, unless n is 0, which still reads zero (R144), and every other register is as in x. A loop that
goes round counts in its index register after that (R163), so the registers of open loops are left out. -/
def wroteReg (x y : Region) (n : Nat) (v : Word) : Prop :=
  ∀ k, (∀ t ∈ x.loops, t.idxreg ≠ k) → y.reg k = if k = 0 then 0 else if k = n then v else x.reg k

/-- Registers are as before, but for the index registers of open loops. -/
def sameRegs (x y : Region) : Prop := ∀ k, (∀ t ∈ x.loops, t.idxreg ≠ k) → y.reg k = x.reg k

/-- The sequencer has gone on to the next instruction in list order (R147); the end of a loop's body is R163's. -/
def wentOn (x y : Region) : Prop := x.loops = [] → y.pc = x.pc + 1

/-- What the sequencer's own instructions leave alone: unretired instructions, blocks, receive slots, program stores,
caches, waits, skip mode and status. -/
def sameUnits (x y : Region) : Prop :=
  y.issued = x.issued ∧ y.blocks = x.blocks ∧ y.slots = x.slots ∧ y.stores = x.stores ∧ y.cur = x.cur ∧ y.rlc = x.rlc ∧
  y.runCache = x.runCache ∧ y.wait = x.wait ∧ y.rbars = x.rbars ∧ y.skip = x.skip ∧ y.fail = x.fail ∧ y.flags = x.flags

/-- Region SRAM holds the same bytes. -/
def sameSram (x y : Region) : Prop := ∀ a, y.sramByte a = x.sramByte a

/-- The instruction at the sequencer's position has issued to these units with these spans, and the sequencer has gone on;
skip mode, status and flags change at retirement only (R63, R111). -/
def issuedNow (x y : Region) (units : List RUnit) (spans : List USpan) (t : Tail) : Prop :=
  (∃ i, x.store.instrs[x.pc]? = some i ∧
    y.issued = x.issued ++ [⟨x.nextId, x.pc, i, units, spans, t.flags, t.fail, t.note, t.bad, t.pend, t.owed⟩]) ∧
  y.nextId = x.nextId + 1 ∧ wentOn x y ∧ sameRegs x y ∧ y.skip = x.skip ∧ y.fail = x.fail ∧ y.flags = x.flags

/-- The instruction failed at issue without effect: the region is in skip mode with the status joined to its own (R18, R175),
and the sequencer has gone on. -/
def failedAtIssue (x y : Region) (st : Status) : Prop :=
  y.skip = true ∧ y.fail = x.fail.worst st ∧ y.issued = x.issued ∧ y.blocks = x.blocks ∧ sameSram x y ∧ sameRegs x y ∧ wentOn x y

/-! The scalar instructions of a region. -/

/-- The scalar MOV operations with the value that each writes into SD, of SA, SB and IMM (Table 05-9). -/
def scalarMoves : List ((Nat → MovF → Instr) × MovOp × (Word → Word → Word → Word)) :=
  [(.movSet, .set, fun _ _ i => i), (.movAdd, .add, fun a b i => a + b + i), (.movSub, .sub, fun a b i => a - b - i),
   (.movMul, .mul, fun a b i => a * (b + i)), (.movAnd, .and, fun a b i => a &&& (b ^^^ i)),
   (.movOr, .or, fun a b i => a ||| (b ^^^ i)), (.movXor, .xor, fun a b i => a ^^^ (b ^^^ i)),
   (.shl, .shl, fun a b i => a <<< ((b + i).toNat % 64)), (.shr, .shr, fun a b i => a >>> ((b + i).toNat % 64)),
   (.minu, .minu, fun a b i => if a.toNat ≤ (b + i).toNat then a else b + i),
   (.maxu, .maxu, fun a b i => if (b + i).toNat ≤ a.toNat then a else b + i)]

/-- Each scalar MOV writes into SD the value that Table 05-9 gives, and nothing else but the loop registers: s0 still
reads zero, the sequencer goes on in list order, and every other part of the state is as before.
SPEC with selector 0 reads the region's flag summary, with selector 1 device time, and with selector 2 the region-control
cycles since the region's first issue of the command (Table 05-10). -/
def Obligations.ScalarMovesWriteTheirRegister : Prop :=
  (∀ e ∈ scalarMoves, ∀ (r p : Nat) (l : LaunchRun) (f : MovF) (s : State),
    s.mayIssue r (.mov e.2.1 f) p l →
    ∃ y, exec (e.1 r f) s = .next (s.setRegion r y) ∧
      wroteReg (s.region r) y f.sd (e.2.2 ((s.region r).reg f.sa) ((s.region r).reg f.sb) (BitVec.ofNat 64 f.imm)) ∧
      wentOn (s.region r) y ∧ sameUnits (s.region r) y ∧ sameSram (s.region r) y) ∧
  (∀ (r p : Nat) (l : LaunchRun) (f : MovF) (s : State),
    let x := s.region r
    s.mayIssue r (.mov .spec f) p l →
    ∃ y, exec (.spec r f) s = .next (s.setRegion r y) ∧
      wroteReg x y f.sd (if f.imm % 256 = 0 then BitVec.ofNat 64 x.flags.toNat
        else if f.imm % 256 = 1 then BitVec.ofNat 64 s.now else BitVec.ofNat 64 ((s.begun r).regionCycles p r)) ∧
      wentOn x y ∧ sameUnits x y ∧ sameSram x y)

/-- The scalar loads, each with its size in bytes. -/
def scalarLoads : List ((Nat → MovF → Instr) × MovOp × Nat) := [(.ld, .ld, 8), (.ld32, .ld32, 4)]

/-- LD and LD32 at an aligned offset inside the carve-out read the little-endian bytes there into SD, zero-extended; ST
writes the eight bytes of SB there and leaves every other byte of region SRAM alone. The offset is SA + IMM.
An LD, LD32 or ST whose offset is not aligned to its size or leaves the carve-out fails with RANGE: it takes no
effect and the region enters skip mode. -/
def Obligations.ScalarLoadsAndStoresAct : Prop :=
  ((∀ e ∈ scalarLoads, ∀ (r p : Nat) (l : LaunchRun) (f : MovF) (s : State),
    let x := s.region r
    let a := x.movAddr f
    s.mayIssue r (.mov e.2.1 f) p l → (s.regCarve r).okAt a e.2.2 = true → x.heldBack (bySpan [] [sramSpan a e.2.2 false]) = false →
    ∃ y, exec (e.1 r f) s = .next (s.setRegion r y) ∧
      wroteReg x y f.sd (BitVec.ofNat 64 (leNat ((List.range e.2.2).map (fun i => x.sramByte ((s.regCarve r).sramBase + a + i))))) ∧
      wentOn x y ∧ sameUnits x y ∧ sameSram x y) ∧
  (∀ (r p : Nat) (l : LaunchRun) (f : MovF) (s : State),
    let x := s.region r
    let a := x.movAddr f
    let b := (s.regCarve r).sramBase + a
    s.mayIssue r (.mov .st f) p l → (s.regCarve r).okAt a 8 = true → x.heldBack (bySpan [] [sramSpan a 8 true]) = false →
    ∃ y, exec (.st r f) s = .next (s.setRegion r y) ∧
      (∀ j, y.sramByte j = if b ≤ j ∧ j < b + 8 then BitVec.ofNat 8 ((x.reg f.sb).toNat / 256 ^ (j - b)) else x.sramByte j) ∧
      sameRegs x y ∧ wentOn x y ∧ sameUnits x y)) ∧
  (∀ e ∈ scalarLoads ++ [(.st, .st, 8)], ∀ (r p : Nat) (l : LaunchRun) (f : MovF) (s : State),
    let x := s.region r
    s.mayIssue r (.mov e.2.1 f) p l → (s.regCarve r).okAt (x.movAddr f) e.2.2 = false →
    ∃ y, exec (e.1 r f) s = .next (s.setRegion r y) ∧ failedAtIssue x y .range)

/-- LOOP: a trip count between 1 and MAXTRIP opens the loop with its index register at 0; 0 passes over the body; a count
above MAXTRIP, a negative one, or a trip word outside the carve-out fails the instruction with RANGE and passes over the
body (R163). -/
def Obligations.LoopOpensPassesOrFails : Prop :=
  ∀ (r p : Nat) (l : LaunchRun) (f : LoopF) (s : State),
    let x := s.region r
    s.mayIssue r (.loop f) p l → x.heldBack (bySpan [] (x.tripSpans f)) = false →
    ∃ y, exec (.loop r f) s = .next (s.setRegion r y) ∧ y.issued = x.issued ∧ y.blocks = x.blocks ∧ sameSram x y ∧
      (∀ n, x.tripOf (s.regCarve r) f = some (n + 1) →
        y.loops = ⟨x.pc, 0, n + 1, f.bodylen, f.idxreg⟩ :: x.loops ∧ y.pc = x.pc + 1 ∧ y.skip = x.skip ∧
        ∀ k, y.reg k = if k = 0 ∨ k = f.idxreg then 0 else x.reg k) ∧
      (x.tripOf (s.regCarve r) f = some 0 → sameRegs x y ∧ y.skip = x.skip ∧ (x.loops = [] → y.pc = x.pc + f.bodylen + 1)) ∧
      (x.tripOf (s.regCarve r) f = none → sameRegs x y ∧ y.skip = true ∧ y.fail = x.fail.worst .range ∧
        (x.loops = [] → y.pc = x.pc + f.bodylen + 1))

/-! Vector and matrix instructions. -/

/-- The VEC instructions with their operations (Table 05-7). -/
def vecInstrs : List ((Nat → VecF → Instr) × VecOp) :=
  [(.vecAdd, .add), (.vecSub, .sub), (.vecMul, .mul), (.vecFma, .fma), (.vecDiv, .div), (.vecSqrt, .sqrt), (.vecMin, .min),
   (.vecMax, .max), (.vecAbs, .abs), (.vecNeg, .neg), (.vecCvt, .cvt), (.vecRcp, .rcp), (.vecRsq, .rsq), (.vecExp, .exp),
   (.vecLog, .log), (.vecSin, .sin), (.vecCos, .cos), (.vecCmp, .cmp), (.vecSel, .sel), (.iscale, .iscale), (.rsum, .rsum),
   (.rmax, .rmax), (.rmin, .rmin), (.ramax, .ramax), (.scan, .scan), (.sort, .sort), (.topk, .topk), (.gather, .gather),
   (.scatter, .scatter), (.scatterAdd, .scatterAdd), (.vqnear, .vqnear)]

/-- Every VEC instruction whose operands lie in the carve-outs and whose spans no other unit holds reads its operands as
they stand, issues to the engine with the flags of each lane, and leaves in the carve-outs exactly the bytes that its
operation writes (an index out of range gives the command RANGE, and the instruction does not fail, R132); no other part
of the state changes. -/
def Obligations.VectorInstructionsWriteTheirResults : Prop :=
  ∀ e ∈ vecInstrs, ∀ (r p : Nat) (l : LaunchRun) (f : VecF) (s : State) (o o2 : VecOpnds),
    let x := s.region r
    let c := s.regCarve r
    s.mayStart r (.vec e.2 f) p l → x.vecOpnds f = some o →
    o.sized (e.2.takers (bit f.auxop 0)) (x.sizeOverride f.szreg) = .ok (some o2) → o2.ok c = true →
    x.heldBack (bySpan [.engine] (o2.spans e.2)) = false →
    let z := vecCompute x (x.view c) e.2 f o2
    ∃ y, exec (e.1 r f) s = .next (s.setRegion r y) ∧
      issuedNow x y [.engine] (bySpan [.engine] (o2.spans e.2)) { flags := raiseAll z.2.1, note := if z.2.2 then .range else .ok } ∧
      ∀ sp a, x.hasSpace sp → y.view c sp a = (x.view c).over z.1 sp a

/-- A VEC instruction whose size register holds more than the declared size, or an operand of which leaves its carve-out,
fails with RANGE; one whose size register holds 0 retires without effect (R122, R159).
In skip mode an instruction of the matrix array, the vector engine or the DMA engine, other than PLACE, retires at
issue without effect (R175). -/
def Obligations.UnitInstructionsFailOrPassOver : Prop :=
  (∀ e ∈ vecInstrs, ∀ (r p : Nat) (l : LaunchRun) (f : VecF) (s : State) (o : VecOpnds),
    let x := s.region r
    s.mayStart r (.vec e.2 f) p l → x.vecOpnds f = some o →
    ((o.sized (e.2.takers (bit f.auxop 0)) (x.sizeOverride f.szreg) = .error .range ∨
      (∃ o2, o.sized (e.2.takers (bit f.auxop 0)) (x.sizeOverride f.szreg) = .ok (some o2) ∧ o2.ok (s.regCarve r) = false)) →
        ∃ y, exec (e.1 r f) s = .next (s.setRegion r y) ∧ failedAtIssue x y .range) ∧
    (x.sizeOverride f.szreg = some 0 →
        ∃ y, exec (e.1 r f) s = .next (s.setRegion r y) ∧ wentOn x y ∧ sameRegs x y ∧ sameSram x y ∧ sameUnits x y)) ∧
  (∀ (r p : Nat) (l : LaunchRun) (s : State) (i : Instr) (b : RBody),
    s.mayIssue r b p l → (s.region r).skip = true →
    ((∃ f, i = .matMul r f ∧ b = .mul f) ∨ (∃ f, i = .loadw r f ∧ b = .loadw f) ∨ (∃ f, i = .preload r f ∧ b = .preload f) ∨
     (∃ f, i = .bstore r f ∧ b = .bank .bstore f) ∨ (∃ f, i = .bload r f ∧ b = .bank .bload f) ∨
     (∃ f, i = .bclear r f ∧ b = .bank .bclear f) ∨ (∃ e ∈ vecInstrs, ∃ f, i = e.1 r f ∧ b = .vec e.2 f) ∨
     (∃ f, i = .tap r f ∧ b = .tap f) ∨ (∃ f, i = .dmain r f ∧ b = .mov .dmain f) ∨ (∃ f, i = .dmaout r f ∧ b = .mov .dmaout f) ∨
     (∃ f, i = .append r f ∧ b = .kv .append f) ∨ (∃ f, i = .kvRead r f ∧ b = .kv .read f) ∨
     (∃ f, i = .score r f ∧ b = .kv .score f) ∨ (∃ f, i = .len r f ∧ b = .kv .len f) ∨
     (∃ f, i = .send r f ∧ b = .route .send f) ∨ (∃ f, i = .returnAcc r f ∧ b = .route .returnAcc f) ∨
     (∃ f, i = .returnSlot r f ∧ b = .route .returnSlot f)) →
    ∃ y, exec i s = .next (s.setRegion r y) ∧ wentOn (s.region r) y ∧ sameRegs (s.region r) y ∧ sameSram (s.region r) y ∧
      sameUnits (s.region r) y)

/-- The FP32 operations of the vector engine turn a NaN operand into the canonical NaN 0x7FC0_0000 (R33), but MIN and MAX
return the operand that is not NaN, and the canonical NaN when both are (R61). -/
def Obligations.NanOperandsGiveTheCanonicalNan : Prop :=
  (∀ a b : F32, f32val a = .nan ∨ f32val b = .nan →
    (fAdd a b).1 = 0x7FC00000 ∧ (fSub a b).1 = 0x7FC00000 ∧ (fMul a b).1 = 0x7FC00000 ∧ (fDiv a b).1 = 0x7FC00000) ∧
  (∀ a b c : F32, f32val a = .nan ∨ f32val b = .nan ∨ f32val c = .nan → (fFma a b c).1 = 0x7FC00000) ∧
  (∀ a : F32, f32val a = .nan → (fSqrt a).1 = 0x7FC00000 ∧ (fRcp a).1 = 0x7FC00000 ∧ (fRsq a).1 = 0x7FC00000 ∧
    (fExp a).1 = 0x7FC00000 ∧ (fLog a).1 = 0x7FC00000 ∧ (fSin a).1 = 0x7FC00000 ∧ (fCos a).1 = 0x7FC00000) ∧
  (∀ a b : F32, f32val a = .nan →
    fMin a b = (if f32val b = .nan then 0x7FC00000 else b) ∧ fMax a b = (if f32val b = .nan then 0x7FC00000 else b) ∧
    fMin b a = (if f32val b = .nan then 0x7FC00000 else b) ∧ fMax b a = (if f32val b = .nan then 0x7FC00000 else b))

/-- Region r holds its own blocks, each as block-wise change `g` leaves it where the instruction names the block, and as
before elsewhere. -/
def blocksBecome (x y : Region) (mask : Nat) (g : Nat → Block) : Prop :=
  y.blocks.length = x.blocks.length ∧ ∀ b, y.block b = if b < x.blocks.length ∧ b ∈ blocksOf mask then g b else x.block b

/-- Only region r, and counters and events of observation, differ. -/
def onlyRegion (s t : State) (r : Nat) : Prop :=
  t = { s with regions := t.regions, obs := t.obs } ∧ ∀ k, k ≠ r → t.region k = s.region k

/-- The rows that a MUL streams. -/
def mulRowsOf (x : Region) (c : Carve) (o : Opnd) : List ActRow := (List.range (o.d.dim 1)).map (o.actRow (x.view c))

/-- MAT MUL whose stream lies in the carve-out, whose weight sets are not loading and whose spans are free runs in every
block it names, on the stream and the set as they stand: bank, row buffer and weight set states become what Block.mul
gives, and SRAM is not written; the flags of each accumulator column and the checks that failed there go with the issued
instruction. A block where the pair of formats is not listed or the set is FREE keeps its state, and the instruction then
fails with STATE (R83, R153). -/
def Obligations.MatMulUpdatesTheNamedBlocks : Prop :=
  ∀ (r p : Nat) (l : LaunchRun) (f : MulF) (s : State) (o o2 : Opnd),
    let x := s.region r
    let c := s.regCarve r
    let units := (blocksOf f.blocks).map RUnit.block
    let spans := bySpan units (o2.spans o2.matAux false) ++
      (blocksOf f.blocks).map (fun b => (⟨some (.block b), bankSpan b f.e0 (o2.d.dim 1) true⟩ : USpan))
    let res := fun b => x.mulBlock c f o2.d.fmt (mulRowsOf x c o2) b
    s.mayStart r (.mul f) p l → x.opnd f.adesc f.offa = some o → o.sized (x.sizeOverride f.szreg) = .ok (some o2) →
    o2.ok c o2.matAux = true → (∀ b ∈ blocksOf f.blocks, ((x.block b).set f.set).st ≠ .loading) →
    x.heldBack spans = false →
    ∃ t, exec (.matMul r f) s = .next t ∧ onlyRegion s t r ∧ sameSram x (t.region r) ∧
      blocksBecome x (t.region r) f.blocks (fun b => ((res b).map (·.1.block)).getD (x.block b)) ∧
      (t.region r).skip = (blocksOf f.blocks).any (fun b => (res b).isNone) ∧
      (t.region r).fail = (if (blocksOf f.blocks).any (fun b => (res b).isNone) then x.fail.worst .state else x.fail) ∧
      ∃ i, x.store.instrs[x.pc]? = some i ∧ (t.region r).issued = x.issued ++
        [⟨x.nextId, x.pc, i, units, spans,
          (blocksOf f.blocks).flatMap (fun b => ((res b).map (fun z => z.1.columns b)).getD []), .ok, .ok,
          (blocksOf f.blocks).flatMap (fun b => ((res b).map (·.2)).getD []), .none, 0⟩]

/-- LOADW into sets that are FREE or READY puts the tile into them and makes them LOADING; PRELOAD puts sixteen elements
into the row buffer lanes of cell row Q; BCLEAR makes the words of its bank entries zero and leaves every other word
alone. None of them writes SRAM or another region. -/
def Obligations.WeightLoadsPreloadsAndClears : Prop :=
  (∀ (r p : Nat) (l : LaunchRun) (f : LoadwF) (s : State) (d : Desc),
    let x := s.region r
    let c := s.regCarve r
    let o := fun b => d.at_ (offBlock (x.reg f.offw) (x.reg f.bsreg) b)
    let spans := (blocksOf f.blocks).flatMap (fun b => bySpan [.block b] ((o b).spans (o b).matAux false))
    s.mayStart r (.loadw f) p l → x.desc f.wdesc = some d → (∀ b ∈ blocksOf f.blocks, (o b).ok c (o b).matAux = true) →
    (∀ b ∈ blocksOf f.blocks, ((x.block b).set f.set).st = .free ∨ ((x.block b).set f.set).st = .ready) →
    x.heldBack spans = false →
    ∃ y, exec (.loadw r f) s = .next (s.setRegion r y) ∧ sameSram x y ∧
      issuedNow x y ((blocksOf f.blocks).map RUnit.block) spans {} ∧
      blocksBecome x y f.blocks (fun b =>
        (x.block b).load f.set d.fmt (f.two == 1) (d.dim 0) (fun j n => (o b).elem (x.view c) (n * d.dim 0 + j)))) ∧
  (∀ (r p : Nat) (l : LaunchRun) (f : PreloadF) (s : State) (o : Opnd),
    let x := s.region r
    let c := s.regCarve r
    let spans := bySpan ((blocksOf f.blocks).map RUnit.block) (o.spans o.matAux false)
    s.mayStart r (.preload f) p l → x.opnd f.sdesc f.off = some o → o.ok c o.matAux = true → x.heldBack spans = false →
    ∃ y, exec (.preload r f) s = .next (s.setRegion r y) ∧ sameSram x y ∧
      issuedNow x y ((blocksOf f.blocks).map RUnit.block) spans {} ∧
      blocksBecome x y f.blocks (fun b => (x.block b).preload f.q
        ((List.range 16).map (fun m => if f.two = 1 then o.bits (x.view c) (2 * m) + 16 * o.bits (x.view c) (2 * m + 1)
          else o.bits (x.view c) m)) (o.elem (x.view c) 0).2)) ∧
  (∀ (r p : Nat) (l : LaunchRun) (f : BankF) (s : State),
    let x := s.region r
    let c := s.regCarve r
    let spans := (blocksOf f.blocks).map (fun b => (⟨some (.block b), bankSpan b f.e0 f.count true⟩ : USpan))
    s.mayStart r (.bank .bclear f) p l → x.heldBack spans = false →
    ∃ y, exec (.bclear r f) s = .next (s.setRegion r y) ∧ sameSram x y ∧
      issuedNow x y ((blocksOf f.blocks).map RUnit.block) spans {} ∧
      ∀ b e n, n < 128 → (y.block b).word e n =
        if b < x.blocks.length ∧ b ∈ blocksOf f.blocks ∧ c.bankFirst + f.e0 ≤ e ∧ e < c.bankFirst + f.e0 + f.count then 0
        else (x.block b).word e n)

/-- The operands of a bank copy, by block. -/
def bankOpnds (x : Region) (f : BankF) : List (Nat × Opnd) :=
  (blocksOf f.blocks).filterMap (fun b => (x.bankOpnd f b).map (fun o => (b, o)))

/-- BSTORE writes the bank entries of each named block to the rows of its operand, and BLOAD the rows to the entries, block
after block, when every operand lies in the carve-out and no other unit holds the spans (R156). -/
def Obligations.BankCopiesMoveEntries : Prop :=
  ∀ e ∈ [((fun r f => Instr.bstore r f : Nat → BankF → Instr), BankOp.bstore, true, bstoreBlock),
         ((fun r f => Instr.bload r f : Nat → BankF → Instr), BankOp.bload, false, bloadBlock)],
    ∀ (r p : Nat) (l : LaunchRun) (f : BankF) (s : State) (d : Desc),
    let x := s.region r
    let c := s.regCarve r
    let spans := (bankOpnds x f).flatMap (fun o => bySpan [.block o.1] (o.2.spans false e.2.2.1))
      ++ (blocksOf f.blocks).map (fun b => (⟨some (.block b), bankSpan b f.e0 f.count (!e.2.2.1)⟩ : USpan))
    s.mayStart r (.bank e.2.1 f) p l → x.desc f.sdesc = some d → (∀ o ∈ bankOpnds x f, o.2.ok c false = true) →
    x.heldBack spans = false →
    ∃ y, exec (e.1 r f) s = .next (s.setRegion r y) ∧ issuedNow x y ((blocksOf f.blocks).map RUnit.block) spans {} ∧
      (∀ sp a, y.view c sp a = ((bankOpnds x f).foldl (fun z o => e.2.2.2 f c o.2 o.1 z) x).view c sp a)

/-- The cell that a row's second parity failure marks in a weight set. -/
def failedCell (parity : Option RowFault) : Option (Nat × Nat) :=
  parity.bind (fun f => if f.twice then some (f.row, f.col) else none)

/-- WEIGHT_SET_READY makes a LOADING set READY, marked failed with the cell of a row that failed parity twice; a row that
failed parity writes an event into the block's ring, and only fault counts change besides. WEIGHT_SET_FREE makes a RETIRING
set FREE and empty; nothing else changes (Table 03-3, Table 03-9). -/
def Obligations.WeightSetEventsChangeOneSet : Prop :=
  ∀ (r b i : Nat) (parity : Option RowFault) (s : State),
    let x := s.region r
    r < 16 → r < s.regions.length → b < 6 → b < x.blocks.length → i < 4 → i < (x.block b).sets.length →
    (((x.block b).set i).st = .loading →
      ∃ t y, exec (.weightSetReady r b i parity) s = .next t ∧ t.region r = x.setBlock b y ∧
        y.set i = { (x.block b).set i with st := .ready, failed := failedCell parity } ∧
        (∀ j, j ≠ i → y.set j = (x.block b).set j) ∧ y.bank = (x.block b).bank ∧ y.e0 = (x.block b).e0 ∧
        (∀ k, k ≠ r → t.region k = s.region k) ∧ t = { s with regions := t.regions, obs := t.obs, rel := t.rel } ∧
        (parity = none → t = s.setRegion r (x.setBlock b y)) ∧
        (∀ f, parity = some f → f.row < 8 → f.col < 8 → s.withheld (s.blockIsland r b) (s.partOfRegion r) = false →
          ∃ ev, (Tab.get .reset t.obs.rings (s.blockIsland r b)).entries.head? = some ev ∧ ev.code = 0x10 ∧ ev.time = s.now)) ∧
    (((x.block b).set i).st = .retiring →
      ∃ y, exec (.weightSetFree r b i) s = .next (s.setRegion r (x.setBlock b y)) ∧
        y.set i = .empty ∧ (∀ j, j ≠ i → y.set j = (x.block b).set j) ∧
        y.bank = (x.block b).bank ∧ y.e0 = (x.block b).e0)

/-! Synchronisation inside a program. -/

/-- The SYNC instructions with their operations (Table 05-12). -/
def syncInstrs : List ((Nat → SyncF → Instr) × SyncOp) :=
  [(.waitall, .waitall), (.rbar, .rbar), (.post, .post), (.waitge, .waitge), (.recv, .recv)]

/-- The condition on which a SYNC ends once every earlier instruction of its region has retired, on the state before it:
every other region of the partition has arrived once more than this one, the counter has reached SREG + IMM, or the slot
has received that many records (a region in skip mode does not wait for records, R175). -/
def syncHolds (s : State) (p r : Nat) (op : SyncOp) (f : SyncF) : Prop :=
  match op with
  | .waitall | .post => True
  | .rbar => ∀ k ∈ s.regionsOf p, k ≠ r → Tab.get 0 (s.region r).rbars f.id + 1 ≤ Tab.get 0 (s.region k).rbars f.id
  | .waitge => (s.region r).syncTarget f ≤ Tab.get 0 (s.part p).counters f.id
  | .recv => (s.region r).skip = true ∨ (s.region r).syncTarget f ≤ ((s.region r).slot f.id).count

/-- What a SYNC that has come to its turn does: RBAR counts its region's arrival, POST counts once modulo 2^32, the others
count nothing; the sequencer goes on when the condition holds, and waits, having arrived, while it does not. -/
def syncTook (s t : State) (p r : Nat) (op : SyncOp) (f : SyncF) (since : Nat) : Prop :=
  (syncHolds s p r op f → (t.region r).wait = none ∧ wentOn (s.region r) (t.region r)) ∧
  (¬ syncHolds s p r op f → (t.region r).wait = some ⟨since, true⟩ ∧ (t.region r).pc = (s.region r).pc) ∧
  (∀ k, Tab.get 0 (t.region r).rbars k = Tab.get 0 (s.region r).rbars k + (if op = .rbar ∧ k = f.id then 1 else 0)) ∧
  (∀ k, Tab.get 0 (t.part p).counters k =
    if op = .post ∧ k = f.id then (Tab.get 0 (s.part p).counters k + 1) % 2 ^ 32 else Tab.get 0 (s.part p).counters k)

/-- What SYNC instructions leave alone: everything but the waiting region's sequencer and arrivals, and the counters of
the partition. -/
def syncFrame (s t : State) (p r : Nat) : Prop :=
  t = { s with regions := t.regions, parts := t.parts } ∧ (∀ k, k ≠ r → t.region k = s.region k) ∧
  (∀ k, k ≠ p → t.part k = s.part k) ∧ (t.part p).launch = (s.part p).launch ∧ (t.part p).rounds = (s.part p).rounds ∧
  (t.region r).issued = (s.region r).issued ∧ (t.region r).blocks = (s.region r).blocks ∧ sameSram (s.region r) (t.region r) ∧
  sameRegs (s.region r) (t.region r)

/-- A SYNC that issues while earlier instructions of its region are unretired waits for them from now on; one that issues
when none is takes effect at once (R166). -/
def Obligations.SyncInstructionsArriveAndWait : Prop :=
  ∀ e ∈ syncInstrs, ∀ (r p : Nat) (l : LaunchRun) (f : SyncF) (s : State),
    s.mayIssue r (.sync e.2 f) p l →
    ∃ t, exec (e.1 r f) s = .next t ∧ syncFrame s t p r ∧
      ((s.region r).issued ≠ [] → (t.region r).wait = some ⟨s.now, false⟩ ∧ (t.region r).pc = (s.region r).pc ∧
        (t.region r).rbars = (s.region r).rbars ∧ t.part p = s.part p) ∧
      ((s.region r).issued = [] → syncTook s t p r e.2 f s.now)

/-- SYNC_WAIT_END: a SYNC that waited for earlier instructions takes effect once all have retired; one that has arrived
already goes on when its condition holds, counted no second time (RBAR: every region has arrived as often as this one).
SYNC_TIMEOUT: TIMEOUT µs after its issue a waiting SYNC fails with TIMEOUT and the region goes on in skip mode; an RBAR
or POST that had not arrived counts as arrived (R167, R175). Before that, or with TIMEOUT 0, nothing happens. -/
def Obligations.SyncWaitsEndOrTimeOut : Prop :=
  (∀ (r p : Nat) (op : SyncOp) (f : SyncF) (w : SyncWait) (s : State),
    r < s.regions.length → s.waiting r = some (p, op, f, w) →
    ∃ t, exec (.syncWaitEnd r) s = .next t ∧ syncFrame s t p r ∧
      (w.arrived = false → (s.region r).issued = [] → syncTook s t p r op f w.since) ∧
      (w.arrived = true → (t.region r).rbars = (s.region r).rbars ∧ t.part p = s.part p ∧
        (s.syncMet p r op f = true → (t.region r).wait = none ∧ wentOn (s.region r) (t.region r)) ∧
        (s.syncMet p r op f = false → (t.region r).wait = some w ∧ (t.region r).pc = (s.region r).pc))) ∧
  (∀ (r p : Nat) (op : SyncOp) (f : SyncF) (w : SyncWait) (s : State),
    r < s.regions.length → s.waiting r = some (p, op, f, w) →
    (f.timeout ≠ 0 → w.since + f.timeout * 1000 ≤ s.now →
      ∃ t, exec (.syncTimeout r) s = .next t ∧ (t.region r).skip = true ∧ (t.region r).wait = none ∧
        (t.region r).fail = (s.region r).fail.worst .timeout ∧ wentOn (s.region r) (t.region r) ∧
        (∀ k, Tab.get 0 (t.region r).rbars k =
          Tab.get 0 (s.region r).rbars k + (if op = .rbar ∧ w.arrived = false ∧ k = f.id then 1 else 0)) ∧
        ∀ k, k ≠ r → t.region k = s.region k) ∧
    ((f.timeout = 0 ∨ s.now < w.since + f.timeout * 1000) → exec (.syncTimeout r) s = .next s))

/-! The region DMA engine. -/

/-- Memory with the pieces of one row stored from its bytes. -/
def storePieces : List Piece → List Byte → Memory → Memory
  | [], _, m => m
  | x :: xs, bs, m => storePieces xs (bs.drop x.len) (m.store x.loc (bs.take x.len))

/-- Pieces of this module's HBM and cellar that the host holds no line of. -/
def plainPieces (s : State) (ps : List Piece) : Prop :=
  s.heldLines ps = [] ∧ ∀ x ∈ ps, x.remote s = false ∧ (mapRow x.loc = .hbm ∨ mapRow x.loc = .cellar)

/-- DMAIN without XP whose rows translate through the region's cache to this module's memory, none of it in error, puts
the bytes of each row into region SRAM and issues to the DMA engine (R160); it writes no device memory in any form: on a
cache miss, a line the host holds, or remote data it waits, and with XP it expands a code stream (R268), which must begin
on a 64-byte boundary: the instruction fails with RANGE otherwise (R159, R270). -/
def Obligations.DmainCopiesDeviceRowsIn : Prop :=
  ∀ (r p : Nat) (l : LaunchRun) (f : MovF) (s : State) (o : Opnd),
    let x := s.region r
    let c := s.regCarve r
    let rows := x.dmaRows f o.d
    let aligned := ((x.reg f.sa).toNat + f.imm) % 2 ^ 64 % 64 = 0
    let free := x.dmaBusy = false ∧ x.heldBack (bySpan [.dma] (o.spans false true)) = false
    s.mayStart r (.mov .dmain f) p l → x.opnd f.desc f.off = some o → o.ok c false = true →
    (∀ plan u, f.xp ≠ 1 → free → (s.begun r).planRows r p l .read rows = (some plan, u) → plan.fail = none →
      plainPieces s plan.got.flatten → (∀ y ∈ plan.got.flatten, s.badUnit y.loc y.len = none) →
      ∃ t, exec (.dmain r f) s = .next t ∧ issuedNow x (t.region r) [.dma] (dmaSpans o rows true) {} ∧
        sameSram (x.putRows c o (plan.got.map (fun ps => ps.flatMap (fun y => s.mem.loc.load y.loc y.len)))) (t.region r)) ∧
    (f.xp = 1 → aligned → free → exec (.dmain r f) s = .next ((s.begun r).dmainXp r p l f o)) ∧
    (f.xp = 1 → ¬ aligned → ∃ y, exec (.dmain r f) s = .next (s.setRegion r y) ∧ failedAtIssue x y .range) ∧
    (∀ t, exec (.dmain r f) s = .next t → t.mem.loc = s.mem.loc ∧ t.parts = s.parts ∧ t.queues = s.queues ∧ ∀ k, k ≠ r → t.region k = s.region k)

/-- DMAOUT whose rows translate through the region's cache to this module's memory stores each row of the operand there in
order and issues to the DMA engine (R160); when a row enters a receive window that the others do not lie in, it fails with
RANGE and nothing is sent (R184). In every form no byte of local memory outside the pieces of the rows translated changes,
and region SRAM stays as it is. -/
def Obligations.DmaoutCopiesRowsOut : Prop :=
  ∀ (r p : Nat) (l : LaunchRun) (f : MovF) (s : State) (o : Opnd),
    let x := s.region r
    let c := s.regCarve r
    let b := s.begun r
    let rows := x.dmaRows f o.d
    let windows := b.windowOk (rows.map (fun y => b.reach (s.regVia p l) (y.2 / 4096 + 2) y.1 y.2))
    let z := b.planRows r p l .write rows
    let free := x.dmaBusy = false ∧ x.heldBack (bySpan [.dma] (o.spans false false)) = false
    s.mayStart r (.mov .dmaout f) p l → x.opnd f.desc f.off = some o → o.ok c false = true →
    (∀ plan, free → windows = true → z.1 = some plan → plan.fail = none → plainPieces s plan.got.flatten →
      (∀ y ∈ plan.got.flatten, s.badPartial y.loc y.len = none) →
      ∃ t, exec (.dmaout r f) s = .next t ∧ issuedNow x (t.region r) [.dma] (dmaSpans o rows false) {} ∧
        t.mem.loc = (plan.got.zip ((List.range plan.got.length).map (fun i => x.sramLoad (c.sramBase + o.rowAddr i) o.d.rowBytes))).foldl
          (fun m e => storePieces e.1 e.2 m) s.mem.loc) ∧
    (free → windows = false → ∃ y, exec (.dmaout r f) s = .next (s.setRegion r y) ∧ failedAtIssue x y .range) ∧
    (∀ t, exec (.dmaout r f) s = .next t →
      (∀ a, (∀ plan, z.1 = some plan → ∀ ps ∈ plan.got, ∀ y ∈ ps, a < y.loc ∨ y.loc + y.len ≤ a) →
        t.mem.loc.byte a = s.mem.loc.byte a) ∧
      sameSram x (t.region r) ∧ sameRegs x (t.region r) ∧ t.parts = s.parts ∧ t.queues = s.queues ∧
      ∀ k, k ≠ r → t.region k = s.region k)

/-- RLC_WALK_DONE puts the range that the walker found in front of the lookaside cache of every region of the LAUNCH that
waits for it, which keeps the 256 most recent; an entry that is there already changes nothing of the cache, and without a
miss outstanding nothing happens (R353, Table 12-11). -/
def Obligations.WalkerFillsTheLookasideCache : Prop :=
  ∀ (r va p : Nat) (l : LaunchRun) (e : RangeEntry) (base : Nat) (s : State),
    s.regRun r = some (p, l) →
    ((s.region r).walk ≠ some va → exec (.rlcWalkDone r va) s = .next s) ∧
    ((s.region r).walk = some va → s.entryFor (s.regVia p l) va = some (e, base) →
      s.walkBad (s.regVia p l) [⟨va, 0, 0, e⟩] = none →
      let c := s.rlcTag p l ⟨va, 0, 0, e⟩
      ∃ t, exec (.rlcWalkDone r va) s = .next t ∧ t = { s with regions := t.regions, obs := t.obs } ∧
        ∀ k, t.region k = if k ∈ s.regionsOf p ∧ s.sameWalk p l va k = true then
            { s.region k with walk := none, rlc := if c ∈ (s.region k).rlc then (s.region k).rlc else (c :: (s.region k).rlc).take 256 }
          else s.region k)

/-! The key-value instructions of a region. -/

/-- The operands of a KV instruction after R122: as declared, or with the count that SZREG holds. -/
def kvSized (x : Region) (op : KvOp) (f : KvF) (a a2 : KvArgs) : Prop :=
  match x.sizeOverride f.szreg with
  | none => a2 = a
  | some n => n ≠ 0 ∧ n ≤ a.declared op ∧ a2 = a.sizedTo op n

/-- READ, SCORE and LEN take their rows in order, each on the state that the row before it left, and issue with the worst
of the rows' statuses; APPEND accepts its rows in order, with the frames that their page copies take, writes them in order
up to the first that waits for a page copy, and issues with what is left to do (R221 to R226). -/
def Obligations.KvInstructionsTakeTheirRows : Prop :=
  ∀ (r p : Nat) (l : LaunchRun) (f : KvF) (s : State) (a a2 : KvArgs),
    let x := s.region r
    let c := s.regCarve r
    let rd := x.view c
    let ready := fun op => s.mayStart r (.kv op f) p l ∧ x.kvArgs f = some a ∧ a.shaped op = true ∧ kvSized x op f a a2 ∧
      a2.fits c = true ∧ x.dmaBusy = false ∧ x.heldBack (bySpan [.dma] (a2.spans op)) = false
    let ends := fun (i : Instr) op (g : State → Nat → Status × State) =>
      let z := State.kvRows g (List.range a2.rows) (s.begun r)
      ∃ t, exec i s = .next t ∧ issuedNow (z.2.region r) (t.region r) [.dma] (bySpan [.dma] (a2.spans op)) { fail := z.1 } ∧
        sameSram (z.2.region r) (t.region r) ∧ t.kv = z.2.kv ∧ t.mem = z.2.mem
    (ready .read → ends (.kvRead r f) .read (fun s i => s.readRow r p l f a2 rd c i)) ∧
    (ready .score → ends (.score r f) .score (fun s i => s.scoreRow p l f a2 rd i)) ∧
    (ready .len → ends (.len r f) .len (fun s i => s.lenRow r p f a2 rd c i)) ∧
    (ready .append →
      let z := State.appendRows r p l f a2 rd c (List.range a2.rows) [] (s.begun r)
      let w := State.kvActs p l z.2.2.queuedActs z.1 z.2.2
      ∃ t, exec (.append r f) s = .next t ∧
        issuedNow (w.2.2.region r) (t.region r) [.dma] (bySpan [.dma] (a2.spans .append))
          { fail := z.2.1.worst w.2.1, pend := cowPend w.1 } ∧
        t.kv = w.2.2.kv ∧ t.mem = w.2.2.mem)

/-- One row of a KV instruction: a sequence outside the partition's range gives DENIED, one that is not LIVE gives STATE, a
layer or head group that is not held here gives RANGE, each without effect; a LEN row otherwise writes the length and
POS0 as four little-endian words into its AUX row, and a SCORE row replaces the score of every group that is held by the
larger of it and the new value, a NaN changing nothing (R222, R228, Tables 07-8 and 07-9). -/
def Obligations.KvRowsCheckTheirSequence : Prop :=
  ∀ (r p : Nat) (l : LaunchRun) (f : KvF) (a : KvArgs) (rd : Reader) (c : Carve) (i : Nat) (s : State),
    let n := a.seqd.bits rd i
    let x := s.seq n
    let held := x.geo.hg0 ≤ f.headg ∧ f.headg < x.geo.hg0 + x.geo.ng ∧ f.layer < x.geo.nl
    (s.ownsSeq p n = false → s.lenRow r p f a rd c i = (.denied, s) ∧ (a.kd.isSome → s.scoreRow p l f a rd i = (.denied, s))) ∧
    (s.ownsSeq p n = true → x.st ≠ .live → s.lenRow r p f a rd c i = (.state, s)) ∧
    (s.ownsSeq p n = true → x.st = .live → ¬ held → s.lenRow r p f a rd c i = (.range, s)) ∧
    (s.ownsSeq p n = true → x.st = .live → held → r < s.regions.length →
      ∃ t, s.lenRow r p f a rd c i = (.ok, t) ∧ (∀ k, k ≠ r → t.region k = s.region k) ∧ t.kv = s.kv ∧
        let b := c.sramBase + a.aux.rowAddr i
        ∀ j, (t.region r).sramByte j =
          if b ≤ j ∧ j < b + 16 then BitVec.ofNat 8 ((x.length % 2 ^ 64 + x.pos0 % 2 ^ 64 * 2 ^ 64) / 256 ^ (j - b))
          else (s.region r).sramByte j) ∧
    (∀ k v, s.ownsSeq p n = true → x.st = .live → held → a.kd = some k → k.d.dim 0 = 1 → a.aux.pos40 rd i < 16384 →
      s.scoresBad x (a.aux.pos40 rd i) 1 = none → v = BitVec.ofNat 32 (k.bits rd i) →
      ∃ t, s.scoreRow p l f a rd i = (.ok, t) ∧ t.regions = s.regions ∧
        ∀ g, (t.seq n).score g = if g = a.aux.pos40 rd i ∧ x.groupHeld g then newScore (x.score g) v else x.score g)

/-! Expert routing. -/

/-- PLACE that carries rows joins the round of its batch with its choices, clears its return slot and waits for the round;
in skip mode, or with operands or registers outside Table 08-2, it submits no rows, and
fails with RANGE in the second case (R238, R239, R249). -/
def Obligations.PlaceSubmitsToItsRound : Prop :=
  ∀ (r p : Nat) (l : LaunchRun) (f : RouteF) (s : State),
    let x := s.region r
    let c := s.regCarve r
    let a := x.routeArgs f
    let fitsRows := fun (g : PlaceRegs) (o out : Opnd) =>
      x.placeRegs f = some g ∧ a.choice = some o ∧ a.out = some out ∧ out.d.dim 0 = g.experts + 3 ∧ o.d.count ≤ 65535 ∧
      (x.slot g.slot).bound = true ∧ a.fits c = true
    s.mayIssue r (.route .place f) p l →
    (∀ g o out y, x.skip = false → fitsRows g o out → x.dmaBusy = false → x.heldBack (bySpan [.dma] (a.spans true)) = false →
      (s.part p).submit l.batch x.places
        { index := s.regionIndex p r, region := r, id := x.nextId, slot := g.slot, rows := true, k := o.d.dim 0, t := o.d.dim 1, experts := g.experts,
          cap := g.cap, pool := g.pool, strict := g.strict, renorm := f.renorm == 1,
          choices := (List.range o.d.count).map (fun i => sext 32 (o.bits (x.view c) i)) } = some y →
      ∃ t, exec (.place r f) s = .next t ∧ t.part p = y ∧ (t.region r).places = x.places + 1 ∧
        issuedNow (x.clearSlot c g.slot) (t.region r) [.dma] (bySpan [.dma] (a.spans true)) { pend := .round } ∧
        sameSram (x.clearSlot c g.slot) (t.region r) ∧ (x.desc g.slot ≠ none → ((t.region r).slot g.slot).count = 0) ∧
        ∀ k, k ≠ p → t.part k = s.part k) ∧
    (∀ y, (x.skip = true ∨ ∀ g o out, ¬ fitsRows g o out) →
      (s.part p).submit l.batch x.places (.empty (s.regionIndex p r) r) = some y →
      ∃ t, exec (.place r f) s = .next t ∧ t.part p = y ∧ (t.region r).places = x.places + 1 ∧
        (t.region r).issued = x.issued ∧ sameSram x (t.region r) ∧ (t.region r).skip = true ∧
        (t.region r).fail = (if x.skip then x.fail else x.fail.worst .range) ∧ wentOn x (t.region r))

/-- SEND and both returns issue to the DMA engine with one record on its way for every choice or row that has a
destination, and fail with RANGE when one of them has none (R254, R255). -/
def Obligations.SendsAndReturnsEmitRecords : Prop :=
  ∀ (r p : Nat) (l : LaunchRun) (f : RouteF) (s : State),
    let x := s.region r
    let a := x.routeArgs f
    let ready := fun op => s.mayStart r (.route op f) p l ∧ a.fits (s.regCarve r) = true ∧ x.dmaBusy = false ∧
      x.heldBack (bySpan [.dma] (a.spans false)) = false
    let emits := fun (i : Instr) (rs : List (Option (Nat × Nat × List Byte))) =>
      ∃ t, exec i s = .next t ∧
        t.transit = s.transit ++ (rs.filterMap id).map (fun e =>
          ⟨(s.regionsOf p).getD e.1 0, e.2.1, e.2.2, .instr r x.nextId⟩) ∧
        issuedNow x (t.region r) [.dma] (bySpan [.dma] (a.spans false))
          { fail := if rs.contains none then .range else .ok, owed := (rs.filterMap id).length } ∧
        sameSram x (t.region r) ∧ t = { s with regions := t.regions, transit := t.transit } ∧ ∀ k, k ≠ r → t.region k = s.region k
    let cap := (x.reg f.capreg).toNat
    let ep := (x.reg f.epochreg).toNat
    (∀ ch w tk m idx, ready .send → a.choice = some ch → a.weight = some w → a.token = some tk → a.out = some m →
      a.idx = some idx → cap % 65536 = 0 → cap / 65536 ≠ 0 → cap / 65536 ≤ 4096 → ep % 65536 = 0 → ep < 2 ^ 32 →
      m.d.dim 0 = cap / 65536 →
      emits (.send r f) (s.dispatches r p l (cap / 65536) (s.regionIndex p r + 16 * bits ep 23 16) (bits ep 31 24) ch w tk m idx)) ∧
    (∀ tk idx, ready .returnSlot → a.token = some tk → a.idx = some idx → cap ≤ tk.d.dim 1 → cap ≤ idx.d.dim 1 →
      emits (.returnSlot r f) ((List.range cap).map (s.returnRec r p false tk idx))) ∧
    (∀ tk idx, ready .returnAcc → a.token = some tk → a.idx = some idx → cap ≤ tk.d.dim 1 → cap ≤ idx.d.dim 1 →
      emits (.returnAcc r f) ((List.range cap).map (s.returnRec r p true tk idx)))

/-- The router never gives an expert more rows than its capacity and what it has taken from the pool, takes no more from
the pool than the pool holds, counts as dropped exactly the choices that it could not place, and gives the k-th placed
choice of an expert the expert's row k (R243). -/
def Obligations.RouterKeepsToCapacityAndPool : Prop :=
  ∀ (experts cap pool : Nat) (es : List Int),
    let z := Router.choices experts cap pool es ⟨[], 0, 0⟩
    z.2.used ≤ pool ∧ z.2.used = (z.1.filter (fun p => match p with | .at_ _ true => true | _ => false)).length ∧
    z.2.dropped = (z.1.filter (· == .dropped)).length ∧ z.1.length = es.length ∧
    (∀ e, e < experts → Tab.get 0 z.2.fill e ≤ cap + z.2.used) ∧
    (∀ i, i < es.length → (es.getD i 0 < 0 ∨ (experts : Int) ≤ es.getD i 0) → z.1.getD i .dropped = .none) ∧
    (∀ i row b, i < es.length → z.1.getD i .none = .at_ row b →
      row = ((List.range i).filter (fun j => decide (es.getD j 0 = es.getD i 0) && (z.1.getD j .none).isAt)).length)

/-- ROUND_PLACE on a round of the running LAUNCH that every region of the partition has submitted to runs the router over
its submissions in region order; while a region is missing, and for a round that is no round of that batch, nothing happens
(R238, R243). ROUND_ENTRY_EXPIRE frees the entries of a number 10 ms after their batch was cancelled (R260), and
CANCEL_FILTER_EXPIRE takes a batch out of the filter 10 ms after it entered (R259).
A round's placing writes each submission's outputs and ends its PLACE: with one region submitting rows, its PLACE
waits for the round no longer, and the LAUNCH's dropped count rises by the choices that the router dropped. -/
def Obligations.RoundsArePlacedAndExpire : Prop :=
  ((∀ (p n : Nat) (l : LaunchRun) (e : RoundEntry) (s : State),
    s.inReset = false → (s.part p).launch = some l → (s.part p).rounds.find? (fun e => e.takes n l.batch) = some e →
    ((s.regionsOf p).length ≤ e.subs.length → exec (.roundPlace p n) s = .next (s.placeRound p e)) ∧
    (e.subs.length < (s.regionsOf p).length → exec (.roundPlace p n) s = .next s)) ∧
  (∀ (p n : Nat) (s : State), p < 8 → p < s.parts.length →
    ∃ t, exec (.roundEntryExpire p n) s = .next t ∧ t = { s with parts := t.parts } ∧ (∀ k, k ≠ p → t.part k = s.part k) ∧
      t.part p = { s.part p with rounds := (t.part p).rounds } ∧
      ∀ e, e ∈ (t.part p).rounds ↔ e ∈ (s.part p).rounds ∧ ¬ (e.number = n ∧ ∃ c, e.cancelledAt = some c ∧ c + 10000000 ≤ s.now)) ∧
  (∀ (p b : Nat) (s : State), p < 8 → p < s.parts.length →
    ∃ t, exec (.cancelFilterExpire p b) s = .next t ∧ t = { s with parts := t.parts } ∧ (∀ k, k ≠ p → t.part k = s.part k) ∧
      t.part p = { s.part p with filter := (t.part p).filter } ∧
      ∀ e, e ∈ (t.part p).filter ↔ e ∈ (s.part p).filter ∧ ¬ (e.1 = b ∧ e.2 + 10000000 ≤ s.now))) ∧
  (∀ (p : Nat) (e : RoundEntry) (b : Submission) (s : State),
    e.subs = [b] → b.rows = true → p < s.parts.length → b.region < s.regions.length →
    let z := Router.choices b.experts b.cap b.pool b.choices ⟨[], 0, 0⟩
    let t := s.placeRound p e
    (t.part p).dropped = (s.part p).dropped + z.2.dropped ∧ (∀ k, k ≠ b.region → t.region k = s.region k) ∧
    (∀ i ∈ (t.region b.region).issued, i.id = b.id → i.pend ≠ .round) ∧
    (t.region b.region).issued.length = (s.region b.region).issued.length)

/-! Taps, retirement and arriving records. -/

/-- TAP issues to the engine and counts itself; a tap number that is armed carries its area and the record of its operand
for retirement, an unarmed one or one of a Cloche partition carries none (R572). -/
def Obligations.TapIssuesWithItsRecord : Prop :=
  ∀ (r p : Nat) (l : LaunchRun) (f : TapF) (s : State) (o : Opnd),
    let x := s.region r
    s.mayStart r (.tap f) p l → x.opnd f.desc f.offreg = some o → o.ok (s.regCarve r) true = true →
    x.heldBack (bySpan [.engine] (o.spans true false)) = false →
    ∃ y pend, exec (.tap r f) s = .next (s.setRegion r y) ∧ y.taps = x.taps + 1 ∧ sameSram x y ∧
      issuedNow x y [.engine] (bySpan [.engine] (o.spans true false)) { pend := pend } ∧
      ((s.inCloche p = true ∨ Tab.get none (s.part p).taps f.tapid = none) → pend = .none) ∧
      (∀ area, s.inCloche p = false → Tab.get none (s.part p).taps f.tapid = some area → ∃ body, pend = .tapArea area body ∧ body.length = 56)

/-- INSTRUCTION_RETIRE takes the oldest instruction of its units, once nothing of it is still on its way, out of the table,
joins the flags of its lanes and columns to the region's (R63), and puts the region into skip mode when it failed (R175); an
instruction in which a check failed, in its execution or now, fails with DATA as well (R111), and an index out of range
gives the command RANGE without skip mode (R132). A parity error of a program store word needs no instruction: re-read, it
only counts as a fault (Table 05-17). -/
def Obligations.RetirementJoinsFlagsAndStatus : Prop :=
  ∀ (r p : Nat) (u : RUnit) (i : Issued) (fault : Option RetireFault) (s : State),
    let x := s.region r
    r < 16 → r < s.regions.length → s.inReset = false → s.partOfRegion r = some p →
    (x.issued.find? (fun i => i.units.contains u) = some i → x.canRetire i = true → (∀ ok, fault ≠ some (.store ok)) →
    let found := i.bad ++ fault.toList.filter (fun f => f.fits i)
    let st := if found.any (·.fails) then i.fail.worst .data else i.fail
    let noted := if i.note = .ok then x.fail else x.fail.worst i.note
    ∃ t, exec (.instructionRetire r u fault) s = .next t ∧
      (t.region r).issued = x.issued.filter (fun j => j.id != i.id) ∧ (t.region r).flags = x.flags ||| i.flags.summary ∧
      (t.region r).skip = (x.skip || st != .ok) ∧ (t.region r).fail = (if st = .ok then noted else noted.worst st) ∧
      (t.region r).pc = x.pc ∧ sameSram x (t.region r) ∧ ∀ k, k ≠ r → t.region k = s.region k) ∧
    (x.issued.find? (fun i => i.units.contains u) = none →
      ∃ t, exec (.instructionRetire r u (some (.store true))) s = .next t ∧ t = { s with rel := t.rel })

/-- A record on its way that arrives is on its way no longer, unless it is to be held and the holding area is full; one
that lands leaves in its row what its kind says (kind 3 the payload times its weight, kind 4 the old payload plus that,
others its bytes) and counts in its slot unless it replaces one; one whose batch does not run there waits in the holding
area; a stale or cancelled one changes no SRAM, and one that fails a check puts the region into skip mode with RANGE,
but for a bad header outside its command (R187 to R190, R252, R253).
HELD_RECORD_EXPIRE discards every record that a partition has held for more than 10 ms, and counts each by its kind
(R190). -/
def Obligations.ArrivingRecordsLandWaitOrDrop : Prop :=
  (∀ (t : TransitRec) (p : Nat) (i : Instr) (s : State),
    (i = .recordLand t ∧ isRoute t.bytes = false ∨ i = .routeRecordLand t ∧ isRoute t.bytes = true) →
    t ∈ s.transit → s.inReset = false → s.partOfRegion t.region = some p →
    t.region < s.regions.length → p < s.parts.length →
    let x := s.region t.region
    let o := s.landing p t.region t.slot t.bytes
    (∀ g n counts d, o = .lands g n counts → x.desc t.slot = some d →
      ∃ u, exec i s = .next u ∧ u.transit = s.transit.erase t ∧ (∀ k, k ≠ t.region → sameSram (s.region k) (u.region k)) ∧
        ((u.region t.region).slot t.slot).count = (x.slot t.slot).count + (if counts then 1 else 0) ∧
        let a := d.rowAt (s.regCarve t.region) g n
        let out := landBytes t.bytes (x.sramLoad a t.bytes.length)
        (u.region t.region).flags = x.flags ||| out.2 ∧
        ∀ j, (u.region t.region).sramByte j = if a ≤ j ∧ j < a + out.1.length then out.1.getD (j - a) 0 else x.sramByte j) ∧
    (o = .held → ∃ u, exec i s = .next u ∧ (∀ k, sameSram (s.region k) (u.region k)) ∧
      if 2 ^ 22 < (s.part p).heldBytes + t.bytes.length then u = s
      else u.transit = s.transit.erase t ∧ (u.part p).held = (s.part p).held ++ [⟨t.region, t.slot, t.bytes, s.now⟩]) ∧
    ((o = .stale ∨ o = .cancelled) → ∃ u, exec i s = .next u ∧ u.transit = s.transit.erase t ∧ ∀ k, sameSram (s.region k) (u.region k)) ∧
    (∀ n, o = .drop n → ∃ u, exec i s = .next u ∧ u.transit = s.transit.erase t ∧ sameSram x (u.region t.region) ∧
      ((n ≠ 1 ∨ s.batchRuns p t.region t.bytes = true) →
        (u.region t.region).skip = true ∧ (u.region t.region).fail = x.fail.worst .range))) ∧
  (∀ (p : Nat) (s : State), p < 8 → p < s.parts.length →
    let old := (s.part p).held.filter (fun h => h.over s.now)
    ∃ t, exec (.heldRecordExpire p) s = .next t ∧ (t.part p).held = (s.part p).held.filter (fun h => !(h.over s.now)) ∧
      (t.part p).rteStale % 2 ^ 32 = ((s.part p).rteStale + (old.filter (fun h => isRoute h.bytes)).length) % 2 ^ 32 ∧
      (t.part p).partialStale % 2 ^ 32 = ((s.part p).partialStale + (old.filter (fun h => !(isRoute h.bytes))).length) % 2 ^ 32 ∧
      t = { s with parts := t.parts, obs := t.obs } ∧ ∀ k, k ≠ p → t.part k = s.part k)

/-- COW_COPY_DONE copies the page that the first waiting APPEND waits for, makes the run PRIVATE on the new frames and drops
the old ones' count, writes that row, and the rows that waited go on (R220, R221); a source with an uncorrectable error
fails the row with DATA, and the page stays as it is (R226). SEQUENCE_FREE frees a RELEASING sequence when every row
accepted on it is written: its frames lose one count each and its descriptor reads zero; any other sequence stays (R219,
R201). -/
def Obligations.CopiesEndAndSequencesFree : Prop :=
  (∀ (r p src dst frames : Nat) (l : LaunchRun) (i : Issued) (older younger : List Issued) (x : KvAct) (rest : List KvAct)
      (s : State),
    s.inReset = false → s.regRun r = some (p, l) → (s.region r).issued = older ++ i :: younger →
    (∀ j ∈ older, ∀ y, j.acts.head? = some y → y.copy = none) → i.pend = .cow (x :: rest) → x.copy = some (src, dst, frames) →
    let ends := fun (z : Status × State) =>
      z.2.modIssued r i.id (fun j => { j with pend := cowPend rest, fail := j.fail.worst z.1 })
    exec (.cowCopyDone r) s = .next (ends (s.copyPage p l x)).resumeAll ∧
    (s.queuedActs = [x] →
      (∀ e, s.badUnit (src * frameSize) (frames * frameSize) = some e →
        ∃ t, exec (.cowCopyDone r) s = .next t ∧ t.kv.seqs = s.kv.seqs ∧ t.kv.refs = (s.refDown dst frames).kv.refs ∧
          t.mem.loc = s.mem.loc ∧
          (t.region r).issued = (s.region r).issued.map (fun j => if j.id = i.id then { j with pend := .none, fail := j.fail.worst .data } else j)) ∧
      (∀ u, s.badUnit (src * frameSize) (frames * frameSize) = none →
        (s.writeLocal (dst * frameSize) (s.mem.loc.load (src * frameSize) (frames * frameSize))).ownPage p x.seq x.lp dst = .ok u →
        exec (.cowCopyDone r) s = .next (ends ((u.refDown src frames).actPut p l x))))) ∧
  (∀ (n : Nat) (s : State), (s.seq n).st = .releasing → s.rowsQueued n = false →
    ∃ t, exec (.sequenceFree n) s = .next t ∧ t.seq n = .free ∧ (∀ k, k ≠ n → t.seq k = s.seq k) ∧
      ∀ f, Tab.get 0 t.kv.refs f = Tab.get 0 s.kv.refs f
        - (((s.seq n).runs.filter (fun u => u.st != .evicted && decide (u.frame ≤ f) && decide (f < u.frame + u.count * (s.seq n).geo.frames))).length
          + ((s.seq n).runFrames ++ (s.seq n).scoreFrame.toList).count f)) ∧
  (∀ (n : Nat) (s : State), ((s.seq n).st ≠ .releasing ∨ s.rowsQueued n = true) → exec (.sequenceFree n) s = .next s)

/-! The commands of the queues. -/

/-- The completion of a queue's command leaves every other unit of the module alone: it changes queues, slots, the
expansion caches of the command, what is observed, interrupts, and the reset registers when the next record is malformed. -/
def sameBeyondQueues (s t : State) : Prop :=
  t = { s with queues := t.queues, slots := t.slots, wgt := { s.wgt with caches := t.wgt.caches }, obs := t.obs, host := t.host,
               rel := t.rel, out := t.out }

/-- Every queue is as it was. -/
def sameQueues (s t : State) : Prop := ∀ k, t.queue k = s.queue k

/-- A command that completes while none of its remote writes is unanswered gives up its slot and caches, and one
completion record goes out behind those in flight: SEQ and OPCODE of the command, the worse of the status given and the
one gathered, FIRST and T_END; for a Cloche partition RATIO and SNAPV are 0 and ENERGY is rounded down to 10,000 µJ (R389). A
STATE holds an ACTIVE queue (R388, R393). One with such writes waits for them (R346). -/
def Obligations.CompletionRecordTellsTheOutcome : Prop :=
  ∀ (q first : Nat) (x : Running) (st : Status) (s : State), (s.queue q).running = some x →
    let t := s.complete q st first
    let last := x.status.worst st
    (x.owed ≠ 0 → t = s.setQueue q { s.queue q with
      running := some { x with status := last, first := first, started := true, ending := some s.now } }) ∧
    (x.owed = 0 → (s.queue q).state ≠ .complBlocked →
      sameBeyondQueues s t ∧ (∀ k, k ≠ q → t.queue k = s.queue k) ∧ (∀ u ∈ t.slots, u.sel ≠ some q) ∧
      (∀ c ∈ t.wgt.caches, c.queue ≠ q) ∧ (t.queue q).running = none ∧ (t.queue q).granted = false ∧
      ((s.queue q).state = .active → if last = .state then (t.queue q).state = .held
        else (t.queue q).state = .active ∨ (t.queue q).state = .idle) ∧
      ∃ w rest, (t.queue q).inflight = (s.queue q).inflight ++ w :: rest ∧ ((s.queue q).state = .aborting ∨ rest = []) ∧
        w.irq = x.cmd.irq ∧ w.bytes.length = 32 ∧ leAt w.bytes 0 4 = x.cmd.seq % 2 ^ 32 ∧ leAt w.bytes 4 1 = last.code ∧
        leAt w.bytes 20 1 = x.cmd.opcode % 2 ^ 8 ∧ leAt w.bytes 22 2 = first % 2 ^ 16 ∧ leAt w.bytes 24 8 = s.now % 2 ^ 64 ∧
        (∀ p, s.partOfCtx (s.ctxOf q x.cmd.word1) = some p →
          let used := min 0xFFFFFFFF (s.energyQ q - x.energy0)
          (s.inCloche p = false → leAt w.bytes 8 4 = used) ∧
          (s.inCloche p = true → leAt w.bytes 6 2 = 0 ∧ bit (leAt w.bytes 5 1) 1 = false ∧ leAt w.bytes 8 4 = used / 10000 * 10000)))

/-- NOP completes with OK. FENCE_SIGNAL creates, raises or destroys a fence, ending the waits that this satisfies, or
completes with STATE where the fence is not as it requires; FENCE_WAIT completes when the fence has reached its value, with
STATE where there is no fence, and otherwise waits outside its slot until its timeout, which ends it with TIMEOUT (R375,
R390, R411). -/
def Obligations.NopAndFencesTakeEffect : Prop :=
  (∀ q x ctx p s, s.mayRun q .nop x ctx p → exec (.nop q) s = .next (s.completeOk q .ok)) ∧
  (∀ q f x ctx p s, s.mayRun q (.fenceSignal f) x ctx p → p < s.parts.length →
    let old := (s.part p).fence f.fence
    let sets := fun (v : Option Nat) (u : State) => u = { s with parts := u.parts, sync := u.sync } ∧
      (∀ k, k ≠ p → u.part k = s.part k) ∧ u.part p = { s.part p with fences := (u.part p).fences, fenceBy := (u.part p).fenceBy } ∧
      ∀ g, (u.part p).fence g = if g = f.fence then v else (s.part p).fence g
    (old = none → f.create = true → ∃ u, sets (some f.value) u ∧ exec (.fenceSignal q f) s = .next (u.completeOk q .ok)) ∧
    (((old = none ∧ f.create = false) ∨ (∃ v, old = some v ∧ (f.create = true ∨ (f.destroy = false ∧ f.value ≤ v)))) →
      exec (.fenceSignal q f) s = .next (s.completeOk q .state)) ∧
    (∀ v, old = some v → f.create = false → f.destroy = true → ∃ u, sets none u ∧
      exec (.fenceSignal q f) s = .next (((s.fenceWaiters p f.fence).foldl
        (fun (z : State) w => z.endFenceWait p f.fence w.1 0 .state) u).completeOk q .ok)) ∧
    (∀ v, old = some v → f.create = false → f.destroy = false → v < f.value → ∃ u, sets (some f.value) u ∧
      exec (.fenceSignal q f) s = .next ((((s.fenceWaiters p f.fence).filter (fun w => decide (w.2 ≤ f.value))).foldl
        (fun (z : State) w => z.endFenceWait p f.fence w.1 q .ok) u).completeOk q .ok))) ∧
  (∀ q f x ctx p s, s.mayRun q (.fenceWait f) x ctx p →
    let traced := fun (u : State) => u = { s with sync := u.sync }
    ((s.part p).fence f.fence = none → ∃ u, traced u ∧ exec (.fenceWait q f) s = .next (u.completeOk q .state)) ∧
    (∀ v, (s.part p).fence f.fence = some v → f.value ≤ v → ∃ u, traced u ∧ exec (.fenceWait q f) s = .next (u.completeOk q .ok)) ∧
    (∀ v, (s.part p).fence f.fence = some v → v < f.value →
      ∃ t, exec (.fenceWait q f) s = .next t ∧ t = { s with queues := t.queues, slots := t.slots, sync := t.sync } ∧
        (∀ u ∈ t.slots, u.sel ≠ some q) ∧ (∀ k, k ≠ q → t.queue k = s.queue k) ∧
        t.queue q = { s.queue q with
          running := some { x with started := true, waitUntil := if f.timeout = 0 then none else some (s.now + f.timeout * 1000) } })) ∧
  (∀ q f x p s, (s.queue q).running = some x → x.cmd.body = .fenceWait f → s.partOfCtx (s.ctxOf q x.cmd.word1) = some p →
    (s.waitOver x = true → ∃ u : State, u = { s with sync := u.sync } ∧ exec (.fenceWaitTimeout q) s = .next (u.completeOk q .timeout)) ∧
    (s.waitOver x = false → exec (.fenceWaitTimeout q) s = .next s))

/-- COPY fails at once with the first status of its checks, and otherwise moves its bytes, as they were translated then,
until COPY_DONE: a plain copy within this module then leaves the bytes of its source at its destination and completes, and
one with XC into this module expands or stores the compressed data it has read. TAP_SET arms a tap over its
area with both counts zero, or disarms it; RAKE runs one at a time, and RAKE_DONE writes the rings (R385, R570, R571). -/
def Obligations.CopyTapAndRakeTakeEffect : Prop :=
  (∀ q f x ctx p s, s.mayRun q (.copy f) x ctx p →
    (∀ e, s.copyPlan ctx p f = .error e → exec (.copy q f) s = .next (s.completeOk q e)) ∧
    (∀ m, s.copyPlan ctx p f = .ok m →
      exec (.copy q f) s = .next (s.setQueue q { s.queue q with running := some { x with started := true, moves := some m } }))) ∧
  (∀ q f x p a b s, (s.queue q).running = some x → x.cmd.body = .copy f → x.started = true → x.ending = none →
    s.partOfCtx (s.ctxOf q x.cmd.word1) = some p → x.moves = some (a, b) →
    (f.xc = false → plainPieces s (a ++ b) → (∀ y ∈ a, s.badUnit y.loc y.len = none) → (∀ y ∈ b, s.badPartial y.loc y.len = none) →
      ∃ u, exec (.copyDone q) s = .next (u.completeOk q .ok) ∧ sameQueues s u ∧ u.regions = s.regions ∧ u.parts = s.parts ∧
        u.mem.loc = storePieces b (a.flatMap (fun y => s.mem.loc.load y.loc y.len)) s.mem.loc) ∧
    (∀ bs u, f.xc = true → (∀ y ∈ b, y.remote s = false) →
      s.readPieces (.cmd q) ⟨s.ctxOf q x.cmd.word1, p, none⟩ 1 x.cmd.seq q a = (.done bs, u) →
      exec (.copyDone q) s = .next (u.copyXc q (s.ctxOf q x.cmd.word1) p f a b bs))) ∧
  (∀ q f x ctx p s, s.mayRun q (.tapSet f) x ctx p → p < s.parts.length → f.disarm = true →
    ∃ u : State, exec (.tapSet q f) s = .next (u.completeOk q .ok) ∧ u = { s with parts := u.parts } ∧ (∀ k, k ≠ p → u.part k = s.part k) ∧
      ∀ n, Tab.get none (u.part p).taps n = if n = f.tapid then none else Tab.get none (s.part p).taps n) ∧
  (∀ q f x ctx p hd cap ps zs s, s.mayRun q (.tapSet f) x ctx p → p < s.parts.length → f.disarm = false →
    s.translate ⟨ctx, p, none⟩ .write f.dest 64 = .ok hd → plainPieces s hd → (∀ y ∈ hd, s.badUnit y.loc y.len = none) →
    cap = leAt (hd.flatMap (fun y => s.mem.loc.load y.loc y.len)) 0 4 → 0 < cap → cap ≤ 2 ^ 20 →
    s.translate ⟨ctx, p, none⟩ .write f.dest (64 + 64 * cap) = .ok ps → (∀ y ∈ ps, mapRow y.loc ≠ .recvWin) →
    s.translate ⟨ctx, p, none⟩ .write (f.dest + 4) 8 = .ok zs → plainPieces s zs → (∀ y ∈ zs, s.badPartial y.loc y.len = none) →
    ∃ u, exec (.tapSet q f) s = .next (u.completeOk q .ok) ∧ sameQueues s u ∧ (∀ k, k ≠ p → u.part k = s.part k) ∧
      Tab.get none (u.part p).taps f.tapid = some ⟨cap, ps.map (fun y => (y.pa, y.len))⟩ ∧
      (∀ n, n ≠ f.tapid → Tab.get none (u.part p).taps n = Tab.get none (s.part p).taps n) ∧
      (∀ y ∈ ps.head?, Tab.get (0, 0) (u.part p).tapCnt y.pa = (0, 0)) ∧
      u.mem.loc = storePieces zs (List.replicate 8 0) s.mem.loc) ∧
  (∀ q f x ctx p s, s.mayRun q (.rake f) x ctx p →
    (s.obs.rake = none → ∃ t, exec (.rake q f) s = .next t ∧ t = { s with queues := t.queues, obs := { s.obs with rake := some q } } ∧
      (∀ k, k ≠ q → t.queue k = s.queue k) ∧ t.queue q = { s.queue q with running := some { x with started := true } }) ∧
    (∀ k, s.obs.rake = some k → exec (.rake q f) s = .next s)) ∧
  (∀ q f x p u s, (s.queue q).running = some x → x.cmd.body = .rake f → x.started = true → x.ending = none →
    s.partOfCtx (s.ctxOf q x.cmd.word1) = some p → s.obs.rake = some q →
    s.cmdWrite q (s.ctxOf q x.cmd.word1) p f.dest (s.rakeBytes (min 200 (f.bytes / 4096 - 1))) = (.done (), u) →
    exec (.rakeDone q) s = .next (({ u with obs := { u.obs with rake := none } } : State).completeOk q
      (if f.bytes < 823296 then .range else .ok)))

/-- A list command whose entries' data is here applies them in list order and completes with the worst status and the index
of the first entry that had it; KV_FORK completes with the status of its one fork (R215, R218, R377).
What one entry of KV_APPEND, KV_FORK, KV_RELEASE or KV_PRUNE leaves: a failed append, fork or release leaves the
state as it was, but for the error log when it fails with DATA; an append of tokens lengthens its sequence and opens a FREE one at W; a fork gives its child the
parent's geometry and the length P and leaves the parent's length; a release makes a LIVE sequence RELEASING; a prune
leaves the length and evicts no fewer pages than before. No entry changes another sequence (R216, R218, R219, R229). -/
def Obligations.KvCommandsApplyTheirEntries : Prop :=
  (let lists := fun (c : Instr) (q p size res base n : Nat) (ctx : Nat) (f : State → List Byte → Status × State) (s : State) =>
    ∀ u, s.prefetch (.cmd q) p (s.listPieces ctx p size base n) = (true, u) →
      ∃ v st first, exec c s = .next ((v.dropFetched (.cmd q)).complete q st first) ∧
        State.listRun q ctx p size res f n 0 base u ⟨.ok, 0xFFFF⟩ = (v, ⟨st, first⟩) ∧
        (st = .ok → first = 0xFFFF) ∧ (st ≠ .ok → first < n)
  let byNumber := fun (g : State → Nat → Status × State) (s : State) (bs : List Byte) => match entrySeq bs with
    | none => (Status.denied, s)
    | some n => g s n
  (∀ q f x ctx p s, s.mayRun q (.kvAppend f) x ctx p →
    lists (.kvAppend q f) q p 16 15 f.list f.count ctx (fun s bs => s.appendEntry q p (AppendEntry.parse bs)) s) ∧
  (∀ q f x ctx p s, s.mayRun q (.kvRelease f) x ctx p →
    lists (.kvRelease q f) q p 4 3 f.list f.count ctx (byNumber (fun s n => s.releaseEntry p n)) s) ∧
  (∀ q f x ctx p s, s.mayRun q (.kvPrune f) x ctx p →
    ((∀ a ∈ s.queuedActs, s.ownsSeq p a.seq = false) →
      lists (.kvPrune q f) q p 4 3 f.list f.count ctx (byNumber (fun s n => s.pruneEntry q p n f)) s) ∧
    ((∃ a ∈ s.queuedActs, s.ownsSeq p a.seq = true) → exec (.kvPrune q f) s = .next s)) ∧
  (∀ q f x ctx p s, s.mayRun q (.kvFork f) x ctx p →
    (s.rowsQueued f.parent = false → s.rowsQueued f.child = false →
      let z := s.fork q p f.parent f.child f.p f.protect
      exec (.kvFork q f) s = .next (z.2.completeOk q z.1)) ∧
    (s.rowsQueued f.parent = true ∨ s.rowsQueued f.child = true → exec (.kvFork q f) s = .next s))) ∧
  ((∀ (q p : Nat) (e : AppendEntry) (s : State), let x := s.seq e.seq
    ((e.bad = true ∨ s.ownsSeq p e.seq = false) → s.appendEntry q p e = (.denied, s)) ∧
    (e.bad = false → s.ownsSeq p e.seq = true → e.n ≤ 2 ^ 20 →
      (e.open_ = true ∧ x.st ≠ .free ∨ e.open_ = false ∧ (x.st ≠ .live ∨ x.closed = true ∧ 0 < e.n)) → s.appendEntry q p e = (.state, s)) ∧
    ∀ st t, s.appendEntry q p e = (st, t) → (st ≠ .ok → t.kv = s.kv ∧ t.mem.loc = s.mem.loc ∧ (st ≠ .data → t = s)) ∧ (∀ k, k ≠ e.seq → t.seq k = s.seq k) ∧
      (st = .ok → e.open_ = false → (t.seq e.seq).length = x.length + e.n ∧ (t.seq e.seq).closed = (x.closed || e.close) ∧
        (t.seq e.seq).st = .live ∧ (t.seq e.seq).pos0 = x.pos0 ∧ (t.seq e.seq).scores = x.scores) ∧
      (st = .ok → e.open_ = true → (t.seq e.seq).length = e.w + e.n ∧ (t.seq e.seq).pos0 = e.w ∧ (t.seq e.seq).closed = e.close ∧
        (t.seq e.seq).st = .live ∧ (t.seq e.seq).part = p ∧ (t.seq e.seq).scores = [] ∧
        (t.seq e.seq).geom = Tab.get 0 s.kv.geomA (16 * p + e.gidx))) ∧
  (∀ (q p parent child at_ : Nat) (protect : Bool) (s : State), let x := s.seq parent
    ((s.ownsSeq p parent = false ∨ s.ownsSeq p child = false) → s.fork q p parent child at_ protect = (.denied, s)) ∧
    (s.ownsSeq p parent = true → s.ownsSeq p child = true →
      (x.st ≠ .live ∨ at_ < x.pos0 ∨ x.length < at_ ∨ (s.seq child).st ≠ .free) → s.fork q p parent child at_ protect = (.state, s)) ∧
    ∀ st t, s.fork q p parent child at_ protect = (st, t) → (st ≠ .ok → t.kv = s.kv ∧ t.mem.loc = s.mem.loc ∧ (st ≠ .data → t = s)) ∧
      (∀ k, k ≠ parent → k ≠ child → t.seq k = s.seq k) ∧
      (st = .ok → (t.seq child).length = at_ ∧ (t.seq child).st = .live ∧ (t.seq child).geom = x.geom ∧ (t.seq child).pos0 = x.pos0 ∧
        (t.seq child).part = p ∧ (t.seq parent).length = x.length ∧ (t.seq parent).st = .live ∧ (t.seq parent).scores = x.scores)) ∧
  (∀ (p n : Nat) (s : State), let x := s.seq n
    (s.ownsSeq p n = false → s.releaseEntry p n = (.denied, s)) ∧
    (s.ownsSeq p n = true → x.st ≠ .live → s.releaseEntry p n = (.state, s)) ∧
    (s.ownsSeq p n = true → x.st = .live → ∃ t, s.releaseEntry p n = (.ok, t) ∧ t.seq n = { x with st := .releasing } ∧
      ∀ k, k ≠ n → t.seq k = s.seq k)) ∧
  (∀ (q p n : Nat) (f : KvPruneF) (s : State), let x := s.seq n
    (s.ownsSeq p n = false → s.pruneEntry q p n f = (.denied, s)) ∧
    (s.ownsSeq p n = true → x.st ≠ .live → s.pruneEntry q p n f = (.state, s)) ∧
    ∀ st t, s.pruneEntry q p n f = (st, t) → (t.seq n).length = x.length ∧ (t.seq n).st = x.st ∧ x.evicted ≤ (t.seq n).evicted ∧
      ∀ k, k ≠ n → t.seq k = s.seq k))

/-- WGT_BUILD takes a FREE entry, and with its source checked keeps the plan of its loads, or waits for the compression
pass; WGT_BUILD_DONE ends that pass, ends a loaded
build with its generation READY, one whose load failed with its entry FREE. WGT_SWITCH makes a READY generation current
and the one that was current READY; WGT_RETIRE frees a READY generation without batches and drains one with batches; each
completes with STATE where the states of the generations do not let it (R312 to R314). -/
def Obligations.WeightCommandsMoveGenerations : Prop :=
  (∀ q f x ctx p bs b x2 (u v w s : State), s.mayRun q (.wgtBuild f) x ctx p → s.cmdRead q ctx p .read f.pblk 64 = (.done bs, u) →
    (pblkCheck f bs ≠ .ok → exec (.wgtBuild q f) s = .next ((u.dropFetched (.cmd q)).completeOk q (pblkCheck f bs))) ∧
    (∀ e, pblkCheck f bs = .ok → u.takeEntry q ctx p f bs = .error e →
      exec (.wgtBuild q f) s = .next ((u.dropFetched (.cmd q)).completeOk q e)) ∧
    (pblkCheck f bs = .ok → u.takeEntry q ctx p f bs = .ok (b, v) → f.compress = false →
      (v.gen p b.entry).st = .building ∧ (v.gen p b.entry).gen = leAt bs 0 2 ∧ (u.gen p b.entry).st = .free ∧ b ∈ v.wgt.builds ∧
      ((v.modRunning q (fun y => { y with started := true })).planBuild b = (.ok x2, w) →
        exec (.wgtBuild q f) s = .next (w.setBuild { b with plan := some x2 }))) ∧
    (∀ y, pblkCheck f bs = .ok → u.takeEntry q ctx p f bs = .ok (b, v) → f.compress = true →
      ((v.modRunning q (fun y => { y with started := true })).packCheck b = (.ok y, w) → exec (.wgtBuild q f) s = .next w) ∧
      (∀ e, (v.modRunning q (fun y => { y with started := true })).packCheck b = (.error (some e), w) →
        exec (.wgtBuild q f) s = .next (w.endBuild b e false)))) ∧
  (∀ q b (u s : State), s.inReset = false → s.buildOf q = some b → b.packed = false →
    (s.packRun b = (.ok (), u) → b.f.nogen = false → exec (.wgtBuildDone q) s = .next (State.buildSteps q 2 (u.setBuild { b with packed := true }))) ∧
    (∀ e, s.packRun b = (.error (some e), u) → ∃ t, exec (.wgtBuildDone q) s = .next t ∧ t = u.endBuild b e false ∧
      (t.gen b.part b.entry).st = .free ∧ t.buildOf q = none)) ∧
  (∀ q b x (u s : State), s.inReset = false → s.buildOf q = some b → b.packed = true → b.plan = some x →
    (s.loadBuild b x = (.ok (), u) → ∃ t, exec (.wgtBuildDone q) s = .next t ∧ t = u.endBuild b .ok true ∧
      (t.gen b.part b.entry).st = .ready ∧ (t.gen b.part b.entry).tReady = u.now ∧ t.buildOf q = none) ∧
    (∀ e, s.loadBuild b x = (.error (some e), u) → ∃ t, exec (.wgtBuildDone q) s = .next t ∧ t = u.endBuild b e false ∧
      (t.gen b.part b.entry).st = .free ∧ t.buildOf q = none)) ∧
  (∀ q gen x ctx p s, s.mayRun q (.wgtSwitch gen) x ctx p →
    (∀ e, s.entryOf p gen = some e → (∀ k, k < 8 → (s.gen p k).st ≠ .building) → (s.gen p e).st = .ready →
      ∃ u : State, exec (.wgtSwitch q gen) s = .next (u.completeOk q .ok) ∧ u = { s with wgt := { s.wgt with gens := u.wgt.gens } } ∧
        u.gen p e = { s.gen p e with st := .current } ∧
        (∀ k, k < 8 → k ≠ e → u.gen p k = if (s.gen p k).st = .current then { s.gen p k with st := .ready } else s.gen p k) ∧
        ∀ p2 k, k < 8 → p2 ≠ p → u.gen p2 k = s.gen p2 k) ∧
    (∀ e, s.entryOf p gen = some e → (∀ k, k < 8 → (s.gen p k).st ≠ .building) → (s.gen p e).st = .current →
      exec (.wgtSwitch q gen) s = .next (s.completeOk q .ok)) ∧
    ((s.entryOf p gen = none ∨ (∃ k, k < 8 ∧ (s.gen p k).st = .building) ∨
      ∃ e, s.entryOf p gen = some e ∧ (s.gen p e).st = .draining) → exec (.wgtSwitch q gen) s = .next (s.completeOk q .state))) ∧
  (∀ q gen x ctx p s, s.mayRun q (.wgtRetire gen) x ctx p →
    (∀ e, s.entryOf p gen = some e → (s.gen p e).st = .ready →
      ∃ u : State, exec (.wgtRetire q gen) s = .next (u.completeOk q .ok) ∧
        (u.gen p e = if (s.gen p e).refs = 0 then .free else { s.gen p e with st := .draining }) ∧
        (∀ p2 k, k < 8 → (p2 ≠ p ∨ k ≠ e) → u.gen p2 k = s.gen p2 k) ∧ sameQueues s u ∧ u.mem = s.mem ∧ u.parts = s.parts) ∧
    (∀ e, s.entryOf p gen = some e → (s.gen p e).st = .draining → exec (.wgtRetire q gen) s = .next (s.completeOk q .ok)) ∧
    ((s.entryOf p gen = none ∨ ∃ e, s.entryOf p gen = some e ∧ ((s.gen p e).st = .current ∨ (s.gen p e).st = .building)) →
      exec (.wgtRetire q gen) s = .next (s.completeOk q .state)))

/-- LAUNCH whose image and arguments are read and whose batch was bound at its dispatch starts every region of its partition
at instruction 0 of the image with the registers of Table 05-2, its counters of the LAUNCH at zero and its loops and waits
empty; an image that fails its validation completes it with that status, measured with the ESTIMATE of its header, and a
batch that found no generation with STATE (R316, R317, R412);
LAUNCH_COMPLETE ends it once every region has ended: the regions stop, the partition runs no LAUNCH, and the completion
carries the worst of the regions' statuses (R141 to R144, R172, R176). -/
def Obligations.LaunchStartsAndCompletes : Prop :=
  (∀ q f x ctx p im est args gen (a b c s : State), s.mayRun q (.launch f) x ctx p → x.gen = some gen → p < s.parts.length →
    s.launchReady q ctx p f = (true, a) → a.readImage q ctx p f.prog f.train = (.ok im, est, b) →
    b.readArgs q ctx p f.args = (.ok args, c) →
    let d := c.dropFetched (.cmd q)
    d.parts.length = s.parts.length → d.regions.length = s.regions.length →
    ∃ t l, exec (.launch q f) s = .next t ∧ (t.part p).launch = some l ∧ l.queue = q ∧ l.ctx = ctx ∧ l.batch = f.batch ∧ l.gen = gen ∧
      l.epoch = f.epoch ∧ l.cancelled = none ∧ (t.part p).counters = [] ∧ (t.part p).dropped = 0 ∧
      ∀ r ∈ d.regionsOf p, r < d.regions.length → (d.region r).stores.length = 2 → (d.region r).cur < 2 →
        let y := t.region r
        y.running = true ∧ y.stopped = false ∧ y.pc = 0 ∧ y.store = im.store ∧ y.loops = [] ∧ y.issued = [] ∧ y.wait = none ∧
        y.rbars = [] ∧ y.places = 0 ∧ y.taps = 0 ∧ y.blocks = (d.region r).blocks.map Block.startCommand ∧
        y.reg 0 = 0 ∧ y.reg 1 = BitVec.ofNat 64 (d.regionIndex p r) ∧ y.reg 2 = BitVec.ofNat 64 (d.regionsOf p).length ∧
        y.reg 3 = BitVec.ofNat 64 f.batch ∧ y.reg 4 = BitVec.ofNat 64 gen ∧ y.reg 5 = BitVec.ofNat 64 p ∧ y.reg 6 = BitVec.ofNat 64 d.modid ∧
        y.reg 7 = BitVec.ofNat 64 ((if f.blast then 1 else 0) + (if f.train then 2 else 0) + (if d.cmdIrq q then 128 else 0)
          + (if (d.partRec p).det then 256 else 0) + (if d.inCloche p then 512 else 0)) ∧
        (∀ n, n < 16 → y.reg (16 + n) = args.getD n 0) ∧ ∀ n, (8 ≤ n ∧ n < 16 ∨ 32 ≤ n) → y.reg n = 0) ∧
  (∀ q f x ctx p im est args (a b c s : State), s.mayRun q (.launch f) x ctx p → s.launchReady q ctx p f = (true, a) →
    a.readImage q ctx p f.prog f.train = (im, est, b) → b.readArgs q ctx p f.args = (.ok args, c) →
    let d := c.dropFetched (.cmd q)
    let ends := fun (st : Status) => ((d.launchOver q f).modRunning q
      (fun y => { y with started := true, status := y.status.worst st, first := 0xFFFF })).endCmdAt q d.now est
    (∀ e, im = .error e → x.gen.isSome = true → exec (.launch q f) s = .next (ends e)) ∧
    (∀ i, im = .ok i → x.gen = none → exec (.launch q f) s = .next (ends .state))) ∧
  (∀ p l (s : State), s.inReset = false → (s.part p).launch = some l → p < s.parts.length → s.launchDone p = true →
    ∃ t, exec (.launchComplete p) s = .next t ∧ (t.part p).launch = none ∧ (t.part p).counters = [] ∧
      (∀ r ∈ s.regionsOf p, r < s.regions.length → (t.region r).running = false ∧ (t.region r).wait = none ∧ (t.region r).skip = false ∧
        (t.region r).fail = (s.region r).fail ∧ sameSram (s.region r) (t.region r)) ∧
      ∀ y, (s.queue l.queue).running = some y → y.owed = 0 → (s.queue l.queue).state ≠ .complBlocked →
        (t.queue l.queue).running = none ∧
        ∃ w rest, (t.queue l.queue).inflight = (s.queue l.queue).inflight ++ w :: rest ∧
          leAt w.bytes 4 1 = (y.status.worst ((s.regionsOf p).foldl (fun w r => w.worst (s.region r).fail)
            (l.cancelled.getD .ok))).code)

/-! Queue registers, the fetcher and completion writes. -/

/-- FE_Q_RING and FE_Q_CRING take a listed value while their queue is DISABLED and are discarded with event 0x21 in any
other state; FE_Q_CHEAD takes a value that goes no further than CTAIL; DOORBELL sets the tail, makes an IDLE queue ACTIVE
and starts the fetcher towards it, on a DISABLED queue only leaves event 0x30, and is recorded in the other states (R373,
R380, R384, R392, R400).
A command-ring read that returns puts the 64 bytes of its record behind those fetched and moves the fetch index; one
that fails blocks the queue. An acknowledged completion write is in the ring at CTAIL with its PHASE, moves CTAIL and HEAD
on, and turns PHASE at the ring's end; a failed one moves every write in flight into the shadow (R374, R381, R388, R395,
R396). -/
def Obligations.QueueRegistersAndRingsMove : Prop :=
  ((∀ rq q (v : Word) (s : State), q < 516 → s.mayWrite rq (qOff q 0x00) →
    let n := bits v.toNat 5 1
    ((s.queue q).state = .disabled → 4 ≤ n → n ≤ 16 → (bit v.toNat 0 = true → bits v.toNat 63 48 = 0) →
      exec (.feQRing rq q v) s = .next (s.setQueue q { s.queue q with ring := ⟨bit v.toNat 0, n, v.toNat / 4096 * 4096⟩ })) ∧
    ((s.queue q).state = .disabled → ((s.queue q).ring.put v.toNat).2 = false →
      exec (.feQRing rq q v) s = .next ((s.setQueue q { s.queue q with ring := ((s.queue q).ring.put v.toNat).1 }).discard 0x20 (qOff q 0x00))) ∧
    ((s.queue q).state ≠ .disabled → exec (.feQRing rq q v) s = .next (s.discard 0x21 (qOff q 0x00)))) ∧
  (∀ rq q (v : Word) (s : State), q < 516 → s.mayWrite rq (qOff q 0x08) →
    let n := bits v.toNat 5 1
    ((s.queue q).state = .disabled → 4 ≤ n → n ≤ 16 → (bit v.toNat 0 = true → bits v.toNat 63 48 = 0) →
      exec (.feQCring rq q v) s = .next (s.setQueue q { s.queue q with cring := ⟨bit v.toNat 0, n, v.toNat / 4096 * 4096⟩ })) ∧
    ((s.queue q).state = .disabled → ((s.queue q).cring.put v.toNat).2 = false →
      exec (.feQCring rq q v) s = .next ((s.setQueue q { s.queue q with cring := ((s.queue q).cring.put v.toNat).1 }).discard 0x20 (qOff q 0x08))) ∧
    ((s.queue q).state ≠ .disabled → exec (.feQCring rq q v) s = .next (s.discard 0x21 (qOff q 0x08)))) ∧
  (∀ rq q (v : Word) (s : State), q < 516 → s.mayWrite rq (qOff q 0x18) →
    let x := s.queue q
    let n := x.cring.size
    let c := v.toNat % 2 ^ 16
    (c < n → (c + n - x.chead) % n ≤ (x.ctail + n - x.chead) % n →
      ∃ t, exec (.feQChead rq q v) s = .next t ∧ (t.queue q).chead = c ∧ (t.queue q).ctail = x.ctail ∧ (t.queue q).head = x.head ∧
        (∀ k, k ≠ q → t.queue k = s.queue k) ∧ sameBeyondQueues s t) ∧
    ((n ≤ c ∨ (x.ctail + n - x.chead) % n < (c + n - x.chead) % n) →
      exec (.feQChead rq q v) s = .next (s.discard 0x20 (qOff q 0x18)))) ∧
  (∀ rq q tail stores (s : State), q < 516 → s.mayWrite rq (qOff q 0x10) →
    let x := s.queue q
    let h := s.hostStores stores
    (x.ring.size ≤ tail → exec (.doorbell rq q tail stores) s = .next (h.discard 0x20 (qOff q 0x10))) ∧
    (tail < x.ring.size → x.state = .disabled → exec (.doorbell rq q tail stores) s = .next (h.feEvent 0x30 q)) ∧
    (tail < x.ring.size → x.state = .idle → x.pass = none → x.fidx ≠ tail →
      ∃ t, exec (.doorbell rq q tail stores) s = .next t ∧ (t.queue q).tail = tail ∧ (t.queue q).state = .active ∧
        (t.queue q).pass = some tail ∧ (t.queue q).fetched = x.fetched ∧ t.mem = h.mem ∧ (∀ k, k ≠ q → t.queue k = s.queue k)) ∧
    (tail < x.ring.size → (x.state = .active ∨ x.state = .held) →
      ∃ t, exec (.doorbell rq q tail stores) s = .next t ∧ (t.queue q).tail = tail ∧ (t.queue q).fetched = x.fetched ∧ t.mem = h.mem ∧
        ∀ k, k ≠ q → t.queue k = s.queue k) ∧
    (tail < x.ring.size → (x.state = .complBlocked ∨ x.state = .fetchBlocked ∨ x.state = .aborting ∨ x.state = .stopped) →
      exec (.doorbell rq q tail stores) s = .next ((if h.pwr.wakedb then h.wakeUp else h).setQueue q { x with tail := tail, rung := true })))) ∧
  ((∀ q good (s : State), s.inReset = false → (s.queue q).mayFetch = true →
    let x := s.queue q
    let a := x.ring.base + 64 * x.fidx
    let held := if x.ring.loc then s.heldLocal a 64 else []
    let ok := good = true ∧ (x.ring.loc = true → s.badUnit a 64 = none) ∧ s.ringOk q x.ring a 64 = true
    (held ≠ [] → exec (.ringFetch q good) s = .next (s.snoopLines held)) ∧
    (held = [] → ok → x.state ≠ .aborting → ∃ t, exec (.ringFetch q good) s = .next t ∧ (t.queue q).fetched = x.fetched ++ [s.ringRead x.ring a 64] ∧
      (t.queue q).fidx = (x.fidx + 1) % x.ring.size ∧ t.mem = s.mem ∧ (∀ k, k ≠ q → t.queue k = s.queue k) ∧ sameBeyondQueues s t) ∧
    (held = [] → ¬ ok → ∃ t, exec (.ringFetch q good) s = .next t ∧
      t.queue q = { x with state := .fetchBlocked, fprior := x.state, tReady := none, granted := x.granted && x.running.isSome } ∧
      (∀ k, k ≠ q → t.queue k = s.queue k) ∧ sameBeyondQueues s t)) ∧
  (∀ q w rest (s : State), s.inReset = false → (s.queue q).inflight = w :: rest →
    let x := s.queue q
    let a := x.cring.base + 32 * x.ctail
    (if x.cring.loc then s.heldLocal a 32 else []) = [] →
    (s.complOk q = false → exec (.completionWriteAck q) s = exec (.completionWriteFailed q) s) ∧
    (s.complOk q = true → x.state ≠ .aborting →
    let bs := w.bytes.set 5 (w.bytes.getD 5 0 ||| (if x.phase then 1 else 0))
    ∃ t, exec (.completionWriteAck q) s = .next t ∧ (t.queue q).inflight = rest ∧ (t.queue q).shadow = x.shadow ∧
      (t.queue q).ctail = (x.ctail + 1) % x.cring.size ∧ (t.queue q).head = (x.head + 1) % x.ring.size ∧
      ((t.queue q).phase = if (x.ctail + 1) % x.cring.size = 0 then !x.phase else x.phase) ∧
      (x.cring.loc = true → t.mem.loc = s.mem.loc.store a bs ∧ t.mem.host = s.mem.host) ∧
      (x.cring.loc = false → t.mem.host = s.mem.host.store (a % 2 ^ 47) bs ∧ t.mem.loc = s.mem.loc) ∧
      ∀ k, k ≠ q → t.queue k = s.queue k)) ∧
  (∀ q (s : State), (s.queue q).inflight ≠ [] →
    let x := s.queue q
    ∃ t, exec (.completionWriteFailed q) s = .next t ∧ (t.queue q).state = .complBlocked ∧ (t.queue q).inflight = [] ∧
      (t.queue q).shadow = x.shadow ++ x.inflight ∧ (t.queue q).prior = x.state.heldBy (x.inflight.any (·.state)) ∧
      (t.queue q).ctail = x.ctail ∧ (t.queue q).head = x.head ∧
      (∀ k, k ≠ q → t.queue k = s.queue k) ∧ sameBeyondQueues s t))

/-- The actions of FE_Q_CTRL: ENABLE makes a DISABLED queue IDLE and starts a STOPPED one again at HEAD; DISABLE, SKIP, ABORT,
RESUME and ZERO act in the states of Table 13-5; in any other state each leaves its event and nothing else (R392 to
R397). -/
def Obligations.QueueActionsFollowTheStates : Prop :=
  ∀ rq q (s : State), q < 516 → s.mayWrite rq (qOff q 0x20) →
    let x := s.queue q
    let goesTo := fun (i : Instr) (ok : State → Queue → Prop) => ∃ t, exec i s = .next t ∧ ok t (t.queue q) ∧ ∀ k, k ≠ q → t.queue k = s.queue k
    (∀ good, s.enableOk q = true → x.shadow = [] →
      (x.state = .disabled → exec (.queueEnable rq q good) s =
        .next (s.setQueue q { x with state := .idle, fidx := x.nextIndex, seqNext := none, enable := true })) ∧
      (x.state = .stopped → x.running = none → goesTo (.queueEnable rq q good) (fun _ y => y.state = (if x.nextIndex = x.tail then .idle else .active) ∧
        y.fidx = x.nextIndex ∧ y.fetched = [] ∧ y.seqNext = none ∧ y.enable = true))) ∧
    (s.enableOk q = true → x.shadow ≠ [] → (x.state = .disabled ∨ x.state = .stopped) →
      goesTo (.queueEnable rq q 0) (fun _ y => y.state = .complBlocked ∧ y.shadow = x.shadow)) ∧
    (∀ good, (s.enableOk q = false ∨ (x.state ≠ .disabled ∧ x.state ≠ .stopped)) →
      exec (.queueEnable rq q good) s = .next (s.feEvent 0x32 q)) ∧
    ((x.state = .idle ∨ x.state = .stopped) →
      exec (.queueDisable rq q) s = .next (s.setQueue q { x with state := .disabled, enable := false })) ∧
    (x.state ≠ .idle → x.state ≠ .stopped → exec (.queueDisable rq q) s = .next (s.feEvent 0x32 q)) ∧
    (x.state = .held → goesTo (.skip rq q) (fun _ y => (y.state = .active ∨ y.state = .idle) ∧ y.head = x.head ∧ y.fetched = x.fetched)) ∧
    (x.state ≠ .held → exec (.skip rq q) s = .next (s.feEvent 0x31 q)) ∧
    ((x.state = .idle ∨ x.state = .active ∨ x.state = .held ∨ x.state = .stopped ∧ x.shadow = []) → ∃ t, exec (.abort rq q) s = .next t ∧
      ((t.queue q).running = none → ∀ u ∈ t.slots, u.sel ≠ some q) ∧
      ((t.queue q).state = .aborting ∧ (t.queue q).abortTail = some x.tail ∨
        ((t.queue q).state = .idle ∨ (t.queue q).state = .active) ∧ (t.queue q).abortTail = none) ∧
      ∀ y, (t.queue q).running = some y → y.ending.isSome = true ∨ ∃ f, y.cmd.body = .launch f) ∧
    ((x.state = .disabled ∨ x.state = .complBlocked ∨ x.state = .fetchBlocked ∨ x.state = .aborting) →
      exec (.abort rq q) s = .next (s.feEvent 0x31 q)) ∧
    (∀ good, (x.state = .fetchBlocked ∧ x.fprior = .active ∨ x.state = .complBlocked ∧ x.prior = .active ∧ x.shadow = []) →
      goesTo (.resume rq q good) (fun t y => (y.state = .active ∨ y.state = .idle) ∧ y.fetched = x.fetched ∧ t.mem = s.mem)) ∧
    (∀ good, x.state = .complBlocked → (x.prior = .fetchBlocked ∨ x.prior = .held) → x.shadow = [] →
      goesTo (.resume rq q good) (fun t y => y.state = x.prior ∧ t.mem = s.mem)) ∧
    (∀ w, x.prior = .active → x.state = .complBlocked → x.shadow = [w] → s.complOk q = true →
      goesTo (.resume rq q 1) (fun _ y => (y.state = .active ∨ y.state = .idle) ∧ y.shadow = [] ∧ y.ctail = (x.ctail + 1) % x.cring.size ∧
        y.head = (x.head + 1) % x.ring.size)) ∧
    (∀ good, x.state ≠ .complBlocked → x.state ≠ .fetchBlocked → exec (.resume rq q good) s = .next (s.feEvent 0x31 q)) ∧
    (x.state = .disabled → goesTo (.zero rq q) (fun _ y => y.state = .disabled ∧ y.head = 0 ∧ y.tail = 0 ∧ y.fidx = 0 ∧ y.ctail = 0 ∧
      y.phase = true ∧ y.shadow = [] ∧ y.fetched = [] ∧ y.chead = x.chead ∧ y.ring = x.ring ∧ y.cring = x.cring)) ∧
    (x.state ≠ .disabled → exec (.zero rq q) s = .next (s.feEvent 0x31 q))

/-! Slots, dispatch and epochs. -/

/-- SLOT_SELECT puts into a free slot in use the eligible queue with the earliest deadline, of equals the lowest number;
COMMAND_DISPATCH makes a selected queue's oldest record its running command, and binds a LAUNCH's batch (R316, R409); a
tuning command that is barred gives up its slot (R325), and an error in hub SRAM is corrected, or begins a device reset
when no good copy is left (R503); REGION_GRANT gives a partition's regions to
one waiting LAUNCH; SLOT_QMAP and SLOT_EPOCH_CMD writes take their values under R406 and R417 (R404, R408 to R410). -/
def Obligations.SlotsSelectDispatchAndGrant : Prop :=
  (∀ i (s : State), i < 32 → i < s.slots.length → (s.slot i).en = true → (s.slot i).sel = none → s.inReset = false →
    (s.eligible i = [] → exec (.slotSelect i) s = .next s) ∧
    (s.eligible i ≠ [] → ∃ q ∈ s.eligible i, exec (.slotSelect i) s = .next (s.setSlot i { s.slot i with sel := some q, tSel := s.now }) ∧
      ∀ k ∈ s.eligible i, (s.queue q).deadline < (s.queue k).deadline ∨ (s.queue q).deadline = (s.queue k).deadline ∧ q ≤ k)) ∧
  (∀ q bs rest (s : State), (s.queue q).fetched = bs :: rest → s.selected q = true → s.inReset = false → s.pwr.ow = .serving →
    (∀ p, s.headPart q = some p → s.dispatchHeld p = false) → (s.queue q).inflight.length < 8 →
    (∀ hub, s.tuneBarred q = true →
      exec (.commandDispatch q hub) s = .next ((s.setQueue q { s.queue q with granted := false }).freeSlot q)) ∧
    (∀ hub, s.tuneBarred q = false → s.accepts q bs = false → exec (.commandDispatch q hub) s = .next s) ∧
    (s.tuneBarred q = false → s.accepts q bs = true →
      (∃ t y, exec (.commandDispatch q none) s = .next t ∧ (t.queue q).running = some y ∧ y.cmd = recCmd bs ∧ y.started = false ∧ y.status = .ok ∧
        y.tDisp = s.now ∧ y.owed = 0 ∧ (t.queue q).fetched = rest ∧ (t.queue q).staged = false ∧
        (t.queue q).seqNext = some ((recSeq bs + 1) % 2 ^ 32) ∧ (t.queue q).state = (s.queue q).state ∧
        (∀ k, k ≠ q → t.queue k = s.queue k) ∧
        ((∀ f, (recCmd bs).body ≠ .launch f) → t = { s with queues := t.queues, slots := t.slots }) ∧
        (∀ f p, (recCmd bs).body = .launch f → s.headPart q = some p → queueAccepts q (recOpcode bs) = true → y.gen = (s.bind q p f).1)) ∧
      (∀ u, exec (.commandDispatch q (some (.lost u))) s = .next (s.hubFound (.lost u))) ∧
      (∀ h, (∀ u, h ≠ .lost u) → exec (.commandDispatch q (some h)) s = .next (((s.hubFound h).take q bs).bindRun q)))) ∧
  (∀ p (s : State), (s.part p).launch = none → s.grantOut p = false → s.inReset = false → s.regionsOf p ≠ [] →
    ((∀ q ∈ allQueues, s.waitsRegions p q = false) → exec (.regionGrant p) s = .next s) ∧
    ((∃ q ∈ allQueues, s.waitsRegions p q = true) → ∃ q, s.waitsRegions p q = true ∧
      exec (.regionGrant p) s = .next (s.setQueue q { s.queue q with granted := true }) ∧
      ((∃ k, 512 ≤ k ∧ k < 516 ∧ s.waitsRegions p k = true) → 512 ≤ q) ∧
      (q < 512 → ∀ k, k < 512 → s.waitsRegions p k = true →
        ((s.qmapOf q).tune = true → (s.qmapOf k).tune = true) ∧
        ((s.qmapOf q).tune = (s.qmapOf k).tune → (s.queue q).deadline ≤ (s.queue k).deadline)))) ∧
  (∀ rq q slot (s : State), q < 512 → s.mayWrite rq (0x61000 + 8 * q) →
    (s.slotFits q slot = true → ∃ t, exec (.slotQmapWrite rq q slot) s = .next t ∧ t = { s with qmap := t.qmap } ∧
      t.qmapOf q = { s.qmapOf q with slot := slot } ∧ ∀ k, k ≠ q → t.qmapOf k = s.qmapOf k) ∧
    (s.slotFits q slot = false → exec (.slotQmapWrite rq q slot) s = .next (s.discard 0x20 (0x61000 + 8 * q)))) ∧
  (∀ rq batch epoch part (s : State), s.mayWrite rq 0x62000 → part % 8 < s.parts.length →
    let p := part % 8
    let e := epoch % 2 ^ 16
    ∃ t, exec (.epochRaise rq batch epoch part) s = .next t ∧ t = { s with front := t.front, parts := t.parts } ∧
      t.front = { s.front with epochBatch := batch % 2 ^ 32, epochEpoch := e, epochPart := p } ∧ (∀ k, k ≠ p → t.part k = s.part k) ∧
      (∀ l, (s.part p).launch = some l → l.batch = batch % 2 ^ 32 → newer e l.epoch = true →
        t.part p = { s.part p with launch := some { l with epoch := e }, epochResult := 0 }) ∧
      (∀ l, (s.part p).launch = some l → l.batch = batch % 2 ^ 32 → newer e l.epoch = false → t.part p = { s.part p with epochResult := 2 }) ∧
      ((∀ l, (s.part p).launch = some l → l.batch ≠ batch % 2 ^ 32) → t.part p = { s.part p with epochResult := 1 }))

/-! Device reset, power and start-up. -/

/-- A device reset has begun with this cause: BUSY is set, the interrupt causes start again, and only the registers that
record it have changed (R511, R589). -/
def resetBegun (s t : State) (cause queue seq trig detail : Nat) : Prop :=
  t = { s with host := { s.host with irqStat := 0 }, rel := { s.rel with resets := { s.rel.resets with
    busy := true, cause := cause, queue := queue, seq := seq, trig := trig, detail := detail } } }

/-- Each cause begins a device reset and is recorded: an expired command watchdog with its queue and SEQ, and the triggers
of Table 18-3 with their detail; a wrong key of FE_DEVRESET is discarded (R398, R399, R501, R511).
DEVICE_RESET brings a reset that has begun to its ready point, or, when firmware ran and its image no longer holds what was
measured, to where it waits for firmware. Every queue but a DISABLED one is STOPPED with its completed records in its
shadow, or DISABLED when two resets named its record; no LAUNCH runs, no record is on its way, and the fuses and,
with no partition in Cloche, local memory, region SRAM and the sequences are kept, frames taken for a page copy that had
not ended excepted (R392, R397, R512 to R514). -/
def Obligations.DeviceResetsBeginAndComplete : Prop :=
  (∀ s : State, s.inReset = false →
    (∀ q x t, (s.queue q).running = some x → x.wdog = some t →
      (t ≤ s.now → ∃ u, exec (.watchdogExpire q) s = .next u ∧ resetBegun s u 2 q x.cmd.seq 0 0) ∧
      (s.now < t → exec (.watchdogExpire q) s = .next s)) ∧
    (∀ core, s.sec.fwok = true → ∃ u, exec (.fwWatchdogExpire core) s = .next u ∧ resetBegun s u 3 0 0 1 (core % 4096)) ∧
    (∀ code, s.sec.fwok = true → ∃ u, exec (.firmwareFatal code) s = .next u ∧ resetBegun s u 3 0 0 7 (code % 4096)) ∧
    (∀ rq (key : Word), s.mayWrite rq 0x20020 →
      (key.toNat % 65536 = 0xA5C3 → ∃ u, exec (.feDevreset rq key) s = .next u ∧ resetBegun s u 3 0 0 3 0) ∧
      (key.toNat % 65536 ≠ 0xA5C3 → exec (.feDevreset rq key) s = .next (s.discard 0x20 0x20020))) ∧
    (∀ r p l y t, s.regRun r = some (p, l) → l.cancelled.isSome = true → (s.queue l.queue).running = some y → y.waitUntil = some t →
      t ≤ s.now → (s.region r).issued ≠ [] → ∃ u, exec (.cancelStopTimeout r) s = .next u ∧ resetBegun s u 3 0 0 5 (r % 4096))) ∧
  (∀ (good : Bool) (s : State), s.inReset = true → s.rel.resets.waitFw = false → s.board.rails = true →
    ∃ t, exec (.deviceReset good) s = .next t ∧
      (if s.sec.fwok = true ∧ ¬(good = true ∧ s.imageGood = true) then t.inReset = true ∧ t.rel.resets.waitFw = true ∧ t.sec.fwok = false
        else t.inReset = false ∧ t.sec.fwok = s.sec.fwok) ∧
      t.sec.fuses = s.sec.fuses ∧ t.transit = [] ∧ t.eft.reqs = [] ∧ (∀ p, (t.part p).launch = none) ∧
      (∀ r, (t.region r).running = false ∧ (t.region r).issued = []) ∧ (∀ u ∈ t.slots, u.sel = none) ∧
      (∀ q, (s.queue q).state = .disabled → t.queue q = s.queue q) ∧
      (∀ q, (s.queue q).state ≠ .disabled → (t.queue q).running = none ∧ (t.queue q).fidx = (s.queue q).fidx ∧ (t.queue q).inflight = [] ∧
        (t.queue q).shadow = (s.queue q).shadow ++ (s.queue q).inflight ∧ (t.queue q).head = (s.queue q).head ∧
        ((t.queue q).state = .stopped ∨ (t.queue q).state = .disabled ∧ s.rel.resets.lastNamed = some (q, s.rel.resets.seq))) ∧
      ((∀ p, p < 8 → s.inCloche p = false) → t.kv = s.dropCopies.kv ∧ t.mem.loc = s.mem.loc ∧ ∀ r, sameSram (s.region r) (t.region r)))

/-- Every rail is off: registers, memory and the structure are at their Reset values; the fuses, the host's memory and the
waiting commands are kept (R510, R596). -/
def lostPower (s t : State) : Prop :=
  t.board.rails = false ∧ t.trl = .reset ∧ t.queues = [] ∧ t.regions = State.reset.regions ∧ t.parts = State.reset.parts ∧ t.kv = .reset ∧
  t.mem.loc = [] ∧ t.sec.fuses = s.sec.fuses ∧ t.sec.fwok = false ∧ t.mem.host = s.mem.host ∧ t.pending = s.pending

/-- Input power, SYS_RESET_N and the trips raise and drop the rails as R595 to R597 say; PERST_N holds the CXL port in reset
with its configuration at default, and the timebase reference only moves the timebase island (R598, R599). -/
def Obligations.PowerInputsRaiseAndDropTheRails : Prop :=
  ∀ s : State,
    (∀ mv, s.board.input = false → 44000 ≤ mv → ∃ t, exec (.powerOn mv) s = .next t ∧ t.board.input = true ∧
      (s.board.rails = false → s.board.heldOff = false → s.board.critOff = false → s.board.sysReset = false →
        t.board.rails = true ∧ t.trl.phase = 2)) ∧
    (∀ n, s.board.rails = true → s.trl.phase ≤ 2 → ∃ t, exec (.railTimeout n) s = .next t ∧ lostPower s t ∧
      t.board.railFails = s.board.railFails + 1 ∧ t.board.heldOff = (s.board.heldOff || decide (1 ≤ s.board.railFails))) ∧
    (s.board.railFails = 1 → s.board.mayRise = true → ∃ t, exec .phase0Restart s = .next t ∧ t.board.rails = true ∧ t.trl.phase = 2) ∧
    (∀ mv, mv < 40000 → s.board.input = true → ∃ t, exec (.powerLoss mv) s = .next t ∧ lostPower s t ∧ t.board.input = false ∧
      t.board.railFails = 0 ∧ t.board.heldOff = false ∧ t.board.critOff = false) ∧
    (∀ mv, 63000 < mv → s.board.input = true → ∃ t, exec (.inputOvervoltage mv) s = .next t ∧ lostPower s t ∧ t.board.heldOff = true) ∧
    (∀ n c, n < 84 → 115 ≤ c → s.board.rails = true → ∃ t, exec (.analogTrip n c) s = .next t ∧ lostPower s t ∧ t.board.critOff = true ∧
      t.pwr.critseen = true) ∧
    (∀ ns, 1000 ≤ ns → s.board.sysReset = false → ∃ t, exec (.sysResetN true ns) s = .next t ∧ lostPower s t ∧ t.board.sysReset = true) ∧
    (∀ ns, ns < 250 → exec (.sysResetN true ns) s = .next s) ∧
    (∀ ns, s.board.sysReset = true → ∃ t, exec (.sysResetN false ns) s = .next t ∧ t.board.sysReset = false ∧
      (s.board.input = true → s.board.rails = false → s.board.heldOff = false → s.board.critOff = false →
        t.board.rails = true ∧ t.trl.phase = 2)) ∧
    (s.host.perst = false → ∃ t, exec .perstNAssert s = .next t ∧ t.host.perst = true ∧ t.host.bar0 = 0 ∧ t.host.msixEn = false ∧
      t.host.fmask = false ∧ t.mem.hdm = List.replicate 8 (0, 0) ∧ (∀ p, p < 8 → (t.cloche p).st ≠ .admitted)) ∧
    exec .perstNRelease s = .next { s with host := { s.host with perst := false } } ∧
    exec .tbRefLoss s = .next { s with board := { s.board with tbLocal := true } } ∧
    exec .tbRefReturn s = .next { s with board := { s.board with tbLocal := false } }

/-- The structure that a patch leaves: its own, but that a spare port takes the share table of the link that it replaces,
which a patch of the LINKS section alone can bring about (R439). -/
def patched (t : State) (n : TStruct) (names : List (Nat × Nat)) : Prop :=
  t.trl.st = { n with shares := t.trl.st.shares } ∧ ((∀ x ∈ names, x.1 ≠ 8) → t.trl.st = n)

/-- Start-up: FW_GO judges the staged container and starts firmware; COORD gives the module its number, and answers RANGE to
reserved bits and to a payload of another length (R558); a full image that passes every check takes force and a patch
commits when its conditions hold, waiting BUSY until then and for the copy of storage that a repair moves; START begins
phase 7, and the root is LOCKED at the time given and serves (R506, R523 to R530, R565, Table 19-17). -/
def Obligations.StartupReachesServing : Prop :=
  ∀ s : State,
    (∀ rq, s.mayWrite rq fwOff →
      let b := s.sec.fwStage.load 0 s.sec.fwBytes
      (s.trl.phase ≠ 2 → s.rel.resets.waitFw = false → exec (.fwGo rq) s = .next (s.discard 0x21 fwOff)) ∧
      ((s.trl.phase = 2 ∨ s.rel.resets.waitFw = true) → s.fwJudge b ≠ 0 →
        exec (.fwGo rq) s = .next { s with sec := { s.sec with fwresult := s.fwJudge b } }) ∧
      ((s.trl.phase = 2 ∨ s.rel.resets.waitFw = true) → s.fwJudge b = 0 → ∃ t, exec (.fwGo rq) s = .next t ∧ t.sec.fwok = true ∧
        t.sec.fwresult = 0 ∧ t.sec.runSvn = leAt b 8 4 ∧ t.sec.fwdig = sha3 b ∧ t.sec.fuses = s.sec.fuses ∧
        (s.rel.resets.waitFw = false → t.trl.phase = 5 ∧ t.sec.akSvn = s.sec.fuses.svn) ∧
        (s.rel.resets.waitFw = true → t.inReset = false ∧ t.sec.akSvn = s.sec.akSvn))) ∧
    (∀ (h : MgmtHdr) modid usz vsz twin, s.hears →
      let ok := h.fits 4 = true ∧ modid < 2 ^ 15 ∧ usz < 16 ∧ vsz < 16 ∧ twin < 2
      (¬ ok → exec (.coord h modid usz vsz twin) s = .next (s.mgmtReply 0x01 h.tag .range [])) ∧
      (ok → s.trl.loaded = true → exec (.coord h modid usz vsz twin) s = .next (s.mgmtReply 0x01 h.tag .state [])) ∧
      (ok → s.trl.loaded = false → ∃ t, exec (.coord h modid usz vsz twin) s = .next t ∧
        t.eft.coord = ⟨modid, true, usz, vsz, twin == 1⟩ ∧ t.out.head? = some (.mgmt 0x01 h.tag 0 []))) ∧
    (∀ (h : MgmtHdr) time, s.hears →
      (h.fits 8 = false → exec (.start h time) s = .next (s.mgmtReply 0x02 h.tag .range [])) ∧
      (h.fits 8 = true → s.trl.phase ≠ 6 → exec (.start h time) s = .next (s.mgmtReply 0x02 h.tag .state [])) ∧
      (h.fits 8 = true → s.trl.phase = 6 → s.isRoot = true → ∃ t, exec (.start h time) s = .next t ∧ t.trl.phase = 9 ∧
        t.time.st = .locked ∧ t.time.now = time % 2 ^ 64 ∧ t.out.head? = some (.mgmt 0x02 h.tag 0 [])) ∧
      (h.fits 8 = true → s.trl.phase = 6 → s.isRoot = false → s.time.st ≠ .locked →
        exec (.start h time) s = .next (({ s with trl := { s.trl with phase := 7 } } : State).mgmtReply 0x02 h.tag .ok []))) ∧
    (∀ rq, s.mayWrite rq trlOff →
      let b := s.trl.staging.load 0 s.trl.bytes
      ((s.trl.busy.isSome = true ∨ s.trl.phase < 5) → exec (.trellisGo rq) s = .next (s.discard 0x21 trlOff)) ∧
      (s.trl.busy = none → 5 ≤ s.trl.phase →
        (∀ r sec rcd, s.judgeImage b = .error (r, sec, rcd) → ∃ t, exec (.trellisGo rq) s = .next t ∧
          t = { s with trl := { s.trl with result := r, section_ := sec, record := rcd }, host := t.host, out := t.out }) ∧
        (∀ c n, s.judgeImage b = .ok (c, n) → c.form = 0 → s.rel.failedUnits = [] → ∃ t, exec (.trellisGo rq) s = .next t ∧
          t.trl.loaded = true ∧ t.trl.st = n ∧ t.trl.tdig = sha3 b ∧ t.trl.phase = 6 ∧ t.trl.busy = none ∧ t.trl.result = 0) ∧
        (∀ c n, s.judgeImage b = .ok (c, n) → c.form ≠ 0 →
          let names := c.recs.map (fun r => (r.1, r.2.1))
          let w : Patch := ⟨n, sha3 (s.trl.tdig ++ b), s.patchHold n names, names⟩
          (s.patchDue w = false ∨ s.copiesStorage n = true →
            exec (.trellisGo rq) s = .next { s with trl := { s.trl with busy := some w } }) ∧
          (s.patchDue w = true → s.copiesStorage n = false → ∃ t, exec (.trellisGo rq) s = .next t ∧ patched t n names ∧
            t.trl.tdig = w.digest ∧ t.trl.busy = none ∧
            t.trl.result = 0 ∧ t.trl.patches = (s.trl.patches + 1) % 2 ^ 32)))) ∧
    (∀ w lost, s.trl.busy = some w → s.inReset = false →
      (s.patchDue w = false → exec (.patchCommit lost) s = .next s) ∧
      (s.patchDue w = true → ∃ t, exec (.patchCommit lost) s = .next t ∧ patched t w.next w.names ∧ t.trl.tdig = w.digest ∧ t.trl.busy = none ∧
        t.trl.result = 0 ∧ t.trl.patches = (s.trl.patches + 1) % 2 ^ 32))

/-! Security. -/

/-- CLOCHE_ENTER wipes a partition that is OFF and may enter; its scrub leaves zeros and nothing else changed; then the
partition is LOCKED, ADMITTED in an established session over Data Object Exchange, and LOCKED again when admission is lost
(R545, R546, R549, R553). -/
def Obligations.ClocheMovesThroughItsStates : Prop :=
  ∀ (p : Nat) (s : State), p < 8 → s.sec.cloche.length = 8 →
    (∀ rq, s.mayWrite rq (clocheOff p) →
      let ok := (s.partRec p).valid = true ∧ (s.partRec p).clocheOk = true ∧ s.queuesOff p = true ∧ (s.cloche p).st = .off
      (¬ ok → exec (.clocheEnter rq p) s = .next (s.discard 0x21 (clocheOff p))) ∧
      (ok → p < s.parts.length → ∃ t, exec (.clocheEnter rq p) s = .next t ∧ (t.cloche p).st = .entering ∧ (t.cloche p).scrub = true ∧
        (∀ x ∈ s.scrubSet p, x ∈ (t.cloche p).scrubSpans) ∧ (∀ n, s.ownsSeq p n = true → t.seq n = .free) ∧
        (∀ e, e < 8 → (t.gen p e).st = .free) ∧ (t.part p).fences = [] ∧
        (∀ c, s.partOfCtx c = some p → Tab.get [] t.mem.tables c = []) ∧ t.sec.fuses = s.sec.fuses)) ∧
    ((s.cloche p).scrub = true → ∃ t, exec (.scrubDone p) s = .next t ∧ (t.cloche p).scrub = false ∧
      ((t.cloche p).st = if (s.cloche p).teardown then .off else (s.cloche p).st) ∧
      (∀ a, t.mem.loc.byte a = if ∃ x ∈ (s.cloche p).scrubSpans, x.1 ≤ a ∧ a < x.1 + x.2 then 0 else s.mem.loc.byte a) ∧
      t.regions = s.regions ∧ t.parts = s.parts ∧ t.queues = s.queues ∧ ∀ k, k ≠ p → t.cloche k = s.cloche k) ∧
    ((s.cloche p).st = .entering → (s.cloche p).scrub = false → ∃ t, exec (.clocheWipeDone p) s = .next t ∧
      t.cloche p = { s.cloche p with st := .locked } ∧ t = { s with sec := t.sec, obs := t.obs } ∧ ∀ k, k ≠ p → t.cloche k = s.cloche k) ∧
    (∀ n, (s.cloche p).st = .locked → s.doeSession n = true → s.host.perst = false → s.board.rails = true →
      ∃ t, exec (.clocheAdmit p n) s = .next t ∧
        t.cloche p = { s.cloche p with st := .admitted, ide := true, tsp := true, session := some n } ∧
        t = { s with sec := t.sec, obs := t.obs } ∧ ∀ k, k ≠ p → t.cloche k = s.cloche k) ∧
    (∀ n, ((s.cloche p).st ≠ .locked ∨ s.doeSession n = false ∨ s.host.perst = true) → exec (.clocheAdmit p n) s = .next s) ∧
    (∀ ide tsp, ((s.cloche p).st = .admitted → ∃ t, exec (.admissionLost p ide tsp) s = .next t ∧
        t.cloche p = { s.cloche p with st := .locked, ide := ide, tsp := tsp, session := none } ∧
        t = { s with sec := t.sec, obs := t.obs, host := t.host, out := t.out } ∧ ∀ k, k ≠ p → t.cloche k = s.cloche k) ∧
      ((s.cloche p).st ≠ .admitted → exec (.admissionLost p ide tsp) s = .next s))

/-- The fuses that commands blow: SVNCOMMIT raises the SVN to the running one, UNLOCK blows OPENED before private modes open
while every partition is OFF in Cloche, ENROL programs an owner slot once, and REVOKE leaves at least one programmed slot
unrevoked (R535, R538, R540). -/
def Obligations.FuseCommandsBlowTheirFuses : Prop :=
  ∀ s : State,
    (∀ rq, s.mayWrite rq 0x100008 →
      (s.trl.phase ≠ 9 → exec (.svncommit rq) s = .next (s.discard 0x21 0x100008)) ∧
      (s.trl.phase = 9 → exec (.svncommit rq) s = .next
        { s with sec := { s.sec with fuses := { s.sec.fuses with svn := max s.sec.fuses.svn (min 255 s.sec.runSvn) } } })) ∧
    (∀ n, s.board.rails = true → n ≤ 2 ^ 20 →
      let ok := Config.unlockValid (s.sec.unlockStage.load 0 n) ((s.sec.fuses.vendor.filter (fun k => !k.revoked)).map (·.digest))
      ((ok = false ∨ ∃ p, p < 8 ∧ s.inCloche p = true) → exec (.unlock n) s = .next s) ∧
      (ok = true → (∀ p, p < 8 → s.inCloche p = false) → ∃ t, exec (.unlock n) s = .next t ∧ t.sec = { s.sec with
          fuses := { s.sec.fuses with opened := true, unlocks := min 255 (s.sec.fuses.unlocks + 1) }, privopen := true } ∧
        t = { s with sec := t.sec, obs := t.obs })) ∧
    (s.hears → ∀ (h : MgmtHdr) slot (d : List Byte),
      let ok := h.fits 65 = true ∧ slot < 4 ∧ d.length = 64
      (¬ ok → exec (.enrol h slot d) s = .next (s.mgmtReply 0x0A h.tag .range [])) ∧
      (ok → (s.sec.fuses.owner.getD slot .blank).programmed = true →
        exec (.enrol h slot d) s = .next (s.mgmtReply 0x0A h.tag .state [])) ∧
      (ok → (s.sec.fuses.owner.getD slot .blank).programmed = false → exec (.enrol h slot d) s = .next
        (({ s with sec := { s.sec with fuses := { s.sec.fuses with
          owner := s.sec.fuses.owner.set slot { s.sec.fuses.owner.getD slot .blank with digest := d } } } } : State).mgmtReply 0x0A h.tag .ok []))) ∧
    (s.hears → ∀ (h : MgmtHdr) (owner : Bool) slot,
      let ks := if owner then s.sec.fuses.owner else s.sec.fuses.vendor
      let n := ks.set slot { ks.getD slot .blank with revoked := true }
      let ok := h.fits 1 = true ∧ slot < ks.length
      (¬ ok → exec (.revoke h owner slot) s = .next (s.mgmtReply 0x0B h.tag .range [])) ∧
      (ok → liveSlots n = 0 → exec (.revoke h owner slot) s = .next (s.mgmtReply 0x0B h.tag .state [])) ∧
      (ok → liveSlots n ≠ 0 → exec (.revoke h owner slot) s = .next (({ s with sec := { s.sec with fuses :=
        if owner then { s.sec.fuses with owner := n } else { s.sec.fuses with vendor := n } } } : State).mgmtReply 0x0B h.tag .ok [])))

/-- The SPDM responder serves each request when the connection has reached its stage, answers error 0x04 before that and 0x02
outside a session, and changes nothing but its own state, the plot keys, and the admission of partitions whose session
ends (R542, R546, R550). -/
def Obligations.SpdmServesItsRequests : Prop :=
  ∀ s : State, s.spdmUp = true →
    let x := s.sec.spdm
    let does := fun (i : Instr) (y : Spdm) (r : SpdmResp) =>
      exec i s = .next { s with sec := { s.sec with spdm := y }, out := .spdm r :: s.out }
    let inside := fun (n : Nat) => x.sessions.any (fun y => y.id == n && y.up)
    let chain := Config.certChain s.sec.akSvn
    does .getVersion { x with stage := 1, chunkIn := none, chunkOut := none, chunkSeq := 0 } (.version [0x13]) ∧
    (1 ≤ x.stage → does .getCapabilities { x with stage := 2 } .capabilities) ∧
    (2 ≤ x.stage → does (.negotiateAlgorithms true true true true) { x with stage := 3 } .algorithms) ∧
    (∀ a b c d, 2 ≤ x.stage → (a && b && c && d) = false → does (.negotiateAlgorithms a b c d) x (.error 0x01)) ∧
    (3 ≤ x.stage → does .getDigests x (.digests (sha3 chain))) ∧
    (∀ n, 3 ≤ x.stage → x.chunkOut = none → does (.chunkGet n) x (.error 0x04)) ∧
    (∀ o n, 3 ≤ x.stage → o < chain.length → n ≤ 4096 →
      does (.getCertificate 0 o n) x (.certificate ((chain.drop o).take n) (chain.length - o - ((chain.drop o).take n).length))) ∧
    (∀ nonce, 3 ≤ x.stage → ∃ t own size, exec (.challenge 0 nonce) s = .next t ∧ own.length = 32 ∧ t.fresh = s.fresh + 4 ∧
      t.out = .spdm (.large size) :: s.out ∧ t.sec.spdm.chunkOut.isSome = true ∧ t.sec.spdm.sessions = x.sessions ∧
      t.sec.spdm.chunkOut = some (sha3 chain ++ own ++ fitTo 4627 (Config.akSign s.sec.akSvn (sha3 (nonce ++ sha3 chain ++ own))))) ∧
    (∀ k nonce b, 3 ≤ x.stage → k ≠ 0xFF → s.measurement k nonce = some b → ∃ t own, exec (.getMeasurements k nonce) s = .next t ∧
      t.fresh = s.fresh + 4 ∧ t.sec.spdm.sessions = x.sessions ∧ t.sec.spdm.chunkOut = some ((leBytes 1 k ++ b) ++ own ++
        fitTo 4627 (Config.akSign s.sec.akSvn (sha3 (nonce ++ (leBytes 1 k ++ b) ++ own))))) ∧
    (∀ doe, 3 ≤ x.stage → x.sessions.length < 4 → does (.keyExchange doe)
      { x with sessions := x.sessions ++ [⟨x.nextId, false, doe, 0⟩], nextId := x.nextId + 1 } (.keyExchange x.nextId)) ∧
    (∀ doe, 3 ≤ x.stage → 4 ≤ x.sessions.length → does (.keyExchange doe) x (.error 0x0A)) ∧
    (∀ n, 3 ≤ x.stage → x.sessions.any (fun y => y.id == n && !y.up) = true → does (.finish n true)
      { x with sessions := x.sessions.map (fun y => if y.id = n then { y with up := true } else y) } .finish) ∧
    (∀ n, 3 ≤ x.stage → inside n = true → does (.heartbeat n) x .heartbeatAck) ∧
    (∀ n, 3 ≤ x.stage → inside n = false → does (.heartbeat n) x (.error 0x02)) ∧
    (∀ n, 3 ≤ x.stage → inside n = true → does (.keyUpdate n)
      { x with sessions := x.sessions.map (fun y => if y.id = n then { y with updates := y.updates + 1 } else y) } .keyUpdateAck) ∧
    (∀ n, 3 ≤ x.stage → inside n = true → ∃ t, exec (.endSession n) s = .next t ∧
      t.sec.spdm = { x with sessions := x.sessions.filter (fun y => y.id != n) } ∧ t.out.head? = some (.spdm .endSessionAck) ∧
      ∀ p, p < 8 → (s.cloche p).session = some n → (t.cloche p).st ≠ .admitted) ∧
    (∀ k last (d : List Byte), 2 ≤ x.stage → let n := if x.chunkIn.isSome then x.chunkSeq else 0
      (k ≠ n → does (.chunkSend k last d) { x with chunkIn := none, chunkSeq := 0 } (.error 0x01)) ∧
      (k = n → last = false → does (.chunkSend k last d) { x with chunkIn := some (x.chunkIn.getD [] ++ d), chunkSeq := n + 1 } .chunkSendAck)) ∧
    (∀ bs, 2 ≤ x.stage → x.chunkOut = some bs → does (.chunkGet x.chunkSeq)
      { x with chunkOut := if bs.length ≤ 4096 then none else some (bs.drop 4096), chunkSeq := if bs.length ≤ 4096 then 0 else x.chunkSeq + 1 }
      (.chunk x.chunkSeq (decide (bs.length ≤ 4096)) (bs.take 4096))) ∧
    (∀ n plot kid (key : List Byte), 3 ≤ x.stage → inside n = true →
      let ok := s.plotSession plot = some n ∧ kid < 2 ∧ plot < 64 ∧ key.length = 32
      (¬ ok → does (.plotKey n plot kid key) x (.error 0x01)) ∧
      (ok → ∃ t, exec (.plotKey n plot kid key) s = .next t ∧ t.out = .spdm .vendor :: s.out ∧
        t.sec = { s.sec with keys := t.sec.keys, kid := t.sec.kid } ∧ Tab.get 0 t.sec.kid plot = kid ∧
        ∀ k, Tab.get none t.sec.keys k = if k = 2 * plot + kid then some key else Tab.get none s.sec.keys k))

/-! Management and the host's port. -/

/-- The management controller's messages and the bulk data port: register words are read and written in ascending order,
addresses are set, staging areas are stored and read back, refused accesses answer with their status and zeros, a message
with something in a reserved field or a payload of another length is answered with RANGE, an ECHO returns its data and a
frame with a bad CRC is answered with DATA; RESET and WAKE act or are refused; sensors and dynamic
addresses are given (R499, R511, R557 to R564). -/
def Obligations.ManagementMessagesAct : Prop :=
  (∀ s : State, s.hears → ∀ h : MgmtHdr,
    (∀ o n, h.fits 9 = true → 0 < n → n ≤ 32 → exec (.regRead h o n) s =
      .next ((State.readWords o n s).2.mgmtReply 0x03 h.tag .ok (State.readWords o n s).1)) ∧
    (∀ o n, (h.fits 9 = false ∨ n = 0 ∨ 32 < n) → exec (.regRead h o n) s = .next (s.mgmtReply 0x03 h.tag .range [])) ∧
    (∀ o (ws : List Word), h.fits (9 + 8 * ws.length) = true → ws ≠ [] → ws.length ≤ 32 →
      exec (.regWrite h o ws) s = .next ((State.writeWords o ws s).mgmtReply 0x04 h.tag .ok [])) ∧
    (∀ o (ws : List Word), (h.fits (9 + 8 * ws.length) = false ∨ ws = [] ∨ 32 < ws.length) →
      exec (.regWrite h o ws) s = .next (s.mgmtReply 0x04 h.tag .range [])) ∧
    (∀ v : Word, h.fits 8 = true → v.toNat / 2 ^ 60 < 5 → 1 < s.obs.bdp.length → ∃ t, exec (.bdpSet h v) s = .next t ∧
      t.bdpCh 1 = { s.bdpCh 1 with space := v.toNat / 2 ^ 60, offset := v.toNat % 2 ^ 48, seen := 0 } ∧
      t.out = .mgmt 0x05 h.tag 0 [] :: s.out ∧ t = { s with obs := t.obs, out := t.out }) ∧
    (h.fits 8 = false → ∀ v, exec (.bdpSet h v) s = .next (s.mgmtReply 0x05 h.tag .range [])) ∧
    (h.fits 2 = true → s.inReset = false → ∃ t, exec (.mgtReset h 0xA5C3) s = .next t ∧ t.inReset = true ∧ t.rel.resets.cause = 3 ∧
      t.rel.resets.trig = 4 ∧ t.out = .mgmt 0x08 h.tag 0 [] :: s.out) ∧
    (∀ k, (h.fits 2 = false ∨ k ≠ 0xA5C3) → exec (.mgtReset h k) s = .next (s.mgmtReply 0x08 h.tag .range [])) ∧
    (h.fits 0 = true → (s.pwr.ow = .entering ∨ s.pwr.ow = .overwintering) → ∃ t, exec (.mgtWake h) s = .next t ∧
      t.pwr = { s.pwr with ow := .waking } ∧ t.out = .mgmt 0x09 h.tag 0 [] :: s.out) ∧
    (h.fits 0 = true → s.pwr.ow ≠ .entering → s.pwr.ow ≠ .overwintering → exec (.mgtWake h) s = .next (s.mgmtReply 0x09 h.tag .state [])) ∧
    (h.fits 0 = false → exec (.mgtWake h) s = .next (s.mgmtReply 0x09 h.tag .range [])) ∧
    (∀ n, exec (.getSensorReading n) s = .next { s with out := .pldm (s.sensor n) :: s.out }) ∧
    (∀ n, exec (.notifyAck n) s = .next { s with obs := { s.obs with notices := s.obs.notices.filter (fun x => x.nseq != n) } })) ∧
  (∀ (s : State) (n : Nat) (x : Notice), s.obs.endpoint.isSome = true → s.obs.notices.find? (fun y => y.nseq == n) = some x →
    (s.now < x.sentAt + 1000000 → exec (.notifyResend n) s = .next s) ∧
    (x.sentAt + 1000000 ≤ s.now → 8 ≤ x.tries → exec (.notifyResend n) s = .next { s with obs := { s.obs with
      notices := s.obs.notices.filter (fun y => y.nseq != n), nlost := (s.obs.nlost + 1) % 2 ^ 32 } }) ∧
    (x.sentAt + 1000000 ≤ s.now → x.tries < 8 → ∃ t, exec (.notifyResend n) s = .next t ∧ t = { s with obs := t.obs, out := t.out } ∧
      .notify x.nseq x.code x.part x.time x.data ∈ t.out ∧
      t.obs.notices = s.obs.notices.map (fun y => if y.nseq = n then { x with tries := x.tries + 1, sentAt := s.now } else y))) ∧
  (∀ (s : State) a, s.board.rails = true → s.obs.i3c = none → a < 128 →
    exec (.entdaa a) s = .next { s with obs := { s.obs with i3c := some a } }) ∧
  (∀ (s : State) (h : BulkHdr), s.board.rails = true → h.crcOk = false → ∀ (d : List Byte) v n,
    exec (.echo h d) s = .next { s with out := .bulk 4 h.tag Status.data.code [] :: s.out } ∧
    exec (.setaddr h v) s = .next { s with out := .bulk 1 h.tag Status.data.code [] :: s.out } ∧
    exec (.bulkWrite h d) s = .next { s with out := .bulk 2 h.tag Status.data.code [] :: s.out } ∧
    exec (.bulkRead h n) s = .next { s with out := .bulk 3 h.tag Status.data.code [] :: s.out }) ∧
  (∀ (s : State) (h : BulkHdr), s.board.rails = true → h.crcOk = true →
    (∀ d : List Byte, d.length ≤ 4096 → exec (.echo h d) s = .next { s with out := .bulk 4 h.tag 0 d :: s.out }) ∧
    (∀ v : Word, v.toNat / 2 ^ 60 < 5 → 0 < s.obs.bdp.length → ∃ t, exec (.setaddr h v) s = .next t ∧
      t.bdpCh 0 = { s.bdpCh 0 with space := v.toNat / 2 ^ 60, offset := v.toNat % 2 ^ 48, seen := 0 } ∧
      t.out = .bulk 1 h.tag 0 [] :: s.out ∧ t = { s with obs := t.obs, out := t.out })) ∧
  (∀ (s : State) c (i : Nat → List Byte → Instr) (answers : Nat → Option Out),
    ((∃ tag, c = 1 ∧ s.hears ∧ i = (fun o d => .bdpWrite ⟨tag, 0, 4 + d.length⟩ o d) ∧ answers = fun st => some (.mgmt 0x06 tag st [])) ∨
     (∃ tag, c = 0 ∧ s.board.rails = true ∧ i = (fun o d => .bulkWrite ⟨true, tag, o⟩ d) ∧ answers = fun st => some (.bulk 2 tag st []))) →
    ∀ o (d : List Byte), d ≠ [] → o + d.length ≤ 4096 →
      (∀ st, s.bdpFail true (s.bdpCh c).space ((s.bdpCh c).offset + o) d.length = some st → st ≠ .data →
        ∃ t, exec (i o d) s = .next t ∧ t = { s with obs := { s.obs with bdp := t.obs.bdp }, out := t.out } ∧ t.out.head? = answers st.code) ∧
      (s.bdpFail true (s.bdpCh c).space ((s.bdpCh c).offset + o) d.length = none → (s.bdpCh c).space = 1 →
        ∃ t, exec (i o d) s = .next t ∧ t.trl = { s.trl with staging := s.trl.staging.store ((s.bdpCh c).offset + o) d } ∧
          t.out.head? = answers 0 ∧ t.mem = s.mem ∧ t.regions = s.regions)) ∧
  (∀ (s : State) c (i : Nat → Nat → Instr) (answers : Nat → List Byte → Option Out),
    ((∃ tag, c = 1 ∧ s.hears ∧ i = (fun o n => .bdpRead ⟨tag, 0, 4⟩ o n) ∧ answers = fun st bs => some (.mgmt 0x07 tag st bs)) ∨
     (∃ tag, c = 0 ∧ s.board.rails = true ∧ i = (fun o n => .bulkRead ⟨true, tag, o⟩ n) ∧ answers = fun st bs => some (.bulk 3 tag st bs))) →
    ∀ o n, 0 < n → o + n ≤ 4096 →
      (∀ st, s.bdpFail false (s.bdpCh c).space ((s.bdpCh c).offset + o) n = some st → st ≠ .data →
        ∃ t, exec (i o n) s = .next t ∧ t = { s with obs := { s.obs with bdp := t.obs.bdp }, out := t.out } ∧
          t.out.head? = answers st.code (leBytes n 0)) ∧
      (s.bdpFail false (s.bdpCh c).space ((s.bdpCh c).offset + o) n = none → (s.bdpCh c).space = 1 →
        ∃ t, exec (i o n) s = .next t ∧ t = { s with obs := { s.obs with bdp := t.obs.bdp }, out := t.out } ∧
          t.out.head? = answers 0 (s.trl.staging.load ((s.bdpCh c).offset + o) n)))

/-- The host's port and BAR 0: a whole aligned write of a listed register takes that register's effect; CXL configuration
space answers Retry Status before phase 3 and takes BAR 0 and the MSI-X control after it; an unmasked vector that waits is
sent; CXL.mem reads and writes the exposed spans under a decoder, a read line enters the snoop filter, waiting for room in
a full one, and leaves it with the host's answer, on which what waited for it goes on (R361, R364 to R367, R528, R576,
R580, R586). -/
def Obligations.HostPortReadsAndWrites : Prop :=
  ∀ s : State,
    (∀ rq o (v : Word) g, s.mayWrite rq o → (s.halves rq).latch = none → regOf o = some g → o % 8 = 0 → 0x20000 ≤ o → o < 0x1A0000 →
      blockOf o ≠ .bdpWin → exec (.registerWrite rq o 8 v) s = .next (s.regEffect rq o v.toNat true true g)) ∧
    (∀ rq (v : Word), s.mayWrite rq 0x20008 → (s.halves rq).latch = none → exec (.registerWrite rq 0x20008 8 v) s =
      .next { s with front := { s.front with wdog := ⟨bits v.toNat 15 0, bits v.toNat 31 16, bits v.toNat 55 32⟩ } }) ∧
    (∀ rq c (v : Word), c < 3 → c < s.obs.bdp.length → s.mayWrite rq (0x140000 + 8 * c) → v.toNat / 2 ^ 60 < 5 →
      ∃ t, exec (.bdpAddrWrite rq c v) s = .next t ∧ t = { s with obs := { s.obs with bdp := t.obs.bdp } } ∧
        t.bdpCh c = { s.bdpCh c with space := v.toNat / 2 ^ 60, offset := v.toNat % 2 ^ 48, seen := 0 } ∧ ∀ k, k ≠ c → t.bdpCh k = s.bdpCh k) ∧
    (∀ o (d : List Byte), s.portUp .host = true → (s.halves .host).held = none → s.inReset = false → windowFits o d.length = true →
      o + d.length ≤ 4096 → (s.bdpCh 2).space = 1 → s.bdpFail true 1 ((s.bdpCh 2).offset + o) d.length = none →
      ∃ t, exec (.bdpWindowAccess o 0 (some d)) s = .next t ∧ t.trl.staging = s.trl.staging.store ((s.bdpCh 2).offset + o) d) ∧
    (∀ o n, s.portUp .host = true → (s.halves .host).held = none → windowFits o n = true → o + n ≤ 4096 → (s.bdpCh 2).space = 1 →
      s.bdpFail false 1 ((s.bdpCh 2).offset + o) n = none →
      ∃ t, exec (.bdpWindowAccess o n none) s = .next t ∧ t.out = .windowData (s.trl.staging.load ((s.bdpCh 2).offset + o) n) :: s.out) ∧
    (∀ rq, s.mayWrite rq rrOff →
      (s.obs.rrBusy = false → exec (.capture rq) s = .next { s with obs := { s.obs with rrBusy := true, rrDone := false } }) ∧
      (s.obs.rrBusy = true → exec (.capture rq) s = .next (s.discard 0x21 rrOff))) ∧
    (s.obs.rrBusy = true → ∃ t, exec .returnRecordDone s = .next t ∧ t.obs.rrBusy = false ∧ t.obs.rrDone = true ∧
      t.obs.record = Memory.store [] 0 s.returnRecord ∧ t = { s with obs := t.obs, out := t.out }) ∧
    (s.obs.rrBusy = false → exec .returnRecordDone s = .next s) ∧
    (∀ v, v < 2048 → s.portUp .host = true → ∃ t, exec (.msixUnmask v) s = .next t ∧
      Tab.get .reset t.host.msix v = { Tab.get .reset s.host.msix v with mask := false } ∧
      (Tab.get false s.host.msixPend v = true → s.host.msixEn = true → s.host.fmask = false → s.inReset = false →
        t.out = .vector v :: s.out ∧ Tab.get false t.host.msixPend v = false) ∧
      (Tab.get false s.host.msixPend v = false → t.out = s.out)) ∧
    (s.board.rails = true → s.host.perst = false →
      (∀ c, s.trl.phase < 3 → exec (.configurationRequest c) s = .next { s with out := .config none :: s.out }) ∧
      (3 ≤ s.trl.phase →
        (∀ o, exec (.configurationRequest (.read o)) s = .next { s with out := .config (some (s.configWord o)) :: s.out }) ∧
        (∀ b, exec (.configurationRequest (.bar0 b)) s =
          .next { s with host := { s.host with bar0 := b % 2 ^ 64 / 2 ^ 32 * 2 ^ 32 } }) ∧
        (∀ en f, ∃ t, exec (.configurationRequest (.msixControl en f)) s = .next t ∧ t.host.msixEn = en ∧ t.host.fmask = f ∧
          t = { s with host := t.host, out := t.out }))) ∧
    (∀ a n, s.cxlUp = true → 0 < n → s.decoded a n = true →
      (s.exposed a n = true → s.overLines a n = 0 → ∃ t, exec (.cxlMemRead a n) s = .next t ∧
        t.out.head? = some (.cxlData (s.readLocal a n) (s.badUnit a n).isSome) ∧ t.mem.loc = s.mem.loc ∧ ∀ l ∈ unitsOf a n, l ∈ t.mem.snoop) ∧
      (s.exposed a n = true → s.overLines a n ≠ 0 → exec (.cxlMemRead a n) s =
        .next (({ s with mem := { s.mem with cxlWait := s.mem.cxlWait ++ [(a, n)] } } : State).makeRoom a n)) ∧
      (s.exposed a n = false → ∃ t, exec (.cxlMemRead a n) s = .next t ∧ t.out.head? = some (.cxlData [] true) ∧ t.mem = s.mem)) ∧
    (∀ a (d : List Byte) u, s.cxlUp = true → d ≠ [] → s.decoded a d.length = true → s.exposed a d.length = true →
      s.badPartial a d.length = some u → ∃ t, exec (.cxlMemWrite a d) s = .next t ∧ t.mem.loc = s.mem.loc ∧ t.mem.bad = s.mem.bad) ∧
    (∀ a (d : List Byte), s.cxlUp = true → d ≠ [] → s.decoded a d.length = true → s.exposed a d.length = true →
      s.badPartial a d.length = none → mapRow a ≠ .host →
      ∃ t, exec (.cxlMemWrite a d) s = .next t ∧ t.mem.loc = s.mem.loc.store a d ∧ t.mem.snoop = s.mem.snoop ∧ t.regions = s.regions) ∧
    (∀ a (d : List Byte), s.cxlUp = true → d ≠ [] → s.decoded a d.length = true → s.exposed a d.length = false →
      ∃ t, exec (.cxlMemWrite a d) s = .next t ∧ t.mem = s.mem ∧ t.regions = s.regions) ∧
    (∀ l, l ∈ s.mem.snooping →
      let u : State := { s with mem := { s.mem with snoop := s.mem.snoop.filter (· != l), snooping := s.mem.snooping.filter (· != l) } }
      exec (.biSnoopResponse l) s = .next (State.flushReads u.flushHeld.mem.cxlWait.length u.flushHeld) ∧
      (s.mem.held = [] → s.mem.cxlWait = [] → exec (.biSnoopResponse l) s = .next u) ∧
      (∀ w, s.mem.held = [w] → w.queue = none → s.mem.cxlWait = [] → u.heldLocal w.addr w.bytes.length = [] →
        u.badPartial w.addr w.bytes.length = none →
        exec (.biSnoopResponse l) s = .next (({ u with mem := { u.mem with held := [] } } : State).writeLocal w.addr w.bytes))) ∧
    (∀ l, l ∉ s.mem.snooping → exec (.biSnoopResponse l) s = .next s)


/-! Test, links and what crosses them. -/

/-- The test access port and the loopbacks: each scan shifts out what its register captured and leaves the named effect;
EXTEST, HBMSEL and the stacks' registers act before the image is in force and are BYPASS after it; a loopback starts under
its precondition, overwriting no byte but those of the array that its depth 2 tests, else its STATE says why not, and at its end an Eften port returns to its earlier state (R602 to R606). -/
def Obligations.TestPortScansAndLoopbacks : Prop :=
  (∀ s : State, s.board.rails = true →
    let scans := fun (i : Instr) (b : Board) (tdo : Nat) => exec i s = .next { s with board := b, out := .tdo tdo :: s.out }
    let ir := fun n => ({ s.board with ir := n, driven := 0 } : Board)
    scans .idcode (ir 0x02) 0x14B3258B ∧
    (∀ n, scans (.bypass n) (ir 0xFF) (2 * n)) ∧
    (∀ n, scans (.samplePreload n) { (ir 0x01) with boundary := n % 2 ^ 52 } s.cells) ∧
    (∀ n, s.trl.loaded = false → scans (.extest n) { s.board with ir := 0x00, boundary := n % 2 ^ 52, driven := n % 2 ^ 52 } s.cells) ∧
    (∀ n, s.trl.loaded = true → scans (.extest n) (ir 0x00) (2 * n) ∧ scans (.hbmsel n) (ir 0x20) (2 * n) ∧
      scans (.hbmwir n) (ir 0x21) (2 * n) ∧ scans (.hbmwdr n) (ir 0x22) (2 * n)) ∧
    scans .lbres (ir 0x11) (s.board.lbState + 2 ^ 3 * s.board.lbErrors + 2 ^ 19 * s.board.lbBits) ∧
    (∀ n, s.trl.loaded = false → scans (.hbmsel n) { (ir 0x20) with hbmsel := if n % 16 < 12 then some (n % 16) else none }
      (s.board.hbmsel.getD 0)) ∧
    (∀ n, s.board.hbmsel = none → scans (.hbmwir n) (ir 0x21) (2 * n) ∧ scans (.hbmwdr n) (ir 0x22) (2 * n)) ∧
    (∀ n k, s.trl.loaded = false → s.board.hbmsel = some k →
      scans (.hbmwir n) { (ir 0x21) with wir := Tab.set 0 s.board.wir k n } (Config.hbmShift k true (Tab.get 0 s.board.wir k)) ∧
      scans (.hbmwdr n) { (ir 0x22) with wdr := Tab.set 0 s.board.wdr k n } (Config.hbmShift k false (Tab.get 0 s.board.wdr k))) ∧
    exec .testLogicReset s = .next { s with board := { (ir 0x02) with hbmsel := none } }) ∧
  (∀ (v : Word) (s : State), s.board.rails = true →
    let n := v.toNat
    let b : Board := { s.board with ir := 0x10, driven := 0, lbcfg := n % 2 ^ 36 }
    let r := s.loopRefusal (bits n 3 0) (bits n 11 4) (bits n 13 12) (bits n 35 16)
    let o := Out.tdo s.board.lbcfg :: s.out
    let array := bits n 13 12 = 2 ∧ 3 ≤ bits n 3 0
    (bit n 36 = false ∨ s.board.lb.isSome = true → exec (.loopbackGo v) s = .next { s with board := b, out := o }) ∧
    (bit n 36 = true → s.board.lb = none → r ≠ 0 → exec (.loopbackGo v) s = .next { s with board := { b with lbState := r }, out := o }) ∧
    (bit n 36 = true → s.board.lb = none → r = 0 → bits n 11 4 < s.eft.links.length → ∃ t, exec (.loopbackGo v) s = .next t ∧
      t.board = { b with lb := some ⟨bits n 3 0, bits n 11 4, bits n 13 12, s.now, bits n 35 16⟩, lbState := 1, lbErrors := 0, lbBits := 0 } ∧
      t = { s with board := t.board, eft := t.eft, mem := { s.mem with loc := t.mem.loc, bad := t.mem.bad }, fresh := t.fresh, out := o } ∧
      (¬ array → t.mem = s.mem ∧ t.fresh = s.fresh) ∧
      (∀ a, loopHolds (bits n 3 0) (bits n 11 4) a = false → t.mem.loc.byte a = s.mem.loc.byte a) ∧
      (bits n 3 0 ≠ 0 → t.eft = s.eft) ∧
      (bits n 3 0 = 0 → (t.link (bits n 11 4)).st = .loopback ∧ (t.link (bits n 11 4)).prior = (s.link (bits n 11 4)).st))) ∧
  (∀ e n partner x (s : State), s.board.lb = some x → s.now ≥ x.started + 1000 * x.dur → ∃ t, exec (.loopbackEnd e n partner) s = .next t ∧
    t.board = { s.board with
      lb := none, lbErrors := min 65535 e, lbBits := n % 2 ^ 45,
      lbState := if x.iface = 0 ∧ x.depth = 3 ∧ partner = false then 5 else if e = 0 ∧ n % 2 ^ 45 ≠ 0 then 2 else 3 } ∧
    t = { s with board := t.board, eft := t.eft } ∧ (x.iface ≠ 0 → t.eft = s.eft) ∧
    (x.iface = 0 → x.unit < s.eft.links.length → (t.link x.unit).st = (s.link x.unit).prior ∧ (t.link x.unit).cause = (s.link x.unit).priorCause))

/-- Range operations: one written with GO is taken in, refused with its RESULT and an event, or discarded while another is
in progress; when it completes, the table holds what the operation says and the lookaside entries it removes are gone. Hot
segment registers and the background read act (R347, R350, R351, R357, R362). -/
def Obligations.RangeOperationsTakeEffect : Prop :=
  (∀ (i : Requester → Nat → Bool → Instr) (op : Nat), (i, op) ∈ [(Instr.rtInsert, 0), (.rtRemove, 1), (.rtReplace, 2), (.rtFlush, 3)] →
    ∀ rq ctx drain (s : State), ctx < 64 → s.mayWrite rq 0x80000 →
      let m : Mem := { s.mem with rtCtx := ctx, rtOp := op, rtDrain := drain }
      let r := s.rangeRefusal rq ctx op
      (s.mem.rtBusy.isSome = true → exec (i rq ctx drain) s = .next (s.discard 0x21 0x80000)) ∧
      (s.mem.rtBusy = none → r = 0 → exec (i rq ctx drain) s =
        .next { s with mem := { m with rtBusy := some ⟨ctx, op, drain, s.mem.rtData.map BitVec.toNat⟩ } }) ∧
      (s.mem.rtBusy = none → r ≠ 0 → ∃ t, exec (i rq ctx drain) s = .next t ∧
        t = { s with mem := { m with rtResult := r, rtCount := (s.table ctx).length }, obs := t.obs })) ∧
  (∀ o (s : State), s.mem.rtBusy = some o → s.inReset = false →
    (o.drain = true ∧ o.op ≠ 0 ∧ s.accessing o.ctx ((s.partOfCtx o.ctx).getD 8) = true → exec .rtOpDone s = .next s) ∧
    (o.drain = false ∨ o.op = 0 ∨ s.accessing o.ctx ((s.partOfCtx o.ctx).getD 8) = false → ∃ t, exec .rtOpDone s = .next t ∧
      let e := RangeEntry.ofWords o.data
      (o.op = 0 → t.table o.ctx = insertRange e (s.table o.ctx)) ∧
      (o.op = 1 → t.table o.ctx = (s.table o.ctx).filter (fun x => x.start != e.start)) ∧
      (o.op = 2 → t.table o.ctx = insertRange e ((s.table o.ctx).filter (fun x => x.start != e.start))) ∧
      (o.op = 3 → t.table o.ctx = []) ∧ (∀ c, c ≠ o.ctx → t.table c = s.table c) ∧
      t.mem = { s.mem with tables := t.mem.tables, bad := t.mem.bad, rtBusy := none, rtResult := 0, rtCount := (t.table o.ctx).length } ∧
      (∀ u ∈ t.mem.bad, u ∈ s.mem.bad) ∧
      t = { s with mem := t.mem, regions := t.regions } ∧
      ∀ r ∈ s.regionsOf ((s.partOfCtx o.ctx).getD 8), t.region r = { s.region r with rlc := (s.region r).rlc.filter (fun c => !(o.drops c)) })) ∧
  (∀ rq (v : Word) (s : State), s.mayWrite rq 0x80048 →
    (s.mem.hotEn = true → exec (.hotBaseWrite rq v) s = .next (s.discard 0x21 0x80048)) ∧
    (s.mem.hotEn = false → exec (.hotBaseWrite rq v) s =
      .next { s with mem := { s.mem with hotBase := v.toNat / 64 * 64, hotHead := 0, hotTail := 0 } })) ∧
  (∀ s : State, let due := s.mem.hotSince + 2 ^ s.mem.hotEpoch * 1000000
    (s.mem.hotEn = true → due ≤ s.now → exec .hotEpochHalve s = .next { s with mem := { s.mem with
      hot := (s.mem.hot.map (fun e => (e.1, e.2 / 2))).filter (fun e => e.2 != 0), hotSince := due } }) ∧
    (s.mem.hotEn = false ∨ s.now < due → exec .hotEpochHalve s = .next s)) ∧
  (∀ a (s : State), let u := a / 64 * 64
    exec (.backgroundRead a .good) s = .next s ∧
    (mapRow u = .hbm → exec (.backgroundRead a .corrected) s = .next { s with mem := { s.mem with correctedHbm := s.mem.correctedHbm + 1 } }) ∧
    (mapRow u = .cellar → exec (.backgroundRead a .corrected) s = .next { s with mem := { s.mem with correctedCel := s.mem.correctedCel + 1 } }) ∧
    ((mapRow u = .hbm ∨ mapRow u = .cellar) → ∃ t, exec (.backgroundRead a .uncorrectable) s = .next t ∧ a / 64 ∈ t.mem.bad ∧
      t.mem.loc = s.mem.loc ∧ t.regions = s.regions ∧ t.queues = s.queues ∧ t.kv = s.kv ∧
      ∃ e, t.mem.errlog.head? = some e ∧ e.addr ≤ u ∧ e.source = 3 ∧ e.last = s.now))

/-- What a change of one link leaves alone: everything but the links, the logs and what the module drives outward. -/
def onlyLinks (s t : State) : Prop :=
  t.regions = s.regions ∧ t.mem = s.mem ∧ t.queues = s.queues ∧ t.parts = s.parts ∧ t.kv = s.kv ∧ t.wgt = s.wgt ∧
    t.sync = s.sync ∧ t.sec = s.sec ∧ t.pwr = s.pwr ∧ t.transit = s.transit ∧ t.eft.reqs = s.eft.reqs

/-- The replay frames that acknowledgement a leaves: those that it does not cover (R429, R430). -/
def unacked (a : Option Nat) (fs : List TxFrame) : List TxFrame :=
  match a with
  | none => fs
  | some k => fs.filter (fun f => decide (32768 ≤ (k + 65536 - f.fseq) % 65536))

/-- An UP link accepts the DATA frame that it expects, its whole messages with well-formed headers entering its buffer, and
answers with an acknowledgement; another frame is discarded, the first one with a NAK. Acknowledgements and credits free the
sender, which sends what may go; a NAK replays every frame that is not acknowledged (R426 to R430, R439). -/
def Obligations.LinksAcceptAcknowledgeAndReplay : Prop :=
  ∀ (port : Nat) (f : FrameIn) (s : State), port < 18 → port < s.eft.links.length → (s.link port).st = .up →
    let l := s.link port
    let kept := unacked f.ack l.replay
    let parsed := parseSlots ((l.rxBytes ++ f.slots).length / 32 + 1) (l.rxBytes ++ f.slots)
    (f.good = true → f.kind = 0 → f.fseq = l.expected → ∃ t, exec (.dataFrame port f) s = .next t ∧ onlyLinks s t ∧
      (t.link port).expected = (l.expected + 1) % 65536 ∧ (t.link port).lastRx = some f.fseq ∧ (t.link port).naked = false ∧
      (t.link port).rxBytes = parsed.2 ∧ (t.link port).rxMsgs = l.rxMsgs ++
        (parsed.1.filter (fun m => m.2)).map (fun m => ⟨m.1.share, { m.1 with hops := (m.1.hops + 1) % 256 }⟩) ∧
      (∃ n cr, t.out.head? = some (.frame port (frameBlock 1 n (some f.fseq) cr 0xFF []))) ∧ (l.txq = [] → (t.link port).replay = kept)) ∧
    ((f.good = false ∨ f.kind = 0 ∧ f.fseq ≠ l.expected) → l.naked = true → exec (.dataFrame port f) s = .next s) ∧
    ((f.good = false ∨ f.kind = 0 ∧ f.fseq ≠ l.expected) → l.naked = false → ∃ t cr, exec (.dataFrame port f) s = .next t ∧ onlyLinks s t ∧
      t.out = .frame port (frameBlock 2 l.nextFseq l.lastRx cr 0xFF []) :: s.out ∧ (t.link port).naked = true ∧
      (t.link port).expected = l.expected ∧ (t.link port).rxMsgs = l.rxMsgs ∧ (t.link port).replay = l.replay) ∧
    (f.good = true → f.kind = 1 → l.txq = [] → ∃ t, exec (.idleFrame port f) s = .next t ∧ t = { s with eft := t.eft } ∧ onlyLinks s t ∧
      t.link port = { l with replay := kept, returned := (t.link port).returned } ∧
      (∀ k c, f.creds = [(k, c)] → Tab.get 0 (t.link port).returned k = c % 65536) ∧ ∀ q, q ≠ port → t.link q = s.link q) ∧
    (∀ m : LinkMsg, f.good = true → f.kind = 1 → l.txq = [⟨m, none⟩] → m.cls = 2 → s.orateOf port = none →
      let fs := framesOf [m] s.now l.nextFseq
      (kept.length + fs.length ≤ 1024 → ∃ t, exec (.idleFrame port f) s = .next t ∧ onlyLinks s t ∧ (t.link port).txq = [] ∧
        (t.link port).replay = kept ++ fs ∧ (t.link port).nextFseq = (l.nextFseq + fs.length) % 65536 ∧
        ∀ g ∈ fs, ∃ a cr, .frame port (frameBlock 0 g.fseq a cr g.first g.slots) ∈ t.out) ∧
      (1024 < kept.length + fs.length → ∃ t, exec (.idleFrame port f) s = .next t ∧ (t.link port).txq = l.txq ∧ (t.link port).replay = kept)) ∧
    (f.good = true → f.kind = 2 → ∃ t new, ∃ sent frames : List Out, exec (.nak port f) s = .next t ∧ onlyLinks s t ∧ (t.link port).replay = kept ++ new ∧
      t.out = sent ++ frames.reverse ++ s.out ∧ frames.length = kept.length ∧
      ∀ (i : Nat) (g : TxFrame), kept[i]? = some g → ∃ a cr, frames[i]? = some (Out.frame port (frameBlock 0 g.fseq a cr g.first g.slots))) ∧
    (f.good = false → exec (.idleFrame port f) s = .next s ∧ exec (.nak port f) s = .next s) ∧
    (f.good = true → (f.kind ≠ 0 → exec (.dataFrame port f) s = .next s) ∧ (f.kind ≠ 1 → exec (.idleFrame port f) s = .next s) ∧
      (f.kind ≠ 2 → exec (.nak port f) s = .next s))

/-- Links move between their states: a far end that the role does not expect fails the port, training and retraining end UP
or FAILED with their cause, three failed retrains fail the link, an overdue acknowledgement and a bad lane retrain it,
and software's DISABLE, RETRAIN and CLRBAD and the cable act (R422, R425, R431 to R433, R593, R606). -/
def Obligations.LinksMoveThroughTheirStates : Prop :=
  ∀ (port : Nat) (s : State), port < 18 → port < s.eft.links.length →
    let l := s.link port
    let failed := fun (t : State) (c : LinkCause) => (t.link port).st = .failed ∧ (t.link port).cause = c ∧ (t.link port).txq = [] ∧ (t.link port).replay = []
    let retrained := fun (t : State) => (t.link port).st = .retrain ∧ (t.link port).cause = .retrain ∧
      (t.link port).retrains = min 65535 (l.retrains + 1) ∧ (t.link port).replay = l.replay ∧ (t.link port).txq = l.txq ∧
      t.out.head? = some (.train port s.modid) ∧ onlyLinks s t
    (∀ m p, (l.st = .training ∨ l.st = .retrain) → ∃ t, exec (.trainFrame port m p) s = .next t ∧ (t.link port).farmod = m ∧ (t.link port).farport = p ∧
      ((s.trl.loaded = false ∨ s.farOk port m p = true) → t = s.setLink port { l with farmod := m, farport := p }) ∧
      (s.trl.loaded = true → s.farOk port m p = false → failed t .cabling)) ∧
    (∀ x : Training, l.st = .training → s.trl.loaded = true → ∃ t, exec (.linkTrainDone port x) s = .next t ∧
      let ok := s.farOk port x.farmod x.farport
      let bad := lanes (l.good &&& x.good) < 4 ∨ lanes x.goodTx < 4
      (t.link port).good = l.good &&& x.good ∧ (t.link port).farmod = x.farmod ∧ (t.link port).farport = x.farport ∧
      (ok = false → failed t .cabling) ∧ (ok = true → (if l.active then 332 else 200) < x.rtt → failed t .reach) ∧
      (ok = true → x.rtt ≤ (if l.active then 332 else 200) → bad → failed t .lanes) ∧
      (ok = true → x.rtt ≤ (if l.active then 332 else 200) → ¬ bad → (t.link port).st = .up ∧ (t.link port).cause = .none ∧
        (t.link port).retrains = l.retrains ∧ (t.link port).expected = 0 ∧ (t.link port).returned = [] ∧
        (l.txq = [] → (t.link port).sent = [] ∧ (t.link port).replay = [] ∧ (t.link port).nextFseq = 0))) ∧
    (l.st = .retrain → l.failedRetrains < 2 → exec (.retrainDone port none) s = .next ((s.setLink port
      { l with failedRetrains := l.failedRetrains + 1, retrains := min 65535 (l.retrains + 1) }).emit (.train port s.modid))) ∧
    (l.st = .retrain → 2 ≤ l.failedRetrains → ∃ t, exec (.retrainDone port none) s = .next t ∧ failed t .retrain) ∧
    (∀ x : Training, l.st = .retrain → ∃ t, exec (.retrainDone port (some x)) s = .next t ∧
      let ok := s.farOk port x.farmod x.farport
      let good := if l.clrbad then x.good % 512 else l.good &&& x.good
      let bad := lanes good < 4 ∨ lanes x.goodTx < 4
      (t.link port).good = good ∧ (t.link port).clrbad = false ∧ (ok = false → failed t .cabling) ∧ (ok = true → bad → failed t .lanes) ∧
      (ok = true → ¬ bad → (t.link port).st = .up ∧ (t.link port).cause = .none ∧ (t.link port).retrains = l.retrains ∧
        ∀ f ∈ l.replay, ∃ a cr, .frame port (frameBlock 0 f.fseq a cr f.first f.slots) ∈ t.out)) ∧
    (l.st = .up → (∃ f ∈ l.replay, f.sentAt + 2000 ≤ s.now) → ∃ t, exec (.ackTimeout port) s = .next t ∧ retrained t) ∧
    ((∀ f ∈ l.replay, s.now < f.sentAt + 2000) → exec (.ackTimeout port) s = .next s) ∧
    (∀ lane (n : Option Nat), lane < 9 → bit l.good lane = true → (∀ k, n = some k → 64 * l.lthresh < k) → ∃ t, exec (.laneBad port lane n) s = .next t ∧
      (t.link port).good = l.good - 2 ^ lane ∧ (t.link port).st = (if l.st = .up then .retrain else l.st) ∧ onlyLinks s t) ∧
    (∀ lane n, (bit l.good lane = false ∨ ∃ k, n = some k ∧ k ≤ 64 * l.lthresh) → exec (.laneBad port lane n) s = .next s) ∧
    (∀ rq, s.mayWrite rq (0xC0100 + 8 * port) →
      (l.st = .up → ∃ t, exec (.linkRetrain rq port) s = .next t ∧ retrained t) ∧ (l.st ≠ .up → exec (.linkRetrain rq port) s = .next s) ∧
      exec (.clrbad rq port) s = .next (s.setLink port { l with clrbad := true }) ∧
      (l.disable = false → ∃ t, exec (.linkDisable rq port true) s = .next t ∧ (t.link port).disable = true ∧ (t.link port).st = .down ∧
        (t.link port).cause = .disable ∧ (t.link port).replay = []) ∧
      (l.disable = true → exec (.linkDisable rq port true) s = .next s) ∧
      (l.disable = false → s.loopsPort port = false → exec (.linkDisable rq port false) s = .next s) ∧
      (l.disable = true → s.loopsPort port = false → ∃ t, exec (.linkDisable rq port false) s = .next t ∧ (t.link port).disable = false ∧
        (t.link port).cause = .none ∧ (t.link port).st = (if s.eft.coord.valid && l.cable then .training else .down) ∧
        (s.eft.coord.valid = true → l.cable = true → t.out.head? = some (.train port s.modid)) ∧ onlyLinks s t) ∧
      (s.loopsPort port = true → ∃ t, exec (.linkDisable rq port false) s = .next t ∧ t.board.lb = none ∧ t.board.lbState = 6)) ∧
    (∀ present active, ∃ t, exec (.cablePresentChange port present active) s = .next t ∧ (t.link port).cable = present ∧ (t.link port).active = active ∧
      onlyLinks s t ∧ (s.board.rails = false → (t.link port).st = l.st) ∧
      (s.board.rails = true → (t.link port).st = if present = false ∧ l.st = .training then .down
        else if l.st = .down ∧ s.eft.coord.valid = true ∧ l.disable = false ∧ present = true then .training else l.st))

/-- Message x at a port: it is its turn, and it is for this module and may be delivered as m2 in its plot's route r (Table 15-12). -/
def deliveredAs (s : State) (port : Nat) (m : LinkMsg) (x : RxMsg) (m2 : LinkMsg) (r : RoutingRec) : Prop :=
  port < 18 ∧ s.rxTurn port m = some x ∧ s.arrival port m = .here m2 r ∧ s.inReset = false

/-- The messages whose delivery passes the checks of Table 15-12, each with its TYPE. -/
def routedMsgs : List ((Nat → LinkMsg → Instr) × Nat) :=
  [(.wr, 0x01), (.rd, 0x02), (.wrack, 0x03), (.rddata, 0x04), (.arrive, 0x12), (.release, 0x13), (.replOpen, 0x30), (.replPage, 0x31),
   (.replFork, 0x32), (.replEvict, 0x33), (.replRelease, 0x34), (.replAck, 0x35)]

/-- Messages are dropped with the answer of their check, passed on with their slots still held, or delivered: a WR stores its
bytes or places its record, an RD reads, both wait for lines that the host holds and are refused by the checks of R437;
compressed data is expanded or stored as the tier that it reaches says; a response settles its request, and a request
without one fails with REMOTE after 100 µs (R267, R346, R437, R444, R445). -/
def Obligations.MessagesAreServedAndAnswered : Prop :=
  (∀ e ∈ routedMsgs, ∀ port (m : LinkMsg) x (s : State), m.typ = e.2 → port < 18 → s.rxTurn port m = some x →
    (∀ p m2, s.arrival port m = .onward p m2 →
      exec (e.1 port m) s = .next ((s.rxTake port x).transmit p ⟨m2, x.share.map (fun k => (port, k))⟩)) ∧
    (∀ c st, s.arrival port m = .drop c st → ∃ u, u = { s with obs := u.obs } ∧
      (c ≠ 1 → c ≠ 5 → u = s) ∧
      exec (e.1 port m) s = .next (match st with
        | some k => (u.rxDone port x).respondBack port m k
        | none => u.rxDone port x)) ∧
    (∀ m2 r, s.arrival port m = .here m2 r → s.inReset = true →
      (m2.cls = 0 → exec (e.1 port m) s = .next ((s.rxDone port x).respond m2 .remote [])) ∧ (m2.cls = 3 → exec (e.1 port m) s = .next s))) ∧
  (∀ port (m : LinkMsg) x m2 r (s : State), m.typ = 1 → deliveredAs s port m x m2 r →
    let a := m2.addr % 2 ^ 48
    let n := m2.data.length
    let ends := fun (ok : State → Prop) (st : Status) => ∃ u, exec (.wr port m) s = .next ((u.respond m2 st []).rxDone port x) ∧ ok u
    (∀ st, s.serveFail r m2 a n true = some st → ends (fun u => u = s) st) ∧
    (s.serveFail r m2 a n true = none → mapRow a = .recvWin →
      let w : TransitRec := ⟨winRegion a, winSlot a, m2.data, .remote m2.src m2.tag m2.plot⟩
      (m2.xc = true → ends (fun u => u = s) .expand) ∧
      (m2.xc = false → s.recordWaits r.part w = true → exec (.wr port m) s = .next s) ∧
      (m2.xc = false → s.recordWaits r.part w = false →
        exec (.wr port m) s = .next (({ s with transit := s.transit ++ [w] } : State).rxDone port x))) ∧
    (s.serveFail r m2 a n true = none → mapRow a ≠ .recvWin →
      (s.heldLocal a n ≠ [] → exec (.wr port m) s = .next (s.snoopLines (s.heldLocal a n))) ∧
      (s.heldLocal a n = [] → m2.xc = false →
        (∀ b, s.badPartial a n = some b → ends (fun u => u.mem.loc = s.mem.loc ∧ u.mem.host = s.mem.host ∧ u.regions = s.regions ∧ u.eft = s.eft) .data) ∧
        (s.badPartial a n = none →
          ends (fun u => u = { s with mem := u.mem } ∧
            (mapRow a ≠ .host → u.mem.loc = s.mem.loc.store a m2.data ∧ u.mem.host = s.mem.host) ∧
            (mapRow a = .host → u.mem.host = s.mem.host.store (a % 2 ^ 47) m2.data ∧ u.mem.loc = s.mem.loc)) .ok)) ∧
      (s.heldLocal a n = [] → m2.xc = true →
        let from_ := s.xferOf m2.src m2.plot a m2.data
        let bs := from_.buf ++ m2.data
        let y := ((rxPath r.part).all (bs.length / 64 + 1) ⟨bs, from_.pos, from_.out, from_.blocks, [], none, false⟩ s).1
        let held := y.writes.flatMap (fun w => s.heldLocal w.1 w.2.length)
        let barred := ∃ w ∈ y.writes, s.ingress r.plot w.1 w.2.length = false ∨ s.scrubHit w.1 w.2.length = true
        (held ≠ [] → ∃ u, exec (.wr port m) s = .next u ∧ u.eft = s.eft ∧ u.mem.loc = s.mem.loc ∧ u.regions = s.regions) ∧
        (held = [] → barred → ends (fun u => u.mem.loc = s.mem.loc ∧ u.regions = s.regions ∧ u.eft = s.eft) .denied) ∧
        (held = [] → ¬ barred → (∃ w ∈ y.writes, (s.badPartial w.1 w.2.length).isSome = true) →
          ends (fun u => u.mem.loc = s.mem.loc ∧ u.regions = s.regions ∧ u.eft = s.eft) .data) ∧
        (held = [] → ¬ barred → (∀ w ∈ y.writes, s.badPartial w.1 w.2.length = none) → (∀ w ∈ y.writes, mapRow w.1 ≠ .host) →
          ends (fun u => u.mem.loc = y.writes.foldl (fun n w => n.store w.1 w.2) s.mem.loc ∧ u.mem.host = s.mem.host ∧
            u.regions = s.regions ∧ u.eft = s.eft) (y.fail.getD .ok))))) ∧
  (∀ port (m : LinkMsg) x m2 r (s : State), m.typ = 2 → deliveredAs s port m x m2 r →
    let a := m2.addr % 2 ^ 48
    let n := m2.aux % 2 ^ 14
    let ends := fun (ok : State → Prop) (st : Status) (bs : List Byte) => ∃ u, exec (.rd port m) s = .next ((u.respond m2 st bs).rxDone port x) ∧ ok u
    ((n = 0 ∨ 8192 < n) → ends (fun u => u = s) .range []) ∧
    (0 < n → n ≤ 8192 →
      (∀ st, s.serveFail r m2 a n false = some st → ends (fun u => u = s) st []) ∧
      (s.serveFail r m2 a n false = none → s.heldLocal a n ≠ [] → exec (.rd port m) s = .next (s.snoopLines (s.heldLocal a n))) ∧
      (s.serveFail r m2 a n false = none → s.heldLocal a n = [] →
        (∀ b, s.badUnit a n = some b → ends (fun u => u.mem.loc = s.mem.loc ∧ u.regions = s.regions ∧ u.eft = s.eft) .data []) ∧
        (s.badUnit a n = none →
          ends (fun u => u = { s with mem := u.mem } ∧ u.mem.loc = s.mem.loc ∧ u.mem.host = s.mem.host) .ok (s.readLocal a n))))) ∧
  (∀ e ∈ [(Instr.wrack, 3), (Instr.rddata, 4)], ∀ port (m : LinkMsg) x m2 r (s : State), m.typ = e.2 → deliveredAs s port m x m2 r →
    (s.answers m2 = false → exec (e.1 port m) s = .next (s.rxDone port x)) ∧
    (∀ req, s.eft.reqs.find? (fun y => y.tag == m2.tag) = some req → req.dst = m2.src →
      (∀ pa k, req.read = some (pa, k) → ∃ t, exec (e.1 port m) s = .next t ∧ t.eft.reqs = s.eft.reqs.erase req ∧
        t.eft.fetched = s.eft.fetched ++ [⟨req.owner, pa, (Status.ofCode m2.status).code, m2.data⟩] ∧ t.mem = s.mem ∧ t.regions = s.regions ∧
        t.queues = s.queues) ∧
      (∀ q y, req.read = none → req.owner = .cmd q → (s.queue q).running = some y → y.ending = none → ∃ t, exec (e.1 port m) s = .next t ∧
        t.eft.reqs = s.eft.reqs.erase req ∧ t.queue q = { s.queue q with
          running := some { y with owed := y.owed - 1, status := y.status.worst (Status.ofCode m2.status) } } ∧
        ∀ k, k ≠ q → t.queue k = s.queue k) ∧
      (∀ g id, req.read = none → req.owner = .instr g id → g < s.regions.length → ∃ t, exec (e.1 port m) s = .next t ∧ t.eft.reqs = s.eft.reqs.erase req ∧
        t.region g = { s.region g with issued := (s.region g).issued.map (fun i =>
          if i.id = id then { i with owed := i.owed - 1, fail := i.fail.worst (Status.ofCode m2.status) } else i) }))) ∧
  (∀ tag (s : State),
    ((∀ y ∈ s.eft.reqs, y.tag = tag → s.now < y.sentAt + 100000) → exec (.remoteTimeout tag) s = .next s) ∧
    (∀ req pa k, s.eft.reqs.find? (fun y => y.tag == tag) = some req → req.sentAt + 100000 ≤ s.now → req.read = some (pa, k) →
      exec (.remoteTimeout tag) s = .next { s with eft := { s.eft with
        reqs := s.eft.reqs.erase req, fetched := s.eft.fetched ++ [⟨req.owner, pa, Status.remote.code, []⟩] } }) ∧
    (∀ req g id, s.eft.reqs.find? (fun y => y.tag == tag) = some req → req.sentAt + 100000 ≤ s.now → req.read = none → req.owner = .instr g id →
      exec (.remoteTimeout tag) s = .next (({ s with eft := { s.eft with reqs := s.eft.reqs.erase req } } : State).modIssued g id (fun i =>
        { i with owed := i.owed - 1, fail := i.fail.worst .remote }))) ∧
    (∀ req q y e, s.eft.reqs.find? (fun y => y.tag == tag) = some req → req.sentAt + 100000 ≤ s.now → req.read = none → req.owner = .cmd q →
      (s.queue q).running = some y → y.ending = some e → y.owed = 1 → exec (.remoteTimeout tag) s =
        .next ((({ s with eft := { s.eft with reqs := s.eft.reqs.erase req } } : State).modRunning q (fun z =>
          { z with owed := 0, status := z.status.worst .remote })).finish q e 0)))

/-! The twin pair, device time and barriers. -/

/-- Heartbeats of either path are taken by their module or passed on over the t ring and x−; both are sent every 5 µs; a
module that hears neither for 20 µs declares its twin LOST, and while it serves takes it over when AUTO or software says so,
its mirrored sequences then going LIVE at REPLPOS; LOSTSEEN shows a module that it was declared lost, and REJOIN opens
replication again from POS0 (R446, R448, R449, R451). -/
def Obligations.TwinsBeatAreLostAndReturn : Prop :=
  (∀ port (m : LinkMsg) x (s : State), m.typ = 0x20 → port < 18 → s.rxTurn port m = some x →
    (s.isPortT port = false ∨ m.dst ≠ s.modid → exec (.hbt port m) s = .next (s.rxDone port x)) ∧
    (s.isPortT port = true → m.dst = s.modid → ∃ t, exec (.hbt port m) s = .next t ∧ t.eft.twin = { s.eft.twin with
      lastHbt := some s.now, altonly := false, back := s.eft.twin.back || s.eft.twin.lost, lostSeen := bit m.addr 32,
      mustRejoin := s.eft.twin.mustRejoin || (bit m.addr 32 && !s.eft.twin.lostSeen) } ∧
      t.mem = s.mem ∧ t.kv = s.kv ∧ t.queues = s.queues ∧ t.regions = s.regions)) ∧
  (∀ port (m : LinkMsg) x (s : State), m.typ = 0x21 → port < 18 → s.rxTurn port m = some x →
    (m.dst = s.modid → ∃ t, exec (.hbtAlt port m) s = .next t ∧ t.eft.twin = { s.eft.twin with
      lastAlt := some s.now, altonly := s.eft.twin.altonly || s.tPorts.all (fun p => (s.link p).st != .up),
      back := s.eft.twin.back || s.eft.twin.lost, lostSeen := bit m.addr 32,
      mustRejoin := s.eft.twin.mustRejoin || (bit m.addr 32 && !s.eft.twin.lostSeen) }) ∧
    (m.dst ≠ s.modid → let out := if s.isPortT port then s.directPort 3 1 m else s.directPort 0 0 m
      (∀ p, out = some p → exec (.hbtAlt port m) s = .next ((s.rxTake port x).transmit p ⟨m, none⟩)) ∧
      (out = none → exec (.hbtAlt port m) s = .next (s.rxDone port x)))) ∧
  (∀ s : State, s.eft.coord.twin = true →
    (s.inReset = false → s.eft.twin.count = 0 ∨ s.eft.twin.hbBase + 5000 ≤ s.now → ∃ u : State,
      u = { s with eft := { s.eft with twin := { s.eft.twin with count := (s.eft.twin.count + 1) % 2 ^ 32, hbBase := s.now } } } ∧
      exec .hbtSend s = .next ((u.sendDirect 0 0 (u.beat 0x20)).sendDirect 3 0 (u.beat 0x21))) ∧
    (s.inReset = true ∨ (s.eft.twin.count ≠ 0 ∧ s.now < s.eft.twin.hbBase + 5000) → exec .hbtSend s = .next s) ∧
    (∀ a, (s.eft.twin.lastHbt = some a ∨ s.eft.twin.lastAlt = some a) → s.now < a + 20000 → exec .twinLost s = .next s) ∧
    ((∀ a, (s.eft.twin.lastHbt = some a ∨ s.eft.twin.lastAlt = some a) → a + 20000 ≤ s.now) → s.eft.twin.lost = false →
      ∃ t, exec .twinLost s = .next t ∧ t.eft.twin = { s.eft.twin with
      lost := true, back := false, takeover := if s.eft.twin.auto && s.serving && !s.inReset then some s.now else s.eft.twin.takeover } ∧ bit t.host.irqStat 3 = true ∧
      t = { s with eft := t.eft, obs := t.obs, host := t.host, out := t.out })) ∧
  (∀ rq (s : State), s.mayWrite rq 0xC0018 →
    (s.eft.twin.lost = true → s.eft.twin.taken = false → exec (.takeover rq) s =
      .next { s with eft := { s.eft with twin := { s.eft.twin with takeover := some s.now } } }) ∧
    (s.eft.twin.lost = false ∨ s.eft.twin.taken = true → exec (.takeover rq) s = .next (s.discard 0x21 0xC0018)) ∧
    (s.beating = false → exec (.rejoin rq) s = .next (s.discard 0x21 0xC0018)) ∧
    (s.beating = true → Tab.wf Seq.free s.kv.seqs → ∃ t, exec (.rejoin rq) s = .next t ∧
      t.eft.twin = { s.eft.twin with lost := false, taken := false, replbrk := false, mustRejoin := false } ∧ t.mem = s.mem ∧
      ∀ n, t.seq n = if (s.seq n).st = .live ∧ (s.seq n).geo.repl = true then { s.seq n with replpos := (s.seq n).pos0 } else s.seq n)) ∧
  (∀ s : State, (s.eft.twin.takeover = none → exec .takeoverDone s = .next s) ∧
    (s.eft.twin.takeover.isSome = true → Tab.wf Seq.free s.kv.seqs → ∃ t, exec .takeoverDone s = .next t ∧
      t.eft = { s.eft with twin := { s.eft.twin with taken := true, takeover := none } } ∧ t.mem = s.mem ∧
      ∀ n, t.seq n = if (s.seq n).st = .mirror ∧ s.sharedPart (s.seq n).part = true then { s.seq n with st := .live, length := (s.seq n).replpos }
        else s.seq n))

/-- Replication messages act on port t only. REPL_OPEN makes a MIRROR descriptor, REPL_PAGE keeps the parts of a page and
stores it when the last one is in, in frames that no other sequence shares, REPL_FORK, REPL_EVICT and REPL_RELEASE do to the mirror what was done to the sequence,
REPL_ACK moves REPLPOS on; one that does not fit its sequence is refused with an event (R233 to R235, R435, R451). -/
def Obligations.ReplicationKeepsTheMirror : Prop :=
  ∀ port (m : LinkMsg) x m2 r (s : State), deliveredAs s port m x m2 r →
    let n := m2.addr % 2 ^ 18
    let p := r.part
    let q := s.seq n
    let does := fun (i : Nat → LinkMsg → Instr) (u : State) => exec (i port m) s = .next (u.rxDone port x)
    (∀ e ∈ [(Instr.replOpen, 0x30), (.replPage, 0x31), (.replFork, 0x32), (.replEvict, 0x33), (.replRelease, 0x34), (.replAck, 0x35)],
      m.typ = e.2 → s.isPortT port = false → does e.1 s) ∧
    (s.isPortT port = true →
      (m.typ = 0x30 →
        let d := m2.data
        let base := if q.st = .mirror then s.freeSeq n else s
        let opened := base.openSeq p (leAt d 1 1 / 8 % 16) (leAt d 2 1) (leAt d 24 8) (BitVec.ofNat 64 (leAt d 8 8)) (BitVec.ofNat 32 (leAt d 4 4))
        ((s.ownsSeq p n = false ∨ (q.st ≠ .free ∧ q.st ≠ .mirror)) → does .replOpen (s.replRefused p n)) ∧
        (s.ownsSeq p n = true → (q.st = .free ∨ q.st = .mirror) →
          (opened = none → does .replOpen (s.replRefused p n)) ∧
          (opened ≠ none → ∃ u, does .replOpen u ∧ (u.seq n).st = .mirror ∧ (u.seq n).part = p ∧ (u.seq n).pos0 = leAt d 24 8 ∧
            (u.seq n).replpos = leAt d 24 8 ∧ (u.seq n).geom = BitVec.ofNat 64 (leAt d 8 8) ∧ (u.seq n).runs = [] ∧
            (u.seq n).runFrames.length = 1 ∧ (u.seq n).scoreFrame.isSome = true))) ∧
      (m.typ = 0x31 →
        let lp := m2.aux % 2 ^ 36
        let k := m2.aux / 2 ^ 36
        let parts := s.eft.parts.filter (fun y => !(y.1 == n && y.2.1 == lp && y.2.2.1 == k)) ++ [(n, lp, k, m2.data)]
        let s1 : State := { s with eft := { s.eft with parts := parts } }
        let s2 : State := { s with eft := { s.eft with parts := parts.filter (fun y => !(y.1 == n && y.2.1 == lp)) } }
        let bs := s1.pageBytes n lp q.geo.frames
        (q.st ≠ .mirror → does .replPage (s.replRefused p n)) ∧
        (q.st = .mirror → bs.length < q.geo.frames * 65536 → does .replPage s1) ∧
        (q.st = .mirror → q.geo.frames * 65536 ≤ bs.length →
          (s2.storePage p n lp bs = none → does .replPage (s2.ackPage m2 lp .capacity)) ∧
          (∀ r0, q.runs = [r0] → r0.lpage ≤ lp → lp < r0.lpage + r0.count → r0.st = .priv → q.runFrames ≠ [] →
            mapRow (r0.frameAt q.geo.frames lp * 65536) ≠ .host → ∃ u : State,
            does .replPage (u.ackPage m2 lp .ok) ∧ u.seq n = { q with replpos := q.pos0 + (lp + 1) * q.geo.pp } ∧
            u.mem.loc = s.mem.loc.store (r0.frameAt q.geo.frames lp * 65536) bs ∧ u.eft = s2.eft) ∧
          (∀ r0 f, q.runs = [r0] → r0.lpage = lp → r0.count = 1 → r0.st = .shared → 1 < Tab.get 0 s.kv.refs r0.frame → q.runFrames ≠ [] →
            s2.findFrames p q.geo.tier q.geo.frames = some f → mapRow (f * 65536) ≠ .host → ∃ u : State,
            does .replPage (u.ackPage m2 lp .ok) ∧ u.eft = s2.eft ∧
            u.seq n = { q with runs := [{ r0 with st := .priv, frame := f }], replpos := q.pos0 + (lp + 1) * q.geo.pp } ∧
            (bs.length = q.geo.frames * 65536 → s.mem.loc.wf = true → (∀ y ∈ q.runFrames, y + 1 ≤ f ∨ f + q.geo.frames ≤ y) →
              u.mem.loc.load (f * 65536) bs.length = bs)))) ∧
      (m.typ = 0x32 →
        let child := m2.addr / 2 ^ 18 % 2 ^ 18
        let at_ := max q.pos0 (min m2.aux q.replpos)
        ((q.st ≠ .mirror ∨ (s.seq child).st ≠ .mirror) → does .replFork (s.replRefused p child)) ∧
        (q.st = .mirror → (s.seq child).st = .mirror →
          (∀ e, (s.freeSeq child).forkSeqs p q at_ (bit m2.addr 36) = .error e → does .replFork (s.replRefused p child)) ∧
          (∀ y, (s.freeSeq child).forkSeqs p q at_ (bit m2.addr 36) = .ok y → ∃ u, does .replFork u ∧ (u.seq child).st = .mirror ∧
            (u.seq child).replpos = at_ ∧ (u.seq child).length = at_ ∧ u.eft = s.eft))) ∧
      (m.typ = 0x33 →
        (q.st ≠ .mirror → does .replEvict (s.replRefused p n)) ∧
        (q.st = .mirror → ∀ u, s.evictGroup p n m2.aux = some u → does .replEvict u) ∧
        (q.st = .mirror → s.evictGroup p n m2.aux = none → does .replEvict (s.replRefused p n))) ∧
      (m.typ = 0x34 →
        (q.st ≠ .mirror → does .replRelease (s.replRefused p n)) ∧
        (q.st = .mirror → ∃ u, does .replRelease u ∧ u.seq n = .free ∧ u.eft = s.eft ∧ u.queues = s.queues)) ∧
      (m.typ = 0x35 →
        (m2.status ≠ 0 → does .replAck (s.replRefused p n)) ∧
        (m2.status = 0 → q.st = .live → q.nextRepl m2.aux = true → ∃ u, does .replAck u ∧
          u.seq n = { q with replpos := q.pos0 + (m2.aux + 1) * q.geo.pp } ∧ u.mem = s.mem ∧ u.eft = s.eft) ∧
        (m2.status = 0 → (q.st ≠ .live ∨ q.nextRepl m2.aux = false) → does .replAck s)))

/-- Device time: a child asks its parent once a microsecond and a LOCKED module answers; the answer moves the count, the time state and the
offset as Table 16-1 says; 8 µs without an answer are HOLDOVER, and a deterministic partition is aligned while no
command of it runs (R453 to R456, R470). -/
def Obligations.TimeIsExchangedAndHeld : Prop :=
  (∀ t1 (s : State), s.trl.loaded = true → s.isRoot = false → (s.link s.parentPort).st = .up →
    (∀ a, s.time.lastReq = some a → a + 1000 ≤ s.now) →
    let n := (s.time.xchg + 1) % 2 ^ 64
    exec (.timeExchange t1) s = .next (({ s with time := { s.time with xchg := n, t1 := some t1, lastReq := some s.now } } : State).transmit s.parentPort
      ⟨s.timeMsg 0x10 (s.link s.parentPort).farmod n t1 [], none⟩)) ∧
  (∀ t1 (s : State), (s.trl.loaded = false ∨ s.isRoot = true ∨ (s.link s.parentPort).st ≠ .up ∨
    ∃ a, s.time.lastReq = some a ∧ s.now < a + 1000) → exec (.timeExchange t1) s = .next s) ∧
  (∀ port (m : LinkMsg) x t2 t3 (s : State), m.typ = 0x10 → port < 18 → s.rxTurn port m = some x →
    (s.time.st = .locked → exec (.treq port m t2 t3) s =
      .next ((s.rxDone port x).transmit port ⟨s.timeMsg 0x11 m.src m.addr t2 (leBytes 8 t3), none⟩)) ∧
    (s.time.st ≠ .locked → exec (.treq port m t2 t3) s = .next (s.rxDone port x))) ∧
  (∀ port (m : LinkMsg) x t1 t4 (s : State), m.typ = 0x11 → port < 18 → s.rxTurn port m = some x → s.time.t1 = some t1 →
    (s.isRoot = true ∨ port ≠ s.parentPort ∨ m.addr ≠ s.time.xchg → exec (.tresp port m t4) s = .next (s.rxDone port x)) ∧
    (s.isRoot = false → port = s.parentPort → m.addr = s.time.xchg → ∃ t, exec (.tresp port m t4) s = .next t ∧
      let off := timeOffset t1 m.aux (leAt m.data 0 8) t4
      let near := -64 ≤ off ∧ off ≤ 64
      t.time.offset = sat16 off ∧ t.time.t1 = none ∧ t.mem = s.mem ∧ t.queues = s.queues ∧ t.kv = s.kv ∧
      (s.time.st = .free → t.time.st = .locking ∧ t.time.now = stepCount s.now off) ∧
      (s.time.st = .locking → t.time.now = s.now ∧ t.time.lastResp = s.now ∧
        (¬ near → t.time.st = .locking ∧ t.time.good = 0) ∧ (near → s.time.good < 15 → t.time.st = .locking ∧ t.time.good = s.time.good + 1) ∧
        (near → 15 ≤ s.time.good → t.time.st = .locked ∧ t.trl.phase = if s.trl.phase = 7 then 9 else s.trl.phase)) ∧
      (s.time.st = .locked → t.time = { s.time with offset := sat16 off, t1 := none, lastResp := s.now }) ∧
      (s.time.st = .holdover → t.time.st = .locking ∧
        (-64000 ≤ off → off ≤ 64000 → t.time.now = s.now ∧ t.time.hold = s.time.hold) ∧
        (64000 < off → t.time.now = stepCount s.now off) ∧ (off < -64000 → t.time.now = s.now ∧ t.time.hold = (-off / 64).toNat)))) ∧
  (∀ s : State,
    (s.time.st = .locked → s.isRoot = false → s.time.lastResp + 8000 ≤ s.now → ∃ t, exec .holdoverTimeout s = .next t ∧
      t = { s with time := { s.time with st := .holdover }, sync := t.sync, obs := t.obs } ∧
      ∃ e rest, t.sync.trace = e :: rest ∧ e.kind = 7 ∧ e.id = 3) ∧
    (s.time.st ≠ .locked ∨ s.isRoot = true ∨ s.now < s.time.lastResp + 8000 → exec .holdoverTimeout s = .next s)) ∧
  (∀ p (s : State), p < 8 → p < s.parts.length → (s.partRec p).valid = true → (s.partRec p).det = true →
    (s.part p).needAlign = true → s.partRuns p = false → s.inReset = false → ∃ t, exec (.alignment p) s = .next t ∧
      t.part p = { s.part p with needAlign := false } ∧ (∀ k, k ≠ p → t.part k = s.part k) ∧ t = { s with parts := t.parts, sync := t.sync } ∧
      (s.inCloche p = false → ∃ e rest, t.sync.trace = e :: rest ∧ e.kind = 8 ∧ e.part = p ∧ e.time = s.now)) ∧
  (∀ p (s : State), ((s.part p).needAlign = false ∨ s.partRuns p = true ∨ (s.partRec p).det = false) → exec (.alignment p) s = .next s)

/-- Barriers: a BARRIER counts its module in at the next generation and waits outside its slot; a child's ARRIVE is counted
once, and a whole subtree's arrival goes on; the root's release comes LEAD µs later, goes to the children, and when its
time is there ends the wait; a timeout ends this module's wait alone, and a held LAUNCH first issues 1 µs after the release
(R460 to R467). -/
def Obligations.BarriersGatherAndRelease : Prop :=
  (∀ q f x ctx p (s : State), s.mayRun q (.barrier f) x ctx p →
    (s.plotOf p = none → exec (.barrier q f) s = .next (s.completeOk q .denied)) ∧
    (∀ r, s.plotOf p = some r → ∃ t, exec (.barrier q f) s = .next t ∧
      let key := barKey r.plot f.bid
      let k := ((s.bar key).next + 1) % 2 ^ 32
      let old := (s.bar key).genOf k
      let g := (t.bar key).genOf k
      (t.bar key).next = k ∧ g.own = true ∧ g.queue = some q ∧ g.members = old.members + 1 ∧ g.kids = old.kids ∧
      (old.members + 1 = r.barSize → old.sent = false → g.sent = true ∧
        (r.barRoot = true → ∃ rel, g.rel = some rel ∧ rel.rt = s.now + r.barLead * 1000 ∧ rel.strag = g.last)) ∧
      (∀ j, j ≠ key → t.bar j = s.bar j) ∧ (∀ j, j ≠ q → t.queue j = s.queue j) ∧ (∀ u ∈ t.slots, u.sel ≠ some q) ∧
      t.queue q = { s.queue q with
        running := some { x with started := true, waitUntil := if f.timeout = 0 then none else some (s.now + f.timeout * 1000) } })) ∧
  (∀ port (m : LinkMsg) x m2 r (s : State), m.typ = 0x12 → deliveredAs s port m x m2 r →
    let key := barKey r.plot (bits m2.addr 37 32)
    let old := (s.bar key).genOf (m2.addr % 2 ^ 32)
    (m2.src ∈ old.kids → exec (.arrive port m) s = .next (s.rxDone port x)) ∧
    (m2.src ∉ old.kids → ∃ t, exec (.arrive port m) s = .next t ∧
      let g := (t.bar key).genOf (m2.addr % 2 ^ 32)
      g.members = old.members + m2.aux % 2 ^ 32 ∧ g.kids = old.kids ++ [m2.src] ∧ g.own = old.own ∧ g.queue = old.queue ∧
      (t.bar key).next = (s.bar key).next ∧ ∀ j, j ≠ key → t.bar j = s.bar j)) ∧
  (∀ port (m : LinkMsg) x m2 r (s : State), m.typ = 0x13 → deliveredAs s port m x m2 r →
    let key := barKey r.plot (bits m2.addr 37 32)
    let k := m2.addr % 2 ^ 32
    ((∀ g ∈ (s.bar key).gens, g.gen = k → g.sent = false ∨ g.rel.isSome = true) ∨ r.barRoot = true →
      exec (.release port m) s = .next (s.rxDone port x)) ∧
    (∀ g, (s.bar key).gens.find? (fun y => y.gen == k) = some g → g.sent = true → g.rel = none → r.barRoot = false →
      ∃ t, exec (.release port m) s = .next t ∧ (∀ j, j ≠ key → t.bar j = s.bar j) ∧ (t.bar key).next = (s.bar key).next ∧
        (s.now ≤ m2.aux → (t.bar key).genOf k = { g with rel := some ⟨m2.aux, bits m2.addr 52 38, bit m2.addr 53, bits m2.addr 57 54, false⟩ } ∧
          t.queues = s.queues) ∧
        (m2.aux < s.now → ∀ y ∈ (t.bar key).gens, y.gen ≠ k))) ∧
  (∀ plot bid r (s : State), s.routeOf plot = some r →
    let due := (s.bar (barKey plot bid)).gens.filter (fun g => match g.rel with
      | some rel => decide (rel.rt ≤ s.now)
      | none => false)
    (due = [] → exec (.releaseApply plot bid) s = .next s) ∧
    (∀ g rest rel, due = g :: rest → g.rel = some rel → ∃ t, exec (.releaseApply plot bid) s = .next t ∧
      (∀ y ∈ (t.bar (barKey plot bid)).gens, y.gen ≠ g.gen) ∧ (∀ j, g.queue ≠ some j → t.queue j = s.queue j) ∧
      (∀ j y, g.queue = some j → (s.queue j).running = some y → y.owed = 0 → (t.queue j).running = none) ∧
      (∀ j y, g.queue = some j → (s.queue j).running = some y → y.owed ≠ 0 →
        (t.queue j).running = some { y with first := 0xFFFF, ending := some rel.rt }))) ∧
  (∀ q x f (s : State), (s.queue q).running = some x → x.cmd.body = .barrier f →
    (s.waitOver x = true → ∃ u : State, u = { s with sync := u.sync } ∧ (∀ j, ∀ g ∈ (u.bar j).gens, g.queue ≠ some q) ∧
      exec (.barrierTimeout q) s = .next (u.completeOk q .timeout)) ∧
    (s.waitOver x = false → exec (.barrierTimeout q) s = .next s)) ∧
  (∀ p l (s : State), p < 8 → (s.part p).launch = some l →
    ((l.notBefore = 0 ∨ s.now < l.notBefore) → exec (.barrierFirstIssue p) s = .next s) ∧
    (l.notBefore ≠ 0 → l.notBefore ≤ s.now → ∃ t, exec (.barrierFirstIssue p) s = .next t ∧ t = { s with regions := t.regions } ∧
      ∀ r, r < s.regions.length → t.region r = if r ∈ s.regionsOf p
        then { s.region r with firstIssue := some ((s.region r).firstIssue.getD l.notBefore) } else s.region r))

/-! Power, thermal control and reliability. -/

/-- Every group below 11 is at the level that it is to have, but for one whose aligned partition runs a command that holds it
(R478, R481). -/
def levelsFit (t : State) : Prop :=
  ∀ n, n < 11 → n < t.pwr.level.length → t.level n = t.levelTarget n ∨ (t.detRuns n = true ∧ t.forced n = false)

/-- The energies of a window's entries whose tag is the one given, with K in force. -/
def taggedEnergy (s : State) (es : List (PTag × Nat)) (tag : PTag) : Nat :=
  ((es.filter (fun x => decide (x.1 = tag))).map (fun x => s.withK x.2)).foldl (· + ·) 0

/-- A power step reads and restarts the blocks' product counts, adds its window's energy to the counters and to the control
power, and the first row of Table 17-5 that holds acts on the levels; telemetry sets K, DIVERGE and the values shown outside, a third lost window makes K 1.15, and a
write of ENERGY clears DIVERGE (R102, R483 to R488, R495, R496). -/
def Obligations.PowerManagerStepsAndCaps : Prop :=
  (∀ (counts : List PCount) (s : State), s.board.rails = true →
    let es := s.windowEnergy (counts ++ (List.range 8).flatMap s.productCounts)
    let e := es.foldl (fun n x => n + x.2) 0
    let pc := s.controlPower e
    let w := s.pwr
    ∃ t, exec (.powerStep counts) s = .next t ∧ t.mem = s.mem ∧ t.queues = s.queues ∧ t.kv = s.kv ∧
      (∀ r, r < s.regions.length → t.region r = { s.region r with
        blocks := (s.region r).blocks.map (fun b => { b with products := 0, gated := 0 }), clkAt := (t.region r).clkAt, clkUnits := (t.region r).clkUnits }) ∧
      t.pwr.ctrl = min 65535 (pc / 2560000) ∧ t.pwr.ewSum = w.ewSum + e ∧ t.pwr.ewSteps = w.ewSteps + 1 ∧ t.pwr.k = w.k ∧
      t.pwr.enMod = w.enMod + taggedEnergy s es .module_ ∧ (∀ q, Tab.get 0 t.pwr.enQ q = Tab.get 0 w.enQ q + taggedEnergy s es (.queue q)) ∧
      (w.level.length = 11 → w.mgr.length = 11 → (∀ n, n < 11 → s.level n = s.levelTarget n) →
        ((wattEnergy w.peak < pc ∨ (wattEnergy w.sust < pc ∧ ((∃ a, w.excurSince = some a ∧ a + 10000000 ≤ s.now) ∨
            ∃ a, w.excurEnd = some a ∧ s.now ≤ a + 40000000))) →
          ∀ n, n < 11 → t.level n = if s.detRuns n then s.level n else s.level n - 1) ∧
        (wattEnergy w.sust < pc → pc ≤ wattEnergy w.peak → (∀ a, w.excurSince = some a → s.now < a + 10000000) →
          (∀ a, w.excurEnd = some a → a + 40000000 < s.now) →
          (w.excurSince = none → t.pwr.excurSince = some s.now) ∧ (s.now < w.lastDrop + 1000 → t.pwr.level = w.level) ∧
          (∀ p, w.lastDrop + 1000 ≤ s.now → s.hungriest es = some p →
            t.pwr.lastDrop = s.now ∧ ∀ n, n < 11 → t.level n = if n = p then s.level n - 1 else s.level n)) ∧
        (pc ≤ wattEnergy w.sust → pc ≤ wattEnergy w.peak → (∃ p, p < 8 ∧ s.overLimit p = true) → ∀ n, n < 11 →
          t.level n = if n < 8 ∧ s.overLimit n = true ∧ Tab.get 0 w.limitDrop n + 1000 ≤ s.now ∧ s.detRuns n = false then s.level n - 1 else s.level n) ∧
        (∀ a, 100 * pc ≤ 95 * wattEnergy w.sust → pc ≤ wattEnergy w.peak → (∀ p, p < 8 → s.overLimit p = false) → w.lowSince = some a →
          a + 10000 ≤ s.now → w.lastRise + 10000 ≤ s.now → (∃ n, n < 11 ∧ s.mayRise n = true) →
          ∃ n, n < 11 ∧ s.mayRise n = true ∧ (∀ m, m < 11 → s.mayRise m = true → s.level n ≤ s.level m) ∧
            t.pwr.mgr = w.mgr.set n (w.mgr.getD n 0 + 1) ∧ t.pwr.lastRise = s.now))) ∧
  (∀ power vin (s : State), s.board.rails = true →
    let w := s.pwr
    let e := if w.ewSteps = 0 then 0 else w.ewSum / w.ewSteps
    let m := power * 2560000
    let divergent := m * 100 < 85 * e ∨ 115 * e < m * 100
    ∃ t, exec (.telemetryWindow power vin) s = .next t ∧ t.pwr.meas = power % 65536 ∧ t.pwr.mLast = power ∧ t.pwr.eLast = e ∧ t.pwr.vin = vin ∧
      t.pwr.telemlost = false ∧ t.pwr.missed = 0 ∧ t.pwr.ewSum = 0 ∧ t.pwr.ewSteps = 0 ∧
      (e ≠ 0 → t.pwr.k = max 13926 (min 18841 (m * 2 ^ 14 / e))) ∧ 13926 ≤ t.pwr.k ∧ t.pwr.k ≤ 18841 ∧
      (divergent → t.pwr.divStreak = w.divStreak + 1 ∧ t.pwr.okStreak = 0 ∧ t.pwr.diverge = (w.diverge || decide (10 ≤ w.divStreak + 1))) ∧
      (¬ divergent → t.pwr.divStreak = 0 ∧ t.pwr.okStreak = w.okStreak + 1 ∧ t.pwr.diverge = (w.diverge && decide (w.okStreak + 1 < 10))) ∧
      t.pwr.visMeas = power % 65536 / 100 * 100 ∧ t.pwr.visP = w.enP.map coarse ∧
      t.pwr.partPower = w.partAcc.map (fun x => if w.ewSteps = 0 then 0 else x / w.ewSteps) ∧ t.mem = s.mem ∧ t.queues = s.queues) ∧
  (∀ s : State, s.board.rails = true → ∃ t, exec .telemetryLost s = .next t ∧ t = { s with pwr := t.pwr } ∧ t.pwr.missed = s.pwr.missed + 1 ∧
    t.pwr.telemlost = (s.pwr.telemlost || decide (3 ≤ s.pwr.missed + 1)) ∧ (t.pwr.k = if 3 ≤ s.pwr.missed + 1 then 18841 else s.pwr.k) ∧ t.pwr.ewSteps = 0) ∧
  (∀ rq k (v : Word) (s : State), k < 11 → s.mayWrite rq (0xE0100 + 8 * k) → ∃ t, exec (.coefWrite rq k v) s = .next t ∧
    t.pwr = { s.pwr with coef := s.pwr.coef.set k (v.toNat % 2 ^ 24), divStreak := 0, okStreak := 0, diverge := false } ∧
    t = { s with pwr := t.pwr, obs := t.obs, out := t.out })

/-- Droop stretches a cycle and is reported; VR_ALERT_N takes every group to level 0 until 100 µs after it; a hot junction
lowers and a cool domain raises its cap, a trip takes its domain to level 0; a trim only increases; and overwintering is
entered, reached, left and completed (R482, R490 to R494, R497, R498). -/
def Obligations.AlertsHeatAndOverwinteringAct : Prop :=
  (∀ island mv (s : State), (mv ≤ 15 → exec (.droopDetect island mv) s = .next s) ∧
    (15 < mv → ∃ t, exec (.droopDetect island mv) s = .next t ∧
      t = { s with pwr := { s.pwr with stretched := t.pwr.stretched }, obs := t.obs, regions := t.regions } ∧
      (∀ r, r < s.regions.length → t.region r = if s.regionOfIsland island = some r
        then { s.region r with clkLost := (s.region r).clkLost + (if 45 < mv then 8000 else if 30 < mv then 4000 else 2000) } else s.region r) ∧
      ∀ k, Tab.get 0 t.pwr.stretched k = Tab.get 0 s.pwr.stretched k + (if k = island then 1 else 0))) ∧
  (∀ island (s : State), let ring := if island / 2 ^ 12 = 1 then island + 2 ^ 12 else island
    ∃ t, exec (.droopPersist island) s = .next t ∧ t = { s with obs := t.obs } ∧
      (s.withheld ring none = false → ∃ ev, (Tab.get .reset t.obs.rings ring).entries.head? = some ev ∧ ev.code = 0x62 ∧ ev.time = s.now)) ∧
  (∀ s : State, (s.board.rails = true → s.pwr.vra = false → s.pwr.level.length = 11 → ∃ t, exec .vrAlertAssert s = .next t ∧ t.pwr.vra = true ∧
      t.pwr.vrHold = false ∧ t.pwr.vrcount = min 255 (s.pwr.vrcount + 1) ∧ (∀ n, n < 11 → t.level n = 0 ∧ t.pwr.mgr.getD n 0 = 0) ∧
      bit t.host.irqStat 4 = true) ∧
    (s.pwr.vra = true → exec .vrAlertAssert s = .next s ∧
      exec .vrAlertRelease s = .next { s with pwr := { s.pwr with vra := false, vrHold := true, vrRelease := some s.now } }) ∧
    (s.pwr.vra = false → exec .vrAlertRelease s = .next s) ∧
    (∀ a, s.pwr.vrRelease = some a → s.pwr.vrHold = true →
      (s.now < a + 100000 → exec .vrHoldExpire s = .next s) ∧
      (a + 100000 ≤ s.now → ∃ t, exec .vrHoldExpire s = .next t ∧ t.pwr.vrHold = false ∧ levelsFit t))) ∧
  (∀ sensor reading (s : State), sensor < 84 → s.board.rails = true →
    let d := sensorDomain sensor
    let cap := s.pwr.therm.getD d 15
    ∃ t, exec (.thermalThrottle sensor reading) s = .next t ∧ t.pwr.sensors = s.pwr.sensors.set sensor reading ∧
      (sensor < 72 → s.pwr.throttle < reading → cap ≠ 0 → s.pwr.thermAt.getD d 0 + 100000 ≤ s.now →
        t.pwr.therm = s.pwr.therm.set d (cap - 1) ∧ t.pwr.thermAt = s.pwr.thermAt.set d s.now ∧ levelsFit t) ∧
      ((72 ≤ sensor ∨ reading ≤ s.pwr.throttle ∨ cap = 0 ∨ s.now < s.pwr.thermAt.getD d 0 + 100000) → t.pwr.therm = s.pwr.therm ∧ t.pwr.level = s.pwr.level) ∧
      (72 ≤ sensor → t.pwr.refresh2x = s.pwr.refresh2x.set (sensor - 72) (decide (85 < reading)) ∧
        t.pwr.halved = s.pwr.halved.set (sensor - 72) (decide (95 < reading)))) ∧
  (∀ domain (rs : List Nat) (s : State), domain < 3 → s.board.rails = true →
    let u := s.setReadings domain rs
    let cap := s.pwr.therm.getD domain 15
    let rises := cap < 15 ∧ u.coolTo domain (s.pwr.throttle - 5) = true ∧ s.pwr.thermAt.getD domain 0 + 1000000 ≤ s.now
    let cool := s.pwr.tripped.getD domain false = true ∧ u.coolTo domain (s.pwr.trip - 10) = true ∧
      ∀ i, i < 84 → 72 ≤ i → sensorDomain i = domain → u.pwr.sensors.getD i 0 ≤ 95
    u = { s with pwr := { s.pwr with sensors := u.pwr.sensors } } ∧
    (¬ rises → exec (.thermalCapRise domain rs) s = .next u) ∧
    (rises → ∃ t, exec (.thermalCapRise domain rs) s = .next t ∧ t.pwr.sensors = u.pwr.sensors ∧
      t.pwr.therm = s.pwr.therm.set domain (cap + 1) ∧ t.pwr.thermAt = s.pwr.thermAt.set domain s.now ∧ levelsFit t) ∧
    (¬ cool → exec (.thermalTripClear domain rs) s = .next u) ∧
    (cool → ∃ t, exec (.thermalTripClear domain rs) s = .next t ∧ t.pwr.sensors = u.pwr.sensors ∧
      t.pwr.tripped = s.pwr.tripped.set domain false ∧ levelsFit t)) ∧
  (∀ sensor reading (s : State), sensor < 84 → s.board.rails = true →
    let d := sensorDomain sensor
    let trip := if sensor < 72 then s.pwr.trip else 105
    ∃ t, exec (.thermalTrip sensor reading) s = .next t ∧ t.pwr.sensors = s.pwr.sensors.set sensor reading ∧
      ((reading ≤ trip ∨ s.pwr.tripped.getD d false = true) → t.pwr.tripped = s.pwr.tripped ∧ t.pwr.level = s.pwr.level) ∧
      (trip < reading → s.pwr.tripped = [false, false, false] → s.pwr.level.length = 11 →
        t.pwr.tripped = [false, false, false].set d true ∧ levelsFit t ∧ ∀ n, n < 11 → d ∈ s.domainsOf n → t.level n = 0)) ∧
  (∀ island n (slack : Int) (s : State), s.board.rails = true →
    let old := Tab.get 0 s.pwr.trims island
    (old < n → n ≤ 24 → exec (.ageingTrim island n slack) s = .next { s with pwr := { s.pwr with
      trims := Tab.set 0 s.pwr.trims island n, trimLog := (⟨s.now, island, old, n, slack⟩ :: s.pwr.trimLog).take 1024 } }) ∧
    ((n ≤ old ∨ 24 < n) → exec (.ageingTrim island n slack) s = .next s)) ∧
  (∀ rq (s : State), s.mayWrite rq 0xE0018 →
    (s.pwr.ow = .serving → exec (.owEnter rq) s = .next { s with pwr := { s.pwr with ow := .entering } }) ∧
    (s.pwr.ow ≠ .serving → exec (.owEnter rq) s = .next (s.discard 0x21 0xE0018)) ∧
    ((s.pwr.ow = .entering ∨ s.pwr.ow = .overwintering) → exec (.wake rq) s = .next { s with pwr := { s.pwr with ow := .waking } }) ∧
    ((s.pwr.ow = .serving ∨ s.pwr.ow = .waking) → exec (.wake rq) s = .next (s.discard 0x21 0xE0018))) ∧
  (∀ s : State,
    (s.pwr.ow = .entering → (∀ q, (s.queue q).running = none) → s.pwr.level.length = 11 → ∃ t, exec .overwinterReached s = .next t ∧ t.pwr.ow = .overwintering ∧
      t.mem = { s.mem with selfRefresh := true, wokenUntil := none } ∧ (∀ n, n < 11 → t.level n = 0) ∧ t.queues = s.queues ∧ t.kv = s.kv ∧
      ∀ r, r < s.regions.length → t.region r = { s.region r with
        rlc := [], plans := [], walk := none, clkAt := (t.region r).clkAt, clkUnits := (t.region r).clkUnits }) ∧
    ((s.pwr.ow ≠ .entering ∨ ∃ q, q < 516 ∧ (s.queue q).running.isSome = true) → exec .overwinterReached s = .next s) ∧
    (s.pwr.ow = .waking → ∃ t, exec .wakeComplete s = .next t ∧ t.pwr.ow = .serving ∧ t.mem = { s.mem with selfRefresh := false, wokenUntil := none } ∧
      levelsFit t ∧ ∀ p, p < 8 → p < s.parts.length → (s.partRec p).valid = true → (s.partRec p).det = true → (t.part p).needAlign = true) ∧
    (s.pwr.ow ≠ .waking → exec .wakeComplete s = .next s) ∧
    (∀ n, exec (.retentionScrub [] n) s = .next s) ∧
    (∀ b bs n, s.pwr.ow = .overwintering → ∃ u, exec (.retentionScrub [b] n) s = .next u ∧
      exec (.retentionScrub (b :: bs) n) s = exec (.retentionScrub bs n) u) ∧
    (∀ a tier n, s.pwr.ow = .overwintering → ∃ t, exec (.retentionScrub [(a, tier)] n) s = .next t ∧
      t = { s with mem := { s.mem with errlog := t.mem.errlog, errLost := t.mem.errLost }, obs := t.obs, host := t.host, out := t.out } ∧
      ∃ e, t.mem.errlog.head? = some e ∧ e.addr ≤ a ∧ e.source = 3 ∧ e.tier = tier ∧ e.last = s.now) ∧
    (∀ a, s.mem.wokenUntil = some a → s.mem.selfRefresh = true →
      (a ≤ s.now → exec .selfRefreshReenter s = .next { s with mem := { s.mem with wokenUntil := none } }) ∧
      (s.now < a → exec .selfRefreshReenter s = .next s)))

/-- A trigger of Table 18-2 holds of a unit: of a column, a block or a region by the faults that the module has counted, of a
shed unit by its faults of the last 24 h, of a die-to-die unit, an SRAM bank or a cellar row by what its controller counted. -/
def repairDue (s : State) (unit hard soft : Nat) : Prop :=
  match unit / 2 ^ 28 with
  | 1 | 2 | 3 => s.qualifies unit hard soft = true
  | 4 => 2 ≤ (s.faults24 unit).length ∨ 64 ≤ (s.faults24 (besideKey unit)).length
  | 5 => 2 ≤ hard ∨ 64 ≤ soft
  | 6 => 1 ≤ hard ∨ 1024 < soft
  | 7 => 1 ≤ hard ∨ 16 ≤ soft
  | _ => False

/-- Repair: where a trigger holds, a decision enters the pending list with or without a spare, a second column of a block
becomes a spare-block decision, and a decided column mapping takes effect in a block that holds no row in flight; a self-test
slice is counted, marks a spare that fails and makes an aligned partition align; a die-to-die lane takes its spare, and a lane
beyond the spares or an eighth failed packet begins a device reset (R502, R504 to R509, R515). -/
def Obligations.RepairsAreDecidedAndApplied : Prop :=
  (∀ unit hard soft (s : State), s.sec.fwok = true → repairDue s unit hard soft → (∀ e ∈ s.rel.pending, e.unit = unit → e.st = 1) →
    let decides := fun (u : State) (un n : Nat) =>
      let spare := u.spareLeft un
      let st := if spare then 0 else 3
      ∃ t, exec (.repairDecide unit hard soft) s = .next t ∧ t = { s with rel := t.rel, obs := t.obs, host := t.host, out := t.out } ∧
        t.rel.exhaust = (s.rel.exhaust || !spare) ∧ (spare = false → bit t.host.irqStat 5 = true) ∧
        (u.rel.pending.length < 256 → t.rel.pending = u.rel.pending ++ [⟨s.now, un / 2 ^ 28, st, n % 65536, un⟩]) ∧
        (256 ≤ u.rel.pending.length → t.rel.pending = u.rel.pending ∧ t.rel.full = true)
    ((unit / 2 ^ 28 ≠ 1 ∨ s.rel.waitingColumn unit = none) → decides s (s.decisionUnit unit) (s.faultCount unit hard soft)) ∧
    (∀ e, unit / 2 ^ 28 = 1 → s.rel.waitingColumn unit = some e →
      decides { s with rel := { s.rel with pending := s.rel.pending.filter (fun x => x != e) } } (blockOfUnit unit)
        (e.count + s.faultCount unit hard soft))) ∧
  (∀ unit hard soft (s : State), (s.sec.fwok = false ∨ ¬ repairDue s unit hard soft ∨ ∃ e ∈ s.rel.pending, e.unit = unit ∧ e.st ≠ 1) →
    exec (.repairDecide unit hard soft) s = .next s) ∧
  (∀ die region block (s : State),
    let base := unitColumn die region block 0
    let found := s.rel.pending.find? (fun e => e.kind == 1 && e.st == 0 && e.unit / 2 ^ 20 == base / 2 ^ 20)
    (found = none → exec (.spareColumnMap die region block) s = .next s) ∧
    (∀ e, found = some e →
      let busy := ∃ r p, s.logicalRegion die region = some r ∧ s.partOfRegion r = some p ∧ (s.part p).launch.isSome = true
      let mapped := ∃ y ∈ s.trl.st.entries, y.action = 0 ∧ y.unit / 2 ^ 20 = e.unit / 2 ^ 20
      (busy ∨ mapped ∨ 8 ≤ bits e.unit 19 16 → exec (.spareColumnMap die region block) s = .next s) ∧
      (¬ busy → ¬ mapped → bits e.unit 19 16 < 8 → ∃ t, exec (.spareColumnMap die region block) s = .next t ∧
        t.trl.st.entries = s.trl.st.entries ++ [⟨e.unit, 0⟩] ∧ t.rel.applied = min 0xFFFF (s.rel.applied + 1) ∧
        t.rel.pending = s.rel.pending.map (fun y => if y.unit = e.unit ∧ y.st ≠ 3 then { y with st := 1 } else y) ∧
        bit t.host.irqStat 5 = true ∧ t.regions = s.regions ∧ t.mem = s.mem))) ∧
  (∀ unit pass (s : State), s.sec.fwok = true → s.inReset = false →
    (s.trl.loaded = false → (pass = true ∨ unit ∈ s.rel.failedUnits → exec (.selftestSlice unit pass) s = .next s) ∧
      (pass = false → unit ∉ s.rel.failedUnits → exec (.selftestSlice unit pass) s =
        .next { s with rel := { s.rel with failedUnits := s.rel.failedUnits ++ [unit] } })) ∧
    (s.trl.loaded = true → (s.rel.stEn = false ∨ s.sliceOk unit = false → exec (.selftestSlice unit pass) s = .next s) ∧
      (s.rel.stEn = true → s.sliceOk unit = true → ∃ t, exec (.selftestSlice unit pass) s = .next t ∧ t.rel.slices = (s.rel.slices + 1) % 2 ^ 32 ∧
        (t.rel.fails = if pass then s.rel.fails else min 0xFFFF (s.rel.fails + 1)) ∧ (t.rel.last = if pass then s.rel.last else unit / 2 ^ 16 % 2 ^ 16) ∧
        t.mem = s.mem ∧ t.queues = s.queues ∧
        (s.servesAs unit = none → t.regions = s.regions ∧ (pass = false → s.rel.pending.length < 256 →
          t.rel.pending = s.rel.pending ++ [⟨s.now, unit / 2 ^ 28, 3, 1, unit⟩])) ∧
        (∀ r, s.servesAs unit = some r → (∀ k, k ≠ r → t.region k = s.region k) ∧ (t.region r).sram = (s.region r).sram ∧ t.rel.pending = s.rel.pending) ∧
        ∀ r p, s.servesAs unit = some r → s.partOfRegion r = some p → p < s.parts.length → (s.partRec p).det = true → (t.part p).needAlign = true))) ∧
  (∀ link lane (s : State), link < 3 → s.board.rails = true → ∃ t, exec (.dieLinkLaneSpare link lane) s = .next t ∧
    let n := Tab.get 0 s.rel.dieBad link + 1
    Tab.get 0 t.rel.dieBad link = n ∧ (∀ k, k ≠ link → Tab.get 0 t.rel.dieBad k = Tab.get 0 s.rel.dieBad k) ∧
    (Config.dieSpares link < n → t.inReset = true ∧ t.rel.resets.trig = 6 ∧ t.rel.resets.detail = (if link = 2 then 1 else 0) * 2 ^ 8 + link ∧
      t.rel.pending = s.rel.pending) ∧
    (n ≤ Config.dieSpares link → t.rel.resets = s.rel.resets ∧ t.rel.applied = min 0xFFFF (s.rel.applied + 1) ∧ bit t.host.irqStat 5 = true ∧
      (s.rel.pending.length < 256 → ∃ e, t.rel.pending.getLast? = some e ∧ e.kind = 8 ∧ e.st = 1 ∧ e.unit = 8 * 2 ^ 28 + link * 2 ^ 26 + lane % 2 ^ 26))) ∧
  (∀ die segment attempts (s : State), die < 2 → segment < 9 → s.board.rails = true → ∃ t, exec (.dieNetworkRetry die segment attempts) s = .next t ∧
    (∀ k, Tab.get 0 t.rel.retries k = Tab.get 0 s.rel.retries k + (if k = die * 16 + segment then 1 else 0)) ∧ t.mem = s.mem ∧
    (8 ≤ attempts → t.inReset = true ∧ t.rel.resets.trig = 6 ∧ t.rel.resets.detail = die * 2 ^ 8 + segment) ∧
    (attempts < 8 → t.rel.resets = s.rel.resets))

/-! The machine as a whole. -/

/-- A step takes the command at the front of the queue and is its effect on the state with the queue's rest. With no
command waiting it is a nanosecond of device time, which stands still while no rail is up or a holdover holds it: the
model's choice (log 2). -/
def Obligations.StepTakesTheFrontCommand : Prop :=
  (∀ c rest (s : State), s.pending = c :: rest → step s = exec c { s with pending := rest }) ∧
  (∀ s : State, s.pending = [] →
    (s.board.rails = true → s.time.hold = 0 → step s = .next { s with time := { s.time with now := (s.now + 1) % 2 ^ 64 } }) ∧
    (s.board.rails = true → s.time.hold ≠ 0 → step s = .next { s with time := { s.time with hold := s.time.hold - 1 } }) ∧
    (s.board.rails = false → step s = .next s))

/-- Every command answers a next state, which has the same commands waiting: nothing stops a run (log 1), and no command
adds to or takes from the queue. -/
def Obligations.EveryCommandAnswersAndLeavesTheQueue : Prop :=
  ∀ i (s : State), ∃ t, exec i s = .next t ∧ t.pending = s.pending

/-- The module before input power: queues DISABLED and empty, slots free, links DOWN, device time FREE at 0, no image, no
level above 0, the registers at their Reset values, memories with nothing listed and in canonical form, private
modes closed, no command waiting (R13, R369). -/
def Obligations.ResetLeavesTheGivenState : Prop :=
  let s := State.reset
  (∀ q, (s.queue q).state = .disabled ∧ (s.queue q).running = none ∧ (s.queue q).fetched = [] ∧ (s.queue q).enable = false) ∧
  (∀ i, (s.slot i).sel = none) ∧ (∀ p, (s.link p).st = .down ∧ (s.link p).disable = false ∧ (s.link p).lthresh = 0x0400) ∧
  s.time.st = .free ∧ s.now = 0 ∧ s.trl.loaded = false ∧ s.trl.phase = 0 ∧ s.board.rails = false ∧ s.inReset = false ∧
  s.pwr.sust = 0x7D0 ∧ s.pwr.peak = 0x960 ∧ s.pwr.throttle = 0x5F ∧ s.pwr.trip = 0x69 ∧ (∀ n, s.level n = 0) ∧
  s.eft.twin.auto = true ∧ s.rel.stEn = true ∧ s.rel.stPeriod = 0x3E8 ∧ s.mem.hotThresh = 0x1000 ∧
  (∀ n, (s.seq n).st = .free) ∧ (∀ p e, (s.gen p e).st = .free) ∧ (∀ p, (s.cloche p).st = .off) ∧
  s.mem.loc = [] ∧ s.pending = [] ∧ s.sec.privopen = false ∧ s.memWf = true ∧ s.trustInv

/-- Private modes are open only on a part whose OPENED fuse is blown, and no step changes that (R540). -/
def Obligations.StepsKeepPrivateModesBehindTheFuse : Prop :=
  ∀ s t : State, s.trustInv → step s = .next t → t.trustInv

/-- The fuses of b are those of a with more of them blown: no SVN, unlock or revocation is taken back, a programmed digest
stays, and what is fixed at manufacture is the same. -/
def fusesRise (a b : Fuses) : Prop :=
  a.svn ≤ b.svn ∧ a.stepping = b.stepping ∧ a.privlock = b.privlock ∧ (a.opened = true → b.opened = true) ∧
  (a.unlocks ≤ 255 → a.unlocks ≤ b.unlocks ∧ b.unlocks ≤ 255) ∧
  b.vendor.map (·.digest) = a.vendor.map (·.digest) ∧ b.owner.length = a.owner.length ∧
  (∀ k, (a.vendor.getD k .blank).revoked = true → (b.vendor.getD k .blank).revoked = true) ∧
  (∀ k, (a.owner.getD k .blank).revoked = true → (b.owner.getD k .blank).revoked = true) ∧
  ∀ k, (a.owner.getD k .blank).programmed = true → (b.owner.getD k .blank).digest = (a.owner.getD k .blank).digest

/-- A fuse that is blown stays blown: no step, power loss and reset included, takes one back (R536, R538 to R540). -/
def Obligations.StepsOnlyBlowFuses : Prop :=
  ∀ s t : State, step s = .next t → fusesRise s.sec.fuses t.sec.fuses

/-- Region instructions and their 128-bit words agree: every well-formed instruction, with its MV bit, is what its word
spells, and a word that spells an instruction is that instruction's word (R146, R170). -/
def Obligations.RegionWordsAndInstructionsAgree : Prop :=
  (∀ i : RInstr, i.wf = true → RInstr.decode i.encode = some i) ∧
  (∀ (w : Nat) (i : RInstr), w < 2 ^ 128 → RInstr.decode w = some i → i.encode = w ∧ i.wf = true)
end

