-- ==== Sys2Proof/Laws/Keeps.lean ====
section
/-! SUPPORT. What each function of the model leaves alone: the commands that wait, the fuses and the private modes. One
lemma per function, f_keeps, with f_gives for one that answers a pair; a function that takes another function asks the
same of it. SvnRises is the one exception below the commands: a write of SVNCOMMIT. -/
namespace Sys2Proof.Machine
set_option Elab.async false
set_option linter.unusedSimpArgs false
set_option linter.unusedVariables false

/-- t has the commands, the fuses and the private modes of s. -/
abbrev Keeps (s t : State) : Prop :=
  t.pending = s.pending ∧ t.sec.fuses = s.sec.fuses ∧ t.sec.privopen = s.sec.privopen
theorem Keeps.rfl (s : State) : Keeps s s := ⟨.refl _, .refl _, .refl _⟩
theorem Keeps.trans {s t u : State} (h : Keeps s t) (k : Keeps t u) : Keeps s u :=
  ⟨k.1.trans h.1, k.2.1.trans h.2.1, k.2.2.trans h.2.2⟩
theorem foldl_keeps {α : Type} (l : List α) (f : State → α → State) (s : State) (h : ∀ s a, Keeps s (f s a)) :
    Keeps s (l.foldl f s) := by
  induction l generalizing s with
  | nil => exact .rfl s
  | cons a l ih => rw [List.foldl_cons]; exact (h s a).trans (ih _)
theorem checked_bind_keeps {α β : Type} (s : State) (x : Checked α) (f : α → State → Checked β) (h : Keeps s x.2)
    (k : ∀ a u, Keeps s u → Keeps s (f a u).2) : Keeps s (x.bind f).2 := by
  unfold Checked.bind
  split
  · exact k _ _ h
  · exact h
@[simp] theorem foldl_pending {α : Type} (l : List α) (f : State → α → State) (s : State)
    (h : ∀ s a, (f s a).pending = s.pending) : (l.foldl f s).pending = s.pending := by
  induction l generalizing s with
  | nil => rfl
  | cons a l ih => rw [List.foldl_cons]; exact (ih _).trans (h s a)
@[simp] theorem foldl_fuses {α : Type} (l : List α) (f : State → α → State) (s : State)
    (h : ∀ s a, (f s a).sec.fuses = s.sec.fuses) : (l.foldl f s).sec.fuses = s.sec.fuses := by
  induction l generalizing s with
  | nil => rfl
  | cons a l ih => rw [List.foldl_cons]; exact (ih _).trans (h s a)
@[simp] theorem foldl_privopen {α : Type} (l : List α) (f : State → α → State) (s : State)
    (h : ∀ s a, (f s a).sec.privopen = s.sec.privopen) : (l.foldl f s).sec.privopen = s.sec.privopen := by
  induction l generalizing s with
  | nil => rfl
  | cons a l ih => rw [List.foldl_cons]; exact (ih _).trans (h s a)
@[simp] theorem ite_pending (c : Prop) [Decidable c] (a b : State) :
    (if c then a else b).pending = if c then a.pending else b.pending := by split <;> rfl
@[simp] theorem ite_fuses (c : Prop) [Decidable c] (a b : State) :
    (if c then a else b).sec.fuses = if c then a.sec.fuses else b.sec.fuses := by split <;> rfl
@[simp] theorem ite_privopen (c : Prop) [Decidable c] (a b : State) :
    (if c then a else b).sec.privopen = if c then a.sec.privopen else b.sec.privopen := by split <;> rfl

@[simp] theorem setPart_keeps (s : State) (a1 : Nat) (a2 : Part) : Keeps s (State.setPart s a1 a2) := by simp [Keeps, State.setPart]
@[simp] theorem dropOwner_keeps (s : State) (a1 : ReqOwner) : Keeps s (State.dropOwner s a1) := by simp [Keeps, State.dropOwner]
@[simp] theorem setCloche_keeps (s : State) (a1 : Nat) (a2 : Cloche) : Keeps s (State.setCloche s a1 a2) := by simp [Keeps, State.setCloche]
@[simp] theorem writeLocal_keeps (s : State) (a1 : Nat) (a2 : List Byte) : Keeps s (State.writeLocal s a1 a2) := by
  simp [Keeps, State.writeLocal]
@[simp] theorem setBoard_keeps (s : State) (a1 : Board → Board) : Keeps s (State.setBoard s a1) := by simp [Keeps, State.setBoard]
@[simp] theorem setLink_keeps (s : State) (a1 : Nat) (a2 : Link) : Keeps s (State.setLink s a1 a2) := by simp [Keeps, State.setLink]
@[simp] theorem sendRecords_keeps (s : State) (a1 : Nat) (a2 : Nat) (a3 : Nat) (a4 : List (Nat × Nat × List Byte)) : Keeps s (State.sendRecords s a1 a2 a3 a4) := by
  simp [Keeps, State.sendRecords]
@[simp] theorem freeSlot_keeps (s : State) (a1 : Nat) : Keeps s (State.freeSlot s a1) := by simp [Keeps, State.freeSlot]
@[simp] theorem setRegion_keeps (s : State) (a1 : Nat) (a2 : Region) : Keeps s (State.setRegion s a1 a2) := by simp [Keeps, State.setRegion]
theorem withFetchWord_nothing (s : State) (n w : Nat) : s.withFetchWord n w = s := rfl
@[simp] theorem emit_keeps (s : State) (a1 : Out) : Keeps s (State.emit s a1) := by simp [Keeps, State.emit]
theorem replStep_keeps (port : Nat) (f : Nat → LinkMsg → State → State) (m : LinkMsg) (r : RoutingRec) (s : State) (h : ∀ p m s, Keeps s (f p m s)) :
    Keeps s (State.replStep port f m r s).2 := by
  unfold State.replStep
  dsimp only
  split
  · exact h ..
  · exact .rfl s
@[simp] theorem refUp_keeps (s : State) (a1 : Nat) (a2 : Nat) : Keeps s (State.refUp s a1 a2) := by simp [Keeps, State.refUp]
@[simp] theorem wakeMem_keeps (s : State) : Keeps s (State.wakeMem s) := by simp [Keeps, State.wakeMem]
@[simp] theorem wakeUp_keeps (s : State) : Keeps s (State.wakeUp s) := by
  unfold State.wakeUp
  repeat' (first | (simp [Keeps, *]; done) | split)
@[simp] theorem fwStart_keeps (s : State) (a1 : List Byte) : Keeps s (State.fwStart s a1) := by simp [Keeps, State.fwStart]
@[simp] theorem setSlot_keeps (s : State) (a1 : Nat) (a2 : Slot) : Keeps s (State.setSlot s a1 a2) := by simp [Keeps, State.setSlot]
@[simp] theorem need_keeps (a0 : Bool) (a1 : Status) (s : State) : Keeps s (need a0 a1 s).2 := by simp [Keeps, need]
theorem need_gives (a0 : Bool) (a1 : Status) (s : State) {x0 z} (h : (need a0 a1 s) = (x0, z)) : Keeps s z := by
  have k := need_keeps a0 a1 s
  rw [h] at k
  exact k
@[simp] theorem event_keeps (s : State) (a1 : Nat) (a2 : Nat) (a3 : Option Nat) (a4 : Option Nat) (a5 : Nat) : Keeps s (State.event s a1 a2 a3 a4 a5) := by
  simp [Keeps, State.event]
@[simp] theorem setGen_keeps (s : State) (a1 : Nat) (a2 : Nat) (a3 : Gen) : Keeps s (State.setGen s a1 a2 a3) := by
  simp [Keeps, State.setGen]
theorem nextOf_keeps (r : Res) (u s : State) (h : ∃ t, r = .next t ∧ Keeps s t) : Keeps s (nextOf r u) := by
  obtain ⟨t, rfl, k⟩ := h
  exact k
@[simp] theorem setRel_keeps (s : State) (a1 : Rel18 → Rel18) : Keeps s (State.setRel s a1) := by simp [Keeps, State.setRel]
@[simp] theorem setTwin_keeps (s : State) (a1 : Twin → Twin) : Keeps s (State.setTwin s a1) := by simp [Keeps, State.setTwin]
@[simp] theorem draw_keeps (s : State) : Keeps s (State.draw s).2 := by simp [Keeps, State.draw]
theorem draw_gives (s : State) {x0 z} (h : (State.draw s) = (x0, z)) : Keeps s z := by have k := draw_keeps s; rw [h] at k; exact k
@[simp] theorem countFault_keeps (s : State) (a1 : Nat) : Keeps s (State.countFault s a1) := by simp [Keeps, State.countFault]
@[simp] theorem setPwr_keeps (s : State) (a1 : Pwr → Pwr) : Keeps s (State.setPwr s a1) := by simp [Keeps, State.setPwr]
@[simp] theorem newRepair_keeps (s : State) : Keeps s (State.newRepair s) := by simp [Keeps, State.newRepair]
@[simp] theorem setBar_keeps (s : State) (a1 : Nat) (a2 : Bar) : Keeps s (State.setBar s a1 a2) := by simp [Keeps, State.setBar]
@[simp] theorem hostStores_keeps (s : State) (a1 : List Host.Cell) : Keeps s (State.hostStores s a1) := by simp [Keeps, State.hostStores]
@[simp] theorem zeroSpan_keeps (s : State) (a1 : Nat × Nat) : Keeps s (State.zeroSpan s a1) := by simp [Keeps, State.zeroSpan]
@[simp] theorem restartCounts_keeps (s : State) : Keeps s (State.restartCounts s) := by simp [Keeps, State.restartCounts]
@[simp] theorem setMsix_keeps (s : State) (a1 : Nat) (a2 : Msix) : Keeps s (State.setMsix s a1 a2) := by simp [Keeps, State.setMsix]
@[simp] theorem putQueue_keeps (s : State) (a1 : Nat) : Keeps s (State.putQueue s a1) := by simp [Keeps, State.putQueue]
theorem acceptRecord_keeps (s : State) (a1 : Nat) (a2 : List Byte) : ∀ z0, (State.acceptRecord s a1 a2) = .ok z0 → Keeps s z0.2 := by
  unfold State.acceptRecord
  (repeat' split) <;> simp [Keeps] <;> (repeat' split) <;> simp [Keeps, *]
@[simp] theorem countRate_keeps (s : State) (a1 : Nat) (a2 : TxMsg) : Keeps s (State.countRate s a1 a2) := by
  unfold State.countRate
  repeat' (first | (simp [Keeps, *]; done) | split)
@[simp] theorem cacheBlock_keeps (s : State) (a1 : Nat) (a2 : Nat) (a3 : Nat) (a4 : List Byte) : Keeps s (State.cacheBlock s a1 a2 a3 a4) := by
  simp [Keeps, State.cacheBlock]
@[simp] theorem refDown_keeps (s : State) (a1 : Nat) (a2 : Nat) : Keeps s (State.refDown s a1 a2) := by simp [Keeps, State.refDown]
theorem kvRows_keeps (g : State → Nat → Status × State) (is : List Nat) (s : State) (h : ∀ s i, Keeps s (g s i).2) :
    Keeps s (State.kvRows g is s).2 := by
  induction is generalizing s with
  | nil => exact .rfl s
  | cons i is ih => exact .trans (h s i) (ih _)
@[simp] theorem setQueue_keeps (s : State) (a1 : Nat) (a2 : Queue) : Keeps s (State.setQueue s a1 a2) := by simp [Keeps, State.setQueue]
@[simp] theorem setSeq_keeps (s : State) (a1 : Nat) (a2 : Seq) : Keeps s (State.setSeq s a1 a2) := by simp [Keeps, State.setSeq]
theorem encrypt_keeps (s : State) (a1 : LinkMsg) : ∀ z0, (State.encrypt s a1) = some z0 → Keeps s z0.2 := by
  unfold State.encrypt
  (repeat' split) <;> simp [Keeps] <;> (repeat' split) <;> simp [Keeps, *]
@[simp] theorem putTable_keeps (s : State) (a1 : Nat) (a2 : List RangeEntry) : Keeps s (State.putTable s a1 a2) := by
  simp [Keeps, State.putTable]
@[simp] theorem setHalves_keeps (s : State) (a1 : Requester) (a2 : Halves) : Keeps s (State.setHalves s a1 a2) := by
  simp [Keeps, State.setHalves]
@[simp] theorem bumpLane_keeps (s : State) (a1 : Nat) (a2 : List Nat) (a3 : Nat) (a4 : Nat) : Keeps s (State.bumpLane s a1 a2 a3 a4) := by
  simp [Keeps, State.bumpLane]
theorem setSec_keeps (s : State) (f : Sec → Sec) (h : (f s.sec).fuses = s.sec.fuses) (k : (f s.sec).privopen = s.sec.privopen) :
    Keeps s (s.setSec f) := ⟨rfl, h, k⟩
@[simp] theorem noMemory_keeps {α : Type} (s : State) (b : Build) : Keeps s (s.noMemory b (α := α)).2 := by simp [Keeps, State.noMemory]
theorem powerOff_keeps (s : State) : s.powerOff.pending = s.pending ∧ s.powerOff.sec.fuses = s.sec.fuses ∧ s.powerOff.sec.privopen = false :=
  ⟨rfl, rfl, rfl⟩
@[simp] theorem startReset_keeps (s : State) (a1 : Nat) (a2 : Nat) (a3 : Nat) (a4 : Nat) (a5 : Nat) (a6 : Nat) : Keeps s (State.startReset s a1 a2 a3 a4 a5 a6) := by
  simp [Keeps, State.startReset]
@[simp] theorem snapshot_keeps (s : State) (a1 : Nat) (a2 : Running) (a3 : Bool) (a4 : Nat) : Keeps s (State.snapshot s a1 a2 a3 a4) := by
  simp [Keeps, State.snapshot]
@[simp] theorem setObs_keeps (s : State) (a1 : Obs → Obs) : Keeps s (State.setObs s a1) := by simp [Keeps, State.setObs]
@[simp] theorem putHdm_keeps (s : State) (a1 : Nat) (a2 : Nat) (a3 : Nat) : Keeps s (State.putHdm s a1 a2 a3) := by
  unfold State.putHdm
  repeat' (first | (simp [Keeps, *]; done) | split)
@[simp] theorem spareShares_keeps (s : State) (s1 : State) : Keeps s (State.spareShares s s1) := by
  unfold State.spareShares
  (repeat' split) <;> simp [Keeps] <;> (repeat' split) <;> simp [Keeps, *]
@[simp] theorem setBuild_keeps (s : State) (a1 : Build) : Keeps s (State.setBuild s a1) := by simp [Keeps, State.setBuild]
@[simp] theorem pushTrace_keeps (s : State) (a1 : STrace) : Keeps s (State.pushTrace s a1) := by simp [Keeps, State.pushTrace]
@[simp] theorem dropFetched_keeps (s : State) (a1 : ReqOwner) : Keeps s (State.dropFetched s a1) := by simp [Keeps, State.dropFetched]
@[simp] theorem idle_keeps (s : State) : Keeps s (idle s) := by simp [Keeps, idle]
theorem bulkFrame_keeps (s : State) (op : Nat) (x : BulkHdr) (f : State → State) (h : Keeps s (f s)) : Keeps s (s.bulkFrame op x f) := by
  unfold State.bulkFrame
  (repeat' split) <;> first | exact .rfl s | exact h | exact emit_keeps ..
@[simp] theorem rlcTouch_keeps (s : State) (a1 : Nat) (a2 : Nat) (a3 : LaunchRun) (a4 : Piece) : Keeps s (State.rlcTouch s a1 a2 a3 a4) := by
  simp [Keeps, State.rlcTouch]
@[simp] theorem placeRoot_keeps (s : State) (a1 : Build) (a2 : Nat) (a3 : Nat) (a4 : List Byte) (a5 : List Byte) : Keeps s (State.placeRoot s a1 a2 a3 a4 a5).2 := by
  unfold State.placeRoot
  (repeat' split) <;> simp [Keeps] <;> (repeat' split) <;> simp [Keeps, *]
theorem placeRoot_gives (s : State) (a1 : Build) (a2 : Nat) (a3 : Nat) (a4 : List Byte) (a5 : List Byte) {x0 z} (h : (State.placeRoot s a1 a2 a3 a4 a5) = (x0, z)) : Keeps s z := by
  have k := placeRoot_keeps s a1 a2 a3 a4 a5
  rw [h] at k
  exact k
@[simp] theorem idleFrame_keeps (s : State) (a1 : Nat) (a2 : Nat) : Keeps s (State.idleFrame s a1 a2) := by simp [Keeps, State.idleFrame]
@[simp] theorem sliceFails_keeps (s : State) (a1 : Nat) : Keeps s (State.sliceFails s a1) := by simp [Keeps, State.sliceFails]
@[simp] theorem passOver_keeps (s : State) (a1 : Nat) : Keeps s (State.passOver s a1) := by simp [Keeps, State.passOver]
@[simp] theorem markRelease_keeps (s : State) (a1 : Nat) (a2 : Nat) (a3 : Nat) : Keeps s (State.markRelease s a1 a2 a3) := by
  simp [Keeps, State.markRelease]
@[simp] theorem rootRelease_keeps (s : State) (a1 : RoutingRec) (a2 : BarGen) : Keeps s (State.rootRelease s a1 a2).2 := by
  unfold State.rootRelease
  repeat' (first | (simp [Keeps, *]; done) | split)
theorem rootRelease_gives (s : State) (a1 : RoutingRec) (a2 : BarGen) {x0 z} (h : (State.rootRelease s a1 a2) = (x0, z)) : Keeps s z := by
  have k := rootRelease_keeps s a1 a2
  rw [h] at k
  exact k
@[simp] theorem loseAlign_keeps (s : State) (a1 : Nat) : Keeps s (State.loseAlign s a1) := by simp [Keeps, State.loseAlign]
@[simp] theorem spoilCarve_keeps (s : State) (a1 : Nat) (a2 : Nat) (a3 : Nat) : Keeps s (State.spoilCarve s a1 a2 a3) := by
  simp [Keeps, State.spoilCarve]
@[simp] theorem feEvent_keeps (s : State) (a1 : Nat) (a2 : Nat) : Keeps s (State.feEvent s a1 a2) := by simp [Keeps, State.feEvent]
@[simp] theorem setClocheSt_keeps (s : State) (a1 : Nat) (a2 : ClocheSt) : Keeps s (State.setClocheSt s a1 a2) := by
  simp [Keeps, State.setClocheSt]
@[simp] theorem trackLow_keeps (s : State) (a1 : Nat) : Keeps s (State.trackLow s a1) := by simp [Keeps, State.trackLow]
@[simp] theorem endWindow_keeps (s : State) : Keeps s (State.endWindow s) := by simp [Keeps, State.endWindow]
theorem XcPath_stream_keeps (w : XcPath) (a : StreamHdr) (x : XcRun) (s : State) (hf : ∀ i n s, Keeps s (w.fetch i n s).2) : Keeps s (w.stream a x s).2 := by
  have e2 (i : Int) (n : Nat) (g : Got (List Byte)) (u : State) (e : w.fetch i n s = (g, u)) : Keeps s u := by
    have k := hf i n s
    rw [e] at k
    exact k
  unfold XcPath.stream
  dsimp only
  split
  · exact .rfl s
  · exact .rfl s
  · split
    · exact .rfl s
    · split <;> rename_i h <;> split at h <;> first | (cases h; done) | skip
      · exact e2 _ _ _ _ h
      · exact e2 _ _ _ _ h
      · cases h
        split
        · exact .rfl s
        · split <;> exact .rfl s
      · have k := e2 _ _ _ _ h
        split
        · exact k
        · split <;> exact k
@[simp] theorem issueRecords_keeps (s : State) (a1 : Nat) (a2 : Nat) (a3 : List Span) (a4 : List (Option (Nat × Nat × List Byte))) : Keeps s (State.issueRecords s a1 a2 a3 a4) := by
  simp [Keeps, State.issueRecords]
@[simp] theorem transient_keeps (s : State) (a1 : Nat) : Keeps s (State.transient s a1) := by simp [Keeps, State.transient]
@[simp] theorem setSpdm_keeps (s : State) (a1 : Spdm → Spdm) : Keeps s (State.setSpdm s a1) := by exact setSec_keeps _ _ rfl rfl
@[simp] theorem linkEvent_keeps (s : State) (a1 : Nat) (a2 : Nat) (a3 : Nat) (a4 : Nat) : Keeps s (State.linkEvent s a1 a2 a3 a4) := by
  simp [Keeps, State.linkEvent]
@[simp] theorem acceptFor_keeps (s : State) (a1 : Build) (a2 : List Byte) (a3 : List Byte) : Keeps s (State.acceptFor s a1 a2 a3).2 := by
  unfold State.acceptFor
  split
  · exact .rfl s
  · split
    · exact .rfl s
    · exact acceptRecord_keeps _ _ _ _ ‹_›
theorem acceptFor_gives (s : State) (a1 : Build) (a2 : List Byte) (a3 : List Byte) {x0 z} (h : (State.acceptFor s a1 a2 a3) = (x0, z)) : Keeps s z := by
  have k := acceptFor_keeps s a1 a2 a3
  rw [h] at k
  exact k
@[simp] theorem unwriteCtx_keeps (s : State) (a1 : Nat) : Keeps s (State.unwriteCtx s a1) := by simp [Keeps, State.unwriteCtx]
theorem seal_keeps (s : State) (a1 : RoutingRec) (a2 : LinkMsg) : ∀ z0, (State.seal s a1 a2) = some z0 → Keeps s z0.2 := by
  grind [State.seal, → encrypt_keeps]
@[simp] theorem putPower_keeps (s : State) : Keeps s (State.putPower s) := by simp [Keeps, State.putPower]
@[simp] theorem trackExcursion_keeps (s : State) (a1 : Nat) : Keeps s (State.trackExcursion s a1) := by
  unfold State.trackExcursion
  dsimp only
  (repeat' split) <;> simp [Keeps]
@[simp] theorem trigger_keeps (s : State) (a1 : Nat) (a2 : Nat) : Keeps s (State.trigger s a1 a2) := by simp [Keeps, State.trigger]
@[simp] theorem putLimit_keeps (s : State) (a1 : Nat) : Keeps s (State.putLimit s a1) := by simp [Keeps, State.putLimit]
@[simp] theorem noteReady_keeps (s : State) (a1 : Nat) : Keeps s (State.noteReady s a1) := by
  unfold State.noteReady
  (repeat' split) <;> simp [Keeps] <;> (repeat' split) <;> simp [Keeps, *]
@[simp] theorem modIssued_keeps (s : State) (a1 : Nat) (a2 : Nat) (a3 : Issued → Issued) : Keeps s (State.modIssued s a1 a2 a3) := by
  simp [Keeps, State.modIssued]
@[simp] theorem putTrims_keeps (s : State) : Keeps s (State.putTrims s) := by simp [Keeps, State.putTrims]
@[simp] theorem takeAll_keeps (port n : Nat) (ts : List TxMsg) (s : State) : Keeps s (State.takeAll port n ts s).2 := by
  induction n generalizing ts s with
  | zero => exact .rfl s
  | succ n ih =>
    unfold State.takeAll
    dsimp only
    split
    · exact .rfl s
    · split
      · exact .rfl s
      · exact .trans (.trans (setLink_keeps ..) (countRate_keeps ..)) (ih ..)
@[simp] theorem modGen_keeps (s : State) (a1 : Build) (a2 : Gen → Gen) : Keeps s (State.modGen s a1 a2) := by simp [Keeps, State.modGen]
@[simp] theorem rowParity_keeps (s : State) (a1 : Nat) (a2 : Nat) (a3 : Nat) (a4 : RowFault) : Keeps s (State.rowParity s a1 a2 a3 a4) := by
  simp [Keeps, State.rowParity]
@[simp] theorem modRunning_keeps (s : State) (a1 : Nat) (a2 : Running → Running) : Keeps s (State.modRunning s a1 a2) := by
  unfold State.modRunning
  repeat' (first | (simp [Keeps, *]; done) | split)
@[simp] theorem straceEntry_keeps (s : State) (a1 : STrace) : Keeps s (State.straceEntry s a1) := by simp [Keeps, State.straceEntry]
@[simp] theorem countStale_keeps (s : State) (a1 : Nat) (a2 : List Byte) : Keeps s (State.countStale s a1 a2) := by
  simp [Keeps, State.countStale]
theorem allocFrames_keeps (s : State) (a1 : Nat) (a2 : Nat) (a3 : Nat) : ∀ z0, (State.allocFrames s a1 a2 a3) = some z0 → Keeps s z0.2 := by
  simp [Keeps, State.allocFrames]
@[simp] theorem sendNotice_keeps (s : State) (a1 : Notice) : Keeps s (State.sendNotice s a1) := by
  unfold State.sendNotice
  (repeat' split) <;> simp [Keeps] <;> (repeat' split) <;> simp [Keeps, *]
@[simp] theorem repairEvent_keeps (s : State) (a1 : Nat) (a2 : Nat) : Keeps s (State.repairEvent s a1 a2) := by
  simp [Keeps, State.repairEvent]
@[simp] theorem sendFrame_keeps (s : State) (a1 : Nat) (a2 : TxFrame) : Keeps s (State.sendFrame s a1 a2) := by
  simp [Keeps, State.sendFrame]
@[simp] theorem putSpans_keeps (s : State) (a1 : List (Nat × Nat)) (a2 : Nat) (a3 : List Byte) : Keeps s (State.putSpans s a1 a2 a3) := by
  unfold State.putSpans
  suffices h : ∀ (l : List (Nat × Nat)) (a : State × List Byte),
      Keeps a.1 (l.foldl (fun (a : State × List Byte) x => (a.1.writeLocal x.1 (a.2.take x.2), a.2.drop x.2)) a).1 from h _ (s, a3)
  intro l
  induction l with
  | nil => exact fun a => .rfl a.1
  | cons x l ih => exact fun a => .trans (writeLocal_keeps ..) (ih _)
@[simp] theorem setBdp_keeps (s : State) (a1 : Nat) (a2 : BdpCh) : Keeps s (State.setBdp s a1 a2) := by simp [Keeps, State.setBdp]
@[simp] theorem sliceUses_keeps (s : State) (a1 : Nat) (a2 : Nat) : Keeps s (State.sliceUses s a1 a2) := by
  unfold State.sliceUses
  repeat' (first | (simp [Keeps, *]; done) | split)
@[simp] theorem sendIds_keeps (s : State) (a1 : Nat) : Keeps s (State.sendIds s a1) := by simp [Keeps, State.sendIds]
@[simp] theorem freeGen_keeps (s : State) (a1 : Nat) (a2 : Nat) : Keeps s (State.freeGen s a1 a2) := by simp [Keeps, State.freeGen]
@[simp] theorem lenRow_keeps (s : State) (a1 : Nat) (a2 : Nat) (a3 : KvF) (a4 : KvArgs) (a5 : Reader) (a6 : Carve) (a7 : Nat) : Keeps s (State.lenRow s a1 a2 a3 a4 a5 a6 a7).2 := by
  unfold State.lenRow
  repeat' (first | (simp [Keeps, *]; done) | split)
theorem lenRow_gives (s : State) (a1 : Nat) (a2 : Nat) (a3 : KvF) (a4 : KvArgs) (a5 : Reader) (a6 : Carve) (a7 : Nat) {x0 z} (h : (State.lenRow s a1 a2 a3 a4 a5 a6 a7) = (x0, z)) : Keeps s z := by
  have k := lenRow_keeps s a1 a2 a3 a4 a5 a6 a7
  rw [h] at k
  exact k
@[simp] theorem sramWrite_keeps (s : State) (a1 : Nat) (a2 : List Byte) : Keeps s (State.sramWrite s a1 a2) := by
  simp [Keeps, State.sramWrite]
@[simp] theorem joinGen_keeps (s : State) (a1 : BarGen) (a2 : Nat) (a3 : Nat) (a4 : Nat) (a5 : Nat) (a6 : Nat) : Keeps s (State.joinGen s a1 a2 a3 a4 a5 a6).2 := by
  unfold State.joinGen
  repeat' (first | (simp [Keeps, *]; done) | split)
theorem joinGen_gives (s : State) (a1 : BarGen) (a2 : Nat) (a3 : Nat) (a4 : Nat) (a5 : Nat) (a6 : Nat) {x0 z} (h : (State.joinGen s a1 a2 a3 a4 a5 a6) = (x0, z)) : Keeps s z := by
  have k := joinGen_keeps s a1 a2 a3 a4 a5 a6
  rw [h] at k
  exact k
@[simp] theorem mgmtReply_keeps (s : State) (a1 : Nat) (a2 : Nat) (a3 : Status) (a4 : List Byte) : Keeps s (State.mgmtReply s a1 a2 a3 a4) := by
  simp [Keeps, State.mgmtReply]
@[simp] theorem putSlot_keeps (s : State) (a1 : Nat) : Keeps s (State.putSlot s a1) := by simp [Keeps, State.putSlot]
@[simp] theorem setTimeState_keeps (s : State) (a1 : TimeSt) : Keeps s (State.setTimeState s a1) := by simp [Keeps, State.setTimeState]
@[simp] theorem noteIdle_keeps (s : State) (a1 : Nat) : Keeps s (State.noteIdle s a1) := by simp [Keeps, State.noteIdle]
@[simp] theorem placeRows_keeps (s : State) (a1 : Nat) (a2 : Nat) (a3 : LaunchRun) (a4 : RouteF) (a5 : RouteArgs) (a6 : PlaceRegs) (a7 : Opnd) : Keeps s (State.placeRows s a1 a2 a3 a4 a5 a6 a7) := by
  unfold State.placeRows
  (repeat' split) <;> simp [Keeps] <;> (repeat' split) <;> simp [Keeps, *]
@[simp] theorem xpEnd_keeps (s : State) (a1 : Nat) (a2 : Opnd) (a3 : Status) : Keeps s (State.xpEnd s a1 a2 a3) := by
  simp [Keeps, State.xpEnd]
@[simp] theorem replRefused_keeps (s : State) (a1 : Nat) (a2 : Nat) : Keeps s (State.replRefused s a1 a2) := by
  simp [Keeps, State.replRefused]
@[simp] theorem beginTakeover_keeps (s : State) : Keeps s (State.beginTakeover s) := by simp [Keeps, State.beginTakeover]
@[simp] theorem dropLatch_keeps (s : State) (a1 : Requester) (a2 : Nat) : Keeps s (State.dropLatch s a1 a2) := by
  unfold State.dropLatch
  repeat' (first | (simp [Keeps, *]; done) | split)
@[simp] theorem stackHeat_keeps (s : State) (a1 : Nat) (a2 : Nat) : Keeps s (State.stackHeat s a1 a2) := by simp [Keeps, State.stackHeat]
@[simp] theorem countClocks_keeps (s : State) (a1 : Nat) : Keeps s (State.countClocks s a1) := by simp [Keeps, State.countClocks]
@[simp] theorem dropCopy_keeps (s : State) (a1 : KvAct) : Keeps s (State.dropCopy s a1) := by
  unfold State.dropCopy
  repeat' (first | (simp [Keeps, *]; done) | split)
@[simp] theorem windowK_keeps (s : State) (a1 : Nat) (a2 : Nat) : Keeps s (State.windowK s a1 a2).2 := by
  unfold State.windowK
  repeat' (first | (simp [Keeps, *]; done) | split)
theorem windowK_gives (s : State) (a1 : Nat) (a2 : Nat) {x0 z} (h : (State.windowK s a1 a2) = (x0, z)) : Keeps s z := by
  have k := windowK_keeps s a1 a2
  rw [h] at k
  exact k
@[simp] theorem overwriteArray_keeps (s : State) (a1 : Nat) (a2 : Nat) : Keeps s (State.overwriteArray s a1 a2) := by
  simp [Keeps, State.overwriteArray]
@[simp] theorem drawNonce_keeps (s : State) : Keeps s (State.drawNonce s).2 := by simp [Keeps, State.drawNonce]
theorem drawNonce_gives (s : State) {x0 z} (h : (State.drawNonce s) = (x0, z)) : Keeps s z := by
  have k := drawNonce_keeps s
  rw [h] at k
  exact k
@[simp] theorem addEnergy_keeps (s : State) (a1 : PTag) (a2 : Nat) : Keeps s (State.addEnergy s a1 a2) := by
  unfold State.addEnergy
  repeat' (first | (simp [Keeps, *]; done) | split)
@[simp] theorem sendPending_keeps (s : State) (a1 : Nat) : Keeps s (State.sendPending s a1) := by simp [Keeps, State.sendPending]
@[simp] theorem syncArrive_keeps (s : State) (a1 : Nat) (a2 : Nat) (a3 : SyncOp) (a4 : SyncF) : Keeps s (State.syncArrive s a1 a2 a3 a4) := by
  unfold State.syncArrive
  repeat' (first | (simp [Keeps, *]; done) | split)
@[simp] theorem recordRepair_keeps (s : State) (a1 : Nat) (a2 : Nat) (a3 : Nat) (a4 : Nat) : Keeps s (State.recordRepair s a1 a2 a3 a4) := by
  simp [Keeps, State.recordRepair]
@[simp] theorem rxTake_keeps (s : State) (a1 : Nat) (a2 : RxMsg) : Keeps s (State.rxTake s a1 a2) := by simp [Keeps, State.rxTake]
@[simp] theorem spdmSay_keeps (s : State) (a1 : SpdmResp) : Keeps s (State.spdmSay s a1) := by simp [Keeps, State.spdmSay]
@[simp] theorem take_keeps (s : State) (a1 : Nat) (a2 : List Byte) : Keeps s (State.take s a1 a2) := by simp [Keeps, State.take]
@[simp] theorem noteStatus_keeps (s : State) (a1 : Nat) (a2 : Status) : Keeps s (State.noteStatus s a1 a2) := by
  simp [Keeps, State.noteStatus]
@[simp] theorem dropRuns_keeps (s : State) (a1 : Nat) (a2 : Nat) : Keeps s (State.dropRuns s a1 a2) := by simp [Keeps, State.dropRuns]
@[simp] theorem discard_keeps (s : State) (a1 : Nat) (a2 : Nat) : Keeps s (State.discard s a1 a2) := by simp [Keeps, State.discard]
@[simp] theorem loadIr_keeps (s : State) (a1 : Nat) : Keeps s (State.loadIr s a1) := by simp [Keeps, State.loadIr]
@[simp] theorem begun_keeps (s : State) (a1 : Nat) : Keeps s (State.begun s a1) := by simp [Keeps, State.begun]
@[simp] theorem dropCached_keeps (s : State) (a1 : Nat) (a2 : CachedRange → Bool) : Keeps s (State.dropCached s a1 a2) := by
  simp [Keeps, State.dropCached]
@[simp] theorem stage_keeps (s : State) (a1 : Nat) : Keeps s (State.stage s a1) := by
  unfold State.stage
  (repeat' split) <;> simp [Keeps] <;> (repeat' split) <;> simp [Keeps, *]
@[simp] theorem pwrEvent_keeps (s : State) (a1 : Nat) (a2 : Nat) : Keeps s (State.pwrEvent s a1 a2) := by simp [Keeps, State.pwrEvent]
theorem runInstr_keeps (s : State) (r : Nat) (b : RBody) (f : State → Nat → LaunchRun → State) (h : ∀ s p l, Keeps s (f s p l)) :
    ∃ t, s.runInstr r b f = .next t ∧ Keeps s t := by
  unfold State.runInstr
  (repeat' split) <;> refine ⟨_, rfl, ?_⟩ <;> first | exact .rfl s | exact Keeps.trans ⟨rfl, rfl, rfl⟩ (h ..)
@[simp] theorem bump_keeps (s : State) (a1 : Nat) (a2 : Nat) (a3 : Nat) : Keeps s (State.bump s a1 a2 a3) := by
  unfold State.bump
  repeat' (first | (simp [Keeps, *]; done) | split)
@[simp] theorem flushVectors_keeps (s : State) : Keeps s (State.flushVectors s) := by simp [Keeps, State.flushVectors]
@[simp] theorem cancelBatch_keeps (s : State) (a1 : Nat) (a2 : Nat) : Keeps s (State.cancelBatch s a1 a2) := by
  simp [Keeps, State.cancelBatch]
@[simp] theorem snoopLines_keeps (s : State) (a1 : List Nat) : Keeps s (State.snoopLines s a1) := by simp [Keeps, State.snoopLines]
@[simp] theorem outOk_keeps (s : State) (a1 : Build) (a2 : Nat) (a3 : Nat) : Keeps s (State.outOk s a1 a2 a3).2 := by
  unfold State.outOk
  repeat' (first | (simp [Keeps, *]; done) | split)
theorem outOk_gives (s : State) (a1 : Build) (a2 : Nat) (a3 : Nat) {x0 z} (h : (State.outOk s a1 a2 a3) = (x0, z)) : Keeps s z := by
  have k := outOk_keeps s a1 a2 a3
  rw [h] at k
  exact k
@[simp] theorem flushTables_keeps (s : State) (a1 : Nat) : Keeps s (State.flushTables s a1) := by simp [Keeps, State.flushTables]
@[simp] theorem endLoopback_keeps (s : State) (a1 : Nat) : Keeps s (State.endLoopback s a1) := by
  unfold State.endLoopback
  repeat' (first | (simp [Keeps, *]; done) | split)
@[simp] theorem vector_keeps (s : State) (a1 : Nat) : Keeps s (State.vector s a1) := by simp [Keeps, State.vector]
@[simp] theorem nameRecord_keeps (s : State) : Keeps s (State.nameRecord s) := by simp [Keeps, State.nameRecord]
theorem takeEntry_keeps (s : State) (a1 : Nat) (a2 : Nat) (a3 : Nat) (a4 : WgtBuildF) (a5 : List Byte) : ∀ z0, (State.takeEntry s a1 a2 a3 a4 a5) = .ok z0 → Keeps s z0.2 := by
  unfold State.takeEntry
  repeat' (first | (simp [Keeps, *]; done) | split)
@[simp] theorem setSensor_keeps (s : State) (a1 : Nat) (a2 : Nat) : Keeps s (State.setSensor s a1 a2) := by simp [Keeps, State.setSensor]
@[simp] theorem cxlRefused_keeps (s : State) (a1 : Nat) : Keeps s (State.cxlRefused s a1) := by simp [Keeps, State.cxlRefused]
@[simp] theorem putSeq_keeps (s : State) (a1 : Nat) (a2 : Nat) (a3 : Seq) : Keeps s (State.putSeq s a1 a2 a3) := by
  simp [Keeps, State.putSeq]
theorem mgmtMsg_cases (s : State) (f : State → State) : s.mgmtMsg f = s ∨ ∃ u, Keeps s u ∧ s.mgmtMsg f = f u := by
  unfold State.mgmtMsg
  split
  · exact .inl rfl
  · split
    · exact .inr ⟨s, .rfl s, rfl⟩
    · exact .inr ⟨_, .trans (t := ({ s with obs := { s.obs with endpoint := some 0, notices := s.obs.notices.map (fun (n : Notice) => { n with sentAt := s.now }) } } : State))
        ⟨rfl, rfl, rfl⟩ (foldl_keeps _ _ _ (fun s n => sendNotice_keeps s n)), rfl⟩
theorem mgmtMsg_ind {P : State → Prop} (s : State) (f : State → State) (h : P s) (k : ∀ u, Keeps s u → P (f u)) : P (s.mgmtMsg f) := by
  obtain e | ⟨u, hu, e⟩ := mgmtMsg_cases s f <;> rw [e]
  · exact h
  · exact k u hu
theorem mgmtMsg_keeps (s : State) (f : State → State) (h : ∀ s, Keeps s (f s)) : Keeps s (s.mgmtMsg f) := by
  obtain k | ⟨u, hu, k⟩ := mgmtMsg_cases s f <;> rw [k]
  · exact .rfl s
  · exact hu.trans (h u)
@[simp] theorem unbind_keeps (s : State) (a1 : Nat) (a2 : Nat) : Keeps s (State.unbind s a1 a2) := by
  unfold State.unbind
  repeat' (first | (simp [Keeps, *]; done) | split)
theorem scalar_keeps (s : State) (a1 : Nat) (a2 : MovOp) (a3 : MovF) (a4 : Word → Word → Word → Word) : ∃ z0, (State.scalar s a1 a2 a3 a4) = .next z0 ∧ Keeps s z0 := by
  unfold State.scalar
  exact runInstr_keeps _ _ _ _ (fun s p l => by dsimp only; repeat' (first | (simp [Keeps, *]; done) | split))
@[simp] theorem freeGens_keeps (s : State) (a1 : Nat) : Keeps s (State.freeGens s a1) := by simp [Keeps, State.freeGens]
@[simp] theorem irq_keeps (s : State) (a1 : Nat) : Keeps s (State.irq s a1) := by simp [Keeps, State.irq]
@[simp] theorem loseAllAlign_keeps (s : State) : Keeps s (State.loseAllAlign s) := by simp [Keeps, State.loseAllAlign]
@[simp] theorem bumpPart_keeps (s : State) (a1 : Nat) (a2 : Nat) (a3 : Nat) : Keeps s (State.bumpPart s a1 a2 a3) := by
  unfold State.bumpPart
  repeat' (first | (simp [Keeps, *]; done) | split)
@[simp] theorem setReadings_keeps (s : State) (a1 : Nat) (a2 : List Nat) : Keeps s (State.setReadings s a1 a2) := by
  simp [Keeps, State.setReadings]
theorem placeGraft_keeps (s : State) (a1 : Build) (a2 : Nat) (a3 : Nat) (a4 : Nat) (a5 : Bool) : ∀ z0, (State.placeGraft s a1 a2 a3 a4 a5) = some z0 → Keeps s z0.2 := by
  simp [Keeps, State.placeGraft]
@[simp] theorem gensAfterReset_keeps (s : State) : Keeps s (State.gensAfterReset s) := by
  unfold State.gensAfterReset
  generalize List.range 64 = l
  have h : Keeps s ({ s with wgt := { s.wgt with builds := [], caches := [], xfers := [] } } : State) := ⟨rfl, rfl, rfl⟩
  exact h.trans (foldl_keeps _ _ _ (fun s k => by dsimp only; split <;> simp [Keeps]))
@[simp] theorem strace_keeps (s : State) (a1 : Nat) (a2 : Nat) (a3 : Nat) (a4 : Nat) (a5 : Nat) : Keeps s (State.strace s a1 a2 a3 a4 a5) := by
  simp [Keeps, State.strace]
theorem runUnit_keeps (s : State) (r : Nat) (b : RBody) (f : State → Nat → LaunchRun → State) (h : ∀ s p l, Keeps s (f s p l)) :
    ∃ t, s.runUnit r b f = .next t ∧ Keeps s t := by
  unfold State.runUnit
  refine runInstr_keeps _ _ _ _ (fun s p l => ?_)
  split
  · exact passOver_keeps ..
  · exact h ..
@[simp] theorem putTime_keeps (s : State) (a1 : ModRec) : Keeps s (State.putTime s a1) := by
  unfold State.putTime
  dsimp only
  repeat' (first | (simp [Keeps, *]; done) | refine ⟨_, rfl, ?_⟩ | split)
@[simp] theorem cancelLaunch_keeps (s : State) (a1 : Nat) (a2 : LaunchRun) (a3 : Status) : Keeps s (State.cancelLaunch s a1 a2 a3) := by
  simp [Keeps, State.cancelLaunch]
@[simp] theorem syncGo_keeps (s : State) (a1 : Nat) (a2 : Nat) (a3 : SyncOp) (a4 : SyncF) (a5 : SyncWait) : Keeps s (State.syncGo s a1 a2 a3 a4 a5) := by
  simp [Keeps, State.syncGo]
@[simp] theorem configTake_keeps (s : State) (a1 : CfgReq) : Keeps s (State.configTake s a1) := by
  unfold State.configTake
  repeat' (first | (simp [Keeps, *]; done) | split)
@[simp] theorem countKinds_keeps (s : State) (a1 : List PCount) : Keeps s (State.countKinds s a1) := by
  unfold State.countKinds
  exact foldl_keeps _ _ _ (fun s k => by split <;> simp [Keeps])
@[simp] theorem putRtData_keeps (s : State) (a1 : Nat) (a2 : Nat) (a3 : Nat) : Keeps s (State.putRtData s a1 a2 a3) := by
  simp [Keeps, State.putRtData]
@[simp] theorem setLinkState_keeps (s : State) (a1 : Nat) (a2 : LinkSt) (a3 : LinkCause) : Keeps s (State.setLinkState s a1 a2 a3) := by
  simp [Keeps, State.setLinkState]
theorem XcPath_one_keeps (w : XcPath) (x : XcRun) (s : State) (hf : ∀ i n s, Keeps s (w.fetch i n s).2) : ∀ z, w.one x s = some z → Keeps s z.2 := by
  intro z h
  unfold XcPath.one at h
  dsimp only at h
  (repeat' split at h) <;> simp only [Option.some.injEq, reduceCtorEq] at h <;> subst h <;>
    first | exact .rfl s | exact XcPath_stream_keeps _ _ _ _ hf
@[simp] theorem stateVector_keeps (s : State) (a1 : Nat) : Keeps s (State.stateVector s a1) := by simp [Keeps, State.stateVector]
theorem planStep_keeps (s : State) (a1 : Nat) (a2 : Nat) (a3 : LaunchRun) (a4 : AccKind) (a5 : Plan) : ∀ z0, (State.planStep s a1 a2 a3 a4 a5) = .ok z0 → Keeps s z0.2 := by
  unfold State.planStep
  (repeat' split) <;> simp [Keeps] <;> (repeat' split) <;> simp [Keeps, *]
@[simp] theorem idleFrames_keeps (s : State) (a1 : Nat) (a2 : Nat) : Keeps s (State.idleFrames s a1 a2) := by simp [Keeps, State.idleFrames]
@[simp] theorem makeRoom_keeps (s : State) (a1 : Nat) (a2 : Nat) : Keeps s (State.makeRoom s a1 a2) := by simp [Keeps, State.makeRoom]
@[simp] theorem sliceEnd_keeps (s : State) (a1 : Nat) (a2 : Bool) : Keeps s (State.sliceEnd s a1 a2) := by
  unfold State.sliceEnd
  dsimp only
  repeat' (first | (simp [Keeps]; done) | split)
@[simp] theorem placeEnd_keeps (s : State) (a1 : Submission) (a2 : Status) : Keeps s (State.placeEnd s a1 a2) := by
  simp [Keeps, State.placeEnd]
theorem openSeq_keeps (s : State) (a1 : Nat) (a2 : Nat) (a3 : Nat) (a4 : Nat) (a5 : Word) (a6 : F32) : ∀ z0, (State.openSeq s a1 a2 a3 a4 a5 a6) = some z0 → Keeps s z0.2 := by
  intro z0 h
  unfold State.openSeq at h
  dsimp only at h
  split at h
  · cases h
  · rename_i h1
    split at h
    · cases h
    · rename_i h2
      cases h
      exact .trans (allocFrames_keeps _ _ _ _ _ h1) (allocFrames_keeps _ _ _ _ _ h2)
@[simp] theorem freeSeq_keeps (s : State) (a1 : Nat) : Keeps s (State.freeSeq s a1) := by
  unfold State.freeSeq
  have h (l : List PageRun) (k : Nat) (u : State) : Keeps u (l.foldl (fun (s : State) r => if r.st = .evicted then s else s.refDown r.frame (r.count * k)) u) :=
    foldl_keeps _ _ _ (fun s r => by split <;> simp [Keeps])
  have k (l : List Nat) (u : State) : Keeps u (l.foldl (fun (s : State) f => s.refDown f 1) u) := foldl_keeps _ _ _ (fun s r => by simp [Keeps])
  refine .trans (.trans (h (s.seq a1).runs (s.seq a1).geo.frames s) (k ((s.seq a1).runFrames ++ (s.seq a1).scoreFrame.toList) _)) ?_
  simp [Keeps]
@[simp] theorem deferWrite_keeps (s : State) (a1 : Option Nat) (a2 : Nat) (a3 : List Byte) : Keeps s (State.deferWrite s a1 a2 a3) := by
  unfold State.deferWrite
  repeat' (first | (simp [Keeps, *]; done) | split)
@[simp] theorem owe_keeps (s : State) (a1 : Nat) (a2 : Nat) : Keeps s (State.owe s a1 a2) := by simp [Keeps, State.owe]
@[simp] theorem unmask_keeps (s : State) (a1 : Nat) : Keeps s (State.unmask s a1) := by simp [Keeps, State.unmask]
@[simp] theorem failRegion_keeps (s : State) (a1 : Nat) (a2 : Status) : Keeps s (State.failRegion s a1 a2) := by
  simp [Keeps, State.failRegion]
@[simp] theorem spdmLarge_keeps (s : State) (a1 : SpdmResp) (a2 : List Byte) : Keeps s (State.spdmLarge s a1 a2) := by
  simp [Keeps, State.spdmLarge]
@[simp] theorem dropHeld_keeps (s : State) (a1 : Requester) : Keeps s (State.dropHeld s a1) := by
  unfold State.dropHeld
  repeat' (first | (simp [Keeps, *]; done) | split)
@[simp] theorem locked_keeps (s : State) (a1 : Nat) (a2 : Bool) : Keeps s (State.locked s a1 a2) := by simp [Keeps, State.locked]
@[simp] theorem oweInstr_keeps (s : State) (a1 : Nat) (a2 : Nat) (a3 : Nat) : Keeps s (State.oweInstr s a1 a2 a3) := by
  simp [Keeps, State.oweInstr]
@[simp] theorem waitOutside_keeps (s : State) (a1 : Nat) (a2 : Nat) : Keeps s (State.waitOutside s a1 a2) := by
  simp [Keeps, State.waitOutside]
@[simp] theorem settle_keeps (s : State) (a1 : Nat) : Keeps s (State.settle s a1) := by simp [Keeps, State.settle]
@[simp] theorem dropCopies_keeps (s : State) : Keeps s (State.dropCopies s) := by simp [Keeps, State.dropCopies]
theorem extendRuns_keeps (a0 : Nat) (a1 : Geom) (a2 : Nat) (a3 : Nat) (a4 : List PageRun) (s : State) : ∀ z0, (State.extendRuns a0 a1 a2 a3 a4 s) = some z0 → Keeps s z0.2 := by
  induction a3 generalizing a4 s with
  | zero => intro z0 h; cases h; exact .rfl s
  | succ k ih =>
    intro z0 h
    unfold State.extendRuns at h
    dsimp only at h
    split at h
    · cases h; exact .rfl s
    · split at h
      · cases h
      · exact .trans (allocFrames_keeps _ _ _ _ _ ‹_›) (ih _ _ _ h)
@[simp] theorem dropBuilds_keeps (s : State) (a1 : Nat) : Keeps s (State.dropBuilds s a1) := by simp [Keeps, State.dropBuilds]
@[simp] theorem regRead_keeps (s : State) (a1 : Requester) (a2 : Nat) (a3 : Nat) : Keeps s (State.regRead s a1 a2 a3).2 := by
  unfold State.regRead
  (repeat' split) <;> simp [Keeps] <;> (repeat' split) <;> simp [Keeps, *]
theorem regRead_gives (s : State) (a1 : Requester) (a2 : Nat) (a3 : Nat) {x0 z} (h : (State.regRead s a1 a2 a3) = (x0, z)) : Keeps s z := by
  have k := regRead_keeps s a1 a2 a3
  rw [h] at k
  exact k
@[simp] theorem replayFrames_keeps (s : State) (a1 : Nat) (a2 : List TxFrame) : Keeps s (State.replayFrames s a1 a2) := by
  simp [Keeps, State.replayFrames]
@[simp] theorem bypassScan_keeps (s : State) (a1 : Nat) (a2 : Nat) : Keeps s (State.bypassScan s a1 a2) := by simp [Keeps, State.bypassScan]
@[simp] theorem notify_keeps (s : State) (a1 : Nat) (a2 : Option Nat) (a3 : Nat) : Keeps s (State.notify s a1 a2 a3) := by
  simp [Keeps, State.notify]
@[simp] theorem writeRecord_keeps (s : State) (a1 : Nat) (a2 : ComplWrite) : Keeps s (State.writeRecord s a1 a2) := by
  simp [Keeps, State.writeRecord]
theorem growList_keeps (a0 : Nat) (a1 : Nat) (a2 : Nat) (a3 : List Nat) (s : State) : ∀ z0, (State.growList a0 a1 a2 a3 s) = some z0 → Keeps s z0.2 := by
  induction a2 generalizing a3 s with
  | zero => intro z0 h; cases h; exact .rfl s
  | succ k ih =>
    intro z0 h
    unfold State.growList at h
    split at h
    · cases h
    · exact .trans (allocFrames_keeps _ _ _ _ _ ‹_›) (ih _ _ _ h)
theorem forkTail_keeps (s : State) (a1 : Nat) (a2 : Geom) (a3 : List PageRun) (a4 : Nat) (a5 : Nat) : ∀ z0, (State.forkTail s a1 a2 a3 a4 a5) = .ok z0 → Keeps s z0.2 := by
  intro z0 h
  unfold State.forkTail at h
  split at h
  · cases h; exact .rfl s
  · split at h
    · cases h; exact .rfl s
    · split at h
      · cases h; exact .rfl s
      · split at h
        · cases h
        · rename_i h1
          dsimp only at h
          split at h
          · cases h
          · cases h
          · cases h
            exact allocFrames_keeps _ _ _ _ _ h1
@[simp] theorem unlisted_keeps (s : State) (a1 : Bool) (a2 : Nat) : Keeps s (State.unlisted s a1 a2) := by simp [Keeps, State.unlisted]
theorem spdmAt_keeps (s : State) (n : Nat) (f : State → State) (h : Keeps s (f s)) : ∃ t, s.spdmAt n f = .next t ∧ Keeps s t := by
  unfold State.spdmAt
  (repeat' split) <;> refine ⟨_, rfl, ?_⟩ <;> first | exact .rfl s | exact h | exact spdmSay_keeps ..
@[simp] theorem inheritRoot_keeps (s : State) (a1 : Build) : Keeps s (State.inheritRoot s a1).2 := by
  unfold State.inheritRoot
  repeat' (first | (simp [Keeps, *]; done) | split)
theorem inheritRoot_gives (s : State) (a1 : Build) {x0 z} (h : (State.inheritRoot s a1) = (x0, z)) : Keeps s z := by
  have k := inheritRoot_keeps s a1
  rw [h] at k
  exact k
@[simp] theorem mirrorOpen_keeps (s : State) (a1 : Nat) (a2 : Nat) (a3 : List Byte) : Keeps s (State.mirrorOpen s a1 a2 a3) := by
  unfold State.mirrorOpen
  dsimp only
  split
  · exact replRefused_keeps ..
  · split
    · exact replRefused_keeps ..
    · rename_i h
      refine .trans ?_ (.trans (openSeq_keeps _ _ _ _ _ _ _ _ h) (putSeq_keeps ..))
      split <;> simp [Keeps]
@[simp] theorem rlcFill_keeps (s : State) (a1 : Nat) (a2 : LaunchRun) (a3 : Nat) (a4 : Nat) : Keeps s (State.rlcFill s a1 a2 a3 a4) := by
  unfold State.rlcFill
  repeat' (first | (simp [Keeps, *]; done) | split)
@[simp] theorem landAt_keeps (s : State) (a1 : Nat) (a2 : Nat) (a3 : Nat) (a4 : Nat) (a5 : Nat) (a6 : Bool) (a7 : List Byte) : Keeps s (State.landAt s a1 a2 a3 a4 a5 a6 a7) := by
  unfold State.landAt
  (repeat' split) <;> simp [Keeps] <;> (repeat' split) <;> simp [Keeps, *]
@[simp] theorem logErrorAt_keeps (s : State) (a1 : Nat) (a2 : Nat) (a3 : Nat) (a4 : Nat) (a5 : Option Nat) (a6 : Nat) (a7 : Nat) (a8 : Nat) : Keeps s (State.logErrorAt s a1 a2 a3 a4 a5 a6 a7 a8) := by
  unfold State.logErrorAt
  repeat' (first | (simp [Keeps, *]; done) | split)
@[simp] theorem tryTrain_keeps (s : State) (a1 : Nat) : Keeps s (State.tryTrain s a1) := by simp [Keeps, State.tryTrain]
@[simp] theorem hotLog_keeps (s : State) (a1 : Nat) : Keeps s (State.hotLog s a1) := by simp [Keeps, State.hotLog]
@[simp] theorem failIssue_keeps (s : State) (a1 : Nat) (a2 : Status) : Keeps s (State.failIssue s a1 a2) := by simp [Keeps, State.failIssue]
@[simp] theorem trlDone_keeps (s : State) : Keeps s (State.trlDone s) := by simp [Keeps, State.trlDone]
@[simp] theorem align_keeps (s : State) (a1 : Nat) : Keeps s (State.align s a1) := by simp [Keeps, State.align]
@[simp] theorem putCsel_keeps (s : State) (a1 : Nat) (a2 : Nat) (a3 : Nat) (a4 : Nat) (a5 : Bool) (a6 : Bool) : Keeps s (State.putCsel s a1 a2 a3 a4 a5 a6) := by
  simp [Keeps, State.putCsel]
@[simp] theorem retrain_keeps (s : State) (a1 : Nat) : Keeps s (State.retrain s a1) := by simp [Keeps, State.retrain]
@[simp] theorem refreshLevel_keeps (s : State) (a1 : Nat) : Keeps s (State.refreshLevel s a1) := by
  unfold State.refreshLevel
  (repeat' split) <;> simp [Keeps] <;> (repeat' split) <;> simp [Keeps, *]
@[simp] theorem apertureRead_keeps (s : State) (a1 : Requester) (a2 : Nat) (a3 : Nat) : Keeps s (State.apertureRead s a1 a2 a3).2 := by
  unfold State.apertureRead
  repeat' (first | (simp [Keeps, *]; done) | split)
theorem apertureRead_gives (s : State) (a1 : Requester) (a2 : Nat) (a3 : Nat) {x0 z} (h : (State.apertureRead s a1 a2 a3) = (x0, z)) : Keeps s z := by
  have k := apertureRead_keeps s a1 a2 a3
  rw [h] at k
  exact k
@[simp] theorem putHotSize_keeps (s : State) (a1 : Nat) (a2 : Nat) : Keeps s (State.putHotSize s a1 a2) := by simp [Keeps, State.putHotSize]
theorem regWrite_keeps (s : State) (rq : Requester) (o : Nat) (f : State → State) (h : ∀ s, Keeps s (f s)) : Keeps s (s.regWrite rq o f) := by
  unfold State.regWrite
  split
  · exact .rfl s
  · dsimp only
    split
    · exact .trans (dropHeld_keeps ..) (discard_keeps ..)
    · exact .trans (dropHeld_keeps ..) (h _)
@[simp] theorem endBatch_keeps (s : State) (a1 : Nat) : Keeps s (State.endBatch s a1) := by
  unfold State.endBatch
  repeat' (first | (simp [Keeps, *]; done) | split)
@[simp] theorem liven_keeps (s : State) : Keeps s (State.liven s) := by simp [Keeps, State.liven]
@[simp] theorem putMsix_keeps (s : State) (a1 : Nat) (a2 : Nat) : Keeps s (State.putMsix s a1 a2) := by
  unfold State.putMsix
  repeat' (first | (simp [Keeps, *]; done) | split)
@[simp] theorem storeParity_keeps (s : State) (a1 : Nat) (a2 : Bool) : Keeps s (State.storeParity s a1 a2) := by
  unfold State.storeParity
  (repeat' split) <;> simp [Keeps] <;> (repeat' split) <;> simp [Keeps, *]
theorem mgmtCmd_keeps (s : State) (h : MgmtHdr) (cmd n : Nat) (f : State → State) (k : ∀ s, Keeps s (f s)) : Keeps s (s.mgmtCmd h cmd n f) := by
  unfold State.mgmtCmd
  refine mgmtMsg_keeps _ _ (fun s => ?_)
  split
  · exact k s
  · exact mgmtReply_keeps ..
theorem mgmtCmd_ind {P : State → Prop} (s : State) (h : MgmtHdr) (cmd n : Nat) (f : State → State) (h0 : P s)
    (h1 : ∀ u, Keeps s u → P (u.mgmtReply cmd h.tag .range [])) (k : ∀ u, Keeps s u → P (f u)) : P (s.mgmtCmd h cmd n f) := by
  unfold State.mgmtCmd
  refine mgmtMsg_ind _ _ h0 (fun u hu => ?_)
  split
  · exact k u hu
  · exact h1 u hu
@[simp] theorem putPwrLimit_keeps (s : State) (a1 : Nat) (a2 : Nat) : Keeps s (State.putPwrLimit s a1 a2) := by
  simp [Keeps, State.putPwrLimit]
@[simp] theorem putTherm_keeps (s : State) (a1 : Nat) (a2 : Nat) : Keeps s (State.putTherm s a1 a2) := by simp [Keeps, State.putTherm]
@[simp] theorem putCause_keeps (s : State) (a1 : Nat) (a2 : Nat) : Keeps s (State.putCause s a1 a2) := by simp [Keeps, State.putCause]
theorem XcPath_all_keeps (w : XcPath) (n : Nat) (x : XcRun) (s : State) (hf : ∀ i n s, Keeps s (w.fetch i n s).2) : Keeps s (w.all n x s).2 := by
  induction n generalizing x s with
  | zero => exact .rfl s
  | succ n ih =>
    unfold XcPath.all
    split
    · exact .rfl s
    · split
      · exact .rfl s
      · rename_i e
        exact (XcPath_one_keeps _ _ _ hf _ e).trans (ih ..)
@[simp] theorem noSpare_keeps (s : State) (a1 : Nat) : Keeps s (State.noSpare s a1) := by simp [Keeps, State.noSpare]
@[simp] theorem putGeomA_keeps (s : State) (a1 : Nat) (a2 : Nat) (a3 : Nat) : Keeps s (State.putGeomA s a1 a2 a3) := by
  simp [Keeps, State.putGeomA]
@[simp] theorem putHotCtrl_keeps (s : State) (a1 : Nat) (a2 : Nat) : Keeps s (State.putHotCtrl s a1 a2) := by simp [Keeps, State.putHotCtrl]
@[simp] theorem blockCompletion_keeps (s : State) (a1 : Nat) : Keeps s (State.blockCompletion s a1) := by
  simp [Keeps, State.blockCompletion]
@[simp] theorem powerUp_keeps (s : State) : Keeps s (State.powerUp s) := by simp [Keeps, State.powerUp]
@[simp] theorem freeSeqs_keeps (s : State) (a1 : Nat) : Keeps s (State.freeSeqs s a1) := by simp [Keeps, State.freeSeqs]
@[simp] theorem setDiverge_keeps (s : State) (a1 : Bool) : Keeps s (State.setDiverge s a1) := by simp [Keeps, State.setDiverge]
@[simp] theorem unblock_keeps (s : State) (a1 : Nat) (a2 : QState) : Keeps s (State.unblock s a1 a2) := by simp [Keeps, State.unblock]
theorem kvRun_keeps (s : State) (r p : Nat) (op : KvOp) (a : KvArgs) (g : State → Nat → Status × State) (h : ∀ s i, Keeps s (g s i).2) :
    Keeps s (s.kvRun r p op a g) := by
  unfold State.kvRun
  dsimp only
  refine .trans (kvRows_keeps g (List.range a.rows) s h) ?_
  simp [Keeps]
@[simp] theorem writeShadow_keeps (a0 : Nat) (a1 : Nat) (s : State) : Keeps s (State.writeShadow a0 a1 s) := by
  induction a1 generalizing s with
  | zero => exact .rfl s
  | succ k ih =>
    unfold State.writeShadow
    dsimp only
    split
    · exact .rfl s
    · split
      · exact .trans (.trans (setQueue_keeps ..) (writeRecord_keeps ..)) (ih _)
      · exact .rfl s
@[simp] theorem planLoop_keeps (r p : Nat) (l : LaunchRun) (k : AccKind) (n : Nat) (x : Plan) (s : State) :
    Keeps s (State.planLoop r p l k n x s).2.2 := by
  induction n generalizing x s with
  | zero => exact .rfl s
  | succ n ih =>
    unfold State.planLoop
    split
    · exact .rfl s
    · split
      · exact .rfl s
      · rename_i e
        exact (planStep_keeps _ _ _ _ _ _ _ e).trans (ih ..)
theorem commitRuns_keeps (s : State) (a1 : Nat) (a2 : Seq) (a3 : List PageRun) : ∀ z0, (State.commitRuns s a1 a2 a3) = some z0 → Keeps s z0.2 := by
  intro z0 h
  unfold State.commitRuns at h
  dsimp only at h
  split at h
  · cases h
  · obtain ⟨t, h1, h2⟩ := Option.map_eq_some_iff.mp h
    cases h2
    exact growList_keeps _ _ _ _ _ _ h1
@[simp] theorem putTrig_keeps (s : State) (a1 : Nat) (a2 : Nat) : Keeps s (State.putTrig s a1 a2) := by simp [Keeps, State.putTrig]
@[simp] theorem fetchFailed_keeps (s : State) (a1 : Nat) : Keeps s (State.fetchFailed s a1) := by simp [Keeps, State.fetchFailed]
@[simp] theorem placeWrite_keeps (s : State) (a1 : Submission × List Placed) (a2 : Router) : Keeps s (State.placeWrite s a1 a2) := by
  unfold State.placeWrite
  (repeat' split) <;> simp [Keeps] <;> (repeat' split) <;> simp [Keeps, *]
@[simp] theorem setBdpAddr_keeps (s : State) (a1 : Nat) (a2 : Word) : Keeps s (State.setBdpAddr s a1 a2) := by
  simp [Keeps, State.setBdpAddr]
@[simp] theorem finish_keeps (s : State) (a1 : Nat) (a2 : Nat) (a3 : Nat) : Keeps s (State.finish s a1 a2 a3) := by
  unfold State.finish
  repeat' (first | (simp [Keeps, *]; done) | split)
@[simp] theorem hbmScan_keeps (s : State) (a1 : Nat) (a2 : Bool) (a3 : Nat) : Keeps s (State.hbmScan s a1 a2 a3) := by
  unfold State.hbmScan
  repeat' (first | (simp [Keeps, *]; done) | split)
@[simp] theorem freeRx_keeps (s : State) (a1 : Nat) (a2 : Option Nat) (a3 : Nat) : Keeps s (State.freeRx s a1 a2 a3) := by
  unfold State.freeRx
  repeat' (first | (simp [Keeps, *]; done) | split)
@[simp] theorem loseAdmission_keeps (s : State) (a1 : Nat) (a2 : Bool) (a3 : Bool) : Keeps s (State.loseAdmission s a1 a2 a3) := by
  simp [Keeps, State.loseAdmission]
@[simp] theorem putHotTail_keeps (s : State) (a1 : Nat) (a2 : Nat) : Keeps s (State.putHotTail s a1 a2) := by simp [Keeps, State.putHotTail]
theorem syncIssue_keeps (s : State) (a1 : Nat) (a2 : SyncOp) (a3 : SyncF) : ∃ z0, (State.syncIssue s a1 a2 a3) = .next z0 ∧ Keeps s z0 := by
  unfold State.syncIssue
  repeat' (first | (simp [Keeps, *]; done) | refine ⟨_, rfl, ?_⟩ | refine runInstr_keeps _ _ _ _ (fun s p l => ?_) | split)
@[simp] theorem repaired_keeps (s : State) (a1 : Nat) : Keeps s (State.repaired s a1) := by simp [Keeps, State.repaired]
@[simp] theorem tellTwin_keeps (s : State) (a1 : Bool) : Keeps s (State.tellTwin s a1) := by simp [Keeps, State.tellTwin]
@[simp] theorem nameStraggler_keeps (s : State) (a1 : RoutingRec) (a2 : Nat) (a3 : Nat) (a4 : Nat) (a5 : Nat) (a6 : Rel) : Keeps s (State.nameStraggler s a1 a2 a3 a4 a5 a6) := by
  simp [Keeps, State.nameStraggler]
theorem inSession_keeps (s : State) (n : Nat) (f : State → State) (h : Keeps s (f s)) : ∃ t, s.inSession n f = .next t ∧ Keeps s t := by
  unfold State.inSession
  refine spdmAt_keeps _ _ _ ?_
  split
  · exact h
  · exact spdmSay_keeps ..
theorem execQueueEnable_keeps (a0 : Requester) (a1 : Nat) (a2 : Nat) (s : State) : ∃ z0, (execQueueEnable a0 a1 a2 s) = .next z0 ∧ Keeps s z0 := by
  unfold execQueueEnable
  dsimp only
  repeat' (first | (simp [Keeps, *]; done) | refine ⟨_, rfl, ?_⟩ | refine regWrite_keeps _ _ _ _ (fun s => ?_) | split)
@[simp] theorem relink_keeps (s : State) (s1 : State) : Keeps s (State.relink s s1) := by simp [Keeps, State.relink]
@[simp] theorem judge_keeps (s : State) (a1 : Bool) : Keeps s (State.judge s a1) := by simp [Keeps, State.judge]
theorem execZero_keeps (a0 : Requester) (a1 : Nat) (s : State) : ∃ z0, (execZero a0 a1 s) = .next z0 ∧ Keeps s z0 := by
  unfold execZero
  dsimp only
  repeat' (first | (simp [Keeps, *]; done) | refine ⟨_, rfl, ?_⟩ | refine regWrite_keeps _ _ _ _ (fun s => ?_) | split)
@[simp] theorem alignAll_keeps (s : State) : Keeps s (State.alignAll s) := by simp [Keeps, State.alignAll]
theorem execFeQChead_keeps (a0 : Requester) (a1 : Nat) (a2 : Word) (s : State) : ∃ z0, (execFeQChead a0 a1 a2 s) = .next z0 ∧ Keeps s z0 := by
  unfold execFeQChead
  repeat' (first | (simp [Keeps, *]; done) | refine ⟨_, rfl, ?_⟩ | refine regWrite_keeps _ _ _ _ (fun s => ?_) | split)
@[simp] theorem rise_keeps (s : State) : Keeps s (State.rise s) := by
  unfold State.rise
  (repeat' split) <;> simp [Keeps] <;> (repeat' split) <;> simp [Keeps, *]
@[simp] theorem rangeGo_keeps (s : State) (a1 : Requester) (a2 : Nat) (a3 : Nat) (a4 : Bool) : Keeps s (State.rangeGo s a1 a2 a3 a4) := by
  unfold State.rangeGo
  exact regWrite_keeps _ _ _ _ (fun s => by dsimp only; repeat' (first | (simp [Keeps, *]; done) | split))
theorem execTakeover_keeps (a0 : Requester) (s : State) : ∃ z0, (execTakeover a0 s) = .next z0 ∧ Keeps s z0 := by
  unfold execTakeover
  repeat' (first | (simp [Keeps, *]; done) | refine ⟨_, rfl, ?_⟩ | refine regWrite_keeps _ _ _ _ (fun s => ?_) | split)
theorem execCoefWrite_keeps (a0 : Requester) (a1 : Nat) (a2 : Word) (s : State) : ∃ z0, (execCoefWrite a0 a1 a2 s) = .next z0 ∧ Keeps s z0 := by
  unfold execCoefWrite
  repeat' (first | (simp [Keeps, *]; done) | refine ⟨_, rfl, ?_⟩ | refine regWrite_keeps _ _ _ _ (fun s => ?_) | split)
@[simp] theorem land_keeps (s : State) (a1 : Nat) (a2 : Nat) (a3 : Nat) (a4 : List Byte) (a5 : Landing) : Keeps s (State.land s a1 a2 a3 a4 a5) := by
  unfold State.land
  repeat' (first | (simp [Keeps, *]; done) | split)
@[simp] theorem logError_keeps (s : State) (a1 : Nat) (a2 : Nat) (a3 : Nat) (a4 : Option Nat) (a5 : Nat) (a6 : Nat) (a7 : Nat) : Keeps s (State.logError s a1 a2 a3 a4 a5 a6 a7) := by
  unfold State.logError
  repeat' (first | (simp [Keeps, *]; done) | split)
@[simp] theorem repairsAtReset_keeps (s : State) : Keeps s (State.repairsAtReset s) := by simp [Keeps, State.repairsAtReset]
@[simp] theorem beatBack_keeps (s : State) : Keeps s (State.beatBack s) := by simp [Keeps, State.beatBack]
theorem execLinkRetrain_keeps (a0 : Requester) (a1 : Nat) (s : State) : ∃ z0, (execLinkRetrain a0 a1 s) = .next z0 ∧ Keeps s z0 := by
  unfold execLinkRetrain
  repeat' (first | (simp [Keeps, *]; done) | refine ⟨_, rfl, ?_⟩ | refine regWrite_keeps _ _ _ _ (fun s => ?_) | split)
theorem execEpochRaise_keeps (a0 : Requester) (a1 : Nat) (a2 : Nat) (a3 : Nat) (s : State) : ∃ z0, (execEpochRaise a0 a1 a2 a3 s) = .next z0 ∧ Keeps s z0 := by
  unfold execEpochRaise
  dsimp only
  repeat' (first | (simp [Keeps, *]; done) | refine ⟨_, rfl, ?_⟩ | refine regWrite_keeps _ _ _ _ (fun s => ?_) | split)
@[simp] theorem launchOver_keeps (s : State) (a1 : Nat) (a2 : LaunchF) : Keeps s (State.launchOver s a1 a2) := by
  unfold State.launchOver
  repeat' (first | (simp [Keeps, *]; done) | split)
@[simp] theorem hotBump_keeps (s : State) (a1 : Nat) (a2 : RangeEntry) (a3 : Nat) (a4 : Nat) (a5 : Option Nat) : Keeps s (State.hotBump s a1 a2 a3 a4 a5) := by
  unfold State.hotBump
  repeat' (first | (simp [Keeps, *]; done) | split)
theorem execSlotQmapWrite_keeps (a0 : Requester) (a1 : Nat) (a2 : Nat) (s : State) : ∃ z0, (execSlotQmapWrite a0 a1 a2 s) = .next z0 ∧ Keeps s z0 := by
  unfold execSlotQmapWrite
  repeat' (first | (simp [Keeps, *]; done) | refine ⟨_, rfl, ?_⟩ | refine regWrite_keeps _ _ _ _ (fun s => ?_) | split)
theorem XcPath_payload_keeps (w : XcPath) (bs : List Byte) (s : State) (hf : ∀ i n s, Keeps s (w.fetch i n s).2) : Keeps s (w.payload bs s).2 := by
  unfold XcPath.payload
  exact XcPath_all_keeps _ _ _ _ hf
@[simp] theorem bankCopy_keeps (s : State) (a1 : Nat) (a2 : BankF) (a3 : Bool) (a4 : Carve → Opnd → Nat → Region → Region) : Keeps s (State.bankCopy s a1 a2 a3 a4) := by
  unfold State.bankCopy
  (repeat' split) <;> simp [Keeps] <;> (repeat' split) <;> simp [Keeps, *]
/-- Nothing changes but the fuse SVN, which rises. -/
def SvnRises (s t : State) : Prop :=
  t.pending = s.pending ∧ t.sec.privopen = s.sec.privopen ∧ ∃ n, s.sec.fuses.svn ≤ n ∧ t.sec.fuses = { s.sec.fuses with svn := n }
theorem Keeps.rises {s t : State} (h : Keeps s t) : SvnRises s t := ⟨h.1, h.2.2, _, Nat.le_refl _, h.2.1⟩
theorem SvnRises.trans {s t u : State} (h : SvnRises s t) (k : SvnRises t u) : SvnRises s u := by
  obtain ⟨a, b, n, c, d⟩ := h
  obtain ⟨a', b', m, c', d'⟩ := k
  rw [d] at c' d'
  exact ⟨a'.trans a, b'.trans b, m, Nat.le_trans c c', d'⟩
theorem execSvncommit_rises (rq : Requester) (s : State) : ∃ t, execSvncommit rq s = .next t ∧ SvnRises s t := by
  refine ⟨_, rfl, ?_⟩
  unfold State.regWrite
  split
  · exact (Keeps.rfl s).rises
  · dsimp only
    split
    · exact Keeps.rises (.trans (dropHeld_keeps ..) (discard_keeps ..))
    · split
      · exact Keeps.rises (.trans (dropHeld_keeps ..) (discard_keeps ..))
      · exact SvnRises.trans (dropHeld_keeps ..).rises ⟨rfl, rfl, _, Nat.le_max_left _ _, rfl⟩
theorem nextOf_rises (r : Res) (u s : State) (h : ∃ t, r = .next t ∧ SvnRises s t) : SvnRises s (nextOf r u) := by
  obtain ⟨t, rfl, k⟩ := h
  exact k
@[simp] theorem placeRound_keeps (s : State) (a1 : Nat) (a2 : RoundEntry) : Keeps s (State.placeRound s a1 a2) := by
  unfold State.placeRound
  (repeat' split) <;> simp [Keeps] <;> (repeat' split) <;> simp [Keeps, *]
theorem execSkip_keeps (a0 : Requester) (a1 : Nat) (s : State) : ∃ z0, (execSkip a0 a1 s) = .next z0 ∧ Keeps s z0 := by
  unfold execSkip
  dsimp only
  repeat' (first | (simp [Keeps, *]; done) | refine ⟨_, rfl, ?_⟩ | refine regWrite_keeps _ _ _ _ (fun s => ?_) | split)
@[simp] theorem bdpRead0_keeps (s : State) (a1 : Nat) (a2 : Nat) (a3 : Nat) : Keeps s (State.bdpRead0 s a1 a2 a3).2 := by
  unfold State.bdpRead0
  repeat' (first | (simp [Keeps, *]; done) | split)
theorem bdpRead0_gives (s : State) (a1 : Nat) (a2 : Nat) (a3 : Nat) {x0 z} (h : (State.bdpRead0 s a1 a2 a3) = (x0, z)) : Keeps s z := by
  have k := bdpRead0_keeps s a1 a2 a3
  rw [h] at k
  exact k
theorem kvInstr_keeps (s : State) (r : Nat) (op : KvOp) (f : KvF) (g : State → Nat → LaunchRun → KvArgs → State) (h : ∀ s p l a, Keeps s (g s p l a)) :
    ∃ t, s.kvInstr r op f g = .next t ∧ Keeps s t := by
  unfold State.kvInstr
  refine runUnit_keeps _ _ _ _ (fun s p l => ?_)
  dsimp only
  repeat' (first | exact .rfl _ | exact h .. | exact failIssue_keeps .. | exact passOver_keeps .. | split)
@[simp] theorem drop_keeps (s : State) (a1 : Nat) : Keeps s (State.drop s a1) := by simp [Keeps, State.drop]
theorem forkSeqs_keeps (s : State) (a1 : Nat) (a2 : Seq) (a3 : Nat) (a4 : Bool) : ∀ z0, (State.forkSeqs s a1 a2 a3 a4) = .ok z0 → Keeps s z0.2.2 := by
  intro z0 h
  unfold State.forkSeqs at h
  dsimp only at h
  split at h
  · cases h
  · cases h
  · split at h
    · cases h
    · split at h
      · cases h
      · rename_i h1
        split at h
        · cases h
        · rename_i h2
          split at h
          · cases h
          · rename_i h3
            split at h
            · cases h
            · rename_i h4
              cases h
              exact .trans (openSeq_keeps _ _ _ _ _ _ _ _ h1) (.trans (forkTail_keeps _ _ _ _ _ _ _ h2) (.trans (commitRuns_keeps _ _ _ _ _ h3)
                (.trans (commitRuns_keeps _ _ _ _ _ h4) (foldl_keeps _ _ _ (fun s r => by split <;> simp [Keeps])))))
@[simp] theorem planRows_keeps (s : State) (a1 : Nat) (a2 : Nat) (a3 : LaunchRun) (a4 : AccKind) (a5 : List (Nat × Nat)) : Keeps s (State.planRows s a1 a2 a3 a4 a5).2 := by
  simp [Keeps, State.planRows]
theorem planRows_gives (s : State) (a1 : Nat) (a2 : Nat) (a3 : LaunchRun) (a4 : AccKind) (a5 : List (Nat × Nat)) {x0 z} (h : (State.planRows s a1 a2 a3 a4 a5) = (x0, z)) : Keeps s z := by
  have k := planRows_keeps s a1 a2 a3 a4 a5
  rw [h] at k
  exact k
@[simp] theorem placeEmpty_keeps (s : State) (a1 : Nat) (a2 : Nat) (a3 : LaunchRun) (a4 : Status) : Keeps s (State.placeEmpty s a1 a2 a3 a4) := by
  unfold State.placeEmpty
  (repeat' split) <;> simp [Keeps] <;> (repeat' split) <;> simp [Keeps, *]
theorem extend_keeps (s : State) (a1 : Nat) (a2 : Seq) (a3 : Nat) : ∀ z0, (State.extend s a1 a2 a3) = some z0 → Keeps s z0.2 := by
  intro z0 h
  unfold State.extend at h
  dsimp only at h
  split at h
  · cases h
  · rename_i h1
    refine .trans ?_ (commitRuns_keeps _ _ _ _ _ h)
    split at h1
    · cases h1; exact .rfl s
    · exact extendRuns_keeps _ _ _ _ _ _ _ h1
theorem execHotBaseWrite_keeps (a0 : Requester) (a1 : Word) (s : State) : ∃ z0, (execHotBaseWrite a0 a1 s) = .next z0 ∧ Keeps s z0 := by
  unfold execHotBaseWrite
  repeat' (first | (simp [Keeps, *]; done) | refine ⟨_, rfl, ?_⟩ | refine regWrite_keeps _ _ _ _ (fun s => ?_) | split)
theorem execFeQRing_keeps (a0 : Requester) (a1 : Nat) (a2 : Word) (s : State) : ∃ z0, (execFeQRing a0 a1 a2 s) = .next z0 ∧ Keeps s z0 := by
  unfold execFeQRing
  repeat' (first | (simp [Keeps, *]; done) | refine ⟨_, rfl, ?_⟩ | refine regWrite_keeps _ _ _ _ (fun s => ?_) | split)
theorem mirrorOwn_keeps (s : State) (a1 : Nat) (a2 : Nat) (a3 : Seq) (a4 : PageRun) : ∀ z0, (State.mirrorOwn s a1 a2 a3 a4) = some z0 → Keeps s z0.2 := by
  intro z0 h
  unfold State.mirrorOwn at h
  dsimp only at h
  split at h
  · cases h; exact .rfl s
  · split at h
    · exact commitRuns_keeps _ _ _ _ _ h
    · obtain ⟨t, h1, h2⟩ := Option.bind_eq_some_iff.mp h
      obtain ⟨u, h3, h4⟩ := Option.map_eq_some_iff.mp h2
      subst h4
      exact .trans (allocFrames_keeps _ _ _ _ _ h1) (.trans (commitRuns_keeps _ _ _ _ _ h3) (refDown_keeps ..))
theorem execDoorbell_keeps (a0 : Requester) (a1 : Nat) (a2 : Nat) (a3 : List Host.Cell) (s : State) : ∃ z0, (execDoorbell a0 a1 a2 a3 s) = .next z0 ∧ Keeps s z0 := by
  unfold execDoorbell
  refine ⟨_, rfl, .trans (hostStores_keeps s a3) (regWrite_keeps _ _ _ _ (fun s => ?_))⟩
  dsimp only
  repeat' (first | (simp [Keeps]; done) | split)
@[simp] theorem pump_keeps (port fuel : Nat) (s : State) : Keeps s (State.pump port fuel s) := by
  unfold State.pump
  dsimp only
  split
  · exact .rfl s
  · refine .trans (takeAll_keeps port fuel [] s) (.trans (.trans (setLink_keeps ..) (foldl_keeps _ _ _ (fun s f => ?_))) (foldl_keeps _ _ _ (fun s t => ?_)))
    · exact sendFrame_keeps ..
    · split
      · exact freeRx_keeps ..
      · exact .rfl s
theorem ownPage_keeps (s : State) (a1 : Nat) (a2 : Nat) (a3 : Nat) (a4 : Nat) : ∀ z0, (State.ownPage s a1 a2 a3 a4) = .ok z0 → Keeps s z0 := by
  intro z0 h
  unfold State.ownPage at h
  dsimp only at h
  split at h
  · cases h
  · rename_i h1
    split at h
    · cases h
    · cases h
      exact .trans (commitRuns_keeps _ _ _ _ _ h1) (putSeq_keeps ..)
@[simp] theorem hubFound_keeps (s : State) (a1 : HubFault) : Keeps s (State.hubFound s a1) := by
  unfold State.hubFound
  repeat' (first | (simp [Keeps, *]; done) | split)
theorem execQueueDisable_keeps (a0 : Requester) (a1 : Nat) (s : State) : ∃ z0, (execQueueDisable a0 a1 s) = .next z0 ∧ Keeps s z0 := by
  unfold execQueueDisable
  dsimp only
  repeat' (first | (simp [Keeps, *]; done) | refine ⟨_, rfl, ?_⟩ | refine regWrite_keeps _ _ _ _ (fun s => ?_) | split)
theorem execResume_keeps (a0 : Requester) (a1 : Nat) (a2 : Nat) (s : State) : ∃ z0, (execResume a0 a1 a2 s) = .next z0 ∧ Keeps s z0 := by
  unfold execResume
  dsimp only
  repeat' (first | (simp [Keeps, *]; done) | refine ⟨_, rfl, ?_⟩ | refine regWrite_keeps _ _ _ _ (fun s => ?_) | split)
@[simp] theorem refreshLevels_keeps (s : State) : Keeps s (State.refreshLevels s) := by simp [Keeps, State.refreshLevels]
theorem execOwEnter_keeps (a0 : Requester) (s : State) : ∃ z0, (execOwEnter a0 s) = .next z0 ∧ Keeps s z0 := by
  unfold execOwEnter
  repeat' (first | (simp [Keeps, *]; done) | refine ⟨_, rfl, ?_⟩ | refine regWrite_keeps _ _ _ _ (fun s => ?_) | split)
theorem execBdpAddrWrite_keeps (a0 : Requester) (a1 : Nat) (a2 : Word) (s : State) : ∃ z0, (execBdpAddrWrite a0 a1 a2 s) = .next z0 ∧ Keeps s z0 := by
  unfold execBdpAddrWrite
  repeat' (first | (simp [Keeps, *]; done) | refine ⟨_, rfl, ?_⟩ | refine regWrite_keeps _ _ _ _ (fun s => ?_) | split)
theorem scalarLoad_keeps (s : State) (a1 : Nat) (a2 : MovOp) (a3 : MovF) (a4 : Nat) : ∃ z0, (State.scalarLoad s a1 a2 a3 a4) = .next z0 ∧ Keeps s z0 := by
  unfold State.scalarLoad
  exact runInstr_keeps _ _ _ _ (fun s p l => by dsimp only; repeat' (first | (simp [Keeps, *]; done) | split))
@[simp] theorem bind_keeps (s : State) (a1 : Nat) (a2 : Nat) (a3 : LaunchF) : Keeps s (State.bind s a1 a2 a3).2 := by
  unfold State.bind
  (repeat' split) <;> simp [Keeps] <;> (repeat' split) <;> simp [Keeps, *]
theorem bind_gives (s : State) (a1 : Nat) (a2 : Nat) (a3 : LaunchF) {x0 z} (h : (State.bind s a1 a2 a3) = (x0, z)) : Keeps s z := by
  have k := bind_keeps s a1 a2 a3
  rw [h] at k
  exact k
theorem execFeQCring_keeps (a0 : Requester) (a1 : Nat) (a2 : Word) (s : State) : ∃ z0, (execFeQCring a0 a1 a2 s) = .next z0 ∧ Keeps s z0 := by
  unfold execFeQCring
  repeat' (first | (simp [Keeps, *]; done) | refine ⟨_, rfl, ?_⟩ | refine regWrite_keeps _ _ _ _ (fun s => ?_) | split)
@[simp] theorem wipePart_keeps (s : State) (a1 : Nat) : Keeps s (State.wipePart s a1) := by simp [Keeps, State.wipePart]
@[simp] theorem receiveMsg_keeps (s : State) (a1 : Nat) (a2 : LinkMsg) (a3 : Bool) : Keeps s (State.receiveMsg s a1 a2 a3) := by
  simp [Keeps, State.receiveMsg]
theorem execFeDevreset_keeps (a0 : Requester) (a1 : Word) (s : State) : ∃ z0, (execFeDevreset a0 a1 s) = .next z0 ∧ Keeps s z0 := by
  unfold execFeDevreset
  repeat' (first | (simp [Keeps, *]; done) | refine ⟨_, rfl, ?_⟩ | refine regWrite_keeps _ _ _ _ (fun s => ?_) | split)
@[simp] theorem loseAdmissions_keeps (s : State) (a1 : Bool) (a2 : Bool) (a3 : Cloche → Bool) : Keeps s (State.loseAdmissions s a1 a2 a3) := by
  exact foldl_keeps _ _ _ (fun s p => by split <;> simp [Keeps])
theorem returns_keeps (s : State) (a1 : Nat) (a2 : RouteOp) (a3 : Bool) (a4 : RouteF) : ∃ z0, (State.returns s a1 a2 a3 a4) = .next z0 ∧ Keeps s z0 := by
  unfold State.returns
  dsimp only
  repeat' (first | (simp [Keeps, *]; done) | refine runUnit_keeps _ _ _ _ (fun s p l => ?_) | refine ⟨_, rfl, ?_⟩ | split)
@[simp] theorem putDword_keeps (s : State) (a1 : Nat) (a2 : Nat) : Keeps s (State.putDword s a1 a2) := by simp [Keeps, State.putDword]
@[simp] theorem decideRepair_keeps (s : State) (a1 : Nat) (a2 : Nat) : Keeps s (State.decideRepair s a1 a2) := by
  unfold State.decideRepair
  dsimp only
  split <;> simp [Keeps]
@[simp] theorem readWords_keeps (a0 : Nat) (a1 : Nat) (s : State) : Keeps s (State.readWords a0 a1 s).2 := by
  induction a1 generalizing a0 s with
  | zero => exact .rfl s
  | succ k ih => exact .trans (apertureRead_keeps ..) (ih ..)
theorem readWords_gives (a0 : Nat) (a1 : Nat) (s : State) {x0 z} (h : (State.readWords a0 a1 s) = (x0, z)) : Keeps s z := by
  have k := readWords_keeps a0 a1 s
  rw [h] at k
  exact k
@[simp] theorem endCmdAt_keeps (s : State) (a1 : Nat) (a2 : Nat) (a3 : Nat) : Keeps s (State.endCmdAt s a1 a2 a3) := by
  unfold State.endCmdAt
  repeat' (first | (simp [Keeps, *]; done) | split)
theorem execCapture_keeps (a0 : Requester) (s : State) : ∃ z0, (execCapture a0 s) = .next z0 ∧ Keeps s z0 := by
  unfold execCapture
  repeat' (first | (simp [Keeps, *]; done) | refine ⟨_, rfl, ?_⟩ | refine regWrite_keeps _ _ _ _ (fun s => ?_) | split)
theorem execWake_keeps (a0 : Requester) (s : State) : ∃ z0, (execWake a0 s) = .next z0 ∧ Keeps s z0 := by
  unfold execWake
  repeat' (first | (simp [Keeps, *]; done) | refine ⟨_, rfl, ?_⟩ | refine regWrite_keeps _ _ _ _ (fun s => ?_) | split)
theorem vec_keeps (s : State) (a1 : Nat) (a2 : VecOp) (a3 : VecF) : ∃ z0, (State.vec s a1 a2 a3) = .next z0 ∧ Keeps s z0 := by
  unfold State.vec
  dsimp only
  repeat' (first | (simp [Keeps, *]; done) | refine runUnit_keeps _ _ _ _ (fun s p l => ?_) | refine ⟨_, rfl, ?_⟩ | split)
@[simp] theorem bootRepair_keeps (s : State) (a1 : Nat) : Keeps s (State.bootRepair s a1) := by
  unfold State.bootRepair
  dsimp only
  (repeat' split) <;> simp [Keeps]
@[simp] theorem rxDone_keeps (s : State) (a1 : Nat) (a2 : RxMsg) : Keeps s (State.rxDone s a1 a2) := by simp [Keeps, State.rxDone]
@[simp] theorem writeDone_keeps (s : State) (a1 : Nat) (a2 : Status) : Keeps s (State.writeDone s a1 a2) := by
  unfold State.writeDone
  (repeat' split) <;> simp [Keeps] <;> (repeat' split) <;> simp [Keeps, *]
theorem execClrbad_keeps (a0 : Requester) (a1 : Nat) (s : State) : ∃ z0, (execClrbad a0 a1 s) = .next z0 ∧ Keeps s z0 := by
  unfold execClrbad
  repeat' (first | (simp [Keeps, *]; done) | refine ⟨_, rfl, ?_⟩ | refine regWrite_keeps _ _ _ _ (fun s => ?_) | split)
@[simp] theorem endLaunch_keeps (s : State) (a1 : Nat) (a2 : LaunchRun) : Keeps s (State.endLaunch s a1 a2) := by
  simp [Keeps, State.endLaunch]
@[simp] theorem takeAck_keeps (s : State) (a1 : Nat) (a2 : FrameIn) : Keeps s (State.takeAck s a1 a2) := by simp [Keeps, State.takeAck]
@[simp] theorem mirrorFork_keeps (s : State) (a1 : Nat) (a2 : Nat) (a3 : Nat) (a4 : Nat) (a5 : Bool) : Keeps s (State.mirrorFork s a1 a2 a3 a4 a5) := by
  unfold State.mirrorFork
  dsimp only
  split
  · exact replRefused_keeps ..
  · split
    · exact replRefused_keeps ..
    · rename_i h
      refine .trans (.trans (freeSeq_keeps s a3) (forkSeqs_keeps _ _ _ _ _ _ h)) ?_
      simp [Keeps]
@[simp] theorem endSession_keeps (s : State) (a1 : Nat) : Keeps s (State.endSession s a1) := by simp [Keeps, State.endSession]
@[simp] theorem complete_keeps (s : State) (a1 : Nat) (a2 : Status) (a3 : Nat) : Keeps s (State.complete s a1 a2 a3) := by
  simp [Keeps, State.complete]
@[simp] theorem kvLog_keeps (s : State) (a1 : Nat) (a2 : Nat) (a3 : Nat) : Keeps s (State.kvLog s a1 a2 a3) := by
  unfold State.kvLog
  repeat' (first | (simp [Keeps, *]; done) | split)
@[simp] theorem rowLog_keeps (s : State) (a1 : Nat) (a2 : LaunchRun) (a3 : Nat) : Keeps s (State.rowLog s a1 a2 a3) := by
  simp [Keeps, State.rowLog]
@[simp] theorem patchEffects_keeps (s : State) (s1 : State) (a2 : List (Nat × Nat)) : Keeps s (State.patchEffects s s1 a2) := by
  simp [Keeps, State.patchEffects]
theorem execRtInsert_keeps (a0 : Requester) (a1 : Nat) (a2 : Bool) (s : State) : ∃ z0, (execRtInsert a0 a1 a2 s) = .next z0 ∧ Keeps s z0 := by
  simp [Keeps, execRtInsert]
@[simp] theorem heldDone_keeps (s : State) (a1 : HeldWrite) : Keeps s (State.heldDone s a1) := by
  unfold State.heldDone
  (repeat' split) <;> simp [Keeps] <;> (repeat' split) <;> simp [Keeps, *]
theorem execClocheEnter_keeps (a0 : Requester) (a1 : Nat) (s : State) : ∃ z0, (execClocheEnter a0 a1 s) = .next z0 ∧ Keeps s z0 := by
  unfold execClocheEnter
  repeat' (first | (simp [Keeps, *]; done) | refine ⟨_, rfl, ?_⟩ | refine regWrite_keeps _ _ _ _ (fun s => ?_) | split)
@[simp] theorem ramp_keeps (s : State) : Keeps s (State.ramp s) := by simp [Keeps, State.ramp]
@[simp] theorem transmit_keeps (s : State) (a1 : Nat) (a2 : TxMsg) : Keeps s (State.transmit s a1 a2) := by simp [Keeps, State.transmit]
@[simp] theorem putEpochCmd_keeps (s : State) (a1 : Requester) (a2 : Nat) : Keeps s (State.putEpochCmd s a1 a2) := by
  unfold State.putEpochCmd
  repeat' (first | (simp [Keeps, *]; done) | refine nextOf_keeps _ _ _ ?_ | exact execEpochRaise_keeps .. | refine ⟨_, rfl, ?_⟩ | split)
@[simp] theorem bdpGet_keeps (s : State) (a1 : Nat) (a2 : Nat) (a3 : Nat) (a4 : Nat) : Keeps s (State.bdpGet s a1 a2 a3 a4).2 := by
  unfold State.bdpGet
  repeat' (first | (simp [Keeps, *]; done) | split)
theorem bdpGet_gives (s : State) (a1 : Nat) (a2 : Nat) (a3 : Nat) (a4 : Nat) {x0 z} (h : (State.bdpGet s a1 a2 a3 a4) = (x0, z)) : Keeps s z := by
  have k := bdpGet_keeps s a1 a2 a3 a4
  rw [h] at k
  exact k
@[simp] theorem bindRun_keeps (s : State) (a1 : Nat) : Keeps s (State.bindRun s a1) := by
  unfold State.bindRun
  repeat' (first | (simp [Keeps, *]; done) | split)
@[simp] theorem bootRepairs_keeps (s : State) : Keeps s (State.bootRepairs s) := by simp [Keeps, State.bootRepairs]
@[simp] theorem loseWord_keeps (s : State) (a1 : CopyLoss) : Keeps s (State.loseWord s a1) := by
  unfold State.loseWord
  repeat' (first | (simp [Keeps, *]; done) | split)
@[simp] theorem settleOne_keeps (s : State) (a1 : RemoteReq) (a2 : Status) (a3 : List Byte) : Keeps s (State.settleOne s a1 a2 a3) := by
  unfold State.settleOne
  (repeat' split) <;> simp [Keeps] <;> (repeat' split) <;> simp [Keeps, *]
theorem execRtRemove_keeps (a0 : Requester) (a1 : Nat) (a2 : Bool) (s : State) : ∃ z0, (execRtRemove a0 a1 a2 s) = .next z0 ∧ Keeps s z0 := by
  simp [Keeps, execRtRemove]
theorem copyChoice_keeps (s : State) (a1 : Nat) (a2 : List KvAct) (a3 : Nat) (a4 : Nat) : ∀ z0, (State.copyChoice s a1 a2 a3 a4) = .ok z0 → Keeps s z0.2 := by
  intro z0 h
  unfold State.copyChoice at h
  dsimp only at h
  split at h
  · cases h; exact .rfl s
  · split at h
    · cases h; exact .rfl s
    · split at h
      · split at h
        · split at h
          · rename_i e
            cases h; exact ownPage_keeps _ _ _ _ _ _ e
          · cases h
        · cases h; exact .rfl s
      · split at h
        · cases h
        · rename_i e
          split at h
          · cases h; exact .trans (allocFrames_keeps _ _ _ _ _ e) (bumpPart_keeps ..)
          · cases h
@[simp] theorem clocheAfterReset_keeps (s : State) : Keeps s (State.clocheAfterReset s) := by simp [Keeps, State.clocheAfterReset]
@[simp] theorem logRemote_keeps (s : State) (a1 : RoutingRec) (a2 : Nat) : Keeps s (State.logRemote s a1 a2) := by
  simp [Keeps, State.logRemote]
@[simp] theorem logWalk_keeps (s : State) (a1 : Via) (a2 : Nat) (a3 : Nat) (a4 : Nat) (a5 : Nat) (a6 : Nat) : Keeps s (State.logWalk s a1 a2 a3 a4 a5 a6) := by
  unfold State.logWalk
  repeat' (first | (simp [Keeps, *]; done) | split)
@[simp] theorem landHeld_keeps (s : State) (a1 : Nat) (a2 : Nat) (a3 : Nat) : Keeps s (State.landHeld s a1 a2 a3) := by
  simp [Keeps, State.landHeld]
@[simp] theorem teardown_keeps (s : State) (a1 : Nat) : Keeps s (State.teardown s a1) := by simp [Keeps, State.teardown]
@[simp] theorem hostStore_keeps (s : State) (a1 : Nat) (a2 : Nat) (a3 : Nat) : Keeps s (State.hostStore s a1 a2 a3) := by
  simp [Keeps, State.hostStore]
@[simp] theorem regLog_keeps (s : State) (a1 : Nat) (a2 : Nat) (a3 : Nat) : Keeps s (State.regLog s a1 a2 a3) := by
  unfold State.regLog
  repeat' (first | (simp [Keeps, *]; done) | split)
theorem execRtReplace_keeps (a0 : Requester) (a1 : Nat) (a2 : Bool) (s : State) : ∃ z0, (execRtReplace a0 a1 a2 s) = .next z0 ∧ Keeps s z0 := by
  simp [Keeps, execRtReplace]
theorem execRtFlush_keeps (a0 : Requester) (a1 : Nat) (a2 : Bool) (s : State) : ∃ z0, (execRtFlush a0 a1 a2 s) = .next z0 ∧ Keeps s z0 := by
  simp [Keeps, execRtFlush]
@[simp] theorem dropLimited_keeps (s : State) : Keeps s (State.dropLimited s) := by simp [Keeps, State.dropLimited]
@[simp] theorem dropOne_keeps (s : State) (a1 : List (PTag × Nat)) : Keeps s (State.dropOne s a1) := by
  unfold State.dropOne
  (repeat' split) <;> simp [Keeps] <;> (repeat' split) <;> simp [Keeps, *]
@[simp] theorem cxlAnswer_keeps (s : State) (a1 : Nat) (a2 : Nat) : Keeps s (State.cxlAnswer s a1 a2) := by
  unfold State.cxlAnswer
  (repeat' split) <;> simp [Keeps] <;> (repeat' split) <;> simp [Keeps, *]
@[simp] theorem putOwCtrl_keeps (s : State) (a1 : Requester) (a2 : Nat) : Keeps s (State.putOwCtrl s a1 a2) := by
  unfold State.putOwCtrl
  extract_lets u v
  have h : Keeps s u := by simp [u, Keeps]
  have k : Keeps u v := by
    unfold v
    split
    · exact nextOf_keeps _ _ _ (execOwEnter_keeps ..)
    · exact .rfl u
  clear_value v
  clear_value u
  refine h.trans (k.trans ?_)
  split
  · exact nextOf_keeps _ _ _ (execWake_keeps ..)
  · exact .rfl _
theorem storePage_keeps (s : State) (a1 : Nat) (a2 : Nat) (a3 : Nat) (a4 : List Byte) : ∀ z0, (State.storePage s a1 a2 a3 a4) = some z0 → Keeps s z0 := by
  intro z0 h
  unfold State.storePage at h
  dsimp only at h
  split at h
  · cases h
  · rename_i h1
    split at h
    · cases h
    · rename_i h2
      have k := Keeps.trans (extendRuns_keeps _ _ _ _ _ _ _ h1) (commitRuns_keeps _ _ _ _ _ h2)
      split at h
      · split at h
        · cases h; exact k
        · split at h
          · cases h
          · rename_i h3
            cases h
            exact .trans k (.trans (mirrorOwn_keeps _ _ _ _ _ _ h3) (.trans (writeLocal_keeps ..) (putSeq_keeps ..)))
      · cases h; exact k
@[simp] theorem hotCount_keeps (s : State) (a1 : Via) (a2 : List Piece) : Keeps s (State.hotCount s a1 a2) := by
  unfold State.hotCount
  split
  · exact .rfl s
  · refine foldl_keeps _ _ _ (fun s x => ?_)
    split
    · exact .rfl s
    · refine foldl_keeps _ _ _ (fun s c => ?_)
      exact hotBump_keeps s a1.ctx x.entry c.1 c.2 _
@[simp] theorem setPace_keeps (s : State) (a1 : RoutingRec) (a2 : Nat) (a3 : Nat) (a4 : Nat) : Keeps s (State.setPace s a1 a2 a3 a4) := by
  simp [Keeps, State.setPace]
@[simp] theorem commitPatch_keeps (s : State) (a1 : Patch) : Keeps s (State.commitPatch s a1) := by simp [Keeps, State.commitPatch]
@[simp] theorem flushHeld_keeps (s : State) : Keeps s (State.flushHeld s) := by simp [Keeps, State.flushHeld]
@[simp] theorem actPut_keeps (s : State) (a1 : Nat) (a2 : LaunchRun) (a3 : KvAct) : Keeps s (State.actPut s a1 a2 a3).2 := by
  unfold State.actPut
  repeat' (first | (simp [Keeps, *]; done) | split)
theorem actPut_gives (s : State) (a1 : Nat) (a2 : LaunchRun) (a3 : KvAct) {x0 z} (h : (State.actPut s a1 a2 a3) = (x0, z)) : Keeps s z := by
  have k := actPut_keeps s a1 a2 a3
  rw [h] at k
  exact k
@[simp] theorem scoreRow_keeps (s : State) (a1 : Nat) (a2 : LaunchRun) (a3 : KvF) (a4 : KvArgs) (a5 : Reader) (a6 : Nat) : Keeps s (State.scoreRow s a1 a2 a3 a4 a5 a6).2 := by
  unfold State.scoreRow
  (repeat' split) <;> simp [Keeps] <;> (repeat' split) <;> simp [Keeps, *]
theorem scoreRow_gives (s : State) (a1 : Nat) (a2 : LaunchRun) (a3 : KvF) (a4 : KvArgs) (a5 : Reader) (a6 : Nat) {x0 z} (h : (State.scoreRow s a1 a2 a3 a4 a5 a6) = (x0, z)) : Keeps s z := by
  have k := scoreRow_keeps s a1 a2 a3 a4 a5 a6
  rw [h] at k
  exact k
@[simp] theorem startRegions_keeps (s : State) (a1 : Nat) (a2 : Nat) (a3 : LaunchRun) (a4 : Image) (a5 : List Word) : Keeps s (State.startRegions s a1 a2 a3 a4 a5) := by
  simp [Keeps, State.startRegions]
@[simp] theorem originate_keeps (s : State) (a1 : LinkMsg) : Keeps s (State.originate s a1).2 := by
  unfold State.originate
  split
  · exact .rfl s
  · split
    · exact .rfl s
    · split
      · exact .rfl s
      · rename_i e
        have k := seal_keeps _ _ _ _ e
        dsimp only
        split
        · exact .trans k (.trans (bumpPart_keeps ..) (transmit_keeps ..))
        · exact .trans k (transmit_keeps ..)
theorem originate_gives (s : State) (a1 : LinkMsg) {x0 z} (h : (State.originate s a1) = (x0, z)) : Keeps s z := by
  have k := originate_keeps s a1
  rw [h] at k
  exact k
@[simp] theorem readyPoint_keeps (s : State) : Keeps s (State.readyPoint s) := by simp [Keeps, State.readyPoint]
@[simp] theorem loadImage_keeps (s : State) (a1 : TStruct) (a2 : List Byte) : Keeps s (State.loadImage s a1 a2) := by
  simp [Keeps, State.loadImage]
@[simp] theorem readRow_keeps (s : State) (a1 : Nat) (a2 : Nat) (a3 : LaunchRun) (a4 : KvF) (a5 : KvArgs) (a6 : Reader) (a7 : Carve) (a8 : Nat) : Keeps s (State.readRow s a1 a2 a3 a4 a5 a6 a7 a8).2 := by
  unfold State.readRow
  (repeat' split) <;> simp [Keeps] <;> (repeat' split) <;> simp [Keeps, *]
theorem readRow_gives (s : State) (a1 : Nat) (a2 : Nat) (a3 : LaunchRun) (a4 : KvF) (a5 : KvArgs) (a6 : Reader) (a7 : Carve) (a8 : Nat) {x0 z} (h : (State.readRow s a1 a2 a3 a4 a5 a6 a7 a8) = (x0, z)) : Keeps s z := by
  have k := readRow_keeps s a1 a2 a3 a4 a5 a6 a7 a8
  rw [h] at k
  exact k
@[simp] theorem putRtCmd_keeps (s : State) (a1 : Requester) (a2 : Nat) (a3 : Nat) : Keeps s (State.putRtCmd s a1 a2 a3) := by
  unfold State.putRtCmd
  repeat' (first | (simp [Keeps, *]; done) | refine nextOf_keeps _ _ _ ?_ | exact execRtInsert_keeps .. | exact execRtRemove_keeps .. | exact execRtReplace_keeps .. | exact execRtFlush_keeps .. | refine ⟨_, rfl, ?_⟩ | split)
@[simp] theorem serveXc_keeps (s : State) (a1 : RoutingRec) (a2 : LinkMsg) (a3 : Nat) : Keeps s (State.serveXc s a1 a2 a3).2 := by
  unfold State.serveXc
  dsimp only
  have k (x : XcRun) (n : Nat) : Keeps s ((rxPath a1.part).all n x s).2 := XcPath_all_keeps _ _ _ _ (fun _ _ s => .rfl s)
  generalize hz : (rxPath a1.part).all _ _ s = z
  have k : Keeps s z.2 := by rw [← hz]; exact k ..
  split
  · exact k.trans (snoopLines_keeps ..)
  · split
    · exact k.trans ⟨rfl, rfl, rfl⟩
    · split
      · refine k.trans ?_
        simp [Keeps]
      · have kw : Keeps z.2 (z.1.writes.foldl (fun (s : State) w => s.writeLocal w.1 w.2) z.2) :=
          foldl_keeps _ _ _ (fun s w => writeLocal_keeps ..)
        split <;> exact k.trans (kw.trans ⟨rfl, rfl, rfl⟩)
theorem serveXc_gives (s : State) (a1 : RoutingRec) (a2 : LinkMsg) (a3 : Nat) {x0 z} (h : (State.serveXc s a1 a2 a3) = (x0, z)) : Keeps s z := by
  have k := serveXc_keeps s a1 a2 a3
  rw [h] at k
  exact k
@[simp] theorem checkFail_keeps (s : State) (a1 : Nat) (a2 : Nat) (a3 : Issued) (a4 : RetireFault) : Keeps s (State.checkFail s a1 a2 a3 a4) := by
  unfold State.checkFail
  repeat' (first | (simp [Keeps, *]; done) | split)
@[simp] theorem completeOk_keeps (s : State) (a1 : Nat) (a2 : Status) : Keeps s (State.completeOk s a1 a2) := by
  simp [Keeps, State.completeOk]
@[simp] theorem actStop_keeps (s : State) (a1 : Nat) (a2 : LaunchRun) (a3 : ForkStop) : Keeps s (State.actStop s a1 a2 a3).2 := by
  unfold State.actStop
  repeat' (first | (simp [Keeps, *]; done) | split)
theorem actStop_gives (s : State) (a1 : Nat) (a2 : LaunchRun) (a3 : ForkStop) {x0 z} (h : (State.actStop s a1 a2 a3) = (x0, z)) : Keeps s z := by
  have k := actStop_keeps s a1 a2 a3
  rw [h] at k
  exact k
theorem cxlTaken_keeps (s : State) (l : List (Nat × Nat)) : Keeps s { s with mem := { s.mem with cxlWait := l } } := ⟨rfl, rfl, rfl⟩
@[simp] theorem flushReads_keeps (n : Nat) (s : State) : Keeps s (State.flushReads n s) := by
  induction n generalizing s with
  | zero => exact .rfl s
  | succ n ih =>
    unfold State.flushReads
    split
    · exact .rfl s
    · split
      · rename_i rest _ _
        exact (cxlTaken_keeps s rest).trans ((cxlAnswer_keeps ..).trans (ih _))
      · exact makeRoom_keeps ..
@[simp] theorem sendDirect_keeps (s : State) (a1 : Nat) (a2 : Nat) (a3 : LinkMsg) : Keeps s (State.sendDirect s a1 a2 a3) := by
  unfold State.sendDirect
  repeat' (first | (simp [Keeps, *]; done) | split)
@[simp] theorem beginServing_keeps (s : State) : Keeps s (State.beginServing s) := by simp [Keeps, State.beginServing]
@[simp] theorem capStep_keeps (s : State) (a1 : Nat) (a2 : List (PTag × Nat)) : Keeps s (State.capStep s a1 a2) := by
  unfold State.capStep
  extract_lets u w
  have h : Keeps s u := by simp [u, Keeps]
  clear_value w
  clear_value u
  refine h.trans ?_
  split
  · generalize List.range 11 = l
    exact foldl_keeps _ _ _ (fun s n => by split <;> simp [Keeps])
  · generalize List.range 8 = l
    repeat' (first | (simp [Keeps]; done) | split)
@[simp] theorem applyRelease_keeps (s : State) (a1 : RoutingRec) (a2 : Nat) (a3 : BarGen) (a4 : Rel) : Keeps s (State.applyRelease s a1 a2 a3 a4) := by
  unfold State.applyRelease
  dsimp only
  repeat' (first | (simp [Keeps]; done) | split)
@[simp] theorem settleReq_keeps (s : State) (a1 : Nat) (a2 : Status) (a3 : List Byte) : Keeps s (State.settleReq s a1 a2 a3) := by
  unfold State.settleReq
  repeat' (first | (simp [Keeps, *]; done) | split)
@[simp] theorem fwGo_keeps (s : State) : Keeps s (State.fwGo s) := by simp [Keeps, State.fwGo]
@[simp] theorem wrackTo_keeps (s : State) (a1 : Nat) (a2 : Nat) (a3 : Nat) (a4 : Status) : Keeps s (State.wrackTo s a1 a2 a3 a4) := by
  simp [Keeps, State.wrackTo]
@[simp] theorem copyEnd_keeps (s : State) (a1 : Nat) (a2 : Status) : Keeps s (State.copyEnd s a1 a2) := by simp [Keeps, State.copyEnd]
@[simp] theorem actStep_keeps (s : State) (a1 : Nat) (a2 : LaunchRun) (a3 : List KvAct) (a4 : KvAct) : Keeps s (State.actStep s a1 a2 a3 a4).2 := by
  grind [State.actStep, → copyChoice_keeps, → actStop_gives, → actPut_gives]
theorem actStep_gives (s : State) (a1 : Nat) (a2 : LaunchRun) (a3 : List KvAct) (a4 : KvAct) {x0 z} (h : (State.actStep s a1 a2 a3 a4) = (x0, z)) : Keeps s z := by
  have k := actStep_keeps s a1 a2 a3 a4
  rw [h] at k
  exact k
@[simp] theorem appendRow_keeps (s : State) (a1 : Nat) (a2 : Nat) (a3 : LaunchRun) (a4 : KvF) (a5 : KvArgs) (a6 : Reader) (a7 : Carve) (a8 : List KvAct) (a9 : Nat) : Keeps s (State.appendRow s a1 a2 a3 a4 a5 a6 a7 a8 a9).2 := by
  unfold State.appendRow
  dsimp only
  repeat' (first | exact .rfl s | exact rowLog_keeps .. | exact .trans (setRegion_keeps ..) (actStop_keeps ..) |
    (rename_i e; exact .trans (setRegion_keeps ..) (copyChoice_keeps _ _ _ _ _ _ e)) | split)
theorem appendRow_gives (s : State) (a1 : Nat) (a2 : Nat) (a3 : LaunchRun) (a4 : KvF) (a5 : KvArgs) (a6 : Reader) (a7 : Carve) (a8 : List KvAct) (a9 : Nat) {x0 z} (h : (State.appendRow s a1 a2 a3 a4 a5 a6 a7 a8 a9) = (x0, z)) : Keeps s z := by
  have k := appendRow_keeps s a1 a2 a3 a4 a5 a6 a7 a8 a9
  rw [h] at k
  exact k
@[simp] theorem nowLocked_keeps (s : State) : Keeps s (State.nowLocked s) := by simp [Keeps, State.nowLocked]
@[simp] theorem endBuild_keeps (s : State) (a1 : Build) (a2 : Status) (a3 : Bool) : Keeps s (State.endBuild s a1 a2 a3) := by
  simp [Keeps, State.endBuild]
@[simp] theorem sendRelease_keeps (s : State) (a1 : RoutingRec) (a2 : Nat) (a3 : BarGen) (a4 : Rel) : Keeps s (State.sendRelease s a1 a2 a3 a4) := by
  simp [Keeps, State.sendRelease]
@[simp] theorem ackPage_keeps (s : State) (a1 : LinkMsg) (a2 : Nat) (a3 : Status) : Keeps s (State.ackPage s a1 a2 a3) := by
  simp [Keeps, State.ackPage]
@[simp] theorem takeReply_keeps (a0 : LinkMsg) (a1 : RoutingRec) (s : State) : Keeps s (State.takeReply a0 a1 s).2 := by
  simp [Keeps, State.takeReply]
theorem takeReply_gives (a0 : LinkMsg) (a1 : RoutingRec) (s : State) {x0 z} (h : (State.takeReply a0 a1 s) = (x0, z)) : Keeps s z := by
  have k := takeReply_keeps a0 a1 s
  rw [h] at k
  exact k
@[simp] theorem endFenceWait_keeps (s : State) (a1 : Nat) (a2 : Nat) (a3 : Nat) (a4 : Nat) (a5 : Status) : Keeps s (State.endFenceWait s a1 a2 a3 a4 a5) := by
  simp [Keeps, State.endFenceWait]
@[simp] theorem respond_keeps (s : State) (a1 : LinkMsg) (a2 : Status) (a3 : List Byte) : Keeps s (State.respond s a1 a2 a3) := by
  simp [Keeps, State.respond]
theorem runCmd_keeps (s : State) (q : Nat) (b : CmdBody) (f : Running → Nat → Nat → State) (h : ∀ x c p, Keeps s (f x c p)) :
    ∃ t, s.runCmd q b f = .next t ∧ Keeps s t := by
  unfold State.runCmd
  dsimp only
  (repeat' split) <;> refine ⟨_, rfl, ?_⟩ <;> first | exact .rfl s | exact h .. | exact completeOk_keeps ..
@[simp] theorem request_keeps (s : State) (a1 : ReqOwner) (a2 : Nat) (a3 : Nat) (a4 : Bool) (a5 : Option (List Byte)) (a6 : Nat) : Keeps s (State.request s a1 a2 a3 a4 a5 a6) := by
  unfold State.request
  dsimp only
  split
  · rename_i h
    have k := originate_gives _ _ h
    exact k
  · rename_i h
    have k := originate_gives _ _ h
    exact .trans k (settleOne_keeps ..)
@[simp] theorem trlGo_keeps (s : State) : Keeps s (State.trlGo s) := by
  unfold State.trlGo
  (repeat' split) <;> simp [Keeps] <;> (repeat' split) <;> simp [Keeps, *]
@[simp] theorem sendTwin_keeps (s : State) (a1 : Nat) (a2 : Nat) (a3 : Nat) (a4 : Nat) (a5 : List Byte) : Keeps s (State.sendTwin s a1 a2 a3 a4 a5) := by
  unfold State.sendTwin
  repeat' (first | (simp [Keeps, *]; done) | split)
@[simp] theorem copyPage_keeps (s : State) (a1 : Nat) (a2 : LaunchRun) (a3 : KvAct) : Keeps s (State.copyPage s a1 a2 a3).2 := by
  unfold State.copyPage
  dsimp only
  split
  · exact .rfl s
  · split
    · exact .trans (dropCopy_keeps ..) (rowLog_keeps ..)
    · split
      · exact .trans (.trans (writeLocal_keeps ..) (dropCopy_keeps ..)) (actStop_keeps ..)
      · rename_i e
        exact .trans (.trans (writeLocal_keeps ..) (ownPage_keeps _ _ _ _ _ _ e)) (.trans (refDown_keeps ..) (actPut_keeps ..))
theorem copyPage_gives (s : State) (a1 : Nat) (a2 : LaunchRun) (a3 : KvAct) {x0 z} (h : (State.copyPage s a1 a2 a3) = (x0, z)) : Keeps s z := by
  have k := copyPage_keeps s a1 a2 a3
  rw [h] at k
  exact k
@[simp] theorem writePieces_keeps (s : State) (a1 : ReqOwner) (a2 : Via) (a3 : Nat) (a4 : Nat) (a5 : Nat) (a6 : Bool) (a7 : List Piece) (a8 : List Byte) : Keeps s (State.writePieces s a1 a2 a3 a4 a5 a6 a7 a8).2 := by
  unfold State.writePieces
  dsimp only
  have inner (l : List (Nat × Nat)) (plot : Nat) (t : State × Nat × List Byte) : Keeps t.1 (l.foldl (fun (a : State × Nat × List Byte) y =>
      (a.1.request a1 plot y.1 a6 (some (a.2.2.take y.2)) 0, a.2.1 + 1, a.2.2.drop y.2)) t).1 := by
    induction l generalizing t with
    | nil => exact .rfl _
    | cons y l ih => exact .trans (request_keeps ..) (ih _)
  have outer (plot : Nat) (l : List Piece) (t : State × Nat × List Byte) : Keeps t.1 (l.foldl (fun (acc : State × Nat × List Byte) x =>
      if x.remote acc.1 then
        let u := (split8k (x.len / 8192 + 2) x.pa x.len).foldl (fun (a : State × Nat × List Byte) y =>
          (a.1.request a1 plot y.1 a6 (some (a.2.2.take y.2)) 0, a.2.1 + 1, a.2.2.drop y.2)) (acc.1, acc.2.1, acc.2.2)
        (u.1, u.2.1, acc.2.2.drop x.len)
      else (acc.1.writeLocal x.loc (acc.2.2.take x.len), acc.2.1, acc.2.2.drop x.len)) t).1 := by
    induction l generalizing t with
    | nil => exact .rfl _
    | cons x l ih =>
      rw [List.foldl_cons]
      refine .trans ?_ (ih _)
      split
      · exact inner _ _ _
      · exact writeLocal_keeps ..
  split
  · exact snoopLines_keeps ..
  · split
    · exact logError_keeps ..
    · exact .trans (outer _ a7 (s, 0, a8)) (hotCount_keeps ..)
theorem writePieces_gives (s : State) (a1 : ReqOwner) (a2 : Via) (a3 : Nat) (a4 : Nat) (a5 : Nat) (a6 : Bool) (a7 : List Piece) (a8 : List Byte) {x0 z} (h : (State.writePieces s a1 a2 a3 a4 a5 a6 a7 a8) = (x0, z)) : Keeps s z := by
  have k := writePieces_keeps s a1 a2 a3 a4 a5 a6 a7 a8
  rw [h] at k
  exact k
@[simp] theorem timeAnswer_keeps (s : State) (a1 : Int) : Keeps s (State.timeAnswer s a1) := by
  unfold State.timeAnswer
  repeat' (first | (simp [Keeps, *]; done) | split)
@[simp] theorem kvActs_keeps (a0 : Nat) (a1 : LaunchRun) (a2 : List KvAct) (a3 : List KvAct) (s : State) : Keeps s (State.kvActs a0 a1 a2 a3 s).2.2 := by
  induction a3 generalizing s with
  | nil => exact .rfl s
  | cons x xs ih =>
    unfold State.kvActs
    split
    · rename_i e
      exact actStep_gives _ _ _ _ _ e
    · rename_i e
      exact (actStep_gives _ _ _ _ _ e).trans (ih _)
theorem kvActs_gives (a0 : Nat) (a1 : LaunchRun) (a2 : List KvAct) (a3 : List KvAct) (s : State) {x0 x1 z} (h : (State.kvActs a0 a1 a2 a3 s) = (x0, x1, z)) : Keeps s z := by
  have k := kvActs_keeps a0 a1 a2 a3 s
  rw [h] at k
  exact k
@[simp] theorem appendRows_keeps (a0 : Nat) (a1 : Nat) (a2 : LaunchRun) (a3 : KvF) (a4 : KvArgs) (a5 : Reader) (a6 : Carve) (a7 : List Nat) (a8 : List KvAct) (s : State) : Keeps s (State.appendRows a0 a1 a2 a3 a4 a5 a6 a7 a8 s).2.2 := by
  induction a7 generalizing s a8 with
  | nil => exact .rfl s
  | cons w ws ih =>
    unfold State.appendRows
    split <;> rename_i e
    · exact .trans (appendRow_gives _ _ _ _ _ _ _ _ _ _ e) (ih _ _)
    · exact .trans (appendRow_gives _ _ _ _ _ _ _ _ _ _ e) (ih _ _)
theorem appendRows_gives (a0 : Nat) (a1 : Nat) (a2 : LaunchRun) (a3 : KvF) (a4 : KvArgs) (a5 : Reader) (a6 : Carve) (a7 : List Nat) (a8 : List KvAct) (s : State) {x0 x1 z} (h : (State.appendRows a0 a1 a2 a3 a4 a5 a6 a7 a8 s) = (x0, x1, z)) : Keeps s z := by
  have k := appendRows_keeps a0 a1 a2 a3 a4 a5 a6 a7 a8 s
  rw [h] at k
  exact k
@[simp] theorem delivered_keeps (s : State) (a1 : TransitRec) : Keeps s (State.delivered s a1) := by
  unfold State.delivered
  repeat' (first | (simp [Keeps, *]; done) | split)
@[simp] theorem respondBack_keeps (s : State) (a1 : Nat) (a2 : LinkMsg) (a3 : Status) : Keeps s (State.respondBack s a1 a2 a3) := by
  simp [Keeps, State.respondBack]
@[simp] theorem sendPage_keeps (s : State) (a1 : Nat) (a2 : Nat) (a3 : Nat) (a4 : Seq) : Keeps s (State.sendPage s a1 a2 a3 a4) := by
  unfold State.sendPage
  (repeat' split) <;> simp [Keeps] <;> (repeat' split) <;> simp [Keeps, *]
theorem execFwGo_keeps (a0 : Requester) (s : State) : ∃ z0, (execFwGo a0 s) = .next z0 ∧ Keeps s z0 := by
  unfold execFwGo
  repeat' (first | (simp [Keeps, *]; done) | refine ⟨_, rfl, ?_⟩ | refine regWrite_keeps _ _ _ _ (fun s => ?_) | split)
@[simp] theorem releaseEntry_keeps (s : State) (a1 : Nat) (a2 : Nat) : Keeps s (State.releaseEntry s a1 a2).2 := by
  unfold State.releaseEntry
  (repeat' split) <;> simp [Keeps] <;> (repeat' split) <;> simp [Keeps, *]
theorem releaseEntry_gives (s : State) (a1 : Nat) (a2 : Nat) {x0 z} (h : (State.releaseEntry s a1 a2) = (x0, z)) : Keeps s z := by
  have k := releaseEntry_keeps s a1 a2
  rw [h] at k
  exact k
@[simp] theorem serveRd_keeps (a0 : LinkMsg) (a1 : RoutingRec) (s : State) : Keeps s (State.serveRd a0 a1 s).2 := by
  unfold State.serveRd
  (repeat' split) <;> simp [Keeps] <;> (repeat' split) <;> simp [Keeps, *]
theorem serveRd_gives (a0 : LinkMsg) (a1 : RoutingRec) (s : State) {x0 z} (h : (State.serveRd a0 a1 s) = (x0, z)) : Keeps s z := by
  have k := serveRd_keeps a0 a1 s
  rw [h] at k
  exact k
@[simp] theorem startTime_keeps (s : State) (a1 : Nat) : Keeps s (State.startTime s a1) := by simp [Keeps, State.startTime]
@[simp] theorem passOn_keeps (s : State) (a1 : RoutingRec) (a2 : Nat) (a3 : BarGen) : Keeps s (State.passOn s a1 a2 a3) := by
  simp [Keeps, State.passOn]
theorem evictGroup_keeps (s : State) (a1 : Nat) (a2 : Nat) (a3 : Nat) : ∀ z0, (State.evictGroup s a1 a2 a3) = some z0 → Keeps s z0 := by
  intro z0 h
  obtain ⟨t, h1, h2⟩ := Option.map_eq_some_iff.mp h
  subst h2
  refine .trans (commitRuns_keeps _ _ _ _ _ h1) ?_
  dsimp only
  split <;> simp [Keeps]
@[simp] theorem sendOpen_keeps (s : State) (a1 : Nat) (a2 : Nat) (a3 : Seq) : Keeps s (State.sendOpen s a1 a2 a3) := by
  simp [Keeps, State.sendOpen]
@[simp] theorem serveWr_keeps (a0 : LinkMsg) (a1 : RoutingRec) (s : State) : Keeps s (State.serveWr a0 a1 s).2 := by
  unfold State.serveWr
  dsimp only
  split
  · exact respond_keeps ..
  · split
    · split
      · exact respond_keeps ..
      · split
        · exact .rfl s
        · exact ⟨rfl, rfl, rfl⟩
    · split
      · exact snoopLines_keeps ..
      · split
        · split <;> rename_i e
          · exact (wakeMem_keeps s).trans (serveXc_gives _ _ _ _ e)
          · exact (wakeMem_keeps s).trans ((serveXc_gives _ _ _ _ e).trans (respond_keeps ..))
        · split
          · exact .trans (.trans (wakeMem_keeps s) (logRemote_keeps ..)) (respond_keeps ..)
          · exact .trans (.trans (wakeMem_keeps s) (writeLocal_keeps ..)) (respond_keeps ..)
theorem serveWr_gives (a0 : LinkMsg) (a1 : RoutingRec) (s : State) {x0 z} (h : (State.serveWr a0 a1 s) = (x0, z)) : Keeps s z := by
  have k := serveWr_keeps a0 a1 s
  rw [h] at k
  exact k
@[simp] theorem mirrorPage_keeps (s : State) (a1 : Nat) (a2 : LinkMsg) : Keeps s (State.mirrorPage s a1 a2) := by
  have h (s w : State) (n lp : Nat) (bs : List Byte) (k : Keeps s w) : Keeps s (match w.storePage a1 n lp bs with
      | some t => t.ackPage a2 lp .ok
      | none => w.ackPage a2 lp .capacity) := by
    refine k.trans ?_
    split
    · exact .trans (storePage_keeps _ _ _ _ _ _ ‹_›) (ackPage_keeps ..)
    · exact ackPage_keeps ..
  unfold State.mirrorPage
  dsimp only
  split
  · exact replRefused_keeps ..
  · split
    · exact ⟨rfl, rfl, rfl⟩
    · exact h _ _ _ _ _ ⟨rfl, rfl, rfl⟩
@[simp] theorem prefetch_keeps (s : State) (a1 : ReqOwner) (a2 : Nat) (a3 : List Piece) : Keeps s (State.prefetch s a1 a2 a3).2 := by
  unfold State.prefetch
  (repeat' split) <;> simp [Keeps] <;> (repeat' split) <;> simp [Keeps, *]
theorem prefetch_gives (s : State) (a1 : ReqOwner) (a2 : Nat) (a3 : List Piece) {x0 z} (h : (State.prefetch s a1 a2 a3) = (x0, z)) : Keeps s z := by
  have k := prefetch_keeps s a1 a2 a3
  rw [h] at k
  exact k
@[simp] theorem discardMsg_keeps (s : State) (a1 : LinkMsg) : Keeps s (State.discardMsg s a1) := by simp [Keeps, State.discardMsg]
@[simp] theorem readPieces_keeps (s : State) (a1 : ReqOwner) (a2 : Via) (a3 : Nat) (a4 : Nat) (a5 : Nat) (a6 : List Piece) : Keeps s (State.readPieces s a1 a2 a3 a4 a5 a6).2 := by
  unfold State.readPieces
  (repeat' split) <;> simp [Keeps] <;> (repeat' split) <;> simp [Keeps, *]
theorem readPieces_gives (s : State) (a1 : ReqOwner) (a2 : Via) (a3 : Nat) (a4 : Nat) (a5 : Nat) (a6 : List Piece) {x0 z} (h : (State.readPieces s a1 a2 a3 a4 a5 a6) = (x0, z)) : Keeps s z := by
  have k := readPieces_keeps s a1 a2 a3 a4 a5 a6
  rw [h] at k
  exact k
theorem execTrellisGo_keeps (a0 : Requester) (s : State) : ∃ z0, (execTrellisGo a0 s) = .next z0 ∧ Keeps s z0 := by
  unfold execTrellisGo
  repeat' (first | (simp [Keeps, *]; done) | refine ⟨_, rfl, ?_⟩ | refine regWrite_keeps _ _ _ _ (fun s => ?_) | split)
@[simp] theorem discardLink_keeps (s : State) (a1 : Nat) : Keeps s (State.discardLink s a1) := by
  unfold State.discardLink
  dsimp only
  refine .trans (.trans (setLink_keeps s a1 { s.link a1 with txq := [], replay := [] }) (foldl_keeps (s.link a1).txq _ _ (fun s t => ?_)))
    (foldl_keeps _ _ _ (fun s m => discardMsg_keeps ..))
  split <;> simp [Keeps]
@[simp] theorem areaPut_keeps (s : State) (a1 : Nat) (a2 : Nat) (a3 : Nat) (a4 : List Byte) : Keeps s (State.areaPut s a1 a2 a3 a4) := by
  unfold State.areaPut
  split <;> rename_i e
  · exact (writePieces_gives _ _ _ _ _ _ _ _ _ e).trans (deferWrite_keeps ..)
  · exact writePieces_gives _ _ _ _ _ _ _ _ _ e
theorem onArrival_keeps (s : State) (port : Nat) (m : LinkMsg) (typ : Nat) (f : LinkMsg → RoutingRec → State → Bool × State)
    (h : ∀ m r s, Keeps s (f m r s).2) : ∃ t, s.onArrival port m typ f = .next t ∧ Keeps s t := by
  unfold State.onArrival
  dsimp only
  repeat' (first | (refine ⟨_, rfl, ?_⟩; first | (simp [Keeps]; done) | (split <;> simp [Keeps]; done) | (split <;> simp [Keeps, h]; done)) | split)
@[simp] theorem putTrlCtrl_keeps (s : State) (a1 : Requester) (a2 : Nat) : Keeps s (State.putTrlCtrl s a1 a2) := by
  unfold State.putTrlCtrl
  repeat' (first | (simp [Keeps, *]; done) | refine nextOf_keeps _ _ _ ?_ | exact execTrellisGo_keeps .. | refine ⟨_, rfl, ?_⟩ | split)
@[simp] theorem sendPages_keeps (s : State) (a1 : Nat) (a2 : Nat) (a3 : Nat) (a4 : Seq) : Keeps s (State.sendPages s a1 a2 a3 a4) := by
  simp [Keeps, State.sendPages]
@[simp] theorem appendOpen_keeps (s : State) (a1 : Nat) (a2 : AppendEntry) : Keeps s (State.appendOpen s a1 a2).2 := by
  unfold State.appendOpen
  extract_lets a b c
  split
  · exact .rfl s
  · split
    · exact .rfl s
    · split
      · exact .rfl s
      · rename_i h1
        split
        · exact .rfl s
        · rename_i h2
          refine .trans (.trans (openSeq_keeps _ _ _ _ _ _ _ _ h1) (extend_keeps _ _ _ _ _ h2)) ?_
          dsimp only
          split <;> simp [Keeps]
theorem appendOpen_gives (s : State) (a1 : Nat) (a2 : AppendEntry) {x0 z} (h : (State.appendOpen s a1 a2) = (x0, z)) : Keeps s z := by
  have k := appendOpen_keeps s a1 a2
  rw [h] at k
  exact k
@[simp] theorem fork_keeps (s : State) (a1 : Nat) (a2 : Nat) (a3 : Nat) (a4 : Nat) (a5 : Nat) (a6 : Bool) : Keeps s (State.fork s a1 a2 a3 a4 a5 a6).2 := by
  unfold State.fork
  dsimp only
  split
  · exact .rfl s
  · split
    · exact .rfl s
    · split
      · exact .rfl s
      · exact kvLog_keeps ..
      · rename_i h1
        have k := forkSeqs_keeps _ _ _ _ _ _ h1
        split
        · exact kvLog_keeps ..
        · refine .trans k ?_
          dsimp only
          split <;> simp [Keeps]
theorem fork_gives (s : State) (a1 : Nat) (a2 : Nat) (a3 : Nat) (a4 : Nat) (a5 : Nat) (a6 : Bool) {x0 z} (h : (State.fork s a1 a2 a3 a4 a5 a6) = (x0, z)) : Keeps s z := by
  have k := fork_keeps s a1 a2 a3 a4 a5 a6
  rw [h] at k
  exact k
@[simp] theorem evictAll_keeps (a0 : Nat) (a1 : Nat) (a2 : List Nat) (s : State) : Keeps s (State.evictAll a0 a1 a2 s).2 := by
  induction a2 generalizing s with
  | nil => exact .rfl s
  | cons k ks ih =>
    unfold State.evictAll
    split
    · exact .rfl s
    · exact .trans (evictGroup_keeps _ _ _ _ _ ‹_›) (ih _)
theorem evictAll_gives (a0 : Nat) (a1 : Nat) (a2 : List Nat) (s : State) {x0 z} (h : (State.evictAll a0 a1 a2 s) = (x0, z)) : Keeps s z := by
  have k := evictAll_keeps a0 a1 a2 s
  rw [h] at k
  exact k
@[simp] theorem putFwCtrl_keeps (s : State) (a1 : Requester) (a2 : Nat) (a3 : Nat) : Keeps s (State.putFwCtrl s a1 a2 a3) := by
  unfold State.putFwCtrl
  dsimp only
  split
  · refine .trans ?_ (nextOf_keeps _ _ _ (execFwGo_keeps ..))
    simp [Keeps]
  · simp [Keeps]
@[simp] theorem kvAppend_keeps (s : State) (a1 : Nat) (a2 : Nat) (a3 : LaunchRun) (a4 : KvF) (a5 : KvArgs) : Keeps s (State.kvAppend s a1 a2 a3 a4 a5) := by
  simp [Keeps, State.kvAppend]
@[simp] theorem resumeActs_keeps (s : State) (a1 : Nat) (a2 : Nat) (a3 : LaunchRun) (a4 : Issued) : Keeps s (State.resumeActs s a1 a2 a3 a4) := by
  simp [Keeps, State.resumeActs]
@[simp] theorem reopen_keeps (s : State) : Keeps s (State.reopen s) := by simp [Keeps, State.reopen]
@[simp] theorem devRead_keeps (s : State) (a1 : ReqOwner) (a2 : Via) (a3 : AccKind) (a4 : Nat) (a5 : Nat) (a6 : Nat) (a7 : Nat) (a8 : Nat) : Keeps s (State.devRead s a1 a2 a3 a4 a5 a6 a7 a8).2 := by
  unfold State.devRead
  repeat' (first | (simp [Keeps, *]; done) | split)
theorem devRead_gives (s : State) (a1 : ReqOwner) (a2 : Via) (a3 : AccKind) (a4 : Nat) (a5 : Nat) (a6 : Nat) (a7 : Nat) (a8 : Nat) {x0 z} (h : (State.devRead s a1 a2 a3 a4 a5 a6 a7 a8) = (x0, z)) : Keeps s z := by
  have k := devRead_keeps s a1 a2 a3 a4 a5 a6 a7 a8
  rw [h] at k
  exact k
@[simp] theorem dmaRow_keeps (s : State) (a1 : Nat) (a2 : Nat) (a3 : Nat) (a4 : LaunchRun) (a5 : List Piece) (a6 : List Byte) : Keeps s (State.dmaRow s a1 a2 a3 a4 a5 a6).2 := by
  unfold State.dmaRow
  dsimp only
  split
  · split <;> simp [Keeps]
  · split
    · exact writePieces_gives _ _ _ _ _ _ _ _ _ ‹_›
    · exact writePieces_gives _ _ _ _ _ _ _ _ _ ‹_›
theorem dmaRow_gives (s : State) (a1 : Nat) (a2 : Nat) (a3 : Nat) (a4 : LaunchRun) (a5 : List Piece) (a6 : List Byte) {x0 z} (h : (State.dmaRow s a1 a2 a3 a4 a5 a6) = (x0, z)) : Keeps s z := by
  have k := dmaRow_keeps s a1 a2 a3 a4 a5 a6
  rw [h] at k
  exact k
@[simp] theorem readRows_keeps (s : State) (a1 : Nat) (a2 : Nat) (a3 : LaunchRun) (a4 : List (List Piece)) : Keeps s (State.readRows s a1 a2 a3 a4).2.2 := by
  induction a4 generalizing s with
  | nil => exact .rfl s
  | cons w ws ih =>
    unfold State.readRows
    split
    · exact .trans (readPieces_gives _ _ _ _ _ _ _ ‹_›) (ih _)
    · exact readPieces_gives _ _ _ _ _ _ _ ‹_›
    · exact readPieces_gives _ _ _ _ _ _ _ ‹_›
theorem readRows_gives (s : State) (a1 : Nat) (a2 : Nat) (a3 : LaunchRun) (a4 : List (List Piece)) {x0 x1 z} (h : (State.readRows s a1 a2 a3 a4) = (x0, x1, z)) : Keeps s z := by
  have k := readRows_keeps s a1 a2 a3 a4
  rw [h] at k
  exact k
@[simp] theorem devWrite_keeps (s : State) (a1 : ReqOwner) (a2 : Via) (a3 : Nat) (a4 : Nat) (a5 : Nat) (a6 : Nat) (a7 : List Byte) : Keeps s (State.devWrite s a1 a2 a3 a4 a5 a6 a7).2 := by
  unfold State.devWrite
  repeat' (first | (simp [Keeps, *]; done) | split)
theorem devWrite_gives (s : State) (a1 : ReqOwner) (a2 : Via) (a3 : Nat) (a4 : Nat) (a5 : Nat) (a6 : Nat) (a7 : List Byte) {x0 z} (h : (State.devWrite s a1 a2 a3 a4 a5 a6 a7) = (x0, z)) : Keeps s z := by
  have k := devWrite_keeps s a1 a2 a3 a4 a5 a6 a7
  rw [h] at k
  exact k
@[simp] theorem arrive_keeps (s : State) (a1 : TransitRec) : Keeps s (State.arrive s a1) := by
  unfold State.arrive
  repeat' (first | (simp [Keeps, *]; done) | split)
@[simp] theorem launchReady_keeps (s : State) (a1 : Nat) (a2 : Nat) (a3 : Nat) (a4 : LaunchF) : Keeps s (State.launchReady s a1 a2 a3 a4).2 := by
  unfold State.launchReady
  (repeat' split) <;> simp [Keeps] <;> (repeat' split) <;> simp [Keeps, *]
theorem launchReady_gives (s : State) (a1 : Nat) (a2 : Nat) (a3 : Nat) (a4 : LaunchF) {x0 z} (h : (State.launchReady s a1 a2 a3 a4) = (x0, z)) : Keeps s z := by
  have k := launchReady_keeps s a1 a2 a3 a4
  rw [h] at k
  exact k
@[simp] theorem failLink_keeps (s : State) (a1 : Nat) (a2 : LinkCause) : Keeps s (State.failLink s a1 a2) := by simp [Keeps, State.failLink]
@[simp] theorem appendEntry_keeps (s : State) (a1 : Nat) (a2 : Nat) (a3 : AppendEntry) : Keeps s (State.appendEntry s a1 a2 a3).2 := by
  unfold State.appendEntry
  generalize 2 ^ 20 = m
  generalize 2 ^ 40 = n
  dsimp only
  repeat' (first | exact .rfl s | exact appendOpen_keeps .. | exact kvLog_keeps .. | split)
  all_goals
    refine .trans (extend_keeps _ _ _ _ _ ‹s.extend _ _ _ = some _›) ?_
    simp [Keeps]
theorem appendEntry_gives (s : State) (a1 : Nat) (a2 : Nat) (a3 : AppendEntry) {x0 z} (h : (State.appendEntry s a1 a2 a3) = (x0, z)) : Keeps s z := by
  have k := appendEntry_keeps s a1 a2 a3
  rw [h] at k
  exact k
@[simp] theorem setDisable_keeps (s : State) (a1 : Nat) (a2 : Bool) : Keeps s (State.setDisable s a1 a2) := by
  simp [Keeps, State.setDisable]
theorem execRejoin_keeps (a0 : Requester) (s : State) : ∃ z0, (execRejoin a0 s) = .next z0 ∧ Keeps s z0 := by
  unfold execRejoin
  repeat' (first | (simp [Keeps, *]; done) | refine regWrite_keeps _ _ _ _ (fun s => ?_) | refine ⟨_, rfl, ?_⟩ | split)
@[simp] theorem pruneEntry_keeps (s : State) (a1 : Nat) (a2 : Nat) (a3 : Nat) (a4 : KvPruneF) : Keeps s (State.pruneEntry s a1 a2 a3 a4).2 := by
  unfold State.pruneEntry
  dsimp only
  repeat' (first | exact .rfl s | exact kvLog_keeps .. | split)
  · exact evictAll_gives _ _ _ _ ‹_›
  · rename_i h1 _ _ h2
    exact .trans (evictAll_gives _ _ _ _ h1) (evictAll_gives _ _ _ _ h2)
  · rename_i h1 _ _ h2
    refine .trans (.trans (evictAll_gives _ _ _ _ h1) (evictAll_gives _ _ _ _ h2)) ?_
    simp [Keeps]
theorem pruneEntry_gives (s : State) (a1 : Nat) (a2 : Nat) (a3 : Nat) (a4 : KvPruneF) {x0 z} (h : (State.pruneEntry s a1 a2 a3 a4) = (x0, z)) : Keeps s z := by
  have k := pruneEntry_keeps s a1 a2 a3 a4
  rw [h] at k
  exact k
@[simp] theorem areaWrite_keeps (s : State) (a1 : Nat) (a2 : Nat) (a3 : List (Nat × Nat)) (a4 : Nat) (a5 : List Byte) : Keeps s (State.areaWrite s a1 a2 a3 a4 a5) := by
  unfold State.areaWrite
  generalize sliceSpans a3 a4 a5.length = l
  have k (l : List (Nat × Nat)) (t : State) (bs : List Byte) : Keeps t (l.foldl (fun (a : State × List Byte) x =>
      (a.1.areaPut a1 a2 x.1 (a.2.take x.2), a.2.drop x.2)) (t, bs)).1 := by
    induction l generalizing t bs with
    | nil => exact .rfl t
    | cons x xs ih => rw [List.foldl_cons]; exact .trans (areaPut_keeps ..) (ih _ _)
  exact k ..
@[simp] theorem cmdWrite_keeps (s : State) (a1 : Nat) (a2 : Nat) (a3 : Nat) (a4 : Nat) (a5 : List Byte) : Keeps s (State.cmdWrite s a1 a2 a3 a4 a5).2 := by
  unfold State.cmdWrite
  dsimp only
  split
  · exact .trans (devWrite_gives _ _ _ _ _ _ _ _ ‹_›) (owe_keeps ..)
  · exact devWrite_gives _ _ _ _ _ _ _ _ ‹_›
  · exact devWrite_gives _ _ _ _ _ _ _ _ ‹_›
theorem cmdWrite_gives (s : State) (a1 : Nat) (a2 : Nat) (a3 : Nat) (a4 : Nat) (a5 : List Byte) {x0 z} (h : (State.cmdWrite s a1 a2 a3 a4 a5) = (x0, z)) : Keeps s z := by
  have k := cmdWrite_keeps s a1 a2 a3 a4 a5
  rw [h] at k
  exact k
@[simp] theorem dmaSend_keeps (a0 : Nat) (a1 : Nat) (a2 : Nat) (a3 : LaunchRun) (a4 : List (List Piece × List Byte)) (s : State) : Keeps s (State.dmaSend a0 a1 a2 a3 a4 s).2 := by
  induction a4 generalizing s with
  | nil => exact .rfl s
  | cons w ws ih =>
    unfold State.dmaSend
    dsimp only
    split
    · exact .trans (oweInstr_keeps ..) (.trans (dmaRow_gives _ _ _ _ _ _ _ ‹_›) (ih _))
    · exact .trans (oweInstr_keeps ..) (.trans (dmaRow_gives _ _ _ _ _ _ _ ‹_›) (modIssued_keeps ..))
theorem dmaSend_gives (a0 : Nat) (a1 : Nat) (a2 : Nat) (a3 : LaunchRun) (a4 : List (List Piece × List Byte)) (s : State) {x0 z} (h : (State.dmaSend a0 a1 a2 a3 a4 s) = (x0, z)) : Keeps s z := by
  have k := dmaSend_keeps a0 a1 a2 a3 a4 s
  rw [h] at k
  exact k
@[simp] theorem regFetch_keeps (s : State) (a1 : Nat) (a2 : Nat) (a3 : LaunchRun) (a4 : List (Nat × Nat)) : Keeps s (State.regFetch s a1 a2 a3 a4).2 := by
  unfold State.regFetch
  split
  · rename_i e
    exact planRows_gives _ _ _ _ _ _ e
  · rename_i e
    refine (planRows_gives _ _ _ _ _ _ e).trans ?_
    dsimp only
    split
    · exact prefetch_keeps ..
    · exact .trans (prefetch_keeps ..) (.trans (readRows_keeps ..) (dropFetched_keeps ..))
theorem regFetch_gives (s : State) (a1 : Nat) (a2 : Nat) (a3 : LaunchRun) (a4 : List (Nat × Nat)) {x0 z} (h : (State.regFetch s a1 a2 a3 a4) = (x0, z)) : Keeps s z := by
  have k := regFetch_keeps s a1 a2 a3 a4
  rw [h] at k
  exact k
@[simp] theorem cmdRead_keeps (s : State) (a1 : Nat) (a2 : Nat) (a3 : Nat) (a4 : AccKind) (a5 : Nat) (a6 : Nat) : Keeps s (State.cmdRead s a1 a2 a3 a4 a5 a6).2 := by
  simp [Keeps, State.cmdRead]
theorem cmdRead_gives (s : State) (a1 : Nat) (a2 : Nat) (a3 : Nat) (a4 : AccKind) (a5 : Nat) (a6 : Nat) {x0 z} (h : (State.cmdRead s a1 a2 a3 a4 a5 a6) = (x0, z)) : Keeps s z := by
  have k := cmdRead_keeps s a1 a2 a3 a4 a5 a6
  rw [h] at k
  exact k
@[simp] theorem resumeAll_keeps (s : State) : Keeps s (State.resumeAll s) := by
  unfold State.resumeAll
  refine foldl_keeps _ _ _ (fun s r => ?_)
  split
  · exact foldl_keeps _ _ _ (fun s i => resumeActs_keeps ..)
  · exact .rfl s
@[simp] theorem putTwinCtrl_keeps (s : State) (a1 : Requester) (a2 : Nat) : Keeps s (State.putTwinCtrl s a1 a2) := by
  unfold State.putTwinCtrl
  extract_lets u v
  have h : Keeps s u := by simp [u, Keeps]
  have k : Keeps u v := by
    unfold v
    split
    · exact nextOf_keeps _ _ _ (execTakeover_keeps ..)
    · exact .rfl u
  clear_value v
  clear_value u
  refine h.trans (k.trans ?_)
  split
  · exact nextOf_keeps _ _ _ (execRejoin_keeps ..)
  · exact .rfl _
@[simp] theorem dmaout_keeps (s : State) (a1 : Nat) (a2 : Nat) (a3 : LaunchRun) (a4 : MovF) (a5 : Opnd) : Keeps s (State.dmaout s a1 a2 a3 a4 a5) := by
  unfold State.dmaout
  dsimp only
  split
  · exact failIssue_keeps ..
  · split
    · rename_i e
      exact planRows_gives _ _ _ _ _ _ e
    · rename_i e
      refine (planRows_gives _ _ _ _ _ _ e).trans ?_
      split
      · exact snoopLines_keeps ..
      · exact .trans (.trans (setRegion_keeps ..) (dmaSend_keeps ..)) (modIssued_keeps ..)
@[simp] theorem dmain_keeps (s : State) (a1 : Nat) (a2 : Nat) (a3 : LaunchRun) (a4 : MovF) (a5 : Opnd) : Keeps s (State.dmain s a1 a2 a3 a4 a5) := by
  unfold State.dmain
  dsimp only
  split <;> rename_i e
  · exact regFetch_gives _ _ _ _ _ e
  · exact .trans (regFetch_gives _ _ _ _ _ e) (setRegion_keeps ..)
@[simp] theorem bldRead_keeps (s : State) (a1 : Build) (a2 : Nat) (a3 : Nat) : Keeps s (State.bldRead s a1 a2 a3).2 := by
  grind [State.bldRead, → cmdRead_gives]
theorem bldRead_gives (s : State) (a1 : Build) (a2 : Nat) (a3 : Nat) {x0 z} (h : (State.bldRead s a1 a2 a3) = (x0, z)) : Keeps s z := by
  have k := bldRead_keeps s a1 a2 a3
  rw [h] at k
  exact k
@[simp] theorem enablePorts_keeps (s : State) : Keeps s (State.enablePorts s) := by simp [Keeps, State.enablePorts]
@[simp] theorem codebook_keeps (s : State) (a1 : Nat) (a2 : Nat) (a3 : LaunchRun) (a4 : Nat) (a5 : Nat) (a6 : StreamHdr) : Keeps s (State.codebook s a1 a2 a3 a4 a5 a6).2 := by
  unfold State.codebook
  split
  · exact .rfl s
  · split
    · exact .rfl s
    · split
      · exact regFetch_gives _ _ _ _ _ ‹_›
      · refine .trans (regFetch_gives _ _ _ _ _ ‹_›) ?_
        dsimp only
        split
        · simp [Keeps]
        · split <;> simp [Keeps]
theorem codebook_gives (s : State) (a1 : Nat) (a2 : Nat) (a3 : LaunchRun) (a4 : Nat) (a5 : Nat) (a6 : StreamHdr) {x0 z} (h : (State.codebook s a1 a2 a3 a4 a5 a6) = (x0, z)) : Keeps s z := by
  have k := codebook_keeps s a1 a2 a3 a4 a5 a6
  rw [h] at k
  exact k
@[simp] theorem lastWrite_keeps (s : State) (a1 : Nat) (a2 : Nat) (a3 : Nat) (a4 : Nat) (a5 : Byte) : Keeps s (State.lastWrite s a1 a2 a3 a4 a5) := by
  unfold State.lastWrite
  split <;> rename_i e
  · exact (cmdWrite_gives _ _ _ _ _ _ e).trans (foldl_keeps _ _ _ (fun s x => deferWrite_keeps ..))
  · exact cmdWrite_gives _ _ _ _ _ _ e
@[simp] theorem tapWrite_keeps (s : State) (a1 : Nat) (a2 : Nat) (a3 : TapArea) (a4 : List Byte) : Keeps s (State.tapWrite s a1 a2 a3 a4) := by
  simp [Keeps, State.tapWrite]
@[simp] theorem copyWrites_keeps (a0 : Nat) (a1 : Nat) (a2 : Nat) (a3 : List (Nat × List Byte)) (s : State) : Keeps s (State.copyWrites a0 a1 a2 a3 s).2 := by
  induction a3 generalizing s with
  | nil => exact .rfl s
  | cons w ws ih =>
    unfold State.copyWrites
    split
    · exact .trans (cmdWrite_gives _ _ _ _ _ _ ‹_›) (ih _)
    · exact cmdWrite_keeps ..
theorem copyWrites_gives (a0 : Nat) (a1 : Nat) (a2 : Nat) (a3 : List (Nat × List Byte)) (s : State) {x0 z} (h : (State.copyWrites a0 a1 a2 a3 s) = (x0, z)) : Keeps s z := by
  have k := copyWrites_keeps a0 a1 a2 a3 s
  rw [h] at k
  exact k
@[simp] theorem bldWrite_keeps (s : State) (a1 : Build) (a2 : Nat) (a3 : List Byte) : Keeps s (State.bldWrite s a1 a2 a3).2 := by
  grind [State.bldWrite, → cmdWrite_gives]
theorem bldWrite_gives (s : State) (a1 : Build) (a2 : Nat) (a3 : List Byte) {x0 z} (h : (State.bldWrite s a1 a2 a3) = (x0, z)) : Keeps s z := by
  have k := bldWrite_keeps s a1 a2 a3
  rw [h] at k
  exact k
@[simp] theorem takeRead_keeps (s : State) (a1 : Nat) (a2 : Nat) (a3 : Nat) (a4 : AccKind) (a5 : Nat) (a6 : Nat) : Keeps s (State.takeRead s a1 a2 a3 a4 a5 a6).2 := by
  grind [State.takeRead, → cmdRead_gives]
theorem takeRead_gives (s : State) (a1 : Nat) (a2 : Nat) (a3 : Nat) (a4 : AccKind) (a5 : Nat) (a6 : Nat) {x0 z} (h : (State.takeRead s a1 a2 a3 a4 a5 a6) = (x0, z)) : Keeps s z := by
  have k := takeRead_keeps s a1 a2 a3 a4 a5 a6
  rw [h] at k
  exact k
@[simp] theorem rakeRun_keeps (s : State) (a1 : Nat) (a2 : Nat) (a3 : Nat) (a4 : RakeF) : Keeps s (State.rakeRun s a1 a2 a3 a4) := by
  rw [State.rakeRun]
  generalize 4096 = k
  generalize 823296 = m
  split
  · exact cmdWrite_gives _ _ _ _ _ _ ‹_›
  · refine .trans (cmdWrite_gives _ _ _ _ _ _ ‹_›) ?_
    extract_lets st
    clear_value st
    simp [Keeps]
theorem execLinkDisable_keeps (a0 : Requester) (a1 : Nat) (a2 : Bool) (s : State) : ∃ z0, (execLinkDisable a0 a1 a2 s) = .next z0 ∧ Keeps s z0 := by
  unfold execLinkDisable
  repeat' (first | (simp [Keeps, *]; done) | refine regWrite_keeps _ _ _ _ (fun s => ?_) | refine ⟨_, rfl, ?_⟩ | split)
theorem listEntry_keeps (s : State) (a1 : Nat) (a2 : Nat) (a3 : Nat) (a4 : Nat) (a5 : Nat) (a6 : Nat) (a7 : State → List Byte → Status × State)
    (h : ∀ s bs, Keeps s (a7 s bs).2) : Keeps s (State.listEntry s a1 a2 a3 a4 a5 a6 a7).2 := by
  unfold State.listEntry
  split
  · exact cmdRead_gives _ _ _ _ _ _ _ ‹_›
  · exact cmdRead_gives _ _ _ _ _ _ _ ‹_›
  · refine .trans (cmdRead_gives _ _ _ _ _ _ _ ‹_›) ?_
    split
    · exact .rfl _
    · dsimp only
      refine .trans (h _ ‹_›) ?_
      split
      · exact cmdWrite_gives _ _ _ _ _ _ ‹_›
      · exact cmdWrite_gives _ _ _ _ _ _ ‹_›
@[simp] theorem loseState_keeps (s : State) : Keeps s (State.loseState s) := by
  simp [Keeps, State.loseState, Sec.afterReset]
@[simp] theorem readArgs_keeps (s : State) (a1 : Nat) (a2 : Nat) (a3 : Nat) (a4 : Nat) : Keeps s (State.readArgs s a1 a2 a3 a4).2 := by
  grind [State.readArgs, → takeRead_gives]
theorem readArgs_gives (s : State) (a1 : Nat) (a2 : Nat) (a3 : Nat) (a4 : Nat) {x0 z} (h : (State.readArgs s a1 a2 a3 a4) = (x0, z)) : Keeps s z := by
  have k := readArgs_keeps s a1 a2 a3 a4
  rw [h] at k
  exact k
@[simp] theorem putLinkCtrl_keeps (s : State) (a1 : Requester) (a2 : Nat) (a3 : Nat) : Keeps s (State.putLinkCtrl s a1 a2 a3) := by
  have h (u : State) : Keeps u (if bit a3 2 then nextOf (execClrbad a1 a2 u) u else u) := by
    split
    · exact nextOf_keeps _ _ _ (execClrbad_keeps ..)
    · exact .rfl u
  have k (u : State) : Keeps u (if bit a3 1 then nextOf (execLinkRetrain a1 a2 u) u else u) := by
    split
    · exact nextOf_keeps _ _ _ (execLinkRetrain_keeps ..)
    · exact .rfl u
  exact .trans (setLink_keeps ..) (.trans (h _) (.trans (k _) (nextOf_keeps _ _ _ (execLinkDisable_keeps ..))))
@[simp] theorem xpStream_keeps (s : State) (a1 : Nat) (a2 : Nat) (a3 : LaunchRun) (a4 : Nat) (a5 : Nat) (a6 : Opnd) (a7 : StreamHdr) : Keeps s (State.xpStream s a1 a2 a3 a4 a5 a6 a7) := by
  unfold State.xpStream
  dsimp only
  split
  · simp [Keeps]
  · split
    · exact codebook_gives _ _ _ _ _ _ _ ‹_›
    · exact .trans (codebook_gives _ _ _ _ _ _ _ ‹_›) (by simp [Keeps])
    · refine .trans (codebook_gives _ _ _ _ _ _ _ ‹_›) ?_
      split
      · simp [Keeps]
      · split
        · exact regFetch_gives _ _ _ _ _ ‹_›
        · refine .trans (regFetch_gives _ _ _ _ _ ‹_›) ?_
          split <;> simp [Keeps]
@[simp] theorem readLists_keeps (s : State) (a1 : Nat) (a2 : Nat) (a3 : Nat) (a4 : Nat) (a5 : Bool) (a6 : ImageHdr) : Keeps s (State.readLists s a1 a2 a3 a4 a5 a6).2 := by
  grind [State.readLists, → takeRead_gives]
theorem readLists_gives (s : State) (a1 : Nat) (a2 : Nat) (a3 : Nat) (a4 : Nat) (a5 : Bool) (a6 : ImageHdr) {x0 z} (h : (State.readLists s a1 a2 a3 a4 a5 a6) = (x0, z)) : Keeps s z := by
  have k := readLists_keeps s a1 a2 a3 a4 a5 a6
  rw [h] at k
  exact k
@[simp] theorem readContainer_keeps (s : State) (a1 : Build) (a2 : Nat) (a3 : Nat) (a4 : List Byte) : Keeps s (State.readContainer s a1 a2 a3 a4).2 := by
  unfold State.readContainer
  repeat' (first | (simp [Keeps, *]; done) | refine checked_bind_keeps _ _ _ ?_ (fun a u hu => ?_) | refine ⟨_, rfl, ?_⟩ | split)
theorem readContainer_gives (s : State) (a1 : Build) (a2 : Nat) (a3 : Nat) (a4 : List Byte) {x0 z} (h : (State.readContainer s a1 a2 a3 a4) = (x0, z)) : Keeps s z := by
  have k := readContainer_keeps s a1 a2 a3 a4
  rw [h] at k
  exact k
theorem packStore_keeps (s : State) (b : Build) (out : Nat) (x : List Byte × List Byte × Fmt × PackParams) (data : List Byte) :
    Keeps s (s.packStore b out x data).2 := by
  unfold State.packStore
  extract_lets h f c k h1
  refine checked_bind_keeps _ _ _ (outOk_keeps ..) (fun a w hw => ?_)
  extract_lets w1
  refine checked_bind_keeps _ _ _ (hw.trans (.trans (spoilCarve_keeps ..) (bldWrite_keeps ..))) (fun a x hx => ?_)
  refine checked_bind_keeps _ _ _ (hx.trans (need_keeps ..)) (fun a y hy => ?_)
  extract_lets hd rc
  clear_value rc
  refine checked_bind_keeps _ _ _ (hy.trans (bldWrite_keeps ..)) (fun a y hy => ?_)
  refine checked_bind_keeps _ _ _ (hy.trans (bldWrite_keeps ..)) (fun a y hy => ?_)
  refine checked_bind_keeps _ _ _ (hy.trans (bldWrite_keeps ..)) (fun a y hy => ?_)
  split
  · exact hy
  · rename_i h
    exact hy.trans ((acceptRecord_keeps _ _ _ _ h).trans (modGen_keeps ..))
@[simp] theorem cancelList_keeps (s : State) (a1 : Nat) (a2 : Nat) (a3 : Nat) (a4 : Nat) (a5 : Nat) (a6 : Nat) (a7 : Nat) : Keeps s (State.cancelList s a1 a2 a3 a4 a5 a6 a7) := by
  simp [Keeps, State.cancelList]
@[simp] theorem retire_keeps (s : State) (a1 : Nat) (a2 : Nat) (a3 : Issued) (a4 : Option RetireFault) : Keeps s (State.retire s a1 a2 a3 a4) := by
  unfold State.retire
  repeat' (first | (simp [Keeps, *]; done) | split)
@[simp] theorem storeRoot_keeps (s : State) (a1 : Build) (a2 : ImageSrc) : Keeps s (State.storeRoot s a1 a2).2 := by
  unfold State.storeRoot
  dsimp only
  repeat' (first | (simp [Keeps, *]; done) | refine checked_bind_keeps _ _ _ ?_ (fun a u hu => ?_) | exact foldl_keeps _ _ _ (fun s x => by dsimp only; repeat' (first | (simp [Keeps, *]; done) | split)) | refine ⟨_, rfl, ?_⟩ | split)
theorem storeRoot_gives (s : State) (a1 : Build) (a2 : ImageSrc) {x0 z} (h : (State.storeRoot s a1 a2) = (x0, z)) : Keeps s z := by
  have k := storeRoot_keeps s a1 a2
  rw [h] at k
  exact k
@[simp] theorem copyXc_keeps (s : State) (a1 : Nat) (a2 : Nat) (a3 : Nat) (a4 : CopyF) (a5 : List Piece) (a6 : List Piece) (a7 : List Byte) : Keeps s (State.copyXc s a1 a2 a3 a4 a5 a6 a7) := by
  unfold State.copyXc
  dsimp only
  have k : Keeps s ((s.copyPath a1 a2 a3 a4 a5).payload a7 s).2 := XcPath_payload_keeps _ _ _ (fun i n s => cmdRead_keeps ..)
  split
  · exact .rfl s
  · split
    · exact k
    · refine k.trans ?_
      repeat' (first | exact snoopLines_keeps .. | split)
      all_goals
        rename_i e
        exact (copyWrites_gives _ _ _ _ _ e).trans (copyEnd_keeps ..)
@[simp] theorem loadGrafts_keeps (a0 : Build) (a1 : List GraftSrc) (s : State) : Keeps s (State.loadGrafts a0 a1 s).2 := by
  induction a1 generalizing s with
  | nil => exact .rfl s
  | cons g gs ih =>
    unfold State.loadGrafts
    exact checked_bind_keeps _ _ _ (bldRead_keeps ..) (fun a u hu => checked_bind_keeps _ _ _ (by simp [Keeps, *]) (fun a v hv => hv.trans (ih v)))
theorem loadGrafts_gives (a0 : Build) (a1 : List GraftSrc) (s : State) {x0 z} (h : (State.loadGrafts a0 a1 s) = (x0, z)) : Keeps s z := by
  have k := loadGrafts_keeps a0 a1 s
  rw [h] at k
  exact k
theorem listRun_keeps (q ctx p size res : Nat) (f : State → List Byte → Status × State) (n i va : Nat) (s : State) (acc : ListRun)
    (h : ∀ s bs, Keeps s (f s bs).2) : Keeps s (State.listRun q ctx p size res f n i va s acc).1 := by
  induction n generalizing i va s acc with
  | zero => exact .rfl s
  | succ n ih => exact .trans (listEntry_keeps _ _ _ _ _ _ _ _ h) (ih ..)
@[simp] theorem planRoot_keeps (s : State) (a1 : Build) (a2 : Nat) (a3 : Bool) : Keeps s (State.planRoot s a1 a2 a3).2 := by
  unfold State.planRoot
  refine checked_bind_keeps _ _ _ (readContainer_keeps ..) (fun a u hu => ?_)
  refine checked_bind_keeps _ _ _ (by simp [Keeps, *]) (fun a v hv => ?_)
  refine checked_bind_keeps _ _ _ (by simp [Keeps, *]) (fun a v hv => ?_)
  refine checked_bind_keeps _ _ _ (by simp [Keeps, *]) (fun a v hv => ?_)
  refine checked_bind_keeps _ _ _ (hv.trans (acceptFor_keeps ..)) (fun a v hv => ?_)
  extract_lets w
  have h : Keeps v w := modGen_keeps ..
  clear_value w
  refine hv.trans (h.trans ?_)
  split
  · exact modGen_keeps ..
  · refine checked_bind_keeps _ _ _ (placeRoot_keeps ..) (fun a x hx => ?_)
    extract_lets r y
    have h : Keeps _ y := modGen_keeps ..
    clear_value y
    exact checked_bind_keeps _ _ _ (hx.trans (h.trans (need_keeps ..))) (fun a x hx => hx)
theorem planRoot_gives (s : State) (a1 : Build) (a2 : Nat) (a3 : Bool) {x0 z} (h : (State.planRoot s a1 a2 a3) = (x0, z)) : Keeps s z := by
  have k := planRoot_keeps s a1 a2 a3
  rw [h] at k
  exact k
@[simp] theorem cancelRunning_keeps (s : State) (a1 : Nat) : Keeps s (State.cancelRunning s a1) := by
  unfold State.cancelRunning
  (repeat' split) <;> simp [Keeps] <;> (repeat' split) <;> simp [Keeps, *]
@[simp] theorem readImage_keeps (s : State) (a1 : Nat) (a2 : Nat) (a3 : Nat) (a4 : Nat) (a5 : Bool) : Keeps s (State.readImage s a1 a2 a3 a4 a5).2.2 := by
  grind [State.readImage, → takeRead_gives, → readLists_gives]
theorem readImage_gives (s : State) (a1 : Nat) (a2 : Nat) (a3 : Nat) (a4 : Nat) (a5 : Bool) {x0 x1 z} (h : (State.readImage s a1 a2 a3 a4 a5) = (x0, x1, z)) : Keeps s z := by
  have k := readImage_keeps s a1 a2 a3 a4 a5
  rw [h] at k
  exact k
theorem listCmd_keeps (s : State) (q ctx p size res base n : Nat) (f : State → List Byte → Status × State) (h : ∀ s bs, Keeps s (f s bs).2) :
    Keeps s (s.listCmd q ctx p size res base n f) := by
  unfold State.listCmd
  dsimp only
  split
  · exact prefetch_keeps ..
  · refine .trans (.trans (prefetch_keeps s (.cmd q) p (s.listPieces ctx p size base n)) (listRun_keeps q ctx p size res f n 0 base _ ⟨.ok, 0xFFFF⟩ h)) ?_
    simp [Keeps]
@[simp] theorem dmainXp_keeps (s : State) (a1 : Nat) (a2 : Nat) (a3 : LaunchRun) (a4 : MovF) (a5 : Opnd) : Keeps s (State.dmainXp s a1 a2 a3 a4 a5) := by
  unfold State.dmainXp
  extract_lets a
  clear_value a
  split <;> rename_i e
  · exact planRows_gives _ _ _ _ _ _ e
  · refine (planRows_gives _ _ _ _ _ _ e).trans ?_
    split
    · exact xpEnd_keeps ..
    · exact xpEnd_keeps ..
    · split <;> rename_i e
      · exact regFetch_gives _ _ _ _ _ e
      · refine (regFetch_gives _ _ _ _ _ e).trans ?_
        split
        · exact xpEnd_keeps ..
        · split
          · exact xpEnd_keeps ..
          · split
            · exact xpEnd_keeps ..
            · split <;> rename_i e
              · exact planRows_gives _ _ _ _ _ _ e
              · refine (planRows_gives _ _ _ _ _ _ e).trans ?_
                split
                · exact xpEnd_keeps ..
                · split
                  · exact xpStream_keeps ..
                  · exact xpEnd_keeps ..
@[simp] theorem copyRun_keeps (s : State) (a1 : Nat) (a2 : Nat) (a3 : Nat) (a4 : CopyF) (a5 : List Piece) (a6 : List Piece) : Keeps s (State.copyRun s a1 a2 a3 a4 a5 a6) := by
  unfold State.copyRun
  dsimp only
  split <;> rename_i e
  · exact readPieces_gives _ _ _ _ _ _ _ e
  · exact .trans (readPieces_gives _ _ _ _ _ _ _ e) (copyEnd_keeps ..)
  · refine .trans (readPieces_gives _ _ _ _ _ _ _ e) ?_
    split
    · exact copyXc_keeps ..
    · split <;> rename_i e
      · exact .trans (writePieces_gives _ _ _ _ _ _ _ _ _ e) (by simp [Keeps])
      · exact writePieces_gives _ _ _ _ _ _ _ _ _ e
      · exact .trans (writePieces_gives _ _ _ _ _ _ _ _ _ e) (copyEnd_keeps ..)
@[simp] theorem planGraft_keeps (s : State) (a1 : Build) (a2 : List Byte) : Keeps s (State.planGraft s a1 a2).2 := by
  unfold State.planGraft
  refine checked_bind_keeps _ _ _ (by simp [Keeps, *]) (fun a v hv => ?_)
  split
  · exact .trans hv (modGen_keeps ..)
  · split
    · refine checked_bind_keeps _ _ _ (by simp [Keeps, *]) (fun a v hv => ?_)
      split
      · exact hv
      · exact hv.trans (placeGraft_keeps _ _ _ _ _ _ _ ‹_›)
    · refine checked_bind_keeps _ _ _ (by simp [Keeps, *]) (fun a v hv => ?_)
      refine checked_bind_keeps _ _ _ (by simp [Keeps, *]) (fun a v hv => ?_)
      split
      · exact hv
      · exact hv.trans (placeGraft_keeps _ _ _ _ _ _ _ ‹_›)
theorem planGraft_gives (s : State) (a1 : Build) (a2 : List Byte) {x0 z} (h : (State.planGraft s a1 a2) = (x0, z)) : Keeps s z := by
  have k := planGraft_keeps s a1 a2
  rw [h] at k
  exact k
@[simp] theorem loadRoot_keeps (s : State) (a1 : Build) (a2 : ImageSrc) : Keeps s (State.loadRoot s a1 a2).2 := by
  unfold State.loadRoot
  dsimp only
  repeat' (first | (simp [Keeps, *]; done) | refine checked_bind_keeps _ _ _ ?_ (fun a u hu => ?_) | refine ⟨_, rfl, ?_⟩ | split)
theorem loadRoot_gives (s : State) (a1 : Build) (a2 : ImageSrc) {x0 z} (h : (State.loadRoot s a1 a2) = (x0, z)) : Keeps s z := by
  have k := loadRoot_keeps s a1 a2
  rw [h] at k
  exact k
@[simp] theorem packCheck_keeps (s : State) (a1 : Build) : Keeps s (State.packCheck s a1).2 := by
  unfold State.packCheck
  repeat' (first | (simp [Keeps, *]; done) | refine checked_bind_keeps _ _ _ ?_ (fun a u hu => ?_) | refine ⟨_, rfl, ?_⟩ | split)
theorem packCheck_gives (s : State) (a1 : Build) {x0 z} (h : (State.packCheck s a1) = (x0, z)) : Keeps s z := by
  have k := packCheck_keeps s a1
  rw [h] at k
  exact k
@[simp] theorem loadBuild_keeps (s : State) (a1 : Build) (a2 : BuildPlan) : Keeps s (State.loadBuild s a1 a2).2 := by
  unfold State.loadBuild
  repeat' (first | (simp [Keeps, *]; done) | refine checked_bind_keeps _ _ _ ?_ (fun a u hu => ?_) | refine ⟨_, rfl, ?_⟩ | split)
theorem loadBuild_gives (s : State) (a1 : Build) (a2 : BuildPlan) {x0 z} (h : (State.loadBuild s a1 a2) = (x0, z)) : Keeps s z := by
  have k := loadBuild_keeps s a1 a2
  rw [h] at k
  exact k
@[simp] theorem planGrafts_keeps (a0 : Build) (a1 : List (List Byte)) (s : State) : Keeps s (State.planGrafts a0 a1 s).2 := by
  induction a1 generalizing s with
  | nil => exact .rfl s
  | cons e es ih =>
    unfold State.planGrafts
    refine checked_bind_keeps _ _ _ (planGraft_keeps ..) (fun a v hv => ?_)
    exact checked_bind_keeps _ _ _ (hv.trans (ih ..)) (fun a w hw => hw)
theorem planGrafts_gives (a0 : Build) (a1 : List (List Byte)) (s : State) {x0 z} (h : (State.planGrafts a0 a1 s) = (x0, z)) : Keeps s z := by
  have k := planGrafts_keeps a0 a1 s
  rw [h] at k
  exact k
/-- Keeps of the state that a check leaves. -/
def KeepsIn {α : Type} (s : State) (x : Checked α) : Prop := Keeps s x.2
theorem KeepsIn_bind {α β : Type} (s : State) (x : Checked α) (f : α → State → Checked β) (h : KeepsIn s x)
    (k : ∀ a u, Keeps s u → KeepsIn s (f a u)) : KeepsIn s (x.bind f) :=
  checked_bind_keeps s x f h k
theorem KeepsIn_trans {α : Type} {s t : State} {x : Checked α} (h : Keeps s t) (k : KeepsIn t x) : KeepsIn s x := h.trans k
theorem packStore_in (s : State) (b : Build) (out : Nat) (x : List Byte × List Byte × Fmt × PackParams) (data : List Byte) :
    KeepsIn s (s.packStore b out x data) := packStore_keeps ..
theorem packRun_in (s : State) (a1 : Build) : KeepsIn s (s.packRun a1) := by
  unfold State.packRun
  refine KeepsIn_bind _ _ _ (packCheck_keeps ..) (fun a u hu => ?_)
  refine KeepsIn_bind _ _ _ (hu.trans (bldRead_keeps ..)) (fun a v hv => ?_)
  exact KeepsIn_trans hv (packStore_in ..)
theorem packRun_keeps (s : State) (a1 : Build) : Keeps s (s.packRun a1).2 := packRun_in ..
theorem packRun_gives (s : State) (a1 : Build) {x0 z} (h : s.packRun a1 = (x0, z)) : Keeps s z := by
  have k := packRun_keeps s a1
  rw [h] at k
  exact k
theorem execAbort_keeps (a0 : Requester) (a1 : Nat) (s : State) : ∃ z0, (execAbort a0 a1 s) = .next z0 ∧ Keeps s z0 := by
  unfold execAbort
  refine ⟨_, rfl, regWrite_keeps _ _ _ _ (fun s => ?_)⟩
  extract_lets x run u y
  have h (u : State) (x : Queue) : Keeps u (run u x) := by
    unfold run
    dsimp only
    repeat' (first | (simp [Keeps]; done) | split)
  have k : Keeps s u := writeShadow_keeps ..
  clear_value run y u x
  split
  · exact .rfl s
  · split
    · exact h ..
    · exact h ..
    · exact h ..
    · split
      · exact k.trans (h ..)
      · refine k.trans ?_
        simp [Keeps]
    · simp [Keeps]
@[simp] theorem planBuild_keeps (s : State) (a1 : Build) : Keeps s (State.planBuild s a1).2 := by
  unfold State.planBuild
  extract_lets own
  refine checked_bind_keeps _ _ _ ?_ (fun a v hv => ?_)
  · split
    · exact inheritRoot_keeps ..
    · exact planRoot_keeps ..
  refine checked_bind_keeps _ _ _ (hv.trans (bldRead_keeps ..)) (fun a v hv => ?_)
  refine checked_bind_keeps _ _ _ (hv.trans (planGrafts_keeps ..)) (fun a v hv => ?_)
  extract_lets g gs rs w
  have h : Keeps v w := modGen_keeps ..
  clear_value w
  exact checked_bind_keeps _ _ _ (hv.trans (h.trans (need_keeps ..))) (fun a v hv => hv)
theorem planBuild_gives (s : State) (a1 : Build) {x0 z} (h : (State.planBuild s a1) = (x0, z)) : Keeps s z := by
  have k := planBuild_keeps s a1
  rw [h] at k
  exact k
@[simp] theorem putQctrl_keeps (s : State) (a1 : Requester) (a2 : Nat) (a3 : Nat) : Keeps s (State.putQctrl s a1 a2 a3) := by
  unfold State.putQctrl
  generalize 2 ^ 16 = m
  extract_lets x act asks s0 s1 s2
  have h0 : Keeps s s0 := by
    unfold s0
    split
    · refine nextOf_keeps _ _ _ ?_
      split
      · exact execQueueEnable_keeps ..
      · exact execQueueDisable_keeps ..
    · exact .rfl s
  have h1 : Keeps s0 s1 := by
    unfold s1
    clear_value act
    split
    · exact nextOf_keeps _ _ _ (execSkip_keeps ..)
    · exact nextOf_keeps _ _ _ (execAbort_keeps ..)
    · exact nextOf_keeps _ _ _ (execResume_keeps ..)
    · exact .rfl s0
  have h2 : Keeps s1 s2 := by
    unfold s2
    split
    · exact nextOf_keeps _ _ _ (execZero_keeps ..)
    · exact .rfl s1
  clear_value s2 s1 s0 asks act x
  refine .trans h0 (.trans h1 (.trans h2 ?_))
  split
  · refine nextOf_keeps _ _ _ ?_
    split
    · exact execQueueEnable_keeps ..
    · exact execQueueDisable_keeps ..
  · exact .rfl s2
theorem regEffect_rises (s : State) (rq : Requester) (o v : Nat) (lo hi : Bool) (g : Reg) : SvnRises s (s.regEffect rq o v lo hi g) := by
  have one (c : Bool) (r : Res) (h : ∃ t, r = .next t ∧ Keeps s t) : SvnRises s (if c then nextOf r s else s) := by
    split
    · exact (nextOf_keeps r s s h).rises
    · exact (Keeps.rfl s).rises
  cases g
  case secCtrl =>
    show SvnRises s (if lo && bit v 0 then nextOf (execSvncommit rq s) s else s)
    split
    · exact nextOf_rises _ _ _ (execSvncommit_rises ..)
    · exact (Keeps.rfl s).rises
  case devreset => exact one lo _ (execFeDevreset_keeps ..)
  case ring q => exact Keeps.rises (nextOf_keeps _ _ _ (execFeQRing_keeps ..))
  case cring q => exact Keeps.rises (nextOf_keeps _ _ _ (execFeQCring_keeps ..))
  case db q => exact one lo _ (execDoorbell_keeps ..)
  case chead q => exact one lo _ (execFeQChead_keeps ..)
  case hotBase => exact Keeps.rises (nextOf_keeps _ _ _ (execHotBaseWrite_keeps ..))
  case coef k => exact one lo _ (execCoefWrite_keeps ..)
  case secCloche p => exact one (lo && bit v 0) _ (execClocheEnter_keeps ..)
  case rrCtrl => exact one (lo && bit v 0) _ (execCapture_keeps ..)
  case bdpAddr c => exact Keeps.rises (nextOf_keeps _ _ _ (execBdpAddrWrite_keeps ..))
  case slotQmap q =>
    refine Keeps.rises ?_
    show Keeps s (if lo then (nextOf (execSlotQmapWrite rq q (v % 32) s) s).locked o true else s)
    split
    · exact .trans (nextOf_keeps _ s s (execSlotQmapWrite_keeps ..)) (locked_keeps ..)
    · exact .rfl s
  all_goals
    refine Keeps.rises ?_
    simp only [State.regEffect]
    repeat' (first | (simp [Keeps]; done) | split)
@[simp] theorem tryPlan_keeps (s : State) (a1 : Build) : Keeps s (State.tryPlan s a1) := by
  unfold State.tryPlan
  split <;> rename_i h <;> have k := planBuild_gives _ _ h
  · exact k.trans (setBuild_keeps ..)
  · exact k
  · exact k.trans (endBuild_keeps ..)
theorem regPut_rises (s : State) (rq : Requester) (g : Reg) (o v : Nat) (lo hi : Bool) : SvnRises s (s.regPut rq g o v lo hi) := by
  unfold State.regPut
  split
  · exact (discard_keeps ..).rises
  · exact regEffect_rises ..
@[simp] theorem buildStep_keeps (s : State) (a1 : Build) : Keeps s (State.buildStep s a1) := by
  unfold State.buildStep
  split
  · split <;> rename_i h <;> have k := packRun_gives _ _ h
    · exact k
    · exact k.trans (endBuild_keeps ..)
    · split
      · refine k.trans ?_
        simp [Keeps]
      · exact k.trans (setBuild_keeps ..)
  · split
    · exact tryPlan_keeps ..
    · split <;> rename_i h <;> have k := loadBuild_gives _ _ _ h
      · exact k
      · exact k.trans (endBuild_keeps ..)
      · exact k.trans (endBuild_keeps ..)
theorem splitWrite_rises (s : State) (rq : Requester) (g : Reg) (o v : Nat) : SvnRises s (s.splitWrite rq g o v) := by
  unfold State.splitWrite
  extract_lets base
  clear_value base
  split
  · exact Keeps.rises (.trans (dropHeld_keeps ..) (discard_keeps ..))
  · split
    · exact Keeps.rises (.trans (dropHeld_keeps ..) (setHalves_keeps ..))
    · split
      · split
        · exact SvnRises.trans (setHalves_keeps ..).rises (regPut_rises ..)
        · exact Keeps.rises (.trans (dropHeld_keeps ..) (discard_keeps ..))
      · exact (discard_keeps ..).rises
@[simp] theorem buildSteps_keeps (a0 : Nat) (a1 : Nat) (s : State) : Keeps s (State.buildSteps a0 a1 s) := by
  induction a1 generalizing s with
  | zero => exact .rfl s
  | succ k ih =>
    unfold State.buildSteps
    split
    · exact .rfl s
    · exact .trans (buildStep_keeps ..) (ih _)
theorem regStore_rises (s : State) (rq : Requester) (g : Reg) (o n v : Nat) : SvnRises s (s.regStore rq g o n v) := by
  unfold State.regStore
  extract_lets base u w
  have h : SvnRises s u := (dropLatch_keeps ..).rises
  have k : SvnRises u w := (dropHeld_keeps ..).rises
  clear_value base
  refine h.trans ?_
  split
  · exact SvnRises.trans (dropHeld_keeps ..).rises (regPut_rises ..)
  · split
    · split
      · exact splitWrite_rises ..
      · exact k.trans (regPut_rises ..)
    · exact Keeps.rises (.trans (dropHeld_keeps ..) (discard_keeps ..))
theorem busWrite_rises (s : State) (rq : Requester) (o n v : Nat) : SvnRises s (s.busWrite rq o n v) := by
  have h (c : Nat) : SvnRises s ((s.dropHeld rq).discard c o) := Keeps.rises (.trans (dropHeld_keeps ..) (discard_keeps ..))
  have k : SvnRises s (match (s.dropHeld rq).gateCode rq o with
      | some c => (s.dropHeld rq).discard c o
      | none => (s.dropHeld rq).hostStore o n v) := by
    split
    · exact h _
    · exact Keeps.rises (.trans (dropHeld_keeps ..) (hostStore_keeps ..))
  unfold State.busWrite
  split
  · exact (Keeps.rfl s).rises
  · split
    · exact (dropHeld_keeps ..).rises
    · exact k
    · exact k
    · exact h _
    · exact h _
    · exact h _
    · exact h _
    · split
      · exact regStore_rises ..
      · exact (dropHeld_keeps ..).rises
theorem writeWords_rises (o : Nat) (ws : List Word) (s : State) : SvnRises s (State.writeWords o ws s) := by
  induction ws generalizing o s with
  | nil => exact (Keeps.rfl s).rises
  | cons w ws ih => exact (busWrite_rises ..).trans (ih ..)
theorem bdpPut_rises (s : State) (c space a : Nat) (bs : List Byte) : SvnRises s (s.bdpPut c space a bs) := by
  unfold State.bdpPut
  split
  · split
    · exact busWrite_rises ..
    · exact (sramWrite_keeps ..).rises
    · exact Keeps.rises (by simp [Keeps])
  · exact Keeps.rises ⟨rfl, rfl, rfl⟩
  · exact Keeps.rises ⟨rfl, rfl, rfl⟩
  · exact Keeps.rises ⟨rfl, rfl, rfl⟩
theorem bdpAccess_rises (s : State) (c o n : Nat) (data : Option (List Byte)) : SvnRises s (s.bdpAccess c o n data).2.2 := by
  unfold State.bdpAccess
  extract_lets x a
  clear_value x a
  split
  · dsimp only
    split
    · exact Keeps.rises (.trans (setBdp_keeps ..) (logError_keeps ..))
    · exact (setBdp_keeps ..).rises
  · split
    · exact SvnRises.trans (setBdp_keeps ..).rises (bdpPut_rises ..)
    · exact Keeps.rises (.trans (setBdp_keeps ..) (bdpGet_keeps ..))
theorem bulkFrame_rises (s : State) (op : Nat) (x : BulkHdr) (f : State → State) (h : SvnRises s (f s)) : SvnRises s (s.bulkFrame op x f) := by
  unfold State.bulkFrame
  split
  · exact (Keeps.rfl s).rises
  · split
    · exact (emit_keeps ..).rises
    · exact h
theorem mgmtMsg_rises (s : State) (f : State → State) (h : ∀ s, SvnRises s (f s)) : SvnRises s (s.mgmtMsg f) :=
  mgmtMsg_ind s f (Keeps.rfl s).rises (fun u k => k.rises.trans (h u))
theorem mgmtCmd_rises (s : State) (h : MgmtHdr) (cmd n : Nat) (f : State → State) (k : ∀ s, SvnRises s (f s)) : SvnRises s (s.mgmtCmd h cmd n f) := by
  unfold State.mgmtCmd
  refine mgmtMsg_rises _ _ (fun s => ?_)
  split
  · exact k s
  · exact (mgmtReply_keeps ..).rises
theorem window2_rises (s : State) (o n : Nat) (data : Option (List Byte)) : SvnRises s (s.window2 o n data) := by
  unfold State.window2
  split
  · exact (Keeps.rfl s).rises
  · refine SvnRises.trans (dropHeld_keeps s .host).rises ?_
    dsimp only
    split
    · split
      · exact (discard_keeps ..).rises
      · split
        · exact (discard_keeps ..).rises
        · split
          · exact (snoopLines_keeps ..).rises
          · exact bdpAccess_rises ..
    · split
      · exact (snoopLines_keeps ..).rises
      · split
        · exact (bdpAccess_rises ..).trans (emit_keeps ..).rises
        · exact (emit_keeps ..).rises

end Sys2Proof.Machine
end

