-- ==== Sys2Proof/Laws/Commands.lean ====
section
/-! SUPPORT. What each command answers: a next state with the same commands waiting and, but for those that lose power,
unlock, enrol, revoke or reach SVNCOMMIT, the same fuses and private modes. -/
namespace Sys2Proof.Machine
set_option Elab.async false
set_option linter.unusedSimpArgs false
set_option linter.unusedVariables false

theorem execTbRefReturn_keeps (s : State) : ∃ z0, (execTbRefReturn s) = .next z0 ∧ Keeps s z0 := by simp [Keeps, execTbRefReturn]
theorem execSelfRefreshReenter_keeps (s : State) : ∃ z0, (execSelfRefreshReenter s) = .next z0 ∧ Keeps s z0 := by
  unfold execSelfRefreshReenter
  repeat' (first | (simp [Keeps, *]; done) | split)
theorem execHotEpochHalve_keeps (s : State) : ∃ z0, (execHotEpochHalve s) = .next z0 ∧ Keeps s z0 := by simp [Keeps, execHotEpochHalve]
theorem execPerstNRelease_keeps (s : State) : ∃ z0, (execPerstNRelease s) = .next z0 ∧ Keeps s z0 := by simp [Keeps, execPerstNRelease]
theorem execTbRefLoss_keeps (s : State) : ∃ z0, (execTbRefLoss s) = .next z0 ∧ Keeps s z0 := by simp [Keeps, execTbRefLoss]
theorem execRailTimeout_loses (x : Nat) (s : State) : ∃ t, execRailTimeout x s = .next t ∧ t.pending = s.pending ∧ t.sec.fuses = s.sec.fuses ∧ (t.sec.privopen = true → s.sec.privopen = true) := by
  unfold execRailTimeout
  split <;> refine ⟨_, rfl, ?_⟩
  · exact ⟨rfl, rfl, id⟩
  · exact ⟨rfl, rfl, fun h => nomatch h⟩
theorem execWeightSetFree_keeps (a0 : Nat) (a1 : Nat) (a2 : Nat) (s : State) : ∃ z0, (execWeightSetFree a0 a1 a2 s) = .next z0 ∧ Keeps s z0 := by
  unfold execWeightSetFree
  (repeat' split) <;> simp [Keeps] <;> (repeat' split) <;> simp [Keeps, *]
theorem execUnlock_blows (n : Nat) (s : State) : ∃ t, execUnlock n s = .next t ∧ t.pending = s.pending ∧
    (Keeps s t ∨ t.sec.fuses = { s.sec.fuses with opened := true, unlocks := min 255 (s.sec.fuses.unlocks + 1) }) := by
  unfold execUnlock
  split <;> refine ⟨_, rfl, ?_⟩
  · exact ⟨rfl, .inl (.rfl s)⟩
  · simp [State.setSec]
theorem execBarrierFirstIssue_keeps (a0 : Nat) (s : State) : ∃ z0, (execBarrierFirstIssue a0 s) = .next z0 ∧ Keeps s z0 := by
  unfold execBarrierFirstIssue
  (repeat' split) <;> refine ⟨_, rfl, ?_⟩ <;> first | exact .rfl s | exact foldl_keeps _ _ _ (fun s r => by dsimp only; split <;> simp [Keeps])
theorem execRoundEntryExpire_keeps (a0 : Nat) (a1 : Nat) (s : State) : ∃ z0, (execRoundEntryExpire a0 a1 s) = .next z0 ∧ Keeps s z0 := by
  unfold execRoundEntryExpire
  repeat' (first | (simp [Keeps, *]; done) | split)
theorem execAgeingTrim_keeps (a0 : Nat) (a1 : Nat) (a2 : Int) (s : State) : ∃ z0, (execAgeingTrim a0 a1 a2 s) = .next z0 ∧ Keeps s z0 := by
  unfold execAgeingTrim
  (repeat' split) <;> simp [Keeps] <;> (repeat' split) <;> simp [Keeps, *]
theorem execSlotSelect_keeps (a0 : Nat) (s : State) : ∃ z0, (execSlotSelect a0 s) = .next z0 ∧ Keeps s z0 := by
  unfold execSlotSelect
  (repeat' split) <;> simp [Keeps] <;> (repeat' split) <;> simp [Keeps, *]
theorem execPowerLoss_loses (x : Nat) (s : State) : ∃ t, execPowerLoss x s = .next t ∧ t.pending = s.pending ∧ t.sec.fuses = s.sec.fuses ∧ (t.sec.privopen = true → s.sec.privopen = true) := by
  unfold execPowerLoss
  split <;> refine ⟨_, rfl, ?_⟩
  · exact ⟨rfl, rfl, id⟩
  · exact ⟨rfl, rfl, fun h => nomatch h⟩
theorem execVrAlertRelease_keeps (s : State) : ∃ z0, (execVrAlertRelease s) = .next z0 ∧ Keeps s z0 := by
  unfold execVrAlertRelease
  repeat' (first | (simp [Keeps, *]; done) | split)
theorem execAnalogTrip_loses (x y : Nat) (s : State) : ∃ t, execAnalogTrip x y s = .next t ∧ t.pending = s.pending ∧ t.sec.fuses = s.sec.fuses ∧ (t.sec.privopen = true → s.sec.privopen = true) := by
  unfold execAnalogTrip
  split <;> refine ⟨_, rfl, ?_⟩
  · exact ⟨rfl, rfl, id⟩
  · exact ⟨rfl, rfl, fun h => nomatch h⟩
theorem execWatchdogExpire_keeps (a0 : Nat) (s : State) : ∃ z0, (execWatchdogExpire a0 s) = .next z0 ∧ Keeps s z0 := by
  unfold execWatchdogExpire
  repeat' (first | (simp [Keeps, *]; done) | split)
theorem execRegionGrant_keeps (a0 : Nat) (s : State) : ∃ z0, (execRegionGrant a0 s) = .next z0 ∧ Keeps s z0 := by
  unfold execRegionGrant
  repeat' (first | (simp [Keeps, *]; done) | split)
theorem execCancelFilterExpire_keeps (a0 : Nat) (a1 : Nat) (s : State) : ∃ z0, (execCancelFilterExpire a0 a1 s) = .next z0 ∧ Keeps s z0 := by
  unfold execCancelFilterExpire
  repeat' (first | (simp [Keeps, *]; done) | split)
theorem execDroopPersist_keeps (a0 : Nat) (s : State) : ∃ z0, (execDroopPersist a0 s) = .next z0 ∧ Keeps s z0 := by
  simp [Keeps, execDroopPersist]
theorem execEntdaa_keeps (a0 : Nat) (s : State) : ∃ z0, (execEntdaa a0 s) = .next z0 ∧ Keeps s z0 := by
  unfold execEntdaa
  repeat' (first | (simp [Keeps, *]; done) | split)
theorem execInputOvervoltage_loses (x : Nat) (s : State) : ∃ t, execInputOvervoltage x s = .next t ∧ t.pending = s.pending ∧ t.sec.fuses = s.sec.fuses ∧ (t.sec.privopen = true → s.sec.privopen = true) := by
  unfold execInputOvervoltage
  split <;> refine ⟨_, rfl, ?_⟩
  · exact ⟨rfl, rfl, id⟩
  · exact ⟨rfl, rfl, fun h => nomatch h⟩
theorem execEcho_keeps (a0 : BulkHdr) (a1 : List Byte) (s : State) : ∃ z0, (execEcho a0 a1 s) = .next z0 ∧ Keeps s z0 := by
  exact ⟨_, rfl, bulkFrame_keeps _ _ _ _ (by split <;> simp [Keeps])⟩
theorem execLoopbackEnd_keeps (a0 : Nat) (a1 : Nat) (a2 : Bool) (s : State) : ∃ z0, (execLoopbackEnd a0 a1 a2 s) = .next z0 ∧ Keeps s z0 := by
  unfold execLoopbackEnd
  repeat' (first | (simp [Keeps, *]; done) | split)
theorem execCancelStopTimeout_keeps (a0 : Nat) (s : State) : ∃ z0, (execCancelStopTimeout a0 s) = .next z0 ∧ Keeps s z0 := by
  unfold execCancelStopTimeout
  (repeat' split) <;> simp [Keeps] <;> (repeat' split) <;> simp [Keeps, *]
theorem execLoopbackGo_keeps (a0 : Word) (s : State) : ∃ z0, (execLoopbackGo a0 s) = .next z0 ∧ Keeps s z0 := by
  unfold execLoopbackGo
  (repeat' split) <;> simp [Keeps] <;> (repeat' split) <;> simp [Keeps, *]
theorem execDieNetworkRetry_keeps (a0 : Nat) (a1 : Nat) (a2 : Nat) (s : State) : ∃ z0, (execDieNetworkRetry a0 a1 a2 s) = .next z0 ∧ Keeps s z0 := by
  unfold execDieNetworkRetry
  repeat' (first | (simp [Keeps, *]; done) | split)
theorem execTelemetryLost_keeps (s : State) : ∃ z0, (execTelemetryLost s) = .next z0 ∧ Keeps s z0 := by
  unfold execTelemetryLost
  repeat' (first | (simp [Keeps, *]; done) | split)
theorem execWeightSetReady_keeps (a0 : Nat) (a1 : Nat) (a2 : Nat) (a3 : Option RowFault) (s : State) : ∃ z0, (execWeightSetReady a0 a1 a2 a3 s) = .next z0 ∧ Keeps s z0 := by
  unfold execWeightSetReady
  (repeat' split) <;> simp [Keeps] <;> (repeat' split) <;> simp [Keeps, *]
theorem execHoldoverTimeout_keeps (s : State) : ∃ z0, (execHoldoverTimeout s) = .next z0 ∧ Keeps s z0 := by
  unfold execHoldoverTimeout
  repeat' (first | (simp [Keeps, *]; done) | split)
theorem execRtOpDone_keeps (s : State) : ∃ z0, (execRtOpDone s) = .next z0 ∧ Keeps s z0 := by
  unfold execRtOpDone
  (repeat' split) <;> simp [Keeps] <;> (repeat' split) <;> simp [Keeps, *]
theorem execTestLogicReset_keeps (s : State) : ∃ z0, (execTestLogicReset s) = .next z0 ∧ Keeps s z0 := by
  unfold execTestLogicReset
  repeat' (first | (simp [Keeps, *]; done) | split)
theorem execSpec_keeps (a0 : Nat) (a1 : MovF) (s : State) : ∃ z0, (execSpec a0 a1 s) = .next z0 ∧ Keeps s z0 := by
  unfold execSpec
  exact runInstr_keeps _ _ _ _ (fun s p l => by dsimp only; repeat' (first | (simp [Keeps, *]; done) | split))
theorem execNotifyResend_keeps (a0 : Nat) (s : State) : ∃ z0, (execNotifyResend a0 s) = .next z0 ∧ Keeps s z0 := by
  unfold execNotifyResend
  repeat' (first | (simp [Keeps, *]; done) | split)
theorem execClocheWipeDone_keeps (a0 : Nat) (s : State) : ∃ z0, (execClocheWipeDone a0 s) = .next z0 ∧ Keeps s z0 := by
  unfold execClocheWipeDone
  repeat' (first | (simp [Keeps, *]; done) | split)
theorem execHeldRecordExpire_keeps (a0 : Nat) (s : State) : ∃ z0, (execHeldRecordExpire a0 s) = .next z0 ∧ Keeps s z0 := by
  unfold execHeldRecordExpire
  repeat' (first | (simp [Keeps, *]; done) | split)
theorem execFwWatchdogExpire_keeps (a0 : Nat) (s : State) : ∃ z0, (execFwWatchdogExpire a0 s) = .next z0 ∧ Keeps s z0 := by
  unfold execFwWatchdogExpire
  repeat' (first | (simp [Keeps, *]; done) | split)
theorem execScrubDone_keeps (a0 : Nat) (s : State) : ∃ z0, (execScrubDone a0 s) = .next z0 ∧ Keeps s z0 := by
  unfold execScrubDone
  (repeat' split) <;> simp [Keeps] <;> (repeat' split) <;> simp [Keeps, *]
theorem execIdcode_keeps (s : State) : ∃ z0, (execIdcode s) = .next z0 ∧ Keeps s z0 := by
  unfold execIdcode
  repeat' (first | (simp [Keeps, *]; done) | split)
theorem execClocheAdmit_keeps (a0 : Nat) (a1 : Nat) (s : State) : ∃ z0, (execClocheAdmit a0 a1 s) = .next z0 ∧ Keeps s z0 := by
  unfold execClocheAdmit
  repeat' (first | (simp [Keeps, *]; done) | split)
theorem execFirmwareFatal_keeps (a0 : Nat) (s : State) : ∃ z0, (execFirmwareFatal a0 s) = .next z0 ∧ Keeps s z0 := by
  unfold execFirmwareFatal
  repeat' (first | (simp [Keeps, *]; done) | split)
theorem execSamplePreload_keeps (a0 : Nat) (s : State) : ∃ z0, (execSamplePreload a0 s) = .next z0 ∧ Keeps s z0 := by
  unfold execSamplePreload
  repeat' (first | (simp [Keeps, *]; done) | split)
theorem execLbres_keeps (s : State) : ∃ z0, (execLbres s) = .next z0 ∧ Keeps s z0 := by
  unfold execLbres
  repeat' (first | (simp [Keeps, *]; done) | split)
theorem execChunkSend_keeps (a0 : Nat) (a1 : Bool) (a2 : List Byte) (s : State) : ∃ z0, (execChunkSend a0 a1 a2 s) = .next z0 ∧ Keeps s z0 := by
  unfold execChunkSend
  repeat' (first | (simp [Keeps, *]; done) | refine ⟨_, rfl, ?_⟩ | refine spdmAt_keeps _ _ _ ?_ | split)
theorem execNegotiateAlgorithms_keeps (a0 : Bool) (a1 : Bool) (a2 : Bool) (a3 : Bool) (s : State) : ∃ z0, (execNegotiateAlgorithms a0 a1 a2 a3 s) = .next z0 ∧ Keeps s z0 := by
  unfold execNegotiateAlgorithms
  repeat' (first | (simp [Keeps, *]; done) | refine ⟨_, rfl, ?_⟩ | refine spdmAt_keeps _ _ _ ?_ | split)
theorem execMovSet_keeps (a0 : Nat) (a1 : MovF) (s : State) : ∃ z0, (execMovSet a0 a1 s) = .next z0 ∧ Keeps s z0 := by
  unfold execMovSet
  repeat' (first | (simp [Keeps, *]; done) | exact scalar_keeps .. | refine ⟨_, rfl, ?_⟩ | split)
theorem execMaxu_keeps (a0 : Nat) (a1 : MovF) (s : State) : ∃ z0, (execMaxu a0 a1 s) = .next z0 ∧ Keeps s z0 := by
  unfold execMaxu
  repeat' (first | (simp [Keeps, *]; done) | exact scalar_keeps .. | refine ⟨_, rfl, ?_⟩ | split)
theorem execGetSensorReading_keeps (a0 : Nat) (s : State) : ∃ z0, (execGetSensorReading a0 s) = .next z0 ∧ Keeps s z0 := by
  unfold execGetSensorReading
  repeat' (first | (simp [Keeps, *]; done) | refine ⟨_, rfl, ?_⟩ | refine mgmtMsg_keeps _ _ (fun s => ?_) | split)
theorem execGetVersion_keeps (s : State) : ∃ z0, (execGetVersion s) = .next z0 ∧ Keeps s z0 := by
  unfold execGetVersion
  repeat' (first | (simp [Keeps, *]; done) | refine ⟨_, rfl, ?_⟩ | refine spdmAt_keeps _ _ _ ?_ | split)
theorem execConfigurationRequest_keeps (a0 : CfgReq) (s : State) : ∃ z0, (execConfigurationRequest a0 s) = .next z0 ∧ Keeps s z0 := by
  unfold execConfigurationRequest
  repeat' (first | (simp [Keeps, *]; done) | split)
theorem execGetMeasurements_keeps (a0 : Nat) (a1 : List Byte) (s : State) : ∃ z0, (execGetMeasurements a0 a1 s) = .next z0 ∧ Keeps s z0 := by
  unfold execGetMeasurements
  repeat' (first | (simp [Keeps, *]; done) | refine ⟨_, rfl, ?_⟩ | refine spdmAt_keeps _ _ _ ?_ | split)
theorem execBclear_keeps (a0 : Nat) (a1 : BankF) (s : State) : ∃ z0, (execBclear a0 a1 s) = .next z0 ∧ Keeps s z0 := by
  unfold execBclear
  repeat' (first | (simp [Keeps, *]; done) | refine runUnit_keeps _ _ _ _ (fun s p l => ?_) | exact foldl_keeps _ _ _ (fun s x => by dsimp only; repeat' (first | (simp [Keeps, *]; done) | split)) | refine ⟨_, rfl, ?_⟩ | split)
theorem execSelftestSlice_keeps (a0 : Nat) (a1 : Bool) (s : State) : ∃ z0, (execSelftestSlice a0 a1 s) = .next z0 ∧ Keeps s z0 := by
  unfold execSelftestSlice
  repeat' (first | (simp [Keeps, *]; done) | split)
theorem execShl_keeps (a0 : Nat) (a1 : MovF) (s : State) : ∃ z0, (execShl a0 a1 s) = .next z0 ∧ Keeps s z0 := by
  unfold execShl
  repeat' (first | (simp [Keeps, *]; done) | exact scalar_keeps .. | refine ⟨_, rfl, ?_⟩ | split)
theorem execGetCapabilities_keeps (s : State) : ∃ z0, (execGetCapabilities s) = .next z0 ∧ Keeps s z0 := by
  unfold execGetCapabilities
  repeat' (first | (simp [Keeps, *]; done) | refine ⟨_, rfl, ?_⟩ | refine spdmAt_keeps _ _ _ ?_ | split)
theorem execDroopDetect_keeps (a0 : Nat) (a1 : Nat) (s : State) : ∃ z0, (execDroopDetect a0 a1 s) = .next z0 ∧ Keeps s z0 := by
  unfold execDroopDetect
  (repeat' split) <;> simp [Keeps] <;> (repeat' split) <;> simp [Keeps, *]
theorem execGetCertificate_keeps (a0 : Nat) (a1 : Nat) (a2 : Nat) (s : State) : ∃ z0, (execGetCertificate a0 a1 a2 s) = .next z0 ∧ Keeps s z0 := by
  unfold execGetCertificate
  repeat' (first | (simp [Keeps, *]; done) | refine ⟨_, rfl, ?_⟩ | refine spdmAt_keeps _ _ _ ?_ | split)
theorem execGetDigests_keeps (s : State) : ∃ z0, (execGetDigests s) = .next z0 ∧ Keeps s z0 := by
  unfold execGetDigests
  repeat' (first | (simp [Keeps, *]; done) | refine ⟨_, rfl, ?_⟩ | refine spdmAt_keeps _ _ _ ?_ | split)
theorem execMovXor_keeps (a0 : Nat) (a1 : MovF) (s : State) : ∃ z0, (execMovXor a0 a1 s) = .next z0 ∧ Keeps s z0 := by
  unfold execMovXor
  repeat' (first | (simp [Keeps, *]; done) | exact scalar_keeps .. | refine ⟨_, rfl, ?_⟩ | split)
theorem execSyncWaitEnd_keeps (a0 : Nat) (s : State) : ∃ z0, (execSyncWaitEnd a0 s) = .next z0 ∧ Keeps s z0 := by
  unfold execSyncWaitEnd
  repeat' (first | (simp [Keeps, *]; done) | split)
theorem execBypass_keeps (a0 : Nat) (s : State) : ∃ z0, (execBypass a0 s) = .next z0 ∧ Keeps s z0 := by
  unfold execBypass
  repeat' (first | (simp [Keeps, *]; done) | split)
theorem execHbmsel_keeps (a0 : Nat) (s : State) : ∃ z0, (execHbmsel a0 s) = .next z0 ∧ Keeps s z0 := by
  unfold execHbmsel
  repeat' (first | (simp [Keeps, *]; done) | split)
theorem execSequenceFree_keeps (a0 : Nat) (s : State) : ∃ z0, (execSequenceFree a0 s) = .next z0 ∧ Keeps s z0 := by
  unfold execSequenceFree
  repeat' (first | (simp [Keeps, *]; done) | split)
theorem execChallenge_keeps (a0 : Nat) (a1 : List Byte) (s : State) : ∃ z0, (execChallenge a0 a1 s) = .next z0 ∧ Keeps s z0 := by
  unfold execChallenge
  repeat' (first | (simp [Keeps, *]; done) | refine ⟨_, rfl, ?_⟩ | refine spdmAt_keeps _ _ _ ?_ | split)
theorem execShr_keeps (a0 : Nat) (a1 : MovF) (s : State) : ∃ z0, (execShr a0 a1 s) = .next z0 ∧ Keeps s z0 := by
  unfold execShr
  repeat' (first | (simp [Keeps, *]; done) | exact scalar_keeps .. | refine ⟨_, rfl, ?_⟩ | split)
theorem execLoop_keeps (a0 : Nat) (a1 : LoopF) (s : State) : ∃ z0, (execLoop a0 a1 s) = .next z0 ∧ Keeps s z0 := by
  unfold execLoop
  exact runInstr_keeps _ _ _ _ (fun s p l => by dsimp only; repeat' (first | (simp [Keeps, *]; done) | split))
theorem execMovAdd_keeps (a0 : Nat) (a1 : MovF) (s : State) : ∃ z0, (execMovAdd a0 a1 s) = .next z0 ∧ Keeps s z0 := by
  unfold execMovAdd
  repeat' (first | (simp [Keeps, *]; done) | exact scalar_keeps .. | refine ⟨_, rfl, ?_⟩ | split)
theorem execMinu_keeps (a0 : Nat) (a1 : MovF) (s : State) : ∃ z0, (execMinu a0 a1 s) = .next z0 ∧ Keeps s z0 := by
  unfold execMinu
  repeat' (first | (simp [Keeps, *]; done) | exact scalar_keeps .. | refine ⟨_, rfl, ?_⟩ | split)
theorem execKeyExchange_keeps (a0 : Bool) (s : State) : ∃ z0, (execKeyExchange a0 s) = .next z0 ∧ Keeps s z0 := by
  unfold execKeyExchange
  repeat' (first | (simp [Keeps, *]; done) | refine ⟨_, rfl, ?_⟩ | refine spdmAt_keeps _ _ _ ?_ | split)
theorem execMovSub_keeps (a0 : Nat) (a1 : MovF) (s : State) : ∃ z0, (execMovSub a0 a1 s) = .next z0 ∧ Keeps s z0 := by
  unfold execMovSub
  repeat' (first | (simp [Keeps, *]; done) | exact scalar_keeps .. | refine ⟨_, rfl, ?_⟩ | split)
theorem execSyncTimeout_keeps (a0 : Nat) (s : State) : ∃ z0, (execSyncTimeout a0 s) = .next z0 ∧ Keeps s z0 := by
  unfold execSyncTimeout
  repeat' (first | (simp [Keeps, *]; done) | split)
theorem execMsixUnmask_keeps (a0 : Nat) (s : State) : ∃ z0, (execMsixUnmask a0 s) = .next z0 ∧ Keeps s z0 := by
  unfold execMsixUnmask
  repeat' (first | (simp [Keeps, *]; done) | split)
theorem execMovMul_keeps (a0 : Nat) (a1 : MovF) (s : State) : ∃ z0, (execMovMul a0 a1 s) = .next z0 ∧ Keeps s z0 := by
  unfold execMovMul
  repeat' (first | (simp [Keeps, *]; done) | exact scalar_keeps .. | refine ⟨_, rfl, ?_⟩ | split)
theorem execMovOr_keeps (a0 : Nat) (a1 : MovF) (s : State) : ∃ z0, (execMovOr a0 a1 s) = .next z0 ∧ Keeps s z0 := by
  unfold execMovOr
  repeat' (first | (simp [Keeps, *]; done) | exact scalar_keeps .. | refine ⟨_, rfl, ?_⟩ | split)
theorem execExtest_keeps (a0 : Nat) (s : State) : ∃ z0, (execExtest a0 s) = .next z0 ∧ Keeps s z0 := by
  unfold execExtest
  repeat' (first | (simp [Keeps, *]; done) | split)
theorem execNotifyAck_keeps (a0 : Nat) (s : State) : ∃ z0, (execNotifyAck a0 s) = .next z0 ∧ Keeps s z0 := by
  unfold execNotifyAck
  repeat' (first | (simp [Keeps, *]; done) | refine ⟨_, rfl, ?_⟩ | refine mgmtMsg_keeps _ _ (fun s => ?_) | split)
theorem execMovAnd_keeps (a0 : Nat) (a1 : MovF) (s : State) : ∃ z0, (execMovAnd a0 a1 s) = .next z0 ∧ Keeps s z0 := by
  unfold execMovAnd
  repeat' (first | (simp [Keeps, *]; done) | exact scalar_keeps .. | refine ⟨_, rfl, ?_⟩ | split)
theorem execReturnRecordDone_keeps (s : State) : ∃ z0, (execReturnRecordDone s) = .next z0 ∧ Keeps s z0 := by
  unfold execReturnRecordDone
  repeat' (first | (simp [Keeps, *]; done) | split)
theorem execChunkGet_keeps (a0 : Nat) (s : State) : ∃ z0, (execChunkGet a0 s) = .next z0 ∧ Keeps s z0 := by
  unfold execChunkGet
  dsimp only
  repeat' (first | (simp [Keeps, *]; done) | refine ⟨_, rfl, ?_⟩ | refine spdmAt_keeps _ _ _ ?_ | split)
theorem execSetaddr_keeps (a0 : BulkHdr) (a1 : Word) (s : State) : ∃ z0, (execSetaddr a0 a1 s) = .next z0 ∧ Keeps s z0 := by
  unfold execSetaddr
  repeat' (first | (simp [Keeps, *]; done) | refine ⟨_, rfl, ?_⟩ | refine bulkFrame_keeps _ _ _ _ ?_ | split)
theorem execAlignment_keeps (a0 : Nat) (s : State) : ∃ z0, (execAlignment a0 s) = .next z0 ∧ Keeps s z0 := by
  unfold execAlignment
  repeat' (first | (simp [Keeps, *]; done) | split)
theorem execSt_keeps (a0 : Nat) (a1 : MovF) (s : State) : ∃ z0, (execSt a0 a1 s) = .next z0 ∧ Keeps s z0 := by
  unfold execSt
  exact runInstr_keeps _ _ _ _ (fun s p l => by dsimp only; repeat' (first | (simp [Keeps, *]; done) | split))
theorem execWaitge_keeps (a0 : Nat) (a1 : SyncF) (s : State) : ∃ z0, (execWaitge a0 a1 s) = .next z0 ∧ Keeps s z0 := by
  unfold execWaitge
  repeat' (first | (simp [Keeps, *]; done) | exact syncIssue_keeps .. | refine ⟨_, rfl, ?_⟩ | split)
theorem execRevoke_blows (hd : MgmtHdr) (owner : Bool) (slot : Nat) (s : State) : ∃ t, execRevoke hd owner slot s = .next t ∧ t.pending = s.pending ∧
    t.sec.privopen = s.sec.privopen ∧ (t.sec.fuses = s.sec.fuses ∨ t.sec.fuses = { s.sec.fuses with owner := revokeSlot s.sec.fuses.owner slot } ∨
      t.sec.fuses = { s.sec.fuses with vendor := revokeSlot s.sec.fuses.vendor slot }) := by
  refine ⟨_, rfl, ?_⟩
  refine mgmtCmd_ind (P := fun (t : State) => t.pending = s.pending ∧ t.sec.privopen = s.sec.privopen ∧ (t.sec.fuses = s.sec.fuses ∨
    t.sec.fuses = { s.sec.fuses with owner := revokeSlot s.sec.fuses.owner slot } ∨ t.sec.fuses = { s.sec.fuses with vendor := revokeSlot s.sec.fuses.vendor slot }))
    s _ _ _ _ ⟨rfl, rfl, .inl rfl⟩ (fun u hu => by simp [hu.1, hu.2.1, hu.2.2]) (fun u hu => ?_)
  extract_lets ks n
  split
  · simp [hu.1, hu.2.1, hu.2.2]
  · split
    · simp [hu.1, hu.2.1, hu.2.2]
    · cases owner
      · exact ⟨by simp [State.setSec, hu.1], by simp [State.setSec, hu.2.2], .inr (.inr (by simp [State.setSec, hu.2.1, n, ks]; exact ⟨rfl, rfl, rfl, rfl, rfl, rfl⟩))⟩
      · exact ⟨by simp [State.setSec, hu.1], by simp [State.setSec, hu.2.2], .inr (.inl (by simp [State.setSec, hu.2.1, n, ks]; exact ⟨rfl, rfl, rfl, rfl, rfl, rfl⟩))⟩
theorem execHbmwdr_keeps (a0 : Nat) (s : State) : ∃ z0, (execHbmwdr a0 s) = .next z0 ∧ Keeps s z0 := by
  unfold execHbmwdr
  repeat' (first | (simp [Keeps, *]; done) | split)
theorem execRbar_keeps (a0 : Nat) (a1 : SyncF) (s : State) : ∃ z0, (execRbar a0 a1 s) = .next z0 ∧ Keeps s z0 := by
  unfold execRbar
  repeat' (first | (simp [Keeps, *]; done) | exact syncIssue_keeps .. | refine ⟨_, rfl, ?_⟩ | split)
theorem execTakeoverDone_keeps (s : State) : ∃ z0, (execTakeoverDone s) = .next z0 ∧ Keeps s z0 := by
  unfold execTakeoverDone
  repeat' (first | (simp [Keeps, *]; done) | split)
theorem execBdpSet_keeps (a0 : MgmtHdr) (a1 : Word) (s : State) : ∃ z0, (execBdpSet a0 a1 s) = .next z0 ∧ Keeps s z0 := by
  unfold execBdpSet
  repeat' (first | (simp [Keeps, *]; done) | refine mgmtCmd_keeps _ _ _ _ _ (fun s => ?_) | refine ⟨_, rfl, ?_⟩ | split)
theorem execDieLinkLaneSpare_keeps (a0 : Nat) (a1 : Nat) (s : State) : ∃ z0, (execDieLinkLaneSpare a0 a1 s) = .next z0 ∧ Keeps s z0 := by
  unfold execDieLinkLaneSpare
  dsimp only
  split <;> refine ⟨_, rfl, ?_⟩
  · exact .rfl s
  · split <;> simp [Keeps]
theorem execMatMul_keeps (a0 : Nat) (a1 : MulF) (s : State) : ∃ z0, (execMatMul a0 a1 s) = .next z0 ∧ Keeps s z0 := by
  unfold execMatMul
  dsimp only
  repeat' (first | (simp [Keeps, *]; done) | refine runUnit_keeps _ _ _ _ (fun s p l => ?_) | exact foldl_keeps _ _ _ (fun s x => by dsimp only; repeat' (first | (simp [Keeps, *]; done) | split)) | refine ⟨_, rfl, ?_⟩ | split)
theorem execWaitall_keeps (a0 : Nat) (a1 : SyncF) (s : State) : ∃ z0, (execWaitall a0 a1 s) = .next z0 ∧ Keeps s z0 := by
  unfold execWaitall
  repeat' (first | (simp [Keeps, *]; done) | exact syncIssue_keeps .. | refine ⟨_, rfl, ?_⟩ | split)
theorem execRingFetch_keeps (a0 : Nat) (a1 : Bool) (s : State) : ∃ z0, (execRingFetch a0 a1 s) = .next z0 ∧ Keeps s z0 := by
  unfold execRingFetch
  (repeat' split) <;> simp [Keeps] <;> (repeat' split) <;> simp [Keeps, *]
theorem execHeartbeat_keeps (a0 : Nat) (s : State) : ∃ z0, (execHeartbeat a0 s) = .next z0 ∧ Keeps s z0 := by
  unfold execHeartbeat
  repeat' (first | (simp [Keeps, *]; done) | refine inSession_keeps _ _ _ ?_ | refine ⟨_, rfl, ?_⟩ | split)
theorem execSend_keeps (a0 : Nat) (a1 : RouteF) (s : State) : ∃ z0, (execSend a0 a1 s) = .next z0 ∧ Keeps s z0 := by
  unfold execSend
  dsimp only
  repeat' (first | (simp [Keeps, *]; done) | refine runUnit_keeps _ _ _ _ (fun s p l => ?_) | refine ⟨_, rfl, ?_⟩ | split)
theorem execKeyUpdate_keeps (a0 : Nat) (s : State) : ∃ z0, (execKeyUpdate a0 s) = .next z0 ∧ Keeps s z0 := by
  unfold execKeyUpdate
  repeat' (first | (simp [Keeps, *]; done) | refine inSession_keeps _ _ _ ?_ | refine ⟨_, rfl, ?_⟩ | split)
theorem execAckTimeout_keeps (a0 : Nat) (s : State) : ∃ z0, (execAckTimeout a0 s) = .next z0 ∧ Keeps s z0 := by
  unfold execAckTimeout
  repeat' (first | (simp [Keeps, *]; done) | split)
theorem execPlotKey_keeps (a0 : Nat) (a1 : Nat) (a2 : Nat) (a3 : List Byte) (s : State) : ∃ z0, (execPlotKey a0 a1 a2 a3 s) = .next z0 ∧ Keeps s z0 := by
  unfold execPlotKey
  refine inSession_keeps _ _ _ ?_
  split
  · exact .trans (setSec_keeps _ _ rfl rfl) (spdmSay_keeps ..)
  · exact spdmSay_keeps ..
theorem execPost_keeps (a0 : Nat) (a1 : SyncF) (s : State) : ∃ z0, (execPost a0 a1 s) = .next z0 ∧ Keeps s z0 := by
  unfold execPost
  repeat' (first | (simp [Keeps, *]; done) | exact syncIssue_keeps .. | refine ⟨_, rfl, ?_⟩ | split)
theorem execMgtReset_keeps (a0 : MgmtHdr) (a1 : Nat) (s : State) : ∃ z0, (execMgtReset a0 a1 s) = .next z0 ∧ Keeps s z0 := by
  unfold execMgtReset
  repeat' (first | (simp [Keeps, *]; done) | refine mgmtCmd_keeps _ _ _ _ _ (fun s => ?_) | refine ⟨_, rfl, ?_⟩ | split)
theorem execAdmissionLost_keeps (a0 : Nat) (a1 : Bool) (a2 : Bool) (s : State) : ∃ z0, (execAdmissionLost a0 a1 a2 s) = .next z0 ∧ Keeps s z0 := by
  unfold execAdmissionLost
  repeat' (first | (simp [Keeps, *]; done) | split)
theorem execPhase0Restart_keeps (s : State) : ∃ z0, (execPhase0Restart s) = .next z0 ∧ Keeps s z0 := by
  unfold execPhase0Restart
  repeat' (first | (simp [Keeps, *]; done) | split)
theorem execSpareColumnMap_keeps (a0 : Nat) (a1 : Nat) (a2 : Nat) (s : State) : ∃ z0, (execSpareColumnMap a0 a1 a2 s) = .next z0 ∧ Keeps s z0 := by
  unfold execSpareColumnMap
  (repeat' split) <;> simp [Keeps] <;> (repeat' split) <;> simp [Keeps, *]
theorem execLaneBad_keeps (a0 : Nat) (a1 : Nat) (a2 : Option Nat) (s : State) : ∃ z0, (execLaneBad a0 a1 a2 s) = .next z0 ∧ Keeps s z0 := by
  unfold execLaneBad
  (repeat' split) <;> simp [Keeps] <;> (repeat' split) <;> simp [Keeps, *]
theorem execPreload_keeps (a0 : Nat) (a1 : PreloadF) (s : State) : ∃ z0, (execPreload a0 a1 s) = .next z0 ∧ Keeps s z0 := by
  unfold execPreload
  dsimp only
  repeat' (first | (simp [Keeps, *]; done) | refine runUnit_keeps _ _ _ _ (fun s p l => ?_) | exact foldl_keeps _ _ _ (fun s x => by dsimp only; repeat' (first | (simp [Keeps, *]; done) | split)) | refine ⟨_, rfl, ?_⟩ | split)
theorem execCompletionWriteAck_keeps (a0 : Nat) (s : State) : ∃ z0, (execCompletionWriteAck a0 s) = .next z0 ∧ Keeps s z0 := by
  unfold execCompletionWriteAck
  (repeat' split) <;> simp [Keeps] <;> (repeat' split) <;> simp [Keeps, *]
theorem execCompletionWriteFailed_keeps (a0 : Nat) (s : State) : ∃ z0, (execCompletionWriteFailed a0 s) = .next z0 ∧ Keeps s z0 := by
  simp [Keeps, execCompletionWriteFailed]
theorem execSysResetN_loses (low : Bool) (n : Nat) (s : State) : ∃ t, execSysResetN low n s = .next t ∧ t.pending = s.pending ∧ t.sec.fuses = s.sec.fuses ∧
    (t.sec.privopen = true → s.sec.privopen = true) := by
  have r (u : State) (h : Keeps s u) : u.pending = s.pending ∧ u.sec.fuses = s.sec.fuses ∧ (u.sec.privopen = true → s.sec.privopen = true) :=
    ⟨h.1, h.2.1, fun k => h.2.2 ▸ k⟩
  unfold execSysResetN
  split
  · dsimp only
    generalize hw : (if 250 ≤ n ∧ n < 1000 then s.draw else ((BitVec.ofNat 64 (n / 1000) : Word), s)) = w
    have hk : Keeps s w.2 := by
      subst hw
      split <;> simp [Keeps]
    split
    · exact ⟨_, rfl, r _ hk⟩
    · exact ⟨_, rfl, hk.1, hk.2.1, fun k => nomatch k⟩
  · split
    · exact ⟨_, rfl, r _ (.rfl s)⟩
    · refine ⟨_, rfl, r _ ?_⟩
      split <;> simp [Keeps]
theorem execCablePresentChange_keeps (a0 : Nat) (a1 : Bool) (a2 : Bool) (s : State) : ∃ z0, (execCablePresentChange a0 a1 a2 s) = .next z0 ∧ Keeps s z0 := by
  unfold execCablePresentChange
  repeat' (first | (simp [Keeps, *]; done) | split)
theorem execRecv_keeps (a0 : Nat) (a1 : SyncF) (s : State) : ∃ z0, (execRecv a0 a1 s) = .next z0 ∧ Keeps s z0 := by
  unfold execRecv
  repeat' (first | (simp [Keeps, *]; done) | exact syncIssue_keeps .. | refine ⟨_, rfl, ?_⟩ | split)
theorem execTwinLost_keeps (s : State) : ∃ z0, (execTwinLost s) = .next z0 ∧ Keeps s z0 := by
  unfold execTwinLost
  repeat' (first | (simp [Keeps, *]; done) | split)
theorem execCoord_keeps (a0 : MgmtHdr) (a1 : Nat) (a2 : Nat) (a3 : Nat) (a4 : Nat) (s : State) : ∃ z0, (execCoord a0 a1 a2 a3 a4 s) = .next z0 ∧ Keeps s z0 := by
  unfold execCoord
  repeat' (first | (simp [Keeps, *]; done) | refine mgmtCmd_keeps _ _ _ _ _ (fun s => ?_) | exact foldl_keeps _ _ _ (fun s x => by dsimp only; repeat' (first | (simp [Keeps, *]; done) | split)) | refine ⟨_, rfl, ?_⟩ | split)
theorem execHbmwir_keeps (a0 : Nat) (s : State) : ∃ z0, (execHbmwir a0 s) = .next z0 ∧ Keeps s z0 := by
  unfold execHbmwir
  repeat' (first | (simp [Keeps, *]; done) | split)
theorem execPowerOn_keeps (a0 : Nat) (s : State) : ∃ z0, (execPowerOn a0 s) = .next z0 ∧ Keeps s z0 := by
  unfold execPowerOn
  repeat' (first | (simp [Keeps, *]; done) | split)
theorem execEnrol_blows (hd : MgmtHdr) (slot : Nat) (digest : List Byte) (s : State) : ∃ t, execEnrol hd slot digest s = .next t ∧ t.pending = s.pending ∧
    t.sec.privopen = s.sec.privopen ∧ (t.sec.fuses = s.sec.fuses ∨ (s.sec.fuses.owner.getD slot .blank).programmed = false ∧
      t.sec.fuses = { s.sec.fuses with owner := s.sec.fuses.owner.set slot { s.sec.fuses.owner.getD slot .blank with digest := digest } }) := by
  have r (u : State) (h : Keeps s u) : u.pending = s.pending ∧ u.sec.privopen = s.sec.privopen ∧ (u.sec.fuses = s.sec.fuses ∨ (s.sec.fuses.owner.getD slot .blank).programmed = false ∧
      u.sec.fuses = { s.sec.fuses with owner := s.sec.fuses.owner.set slot { s.sec.fuses.owner.getD slot .blank with digest := digest } }) := ⟨h.1, h.2.2, .inl h.2.1⟩
  refine ⟨_, rfl, mgmtCmd_ind (P := fun (t : State) => t.pending = s.pending ∧ t.sec.privopen = s.sec.privopen ∧ (t.sec.fuses = s.sec.fuses ∨
      (s.sec.fuses.owner.getD slot .blank).programmed = false ∧
      t.sec.fuses = { s.sec.fuses with owner := s.sec.fuses.owner.set slot { s.sec.fuses.owner.getD slot .blank with digest := digest } }))
      s _ _ _ _ (r _ (.rfl s)) (fun u hu => r _ (hu.trans (mgmtReply_keeps ..))) (fun u hu => ?_)⟩
  split
  · exact r _ (hu.trans (mgmtReply_keeps ..))
  · split
    · exact r _ (hu.trans (mgmtReply_keeps ..))
    · rename_i hp
      simp only [mgmtReply_keeps, State.setSec, hu.1, hu.2.1, hu.2.2, true_and]
      rw [hu.2.1] at hp
      exact .inr ⟨by simpa using hp, trivial⟩
theorem execLoadw_keeps (a0 : Nat) (a1 : LoadwF) (s : State) : ∃ z0, (execLoadw a0 a1 s) = .next z0 ∧ Keeps s z0 := by
  unfold execLoadw
  refine runUnit_keeps _ _ _ _ (fun s p l => ?_)
  dsimp only
  repeat' (first | exact .rfl _ | exact passOver_keeps .. | exact failIssue_keeps .. | exact setRegion_keeps .. | split)
theorem execTap_keeps (a0 : Nat) (a1 : TapF) (s : State) : ∃ z0, (execTap a0 a1 s) = .next z0 ∧ Keeps s z0 := by
  unfold execTap
  dsimp only
  repeat' (first | (simp [Keeps, *]; done) | refine runUnit_keeps _ _ _ _ (fun s p l => ?_) | refine ⟨_, rfl, ?_⟩ | split)
theorem execMgtWake_keeps (a0 : MgmtHdr) (s : State) : ∃ z0, (execMgtWake a0 s) = .next z0 ∧ Keeps s z0 := by
  unfold execMgtWake
  repeat' (first | (simp [Keeps, *]; done) | refine mgmtCmd_keeps _ _ _ _ _ (fun s => ?_) | refine ⟨_, rfl, ?_⟩ | split)
theorem execTelemetryWindow_keeps (a0 : Nat) (a1 : Nat) (s : State) : ∃ z0, (execTelemetryWindow a0 a1 s) = .next z0 ∧ Keeps s z0 := by
  unfold execTelemetryWindow
  repeat' (first | (simp [Keeps, *]; done) | split)
theorem execVecCmp_keeps (a0 : Nat) (a1 : VecF) (s : State) : ∃ z0, (execVecCmp a0 a1 s) = .next z0 ∧ Keeps s z0 := by
  unfold execVecCmp
  repeat' (first | (simp [Keeps, *]; done) | exact vec_keeps .. | refine ⟨_, rfl, ?_⟩ | split)
theorem execVecFma_keeps (a0 : Nat) (a1 : VecF) (s : State) : ∃ z0, (execVecFma a0 a1 s) = .next z0 ∧ Keeps s z0 := by
  unfold execVecFma
  repeat' (first | (simp [Keeps, *]; done) | exact vec_keeps .. | refine ⟨_, rfl, ?_⟩ | split)
theorem execRamax_keeps (a0 : Nat) (a1 : VecF) (s : State) : ∃ z0, (execRamax a0 a1 s) = .next z0 ∧ Keeps s z0 := by
  unfold execRamax
  repeat' (first | (simp [Keeps, *]; done) | exact vec_keeps .. | refine ⟨_, rfl, ?_⟩ | split)
theorem execVecLog_keeps (a0 : Nat) (a1 : VecF) (s : State) : ∃ z0, (execVecLog a0 a1 s) = .next z0 ∧ Keeps s z0 := by
  unfold execVecLog
  repeat' (first | (simp [Keeps, *]; done) | exact vec_keeps .. | refine ⟨_, rfl, ?_⟩ | split)
theorem execNak_keeps (a0 : Nat) (a1 : FrameIn) (s : State) : ∃ z0, (execNak a0 a1 s) = .next z0 ∧ Keeps s z0 := by
  unfold execNak
  repeat' (first | (simp [Keeps, *]; done) | split)
theorem execVecNeg_keeps (a0 : Nat) (a1 : VecF) (s : State) : ∃ z0, (execVecNeg a0 a1 s) = .next z0 ∧ Keeps s z0 := by
  unfold execVecNeg
  repeat' (first | (simp [Keeps, *]; done) | exact vec_keeps .. | refine ⟨_, rfl, ?_⟩ | split)
theorem execVecAdd_keeps (a0 : Nat) (a1 : VecF) (s : State) : ∃ z0, (execVecAdd a0 a1 s) = .next z0 ∧ Keeps s z0 := by
  unfold execVecAdd
  repeat' (first | (simp [Keeps, *]; done) | exact vec_keeps .. | refine ⟨_, rfl, ?_⟩ | split)
theorem execReturnAcc_keeps (a0 : Nat) (a1 : RouteF) (s : State) : ∃ z0, (execReturnAcc a0 a1 s) = .next z0 ∧ Keeps s z0 := by
  unfold execReturnAcc
  repeat' (first | (simp [Keeps, *]; done) | exact returns_keeps .. | refine ⟨_, rfl, ?_⟩ | split)
theorem execVecCvt_keeps (a0 : Nat) (a1 : VecF) (s : State) : ∃ z0, (execVecCvt a0 a1 s) = .next z0 ∧ Keeps s z0 := by
  unfold execVecCvt
  repeat' (first | (simp [Keeps, *]; done) | exact vec_keeps .. | refine ⟨_, rfl, ?_⟩ | split)
theorem execVecRcp_keeps (a0 : Nat) (a1 : VecF) (s : State) : ∃ z0, (execVecRcp a0 a1 s) = .next z0 ∧ Keeps s z0 := by
  unfold execVecRcp
  repeat' (first | (simp [Keeps, *]; done) | exact vec_keeps .. | refine ⟨_, rfl, ?_⟩ | split)
theorem execRetentionScrub_keeps (a0 : List (Nat × Nat)) (a1 : Nat) (s : State) : ∃ z0, (execRetentionScrub a0 a1 s) = .next z0 ∧ Keeps s z0 := by
  unfold execRetentionScrub
  repeat' (first | (simp [Keeps, *]; done) | split)
theorem execGather_keeps (a0 : Nat) (a1 : VecF) (s : State) : ∃ z0, (execGather a0 a1 s) = .next z0 ∧ Keeps s z0 := by
  unfold execGather
  repeat' (first | (simp [Keeps, *]; done) | exact vec_keeps .. | refine ⟨_, rfl, ?_⟩ | split)
theorem execReturnSlot_keeps (a0 : Nat) (a1 : RouteF) (s : State) : ∃ z0, (execReturnSlot a0 a1 s) = .next z0 ∧ Keeps s z0 := by
  unfold execReturnSlot
  repeat' (first | (simp [Keeps, *]; done) | exact returns_keeps .. | refine ⟨_, rfl, ?_⟩ | split)
theorem execVecMul_keeps (a0 : Nat) (a1 : VecF) (s : State) : ∃ z0, (execVecMul a0 a1 s) = .next z0 ∧ Keeps s z0 := by
  unfold execVecMul
  repeat' (first | (simp [Keeps, *]; done) | exact vec_keeps .. | refine ⟨_, rfl, ?_⟩ | split)
theorem execThermalTripClear_keeps (a0 : Nat) (a1 : List Nat) (s : State) : ∃ z0, (execThermalTripClear a0 a1 s) = .next z0 ∧ Keeps s z0 := by
  unfold execThermalTripClear
  (repeat' split) <;> simp [Keeps] <;> (repeat' split) <;> simp [Keeps, *]
theorem execVrAlertAssert_keeps (s : State) : ∃ z0, (execVrAlertAssert s) = .next z0 ∧ Keeps s z0 := by
  unfold execVrAlertAssert
  repeat' (first | (simp [Keeps, *]; done) | split)
theorem execTopk_keeps (a0 : Nat) (a1 : VecF) (s : State) : ∃ z0, (execTopk a0 a1 s) = .next z0 ∧ Keeps s z0 := by
  unfold execTopk
  repeat' (first | (simp [Keeps, *]; done) | exact vec_keeps .. | refine ⟨_, rfl, ?_⟩ | split)
theorem execThermalThrottle_keeps (a0 : Nat) (a1 : Nat) (s : State) : ∃ z0, (execThermalThrottle a0 a1 s) = .next z0 ∧ Keeps s z0 := by
  unfold execThermalThrottle
  (repeat' split) <;> simp [Keeps] <;> (repeat' split) <;> simp [Keeps, *]
theorem execLd_keeps (a0 : Nat) (a1 : MovF) (s : State) : ∃ z0, (execLd a0 a1 s) = .next z0 ∧ Keeps s z0 := by
  unfold execLd
  repeat' (first | (simp [Keeps, *]; done) | exact scalarLoad_keeps .. | refine ⟨_, rfl, ?_⟩ | split)
theorem execLd32_keeps (a0 : Nat) (a1 : MovF) (s : State) : ∃ z0, (execLd32 a0 a1 s) = .next z0 ∧ Keeps s z0 := by
  unfold execLd32
  repeat' (first | (simp [Keeps, *]; done) | exact scalarLoad_keeps .. | refine ⟨_, rfl, ?_⟩ | split)
theorem execScatter_keeps (a0 : Nat) (a1 : VecF) (s : State) : ∃ z0, (execScatter a0 a1 s) = .next z0 ∧ Keeps s z0 := by
  unfold execScatter
  repeat' (first | (simp [Keeps, *]; done) | exact vec_keeps .. | refine ⟨_, rfl, ?_⟩ | split)
theorem execScatterAdd_keeps (a0 : Nat) (a1 : VecF) (s : State) : ∃ z0, (execScatterAdd a0 a1 s) = .next z0 ∧ Keeps s z0 := by
  unfold execScatterAdd
  repeat' (first | (simp [Keeps, *]; done) | exact vec_keeps .. | refine ⟨_, rfl, ?_⟩ | split)
theorem execSort_keeps (a0 : Nat) (a1 : VecF) (s : State) : ∃ z0, (execSort a0 a1 s) = .next z0 ∧ Keeps s z0 := by
  unfold execSort
  repeat' (first | (simp [Keeps, *]; done) | exact vec_keeps .. | refine ⟨_, rfl, ?_⟩ | split)
theorem execBload_keeps (a0 : Nat) (a1 : BankF) (s : State) : ∃ z0, (execBload a0 a1 s) = .next z0 ∧ Keeps s z0 := by
  unfold execBload
  repeat' (first | (simp [Keeps, *]; done) | refine runUnit_keeps _ _ _ _ (fun s p l => ?_) | refine ⟨_, rfl, ?_⟩ | split)
theorem execLen_keeps (a0 : Nat) (a1 : KvF) (s : State) : ∃ z0, (execLen a0 a1 s) = .next z0 ∧ Keeps s z0 := by
  unfold execLen
  repeat' (first | (simp [Keeps, *]; done) | refine kvInstr_keeps _ _ _ _ _ (fun s p l a => ?_) | refine kvRun_keeps _ _ _ _ _ _ (fun s i => ?_) | refine ⟨_, rfl, ?_⟩ | split)
theorem execRepairDecide_keeps (a0 : Nat) (a1 : Nat) (a2 : Nat) (s : State) : ∃ z0, (execRepairDecide a0 a1 a2 s) = .next z0 ∧ Keeps s z0 := by
  unfold execRepairDecide
  repeat' (first | (simp [Keeps, *]; done) | split)
theorem execPlace_keeps (a0 : Nat) (a1 : RouteF) (s : State) : ∃ z0, (execPlace a0 a1 s) = .next z0 ∧ Keeps s z0 := by
  unfold execPlace
  exact runInstr_keeps _ _ _ _ (fun s p l => by dsimp only; repeat' (first | (simp [Keeps, *]; done) | split))
theorem execVecAbs_keeps (a0 : Nat) (a1 : VecF) (s : State) : ∃ z0, (execVecAbs a0 a1 s) = .next z0 ∧ Keeps s z0 := by
  unfold execVecAbs
  repeat' (first | (simp [Keeps, *]; done) | exact vec_keeps .. | refine ⟨_, rfl, ?_⟩ | split)
theorem execBackgroundRead_keeps (a0 : Nat) (a1 : MemOutcome) (s : State) : ∃ z0, (execBackgroundRead a0 a1 s) = .next z0 ∧ Keeps s z0 := by
  unfold execBackgroundRead
  (repeat' split) <;> simp [Keeps] <;> (repeat' split) <;> simp [Keeps, *]
theorem execVecExp_keeps (a0 : Nat) (a1 : VecF) (s : State) : ∃ z0, (execVecExp a0 a1 s) = .next z0 ∧ Keeps s z0 := by
  unfold execVecExp
  repeat' (first | (simp [Keeps, *]; done) | exact vec_keeps .. | refine ⟨_, rfl, ?_⟩ | split)
theorem execVecSub_keeps (a0 : Nat) (a1 : VecF) (s : State) : ∃ z0, (execVecSub a0 a1 s) = .next z0 ∧ Keeps s z0 := by
  unfold execVecSub
  repeat' (first | (simp [Keeps, *]; done) | exact vec_keeps .. | refine ⟨_, rfl, ?_⟩ | split)
theorem execVqnear_keeps (a0 : Nat) (a1 : VecF) (s : State) : ∃ z0, (execVqnear a0 a1 s) = .next z0 ∧ Keeps s z0 := by
  unfold execVqnear
  repeat' (first | (simp [Keeps, *]; done) | exact vec_keeps .. | refine ⟨_, rfl, ?_⟩ | split)
theorem execVecRsq_keeps (a0 : Nat) (a1 : VecF) (s : State) : ∃ z0, (execVecRsq a0 a1 s) = .next z0 ∧ Keeps s z0 := by
  unfold execVecRsq
  repeat' (first | (simp [Keeps, *]; done) | exact vec_keeps .. | refine ⟨_, rfl, ?_⟩ | split)
theorem execVecSel_keeps (a0 : Nat) (a1 : VecF) (s : State) : ∃ z0, (execVecSel a0 a1 s) = .next z0 ∧ Keeps s z0 := by
  unfold execVecSel
  repeat' (first | (simp [Keeps, *]; done) | exact vec_keeps .. | refine ⟨_, rfl, ?_⟩ | split)
theorem execVrHoldExpire_keeps (s : State) : ∃ z0, (execVrHoldExpire s) = .next z0 ∧ Keeps s z0 := by
  unfold execVrHoldExpire
  repeat' (first | (simp [Keeps, *]; done) | split)
theorem execVecCos_keeps (a0 : Nat) (a1 : VecF) (s : State) : ∃ z0, (execVecCos a0 a1 s) = .next z0 ∧ Keeps s z0 := by
  unfold execVecCos
  repeat' (first | (simp [Keeps, *]; done) | exact vec_keeps .. | refine ⟨_, rfl, ?_⟩ | split)
theorem execCxlMemWrite_keeps (a0 : Nat) (a1 : List Byte) (s : State) : ∃ z0, (execCxlMemWrite a0 a1 s) = .next z0 ∧ Keeps s z0 := by
  unfold execCxlMemWrite
  repeat' (first | (simp [Keeps, *]; done) | split)
theorem execVecDiv_keeps (a0 : Nat) (a1 : VecF) (s : State) : ∃ z0, (execVecDiv a0 a1 s) = .next z0 ∧ Keeps s z0 := by
  unfold execVecDiv
  repeat' (first | (simp [Keeps, *]; done) | exact vec_keeps .. | refine ⟨_, rfl, ?_⟩ | split)
theorem execThermalCapRise_keeps (a0 : Nat) (a1 : List Nat) (s : State) : ∃ z0, (execThermalCapRise a0 a1 s) = .next z0 ∧ Keeps s z0 := by
  unfold execThermalCapRise
  (repeat' split) <;> simp [Keeps] <;> (repeat' split) <;> simp [Keeps, *]
theorem execPerstNAssert_keeps (s : State) : ∃ z0, (execPerstNAssert s) = .next z0 ∧ Keeps s z0 := by
  unfold execPerstNAssert
  repeat' (first | (simp [Keeps, *]; done) | split)
theorem execHbt_keeps (a0 : Nat) (a1 : LinkMsg) (s : State) : ∃ z0, (execHbt a0 a1 s) = .next z0 ∧ Keeps s z0 := by
  unfold execHbt
  (repeat' split) <;> simp [Keeps] <;> (repeat' split) <;> simp [Keeps, *]
theorem execRmin_keeps (a0 : Nat) (a1 : VecF) (s : State) : ∃ z0, (execRmin a0 a1 s) = .next z0 ∧ Keeps s z0 := by
  unfold execRmin
  repeat' (first | (simp [Keeps, *]; done) | exact vec_keeps .. | refine ⟨_, rfl, ?_⟩ | split)
theorem execRmax_keeps (a0 : Nat) (a1 : VecF) (s : State) : ∃ z0, (execRmax a0 a1 s) = .next z0 ∧ Keeps s z0 := by
  unfold execRmax
  repeat' (first | (simp [Keeps, *]; done) | exact vec_keeps .. | refine ⟨_, rfl, ?_⟩ | split)
theorem execRegRead_keeps (a0 : MgmtHdr) (a1 : Nat) (a2 : Nat) (s : State) : ∃ z0, (execRegRead a0 a1 a2 s) = .next z0 ∧ Keeps s z0 := by
  unfold execRegRead
  repeat' (first | (simp [Keeps, *]; done) | refine mgmtCmd_keeps _ _ _ _ _ (fun s => ?_) | refine ⟨_, rfl, ?_⟩ | split)
theorem execRsum_keeps (a0 : Nat) (a1 : VecF) (s : State) : ∃ z0, (execRsum a0 a1 s) = .next z0 ∧ Keeps s z0 := by
  unfold execRsum
  repeat' (first | (simp [Keeps, *]; done) | exact vec_keeps .. | refine ⟨_, rfl, ?_⟩ | split)
theorem execVecMin_keeps (a0 : Nat) (a1 : VecF) (s : State) : ∃ z0, (execVecMin a0 a1 s) = .next z0 ∧ Keeps s z0 := by
  unfold execVecMin
  repeat' (first | (simp [Keeps, *]; done) | exact vec_keeps .. | refine ⟨_, rfl, ?_⟩ | split)
theorem execVecSqrt_keeps (a0 : Nat) (a1 : VecF) (s : State) : ∃ z0, (execVecSqrt a0 a1 s) = .next z0 ∧ Keeps s z0 := by
  unfold execVecSqrt
  repeat' (first | (simp [Keeps, *]; done) | exact vec_keeps .. | refine ⟨_, rfl, ?_⟩ | split)
theorem execIscale_keeps (a0 : Nat) (a1 : VecF) (s : State) : ∃ z0, (execIscale a0 a1 s) = .next z0 ∧ Keeps s z0 := by
  unfold execIscale
  repeat' (first | (simp [Keeps, *]; done) | exact vec_keeps .. | refine ⟨_, rfl, ?_⟩ | split)
theorem execOverwinterReached_keeps (s : State) : ∃ z0, (execOverwinterReached s) = .next z0 ∧ Keeps s z0 := by
  unfold execOverwinterReached
  repeat' (first | (simp [Keeps, *]; done) | split)
theorem execVecMax_keeps (a0 : Nat) (a1 : VecF) (s : State) : ∃ z0, (execVecMax a0 a1 s) = .next z0 ∧ Keeps s z0 := by
  unfold execVecMax
  repeat' (first | (simp [Keeps, *]; done) | exact vec_keeps .. | refine ⟨_, rfl, ?_⟩ | split)
theorem execScan_keeps (a0 : Nat) (a1 : VecF) (s : State) : ∃ z0, (execScan a0 a1 s) = .next z0 ∧ Keeps s z0 := by
  unfold execScan
  repeat' (first | (simp [Keeps, *]; done) | exact vec_keeps .. | refine ⟨_, rfl, ?_⟩ | split)
theorem execRoundPlace_keeps (a0 : Nat) (a1 : Nat) (s : State) : ∃ z0, (execRoundPlace a0 a1 s) = .next z0 ∧ Keeps s z0 := by
  unfold execRoundPlace
  repeat' (first | (simp [Keeps, *]; done) | split)
theorem execVecSin_keeps (a0 : Nat) (a1 : VecF) (s : State) : ∃ z0, (execVecSin a0 a1 s) = .next z0 ∧ Keeps s z0 := by
  unfold execVecSin
  repeat' (first | (simp [Keeps, *]; done) | exact vec_keeps .. | refine ⟨_, rfl, ?_⟩ | split)
theorem execBstore_keeps (a0 : Nat) (a1 : BankF) (s : State) : ∃ z0, (execBstore a0 a1 s) = .next z0 ∧ Keeps s z0 := by
  unfold execBstore
  repeat' (first | (simp [Keeps, *]; done) | refine runUnit_keeps _ _ _ _ (fun s p l => ?_) | refine ⟨_, rfl, ?_⟩ | split)
theorem execThermalTrip_keeps (a0 : Nat) (a1 : Nat) (s : State) : ∃ z0, (execThermalTrip a0 a1 s) = .next z0 ∧ Keeps s z0 := by
  unfold execThermalTrip
  (repeat' split) <;> simp [Keeps] <;> (repeat' split) <;> simp [Keeps, *]
theorem execIdleFrame_keeps (a0 : Nat) (a1 : FrameIn) (s : State) : ∃ z0, (execIdleFrame a0 a1 s) = .next z0 ∧ Keeps s z0 := by
  unfold execIdleFrame
  repeat' (first | (simp [Keeps, *]; done) | split)
theorem execDataFrame_keeps (a0 : Nat) (a1 : FrameIn) (s : State) : ∃ z0, (execDataFrame a0 a1 s) = .next z0 ∧ Keeps s z0 := by
  unfold execDataFrame
  (repeat' split) <;> simp [Keeps] <;> (repeat' split) <;> simp [Keeps, *]
theorem execTreq_keeps (a0 : Nat) (a1 : LinkMsg) (a2 : Nat) (a3 : Nat) (s : State) : ∃ z0, (execTreq a0 a1 a2 a3 s) = .next z0 ∧ Keeps s z0 := by
  unfold execTreq
  repeat' (first | (simp [Keeps, *]; done) | split)
theorem execCxlMemRead_keeps (a0 : Nat) (a1 : Nat) (s : State) : ∃ z0, (execCxlMemRead a0 a1 s) = .next z0 ∧ Keeps s z0 := by
  unfold execCxlMemRead
  (repeat' split) <;> simp [Keeps] <;> (repeat' split) <;> simp [Keeps, *]
theorem execRlcWalkDone_keeps (a0 : Nat) (a1 : Nat) (s : State) : ∃ z0, (execRlcWalkDone a0 a1 s) = .next z0 ∧ Keeps s z0 := by
  unfold execRlcWalkDone
  (repeat' split) <;> simp [Keeps] <;> (repeat' split) <;> simp [Keeps, *]
theorem execLaunchComplete_keeps (a0 : Nat) (s : State) : ∃ z0, (execLaunchComplete a0 s) = .next z0 ∧ Keeps s z0 := by
  unfold execLaunchComplete
  repeat' (first | (simp [Keeps, *]; done) | split)
theorem execCommandDispatch_keeps (a0 : Nat) (a1 : Option HubFault) (s : State) : ∃ z0, (execCommandDispatch a0 a1 s) = .next z0 ∧ Keeps s z0 := by
  unfold execCommandDispatch
  (repeat' split) <;> simp [Keeps] <;> (repeat' split) <;> simp [Keeps, *]
theorem execEndSession_keeps (a0 : Nat) (s : State) : ∃ z0, (execEndSession a0 s) = .next z0 ∧ Keeps s z0 := by
  unfold execEndSession
  repeat' (first | (simp [Keeps, *]; done) | refine inSession_keeps _ _ _ ?_ | refine ⟨_, rfl, ?_⟩ | split)
theorem execFinish_keeps (a0 : Nat) (a1 : Bool) (s : State) : ∃ z0, (execFinish a0 a1 s) = .next z0 ∧ Keeps s z0 := by
  unfold execFinish
  repeat' (first | (simp [Keeps, *]; done) | refine ⟨_, rfl, ?_⟩ | refine spdmAt_keeps _ _ _ ?_ | split)
theorem execTimeExchange_keeps (a0 : Nat) (s : State) : ∃ z0, (execTimeExchange a0 s) = .next z0 ∧ Keeps s z0 := by
  unfold execTimeExchange
  (repeat' split) <;> simp [Keeps] <;> (repeat' split) <;> simp [Keeps, *]
theorem execHbtAlt_keeps (a0 : Nat) (a1 : LinkMsg) (s : State) : ∃ z0, (execHbtAlt a0 a1 s) = .next z0 ∧ Keeps s z0 := by
  unfold execHbtAlt
  (repeat' split) <;> simp [Keeps] <;> (repeat' split) <;> simp [Keeps, *]
theorem execWakeComplete_keeps (s : State) : ∃ z0, (execWakeComplete s) = .next z0 ∧ Keeps s z0 := by
  unfold execWakeComplete
  repeat' (first | (simp [Keeps, *]; done) | split)
theorem execPatchCommit_keeps (a0 : List CopyLoss) (s : State) : ∃ z0, (execPatchCommit a0 s) = .next z0 ∧ Keeps s z0 := by
  unfold execPatchCommit
  repeat' (first | (simp [Keeps, *]; done) | split)
theorem execScore_keeps (a0 : Nat) (a1 : KvF) (s : State) : ∃ z0, (execScore a0 a1 s) = .next z0 ∧ Keeps s z0 := by
  unfold execScore
  repeat' (first | (simp [Keeps, *]; done) | refine kvInstr_keeps _ _ _ _ _ (fun s p l a => ?_) | refine kvRun_keeps _ _ _ _ _ _ (fun s i => ?_) | refine ⟨_, rfl, ?_⟩ | split)
theorem execKvRead_keeps (a0 : Nat) (a1 : KvF) (s : State) : ∃ z0, (execKvRead a0 a1 s) = .next z0 ∧ Keeps s z0 := by
  unfold execKvRead
  repeat' (first | (simp [Keeps, *]; done) | refine kvInstr_keeps _ _ _ _ _ (fun s p l a => ?_) | refine kvRun_keeps _ _ _ _ _ _ (fun s i => ?_) | refine ⟨_, rfl, ?_⟩ | split)
theorem execPowerStep_keeps (a0 : List PCount) (s : State) : ∃ z0, (execPowerStep a0 s) = .next z0 ∧ Keeps s z0 := by
  unfold execPowerStep
  repeat' (first | (simp [Keeps, *]; done) | split)
theorem execBiSnoopResponse_keeps (a0 : Nat) (s : State) : ∃ z0, (execBiSnoopResponse a0 s) = .next z0 ∧ Keeps s z0 := by
  simp [Keeps, execBiSnoopResponse]
theorem execReleaseApply_keeps (a0 : Nat) (a1 : Nat) (s : State) : ∃ z0, (execReleaseApply a0 a1 s) = .next z0 ∧ Keeps s z0 := by
  unfold execReleaseApply
  repeat' (first | (simp [Keeps, *]; done) | split)
theorem execRemoteTimeout_keeps (a0 : Nat) (s : State) : ∃ z0, (execRemoteTimeout a0 s) = .next z0 ∧ Keeps s z0 := by
  unfold execRemoteTimeout
  repeat' (first | (simp [Keeps, *]; done) | split)
theorem execBarrierTimeout_keeps (a0 : Nat) (s : State) : ∃ z0, (execBarrierTimeout a0 s) = .next z0 ∧ Keeps s z0 := by
  unfold execBarrierTimeout
  repeat' (first | (simp [Keeps, *]; done) | split)
theorem execHbtSend_keeps (s : State) : ∃ z0, (execHbtSend s) = .next z0 ∧ Keeps s z0 := by
  unfold execHbtSend
  dsimp only
  split <;> refine ⟨_, rfl, ?_⟩
  · exact .rfl s
  · simp [Keeps]
theorem execFenceWait_keeps (a0 : Nat) (a1 : FenceWaitF) (s : State) : ∃ z0, (execFenceWait a0 a1 s) = .next z0 ∧ Keeps s z0 := by
  unfold execFenceWait
  repeat' (first | (simp [Keeps, *]; done) | refine runCmd_keeps _ _ _ _ (fun x c p => ?_) | refine ⟨_, rfl, ?_⟩ | split)
theorem execRake_keeps (a0 : Nat) (a1 : RakeF) (s : State) : ∃ z0, (execRake a0 a1 s) = .next z0 ∧ Keeps s z0 := by
  unfold execRake
  repeat' (first | (simp [Keeps, *]; done) | refine runCmd_keeps _ _ _ _ (fun x c p => ?_) | refine ⟨_, rfl, ?_⟩ | split)
theorem execNop_keeps (a0 : Nat) (s : State) : ∃ z0, (execNop a0 s) = .next z0 ∧ Keeps s z0 := by
  unfold execNop
  repeat' (first | (simp [Keeps, *]; done) | refine runCmd_keeps _ _ _ _ (fun x c p => ?_) | refine ⟨_, rfl, ?_⟩ | split)
theorem execCopy_keeps (a0 : Nat) (a1 : CopyF) (s : State) : ∃ z0, (execCopy a0 a1 s) = .next z0 ∧ Keeps s z0 := by
  unfold execCopy
  repeat' (first | (simp [Keeps, *]; done) | refine runCmd_keeps _ _ _ _ (fun x c p => ?_) | refine ⟨_, rfl, ?_⟩ | split)
theorem execWgtSwitch_keeps (a0 : Nat) (a1 : Nat) (s : State) : ∃ z0, (execWgtSwitch a0 a1 s) = .next z0 ∧ Keeps s z0 := by
  unfold execWgtSwitch
  dsimp only
  repeat' (first | (simp [Keeps, *]; done) | refine runCmd_keeps _ _ _ _ (fun x c p => ?_) | exact foldl_keeps _ _ _ (fun s x => by dsimp only; repeat' (first | (simp [Keeps, *]; done) | split)) | refine ⟨_, rfl, ?_⟩ | split)
theorem execWgtRetire_keeps (a0 : Nat) (a1 : Nat) (s : State) : ∃ z0, (execWgtRetire a0 a1 s) = .next z0 ∧ Keeps s z0 := by
  unfold execWgtRetire
  dsimp only
  repeat' (first | (simp [Keeps, *]; done) | refine runCmd_keeps _ _ _ _ (fun x c p => ?_) | refine ⟨_, rfl, ?_⟩ | split)
theorem execFenceSignal_keeps (a0 : Nat) (a1 : FenceSignalF) (s : State) : ∃ z0, (execFenceSignal a0 a1 s) = .next z0 ∧ Keeps s z0 := by
  unfold execFenceSignal
  dsimp only
  repeat' (first | (simp [Keeps, *]; done) | refine runCmd_keeps _ _ _ _ (fun x c p => ?_) | exact foldl_keeps _ _ _ (fun s x => by dsimp only; repeat' (first | (simp [Keeps, *]; done) | split)) | refine ⟨_, rfl, ?_⟩ | split)
theorem execFenceWaitTimeout_keeps (a0 : Nat) (s : State) : ∃ z0, (execFenceWaitTimeout a0 s) = .next z0 ∧ Keeps s z0 := by
  unfold execFenceWaitTimeout
  repeat' (first | (simp [Keeps, *]; done) | split)
theorem execBarrier_keeps (a0 : Nat) (a1 : BarrierF) (s : State) : ∃ z0, (execBarrier a0 a1 s) = .next z0 ∧ Keeps s z0 := by
  unfold execBarrier
  repeat' (first | (simp [Keeps, *]; done) | refine runCmd_keeps _ _ _ _ (fun x c p => ?_) | exact runCmd_keeps .. | refine ⟨_, rfl, ?_⟩ | split)
theorem execTresp_keeps (a0 : Nat) (a1 : LinkMsg) (a2 : Nat) (s : State) : ∃ z0, (execTresp a0 a1 a2 s) = .next z0 ∧ Keeps s z0 := by
  unfold execTresp
  (repeat' split) <;> simp [Keeps] <;> (repeat' split) <;> simp [Keeps, *]
theorem execStart_keeps (a0 : MgmtHdr) (a1 : Nat) (s : State) : ∃ z0, (execStart a0 a1 s) = .next z0 ∧ Keeps s z0 := by
  unfold execStart
  repeat' (first | (simp [Keeps, *]; done) | refine mgmtCmd_keeps _ _ _ _ _ (fun s => ?_) | refine ⟨_, rfl, ?_⟩ | split)
theorem execAppend_keeps (a0 : Nat) (a1 : KvF) (s : State) : ∃ z0, (execAppend a0 a1 s) = .next z0 ∧ Keeps s z0 := by
  unfold execAppend
  repeat' (first | (simp [Keeps, *]; done) | refine kvInstr_keeps _ _ _ _ _ (fun s p l a => ?_) | exact kvInstr_keeps .. | refine ⟨_, rfl, ?_⟩ | split)
theorem execRouteRecordLand_keeps (a0 : TransitRec) (s : State) : ∃ z0, (execRouteRecordLand a0 s) = .next z0 ∧ Keeps s z0 := by
  unfold execRouteRecordLand
  repeat' (first | (simp [Keeps, *]; done) | split)
theorem execReplRelease_keeps (a0 : Nat) (a1 : LinkMsg) (s : State) : ∃ z0, (execReplRelease a0 a1 s) = .next z0 ∧ Keeps s z0 := by
  unfold execReplRelease
  repeat' (first | (simp [Keeps, *]; done) | refine onArrival_keeps _ _ _ _ _ (fun m r s => ?_) | refine replStep_keeps _ _ _ _ _ (fun p m s => ?_) | exact onArrival_keeps .. | refine ⟨_, rfl, ?_⟩ | split)
theorem execArrive_keeps (a0 : Nat) (a1 : LinkMsg) (s : State) : ∃ z0, (execArrive a0 a1 s) = .next z0 ∧ Keeps s z0 := by
  unfold execArrive
  dsimp only
  repeat' (first | (simp [Keeps, *]; done) | refine onArrival_keeps _ _ _ _ _ (fun m r s => ?_) | exact onArrival_keeps .. | refine ⟨_, rfl, ?_⟩ | split)
theorem execRddata_keeps (a0 : Nat) (a1 : LinkMsg) (s : State) : ∃ z0, (execRddata a0 a1 s) = .next z0 ∧ Keeps s z0 := by
  unfold execRddata
  repeat' (first | (simp [Keeps, *]; done) | refine onArrival_keeps _ _ _ _ _ (fun m r s => ?_) | exact onArrival_keeps .. | refine ⟨_, rfl, ?_⟩ | split)
theorem execReplEvict_keeps (a0 : Nat) (a1 : LinkMsg) (s : State) : ∃ z0, (execReplEvict a0 a1 s) = .next z0 ∧ Keeps s z0 := by
  unfold execReplEvict
  refine onArrival_keeps _ _ _ _ _ (fun m r s => replStep_keeps _ _ _ _ _ (fun p m s => ?_))
  dsimp only
  split
  · exact replRefused_keeps ..
  · split
    · exact evictGroup_keeps _ _ _ _ _ ‹_›
    · exact replRefused_keeps ..
theorem execReplAck_keeps (a0 : Nat) (a1 : LinkMsg) (s : State) : ∃ z0, (execReplAck a0 a1 s) = .next z0 ∧ Keeps s z0 := by
  unfold execReplAck
  repeat' (first | (simp [Keeps, *]; done) | refine onArrival_keeps _ _ _ _ _ (fun m r s => ?_) | refine replStep_keeps _ _ _ _ _ (fun p m s => ?_) | exact onArrival_keeps .. | refine ⟨_, rfl, ?_⟩ | split)
theorem execKvFork_keeps (a0 : Nat) (a1 : KvForkF) (s : State) : ∃ z0, (execKvFork a0 a1 s) = .next z0 ∧ Keeps s z0 := by
  unfold execKvFork
  repeat' (first | (simp [Keeps, *]; done) | refine runCmd_keeps _ _ _ _ (fun x c p => ?_) | exact runCmd_keeps .. | refine ⟨_, rfl, ?_⟩ | split)
theorem execReplFork_keeps (a0 : Nat) (a1 : LinkMsg) (s : State) : ∃ z0, (execReplFork a0 a1 s) = .next z0 ∧ Keeps s z0 := by
  unfold execReplFork
  repeat' (first | (simp [Keeps, *]; done) | refine onArrival_keeps _ _ _ _ _ (fun m r s => ?_) | refine replStep_keeps _ _ _ _ _ (fun p m s => ?_) | exact onArrival_keeps .. | refine ⟨_, rfl, ?_⟩ | split)
theorem execRelease_keeps (a0 : Nat) (a1 : LinkMsg) (s : State) : ∃ z0, (execRelease a0 a1 s) = .next z0 ∧ Keeps s z0 := by
  unfold execRelease
  dsimp only
  repeat' (first | (simp [Keeps, *]; done) | refine onArrival_keeps _ _ _ _ _ (fun m r s => ?_) | exact onArrival_keeps .. | refine ⟨_, rfl, ?_⟩ | split)
theorem execRd_keeps (a0 : Nat) (a1 : LinkMsg) (s : State) : ∃ z0, (execRd a0 a1 s) = .next z0 ∧ Keeps s z0 := by
  unfold execRd
  repeat' (first | (simp [Keeps, *]; done) | refine onArrival_keeps _ _ _ _ _ (fun m r s => ?_) | exact onArrival_keeps .. | refine ⟨_, rfl, ?_⟩ | split)
theorem execWr_keeps (a0 : Nat) (a1 : LinkMsg) (s : State) : ∃ z0, (execWr a0 a1 s) = .next z0 ∧ Keeps s z0 := by
  unfold execWr
  repeat' (first | (simp [Keeps, *]; done) | refine onArrival_keeps _ _ _ _ _ (fun m r s => ?_) | exact onArrival_keeps .. | refine ⟨_, rfl, ?_⟩ | split)
theorem execWrack_keeps (a0 : Nat) (a1 : LinkMsg) (s : State) : ∃ z0, (execWrack a0 a1 s) = .next z0 ∧ Keeps s z0 := by
  unfold execWrack
  repeat' (first | (simp [Keeps, *]; done) | refine onArrival_keeps _ _ _ _ _ (fun m r s => ?_) | exact onArrival_keeps .. | refine ⟨_, rfl, ?_⟩ | split)
theorem execRecordLand_keeps (a0 : TransitRec) (s : State) : ∃ z0, (execRecordLand a0 s) = .next z0 ∧ Keeps s z0 := by
  unfold execRecordLand
  repeat' (first | (simp [Keeps, *]; done) | split)
theorem execReplPage_keeps (a0 : Nat) (a1 : LinkMsg) (s : State) : ∃ z0, (execReplPage a0 a1 s) = .next z0 ∧ Keeps s z0 := by
  unfold execReplPage
  repeat' (first | (simp [Keeps, *]; done) | refine onArrival_keeps _ _ _ _ _ (fun m r s => ?_) | refine replStep_keeps _ _ _ _ _ (fun p m s => ?_) | exact onArrival_keeps .. | refine ⟨_, rfl, ?_⟩ | split)
theorem execReplOpen_keeps (a0 : Nat) (a1 : LinkMsg) (s : State) : ∃ z0, (execReplOpen a0 a1 s) = .next z0 ∧ Keeps s z0 := by
  unfold execReplOpen
  repeat' (first | (simp [Keeps, *]; done) | refine onArrival_keeps _ _ _ _ _ (fun m r s => ?_) | refine replStep_keeps _ _ _ _ _ (fun p m s => ?_) | exact onArrival_keeps .. | refine ⟨_, rfl, ?_⟩ | split)
theorem execRetrainDone_keeps (a0 : Nat) (a1 : Option Training) (s : State) : ∃ z0, (execRetrainDone a0 a1 s) = .next z0 ∧ Keeps s z0 := by
  unfold execRetrainDone
  (repeat' split) <;> simp [Keeps] <;> (repeat' split) <;> simp [Keeps, *]
theorem execTapSet_keeps (a0 : Nat) (a1 : TapSetF) (s : State) : ∃ z0, (execTapSet a0 a1 s) = .next z0 ∧ Keeps s z0 := by
  unfold execTapSet
  refine runCmd_keeps _ _ _ _ (fun x ctx p => ?_)
  generalize 2 ^ 20 = m
  dsimp only
  repeat' (first | (simp [Keeps]; done) | split)
  all_goals first
    | exact readPieces_gives _ _ _ _ _ _ _ ‹_›
    | exact .trans (readPieces_gives _ _ _ _ _ _ _ ‹_›) (.trans (dropFetched_keeps ..) (cmdWrite_gives _ _ _ _ _ _ ‹_›))
    | (refine .trans (readPieces_gives _ _ _ _ _ _ _ ‹_›) (.trans (dropFetched_keeps ..) (.trans (cmdWrite_gives _ _ _ _ _ _ ‹_›) ?_)); simp [Keeps]; done)
    | (refine .trans (readPieces_gives _ _ _ _ _ _ _ ‹_›) ?_; simp [Keeps]; done)
theorem execTrainFrame_keeps (a0 : Nat) (a1 : Nat) (a2 : Nat) (s : State) : ∃ z0, (execTrainFrame a0 a1 a2 s) = .next z0 ∧ Keeps s z0 := by
  unfold execTrainFrame
  (repeat' split) <;> simp [Keeps] <;> (repeat' split) <;> simp [Keeps, *]
theorem execCowCopyDone_keeps (a0 : Nat) (s : State) : ∃ z0, (execCowCopyDone a0 s) = .next z0 ∧ Keeps s z0 := by
  unfold execCowCopyDone
  repeat' (first | (simp [Keeps, *]; done) | split)
theorem execLinkTrainDone_keeps (a0 : Nat) (a1 : Training) (s : State) : ∃ z0, (execLinkTrainDone a0 a1 s) = .next z0 ∧ Keeps s z0 := by
  unfold execLinkTrainDone
  (repeat' split) <;> simp [Keeps] <;> (repeat' split) <;> simp [Keeps, *]
theorem execDmaout_keeps (a0 : Nat) (a1 : MovF) (s : State) : ∃ z0, (execDmaout a0 a1 s) = .next z0 ∧ Keeps s z0 := by
  unfold execDmaout
  dsimp only
  repeat' (first | (simp [Keeps, *]; done) | refine runUnit_keeps _ _ _ _ (fun s p l => ?_) | exact runUnit_keeps .. | refine ⟨_, rfl, ?_⟩ | split)
theorem execRakeDone_keeps (a0 : Nat) (s : State) : ∃ z0, (execRakeDone a0 s) = .next z0 ∧ Keeps s z0 := by
  unfold execRakeDone
  repeat' (first | (simp [Keeps, *]; done) | split)
theorem execDeviceReset_keeps (a0 : Bool) (s : State) : ∃ z0, (execDeviceReset a0 s) = .next z0 ∧ Keeps s z0 := by
  unfold execDeviceReset
  (repeat' split) <;> simp [Keeps] <;> (repeat' split) <;> simp [Keeps, *]
theorem execInstructionRetire_keeps (a0 : Nat) (a1 : RUnit) (a2 : Option RetireFault) (s : State) : ∃ z0, (execInstructionRetire a0 a1 a2 s) = .next z0 ∧ Keeps s z0 := by
  unfold execInstructionRetire
  (repeat' split) <;> simp [Keeps] <;> (repeat' split) <;> simp [Keeps, *]
theorem execLaunch_keeps (a0 : Nat) (a1 : LaunchF) (s : State) : ∃ z0, (execLaunch a0 a1 s) = .next z0 ∧ Keeps s z0 := by
  unfold execLaunch
  dsimp only
  repeat' (first | (simp [Keeps, *]; done) | refine runCmd_keeps _ _ _ _ (fun x c p => ?_) | exact runCmd_keeps .. | refine ⟨_, rfl, ?_⟩ | split)
theorem execCopyDone_keeps (a0 : Nat) (s : State) : ∃ z0, (execCopyDone a0 s) = .next z0 ∧ Keeps s z0 := by
  unfold execCopyDone
  repeat' (first | (simp [Keeps, *]; done) | split)
theorem execKvRelease_keeps (a0 : Nat) (a1 : KvListF) (s : State) : ∃ z0, (execKvRelease a0 a1 s) = .next z0 ∧ Keeps s z0 := by
  unfold execKvRelease
  repeat' (first | (simp [Keeps, *]; done) | refine runCmd_keeps _ _ _ _ (fun x c p => ?_) | refine listCmd_keeps _ _ _ _ _ _ _ _ _ (fun s bs => ?_) | exact runCmd_keeps .. | refine ⟨_, rfl, ?_⟩ | split)
theorem execDmain_keeps (a0 : Nat) (a1 : MovF) (s : State) : ∃ z0, (execDmain a0 a1 s) = .next z0 ∧ Keeps s z0 := by
  unfold execDmain
  dsimp only
  repeat' (first | (simp [Keeps, *]; done) | refine runUnit_keeps _ _ _ _ (fun s p l => ?_) | exact runUnit_keeps .. | refine ⟨_, rfl, ?_⟩ | split)
theorem execKvAppend_keeps (a0 : Nat) (a1 : KvListF) (s : State) : ∃ z0, (execKvAppend a0 a1 s) = .next z0 ∧ Keeps s z0 := by
  unfold execKvAppend
  repeat' (first | (simp [Keeps, *]; done) | refine runCmd_keeps _ _ _ _ (fun x c p => ?_) | refine listCmd_keeps _ _ _ _ _ _ _ _ _ (fun s bs => ?_) | exact runCmd_keeps .. | refine ⟨_, rfl, ?_⟩ | split)
theorem execKvPrune_keeps (a0 : Nat) (a1 : KvPruneF) (s : State) : ∃ z0, (execKvPrune a0 a1 s) = .next z0 ∧ Keeps s z0 := by
  unfold execKvPrune
  repeat' (first | (simp [Keeps, *]; done) | refine runCmd_keeps _ _ _ _ (fun x c p => ?_) | refine listCmd_keeps _ _ _ _ _ _ _ _ _ (fun s bs => ?_) | exact runCmd_keeps .. | refine ⟨_, rfl, ?_⟩ | split)
theorem execWgtBuild_keeps (a0 : Nat) (a1 : WgtBuildF) (s : State) : ∃ z0, (execWgtBuild a0 a1 s) = .next z0 ∧ Keeps s z0 := by
  unfold execWgtBuild
  refine runCmd_keeps _ _ _ _ (fun x ctx p => ?_)
  split <;> rename_i h <;> have k := cmdRead_gives _ _ _ _ _ _ _ h
  · exact k
  · exact k.trans (.trans (dropFetched_keeps ..) (completeOk_keeps ..))
  · split
    · exact k.trans (.trans (dropFetched_keeps ..) (completeOk_keeps ..))
    · split
      · exact k.trans (.trans (dropFetched_keeps ..) (completeOk_keeps ..))
      · rename_i h2
        have j := k.trans (takeEntry_keeps _ _ _ _ _ _ _ h2)
        extract_lets u
        have i : Keeps _ u := modRunning_keeps ..
        clear_value u
        have j := j.trans i
        split
        · split <;> rename_i h3 <;> have l := packCheck_gives _ _ h3
          · exact j.trans (l.trans (endBuild_keeps ..))
          · exact j.trans l
        · exact j.trans (tryPlan_keeps ..)
theorem execWgtBuildDone_keeps (a0 : Nat) (s : State) : ∃ z0, (execWgtBuildDone a0 s) = .next z0 ∧ Keeps s z0 := by
  simp [Keeps, execWgtBuildDone]
theorem execRegWrite_rises (hd : MgmtHdr) (o : Nat) (ws : List Word) (s : State) : ∃ t, execRegWrite hd o ws s = .next t ∧ SvnRises s t := by
  refine ⟨_, rfl, mgmtCmd_rises _ _ _ _ _ (fun s => ?_)⟩
  split
  · exact (mgmtReply_keeps ..).rises
  · exact (writeWords_rises ..).trans (mgmtReply_keeps ..).rises
theorem execBdpWrite_rises (hd : MgmtHdr) (o : Nat) (bs : List Byte) (s : State) : ∃ t, execBdpWrite hd o bs s = .next t ∧ SvnRises s t := by
  refine ⟨_, rfl, mgmtCmd_rises _ _ _ _ _ (fun s => ?_)⟩
  dsimp only
  split
  · exact (mgmtReply_keeps ..).rises
  · split
    · exact (snoopLines_keeps ..).rises
    · exact (bdpAccess_rises ..).trans (mgmtReply_keeps ..).rises
theorem execBulkRead_rises (x : BulkHdr) (n : Nat) (s : State) : ∃ t, execBulkRead x n s = .next t ∧ SvnRises s t := by
  refine ⟨_, rfl, bulkFrame_rises _ _ _ _ ?_⟩
  dsimp only
  split
  · exact (emit_keeps ..).rises
  · split
    · exact (snoopLines_keeps ..).rises
    · exact (bdpAccess_rises ..).trans (emit_keeps ..).rises
theorem execBulkWrite_rises (x : BulkHdr) (bs : List Byte) (s : State) : ∃ t, execBulkWrite x bs s = .next t ∧ SvnRises s t := by
  refine ⟨_, rfl, bulkFrame_rises _ _ _ _ ?_⟩
  dsimp only
  split
  · exact (emit_keeps ..).rises
  · split
    · exact (snoopLines_keeps ..).rises
    · exact (bdpAccess_rises ..).trans (emit_keeps ..).rises
theorem execBdpRead_rises (hd : MgmtHdr) (o n : Nat) (s : State) : ∃ t, execBdpRead hd o n s = .next t ∧ SvnRises s t := by
  refine ⟨_, rfl, mgmtCmd_rises _ _ _ _ _ (fun s => ?_)⟩
  dsimp only
  split
  · exact (mgmtReply_keeps ..).rises
  · split
    · exact (snoopLines_keeps ..).rises
    · exact (bdpAccess_rises ..).trans (mgmtReply_keeps ..).rises
theorem execRegisterWrite_rises (rq : Requester) (o n : Nat) (v : Word) (s : State) : ∃ t, execRegisterWrite rq o n v s = .next t ∧ SvnRises s t := by
  unfold execRegisterWrite
  split <;> refine ⟨_, rfl, ?_⟩
  · exact window2_rises ..
  · exact busWrite_rises ..
theorem execBdpWindowAccess_rises (o n : Nat) (data : Option (List Byte)) (s : State) : ∃ t, execBdpWindowAccess o n data s = .next t ∧ SvnRises s t :=
  ⟨_, rfl, window2_rises ..⟩

end Sys2Proof.Machine
end

