-- ==== Sys2Proof/Laws/Digest.lean ====
section
/-! SUPPORT. The length of a SHA3-512 digest. -/
namespace Sys2Proof.Machine

theorem leBytes_length (n v : Nat) : (leBytes n v).length = n := by
  induction n generalizing v with
  | zero => rfl
  | succ n ih => simp [leBytes, ih]

theorem keccakRound_length (a : List Word) (rc : Word) : (keccakRound a rc).length = 25 := by simp [keccakRound]

theorem keccak_rounds_length (rcs : List Word) (a : List Word) (h : a.length = 25) : (rcs.foldl keccakRound a).length = 25 := by
  induction rcs generalizing a with
  | nil => exact h
  | cons rc rcs ih => exact ih _ (keccakRound_length a rc)

theorem absorb_length (n : Nat) (a : List Word) (bs : List Byte) (h : a.length = 25) : (absorb n a bs).length = 25 := by
  induction n generalizing a bs with
  | zero => exact h
  | succ n ih =>
    unfold absorb
    cases bs with
    | nil => exact h
    | cons b bs => exact ih _ _ (keccak_rounds_length _ _ (by simp))

theorem sum_map_const {α : Type} (l : List α) (n : Nat) (f : α → Nat) (h : ∀ x, f x = n) : (l.map f).sum = n * l.length := by
  induction l with
  | nil => rfl
  | cons x l ih => simp [h, ih, Nat.mul_add, Nat.add_comm]

/-- A digest has 64 bytes. -/
theorem sha3_length (bs : List Byte) : (sha3 bs).length = 64 := by
  unfold sha3
  simp only [List.length_flatMap]
  rw [sum_map_const _ 8 _ (fun w : Word => leBytes_length 8 w.toNat), List.length_take, absorb_length _ _ _ (by simp)]
  decide

end Sys2Proof.Machine
end

