-- ==== Sys2Proof/Laws/Frames.lean ====
section
/-! SUPPORT. A receiver reads from a frame block what its sender put into it (R426, Tables 15-3 and 15-4). -/
namespace Sys2Proof.Machine

/-- Bytes of a number read back. -/
theorem leNat_leBytes (n v : Nat) : leNat (leBytes n v) = v % 256 ^ n := by
  induction n generalizing v with
  | zero => simp [leBytes, leNat, Nat.mod_one]
  | succ n ih =>
    have h : v % 256 ^ (n + 1) = v % 256 + 256 * (v / 256 % 256 ^ n) := by rw [Nat.pow_succ, Nat.mul_comm, Nat.mod_mul]
    simp [leBytes, leNat, ih, h]

theorem crc64Bit_lt (c : Nat) (h : c < 2 ^ 64) : crc64Bit c < 2 ^ 64 := by
  unfold crc64Bit
  split
  · omega
  · exact Nat.xor_lt_two_pow (by omega) (by omega)

theorem foldl_lt {α : Type} (f : Nat → α → Nat) (b : Nat) (hf : ∀ c x, c < b → f c x < b) (l : List α) (c : Nat) (h : c < b) :
    l.foldl f c < b := by
  induction l generalizing c with
  | nil => exact h
  | cons x l ih => exact ih _ (hf c x h)

theorem crc64_lt (bs : List Byte) : crc64 bs < 2 ^ 64 :=
  foldl_lt _ _ (fun c b h => foldl_lt _ _ (fun c _ h => crc64Bit_lt c h) _ _
    (Nat.xor_lt_two_pow h (by have := b.isLt; omega))) bs 0 (by omega)

section
variable (kind fseq first : Nat) (ack : Option Nat) (creds : List (Nat × Nat)) (slots : List Byte)

theorem frameHead_length : (frameHead kind fseq ack creds first).length = 24 := by simp [frameHead, leBytes_length]
theorem frameSlots_length : (frameSlots slots).length = 608 := by
  rw [frameSlots, List.length_take, List.length_append, List.length_replicate]; omega

theorem frameBlock_length : (frameBlock kind fseq ack creds first slots).length = 640 := by
  simp [frameBlock, frameHead_length, frameSlots_length, leBytes_length]

/-- A block that arrives as it was sent is intact. -/
theorem frameBlock_good : (FrameIn.mk true (frameBlock kind fseq ack creds first slots)).good = true := by
  have n := frameBlock_length kind fseq first ack creds slots
  have h : (frameHead kind fseq ack creds first ++ frameSlots slots).length = 632 := by simp [frameHead_length, frameSlots_length]
  rw [frameBlock] at n ⊢
  generalize frameHead kind fseq ack creds first ++ frameSlots slots = b at *
  simp only [FrameIn.good, leAt, n, Bool.true_and, Bool.and_eq_true, beq_iff_eq, true_and]
  rw [← h, List.drop_left, List.take_left, List.take_of_length_le (by simp [leBytes_length]), leNat_leBytes]
  exact Nat.mod_eq_of_lt (by have := crc64_lt b; omega)

theorem frameBlock_fseq (h : fseq < 65536) : (FrameIn.mk true (frameBlock kind fseq ack creds first slots)).fseq = fseq := by
  simp [FrameIn.fseq, frameBlock, frameHead, leAt, leBytes, leNat]; omega

theorem frameBlock_kind (h : kind < 256) : (FrameIn.mk true (frameBlock kind fseq ack creds first slots)).kind = kind := by
  simp [FrameIn.kind, frameBlock, frameHead, leAt, leBytes, leNat]; omega

theorem frameBlock_ack (h : ∀ a, ack = some a → a < 65536) :
    (FrameIn.mk true (frameBlock kind fseq ack creds first slots)).ack = ack := by
  cases ack with
  | none => simp [FrameIn.ack, frameBlock, frameHead, leAt, leBytes, leNat, bit]
  | some a => have := h a rfl; simp [FrameIn.ack, frameBlock, frameHead, leAt, leBytes, leNat, bit]; omega

/-- A credit return is read back. -/
theorem credOf_credWord (k n : Nat) (hk : k < 512) (hn : n < 65536) : credOf (credWord k n) = some (k, n) := by
  obtain ⟨p, q, r, hp, hq, hr, hk⟩ : ∃ p q r, p < 64 ∧ q < 4 ∧ r < 2 ∧ k = 8 * p + 2 * q + r :=
    ⟨k / 8, k / 2 % 4, k % 2, by omega, by omega, by omega, by omega⟩
  have e : credWord k n = p + 64 * q + 256 * r + 512 + 1024 * n := by unfold credWord; omega
  have d9 : credWord k n / 2 ^ 9 = 1 + 2 * n := by omega
  have d0 : credWord k n / 2 ^ 0 = p + 64 * (q + 4 * r + 8 + 16 * n) := by omega
  have d6 : credWord k n / 2 ^ 6 = q + 4 * (r + 2 + 4 * n) := by omega
  have d8 : credWord k n / 2 ^ 8 = r + 2 * (1 + 2 * n) := by omega
  have d10 : credWord k n / 2 ^ 10 = n := by omega
  have v : bit (credWord k n) 9 = true := by rw [bit, Nat.shiftRight_eq_div_pow, d9]; simp
  have a : bits (credWord k n) 5 0 = p := by rw [bits, Nat.shiftRight_eq_div_pow, d0]; omega
  have b : bits (credWord k n) 7 6 = q := by rw [bits, Nat.shiftRight_eq_div_pow, d6]; omega
  have c : bits (credWord k n) 8 8 = r := by rw [bits, Nat.shiftRight_eq_div_pow, d8]; omega
  have d : bits (credWord k n) 25 10 = n := by rw [bits, Nat.shiftRight_eq_div_pow, d10]; omega
  rw [credOf, if_pos v, a, b, c, d, hk]

theorem credWord_lt (k n : Nat) : credWord k n < 256 ^ 4 := by unfold credWord; omega

theorem credField_lt (i : Nat) : credField creds i < 256 ^ 4 := by
  unfold credField
  split
  · exact credWord_lt _ _
  · exact Nat.pow_pos (by omega)

theorem frameBlock_cred0 : leAt (frameBlock kind fseq ack creds first slots) 8 4 = credField creds 0 := by
  rw [← Nat.mod_eq_of_lt (credField_lt creds 0), ← leNat_leBytes]
  simp [frameBlock, frameHead, leAt, leBytes]

theorem frameBlock_cred1 : leAt (frameBlock kind fseq ack creds first slots) 12 4 = credField creds 1 := by
  rw [← Nat.mod_eq_of_lt (credField_lt creds 1), ← leNat_leBytes]
  simp [frameBlock, frameHead, leAt, leBytes]

theorem credOf_credField (i : Nat) (hc : ∀ c ∈ creds, c.1 < 512 ∧ c.2 < 65536) : credOf (credField creds i) = creds[i]? := by
  unfold credField
  split
  · next c h => rw [h]; exact credOf_credWord _ _ (hc c (List.mem_of_getElem? h)).1 (hc c (List.mem_of_getElem? h)).2
  · next h => rw [h]; rfl

/-- At most two returns of sub-shares are read back. -/
theorem frameBlock_creds (h : creds.length ≤ 2) (hc : ∀ c ∈ creds, c.1 < 512 ∧ c.2 < 65536) :
    (FrameIn.mk true (frameBlock kind fseq ack creds first slots)).creds = creds := by
  simp only [FrameIn.creds, frameBlock_cred0, frameBlock_cred1, List.filterMap_cons, List.filterMap_nil, credOf_credField creds _ hc]
  match creds, h with
  | [], _ => rfl
  | [_], _ => rfl
  | [_, _], _ => rfl

theorem frameBlock_slots : (FrameIn.mk true (frameBlock kind fseq ack creds first slots)).slots = frameSlots slots := by
  rw [FrameIn.slots, frameBlock, List.append_assoc, ← frameHead_length kind fseq first ack creds, List.drop_left,
    ← frameSlots_length slots, List.take_left]

end

end Sys2Proof.Machine
end

