-- ==== Sys2Proof/Laws/State.lean ====
section
/-! SUPPORT. One lemma per field per update of a part of the state, each true by rfl; and what each part reads as after
its own update. -/
namespace Sys2Proof.Machine

variable (s : State)

@[simp] theorem setQueue_time (q : Nat) (x : Queue) : (s.setQueue q x).time = s.time := rfl
@[simp] theorem setQueue_front (q : Nat) (x : Queue) : (s.setQueue q x).front = s.front := rfl
@[simp] theorem setQueue_slots (q : Nat) (x : Queue) : (s.setQueue q x).slots = s.slots := rfl
@[simp] theorem setQueue_qmap (q : Nat) (x : Queue) : (s.setQueue q x).qmap = s.qmap := rfl
@[simp] theorem setQueue_parts (q : Nat) (x : Queue) : (s.setQueue q x).parts = s.parts := rfl
@[simp] theorem setQueue_regions (q : Nat) (x : Queue) : (s.setQueue q x).regions = s.regions := rfl
@[simp] theorem setQueue_transit (q : Nat) (x : Queue) : (s.setQueue q x).transit = s.transit := rfl
@[simp] theorem setQueue_mem (q : Nat) (x : Queue) : (s.setQueue q x).mem = s.mem := rfl
@[simp] theorem setQueue_kv (q : Nat) (x : Queue) : (s.setQueue q x).kv = s.kv := rfl
@[simp] theorem setQueue_wgt (q : Nat) (x : Queue) : (s.setQueue q x).wgt = s.wgt := rfl
@[simp] theorem setQueue_trl (q : Nat) (x : Queue) : (s.setQueue q x).trl = s.trl := rfl
@[simp] theorem setQueue_eft (q : Nat) (x : Queue) : (s.setQueue q x).eft = s.eft := rfl
@[simp] theorem setQueue_sync (q : Nat) (x : Queue) : (s.setQueue q x).sync = s.sync := rfl
@[simp] theorem setQueue_pwr (q : Nat) (x : Queue) : (s.setQueue q x).pwr = s.pwr := rfl
@[simp] theorem setQueue_rel (q : Nat) (x : Queue) : (s.setQueue q x).rel = s.rel := rfl
@[simp] theorem setQueue_sec (q : Nat) (x : Queue) : (s.setQueue q x).sec = s.sec := rfl
@[simp] theorem setQueue_obs (q : Nat) (x : Queue) : (s.setQueue q x).obs = s.obs := rfl
@[simp] theorem setQueue_host (q : Nat) (x : Queue) : (s.setQueue q x).host = s.host := rfl
@[simp] theorem setQueue_board (q : Nat) (x : Queue) : (s.setQueue q x).board = s.board := rfl
@[simp] theorem setQueue_fresh (q : Nat) (x : Queue) : (s.setQueue q x).fresh = s.fresh := rfl
@[simp] theorem setQueue_out (q : Nat) (x : Queue) : (s.setQueue q x).out = s.out := rfl
@[simp] theorem setQueue_pending (q : Nat) (x : Queue) : (s.setQueue q x).pending = s.pending := rfl

@[simp] theorem setSlot_time (i : Nat) (x : Slot) : (s.setSlot i x).time = s.time := rfl
@[simp] theorem setSlot_front (i : Nat) (x : Slot) : (s.setSlot i x).front = s.front := rfl
@[simp] theorem setSlot_queues (i : Nat) (x : Slot) : (s.setSlot i x).queues = s.queues := rfl
@[simp] theorem setSlot_qmap (i : Nat) (x : Slot) : (s.setSlot i x).qmap = s.qmap := rfl
@[simp] theorem setSlot_parts (i : Nat) (x : Slot) : (s.setSlot i x).parts = s.parts := rfl
@[simp] theorem setSlot_regions (i : Nat) (x : Slot) : (s.setSlot i x).regions = s.regions := rfl
@[simp] theorem setSlot_transit (i : Nat) (x : Slot) : (s.setSlot i x).transit = s.transit := rfl
@[simp] theorem setSlot_mem (i : Nat) (x : Slot) : (s.setSlot i x).mem = s.mem := rfl
@[simp] theorem setSlot_kv (i : Nat) (x : Slot) : (s.setSlot i x).kv = s.kv := rfl
@[simp] theorem setSlot_wgt (i : Nat) (x : Slot) : (s.setSlot i x).wgt = s.wgt := rfl
@[simp] theorem setSlot_trl (i : Nat) (x : Slot) : (s.setSlot i x).trl = s.trl := rfl
@[simp] theorem setSlot_eft (i : Nat) (x : Slot) : (s.setSlot i x).eft = s.eft := rfl
@[simp] theorem setSlot_sync (i : Nat) (x : Slot) : (s.setSlot i x).sync = s.sync := rfl
@[simp] theorem setSlot_pwr (i : Nat) (x : Slot) : (s.setSlot i x).pwr = s.pwr := rfl
@[simp] theorem setSlot_rel (i : Nat) (x : Slot) : (s.setSlot i x).rel = s.rel := rfl
@[simp] theorem setSlot_sec (i : Nat) (x : Slot) : (s.setSlot i x).sec = s.sec := rfl
@[simp] theorem setSlot_obs (i : Nat) (x : Slot) : (s.setSlot i x).obs = s.obs := rfl
@[simp] theorem setSlot_host (i : Nat) (x : Slot) : (s.setSlot i x).host = s.host := rfl
@[simp] theorem setSlot_board (i : Nat) (x : Slot) : (s.setSlot i x).board = s.board := rfl
@[simp] theorem setSlot_fresh (i : Nat) (x : Slot) : (s.setSlot i x).fresh = s.fresh := rfl
@[simp] theorem setSlot_out (i : Nat) (x : Slot) : (s.setSlot i x).out = s.out := rfl
@[simp] theorem setSlot_pending (i : Nat) (x : Slot) : (s.setSlot i x).pending = s.pending := rfl

@[simp] theorem setPart_time (p : Nat) (x : Part) : (s.setPart p x).time = s.time := rfl
@[simp] theorem setPart_front (p : Nat) (x : Part) : (s.setPart p x).front = s.front := rfl
@[simp] theorem setPart_queues (p : Nat) (x : Part) : (s.setPart p x).queues = s.queues := rfl
@[simp] theorem setPart_slots (p : Nat) (x : Part) : (s.setPart p x).slots = s.slots := rfl
@[simp] theorem setPart_qmap (p : Nat) (x : Part) : (s.setPart p x).qmap = s.qmap := rfl
@[simp] theorem setPart_regions (p : Nat) (x : Part) : (s.setPart p x).regions = s.regions := rfl
@[simp] theorem setPart_transit (p : Nat) (x : Part) : (s.setPart p x).transit = s.transit := rfl
@[simp] theorem setPart_mem (p : Nat) (x : Part) : (s.setPart p x).mem = s.mem := rfl
@[simp] theorem setPart_kv (p : Nat) (x : Part) : (s.setPart p x).kv = s.kv := rfl
@[simp] theorem setPart_wgt (p : Nat) (x : Part) : (s.setPart p x).wgt = s.wgt := rfl
@[simp] theorem setPart_trl (p : Nat) (x : Part) : (s.setPart p x).trl = s.trl := rfl
@[simp] theorem setPart_eft (p : Nat) (x : Part) : (s.setPart p x).eft = s.eft := rfl
@[simp] theorem setPart_sync (p : Nat) (x : Part) : (s.setPart p x).sync = s.sync := rfl
@[simp] theorem setPart_pwr (p : Nat) (x : Part) : (s.setPart p x).pwr = s.pwr := rfl
@[simp] theorem setPart_rel (p : Nat) (x : Part) : (s.setPart p x).rel = s.rel := rfl
@[simp] theorem setPart_sec (p : Nat) (x : Part) : (s.setPart p x).sec = s.sec := rfl
@[simp] theorem setPart_obs (p : Nat) (x : Part) : (s.setPart p x).obs = s.obs := rfl
@[simp] theorem setPart_host (p : Nat) (x : Part) : (s.setPart p x).host = s.host := rfl
@[simp] theorem setPart_board (p : Nat) (x : Part) : (s.setPart p x).board = s.board := rfl
@[simp] theorem setPart_fresh (p : Nat) (x : Part) : (s.setPart p x).fresh = s.fresh := rfl
@[simp] theorem setPart_out (p : Nat) (x : Part) : (s.setPart p x).out = s.out := rfl
@[simp] theorem setPart_pending (p : Nat) (x : Part) : (s.setPart p x).pending = s.pending := rfl

@[simp] theorem setRegion_time (r : Nat) (x : Region) : (s.setRegion r x).time = s.time := rfl
@[simp] theorem setRegion_front (r : Nat) (x : Region) : (s.setRegion r x).front = s.front := rfl
@[simp] theorem setRegion_queues (r : Nat) (x : Region) : (s.setRegion r x).queues = s.queues := rfl
@[simp] theorem setRegion_slots (r : Nat) (x : Region) : (s.setRegion r x).slots = s.slots := rfl
@[simp] theorem setRegion_qmap (r : Nat) (x : Region) : (s.setRegion r x).qmap = s.qmap := rfl
@[simp] theorem setRegion_parts (r : Nat) (x : Region) : (s.setRegion r x).parts = s.parts := rfl
@[simp] theorem setRegion_transit (r : Nat) (x : Region) : (s.setRegion r x).transit = s.transit := rfl
@[simp] theorem setRegion_mem (r : Nat) (x : Region) : (s.setRegion r x).mem = s.mem := rfl
@[simp] theorem setRegion_kv (r : Nat) (x : Region) : (s.setRegion r x).kv = s.kv := rfl
@[simp] theorem setRegion_wgt (r : Nat) (x : Region) : (s.setRegion r x).wgt = s.wgt := rfl
@[simp] theorem setRegion_trl (r : Nat) (x : Region) : (s.setRegion r x).trl = s.trl := rfl
@[simp] theorem setRegion_eft (r : Nat) (x : Region) : (s.setRegion r x).eft = s.eft := rfl
@[simp] theorem setRegion_sync (r : Nat) (x : Region) : (s.setRegion r x).sync = s.sync := rfl
@[simp] theorem setRegion_pwr (r : Nat) (x : Region) : (s.setRegion r x).pwr = s.pwr := rfl
@[simp] theorem setRegion_rel (r : Nat) (x : Region) : (s.setRegion r x).rel = s.rel := rfl
@[simp] theorem setRegion_sec (r : Nat) (x : Region) : (s.setRegion r x).sec = s.sec := rfl
@[simp] theorem setRegion_obs (r : Nat) (x : Region) : (s.setRegion r x).obs = s.obs := rfl
@[simp] theorem setRegion_host (r : Nat) (x : Region) : (s.setRegion r x).host = s.host := rfl
@[simp] theorem setRegion_board (r : Nat) (x : Region) : (s.setRegion r x).board = s.board := rfl
@[simp] theorem setRegion_fresh (r : Nat) (x : Region) : (s.setRegion r x).fresh = s.fresh := rfl
@[simp] theorem setRegion_out (r : Nat) (x : Region) : (s.setRegion r x).out = s.out := rfl
@[simp] theorem setRegion_pending (r : Nat) (x : Region) : (s.setRegion r x).pending = s.pending := rfl

@[simp] theorem setLink_time (p : Nat) (x : Link) : (s.setLink p x).time = s.time := rfl
@[simp] theorem setLink_front (p : Nat) (x : Link) : (s.setLink p x).front = s.front := rfl
@[simp] theorem setLink_queues (p : Nat) (x : Link) : (s.setLink p x).queues = s.queues := rfl
@[simp] theorem setLink_slots (p : Nat) (x : Link) : (s.setLink p x).slots = s.slots := rfl
@[simp] theorem setLink_qmap (p : Nat) (x : Link) : (s.setLink p x).qmap = s.qmap := rfl
@[simp] theorem setLink_parts (p : Nat) (x : Link) : (s.setLink p x).parts = s.parts := rfl
@[simp] theorem setLink_regions (p : Nat) (x : Link) : (s.setLink p x).regions = s.regions := rfl
@[simp] theorem setLink_transit (p : Nat) (x : Link) : (s.setLink p x).transit = s.transit := rfl
@[simp] theorem setLink_mem (p : Nat) (x : Link) : (s.setLink p x).mem = s.mem := rfl
@[simp] theorem setLink_kv (p : Nat) (x : Link) : (s.setLink p x).kv = s.kv := rfl
@[simp] theorem setLink_wgt (p : Nat) (x : Link) : (s.setLink p x).wgt = s.wgt := rfl
@[simp] theorem setLink_trl (p : Nat) (x : Link) : (s.setLink p x).trl = s.trl := rfl
@[simp] theorem setLink_sync (p : Nat) (x : Link) : (s.setLink p x).sync = s.sync := rfl
@[simp] theorem setLink_pwr (p : Nat) (x : Link) : (s.setLink p x).pwr = s.pwr := rfl
@[simp] theorem setLink_rel (p : Nat) (x : Link) : (s.setLink p x).rel = s.rel := rfl
@[simp] theorem setLink_sec (p : Nat) (x : Link) : (s.setLink p x).sec = s.sec := rfl
@[simp] theorem setLink_obs (p : Nat) (x : Link) : (s.setLink p x).obs = s.obs := rfl
@[simp] theorem setLink_host (p : Nat) (x : Link) : (s.setLink p x).host = s.host := rfl
@[simp] theorem setLink_board (p : Nat) (x : Link) : (s.setLink p x).board = s.board := rfl
@[simp] theorem setLink_fresh (p : Nat) (x : Link) : (s.setLink p x).fresh = s.fresh := rfl
@[simp] theorem setLink_out (p : Nat) (x : Link) : (s.setLink p x).out = s.out := rfl
@[simp] theorem setLink_pending (p : Nat) (x : Link) : (s.setLink p x).pending = s.pending := rfl

@[simp] theorem setSeq_time (n : Nat) (x : Seq) : (s.setSeq n x).time = s.time := rfl
@[simp] theorem setSeq_front (n : Nat) (x : Seq) : (s.setSeq n x).front = s.front := rfl
@[simp] theorem setSeq_queues (n : Nat) (x : Seq) : (s.setSeq n x).queues = s.queues := rfl
@[simp] theorem setSeq_slots (n : Nat) (x : Seq) : (s.setSeq n x).slots = s.slots := rfl
@[simp] theorem setSeq_qmap (n : Nat) (x : Seq) : (s.setSeq n x).qmap = s.qmap := rfl
@[simp] theorem setSeq_parts (n : Nat) (x : Seq) : (s.setSeq n x).parts = s.parts := rfl
@[simp] theorem setSeq_regions (n : Nat) (x : Seq) : (s.setSeq n x).regions = s.regions := rfl
@[simp] theorem setSeq_transit (n : Nat) (x : Seq) : (s.setSeq n x).transit = s.transit := rfl
@[simp] theorem setSeq_wgt (n : Nat) (x : Seq) : (s.setSeq n x).wgt = s.wgt := rfl
@[simp] theorem setSeq_trl (n : Nat) (x : Seq) : (s.setSeq n x).trl = s.trl := rfl
@[simp] theorem setSeq_eft (n : Nat) (x : Seq) : (s.setSeq n x).eft = s.eft := rfl
@[simp] theorem setSeq_sync (n : Nat) (x : Seq) : (s.setSeq n x).sync = s.sync := rfl
@[simp] theorem setSeq_pwr (n : Nat) (x : Seq) : (s.setSeq n x).pwr = s.pwr := rfl
@[simp] theorem setSeq_rel (n : Nat) (x : Seq) : (s.setSeq n x).rel = s.rel := rfl
@[simp] theorem setSeq_sec (n : Nat) (x : Seq) : (s.setSeq n x).sec = s.sec := rfl
@[simp] theorem setSeq_obs (n : Nat) (x : Seq) : (s.setSeq n x).obs = s.obs := rfl
@[simp] theorem setSeq_host (n : Nat) (x : Seq) : (s.setSeq n x).host = s.host := rfl
@[simp] theorem setSeq_board (n : Nat) (x : Seq) : (s.setSeq n x).board = s.board := rfl
@[simp] theorem setSeq_fresh (n : Nat) (x : Seq) : (s.setSeq n x).fresh = s.fresh := rfl
@[simp] theorem setSeq_out (n : Nat) (x : Seq) : (s.setSeq n x).out = s.out := rfl
@[simp] theorem setSeq_pending (n : Nat) (x : Seq) : (s.setSeq n x).pending = s.pending := rfl

@[simp] theorem setGen_time (p e : Nat) (g : Gen) : (s.setGen p e g).time = s.time := rfl
@[simp] theorem setGen_front (p e : Nat) (g : Gen) : (s.setGen p e g).front = s.front := rfl
@[simp] theorem setGen_queues (p e : Nat) (g : Gen) : (s.setGen p e g).queues = s.queues := rfl
@[simp] theorem setGen_slots (p e : Nat) (g : Gen) : (s.setGen p e g).slots = s.slots := rfl
@[simp] theorem setGen_qmap (p e : Nat) (g : Gen) : (s.setGen p e g).qmap = s.qmap := rfl
@[simp] theorem setGen_parts (p e : Nat) (g : Gen) : (s.setGen p e g).parts = s.parts := rfl
@[simp] theorem setGen_regions (p e : Nat) (g : Gen) : (s.setGen p e g).regions = s.regions := rfl
@[simp] theorem setGen_transit (p e : Nat) (g : Gen) : (s.setGen p e g).transit = s.transit := rfl
@[simp] theorem setGen_mem (p e : Nat) (g : Gen) : (s.setGen p e g).mem = s.mem := rfl
@[simp] theorem setGen_kv (p e : Nat) (g : Gen) : (s.setGen p e g).kv = s.kv := rfl
@[simp] theorem setGen_trl (p e : Nat) (g : Gen) : (s.setGen p e g).trl = s.trl := rfl
@[simp] theorem setGen_eft (p e : Nat) (g : Gen) : (s.setGen p e g).eft = s.eft := rfl
@[simp] theorem setGen_sync (p e : Nat) (g : Gen) : (s.setGen p e g).sync = s.sync := rfl
@[simp] theorem setGen_pwr (p e : Nat) (g : Gen) : (s.setGen p e g).pwr = s.pwr := rfl
@[simp] theorem setGen_rel (p e : Nat) (g : Gen) : (s.setGen p e g).rel = s.rel := rfl
@[simp] theorem setGen_sec (p e : Nat) (g : Gen) : (s.setGen p e g).sec = s.sec := rfl
@[simp] theorem setGen_obs (p e : Nat) (g : Gen) : (s.setGen p e g).obs = s.obs := rfl
@[simp] theorem setGen_host (p e : Nat) (g : Gen) : (s.setGen p e g).host = s.host := rfl
@[simp] theorem setGen_board (p e : Nat) (g : Gen) : (s.setGen p e g).board = s.board := rfl
@[simp] theorem setGen_fresh (p e : Nat) (g : Gen) : (s.setGen p e g).fresh = s.fresh := rfl
@[simp] theorem setGen_out (p e : Nat) (g : Gen) : (s.setGen p e g).out = s.out := rfl
@[simp] theorem setGen_pending (p e : Nat) (g : Gen) : (s.setGen p e g).pending = s.pending := rfl

@[simp] theorem setCloche_time (p : Nat) (c : Cloche) : (s.setCloche p c).time = s.time := rfl
@[simp] theorem setCloche_front (p : Nat) (c : Cloche) : (s.setCloche p c).front = s.front := rfl
@[simp] theorem setCloche_queues (p : Nat) (c : Cloche) : (s.setCloche p c).queues = s.queues := rfl
@[simp] theorem setCloche_slots (p : Nat) (c : Cloche) : (s.setCloche p c).slots = s.slots := rfl
@[simp] theorem setCloche_qmap (p : Nat) (c : Cloche) : (s.setCloche p c).qmap = s.qmap := rfl
@[simp] theorem setCloche_parts (p : Nat) (c : Cloche) : (s.setCloche p c).parts = s.parts := rfl
@[simp] theorem setCloche_regions (p : Nat) (c : Cloche) : (s.setCloche p c).regions = s.regions := rfl
@[simp] theorem setCloche_transit (p : Nat) (c : Cloche) : (s.setCloche p c).transit = s.transit := rfl
@[simp] theorem setCloche_mem (p : Nat) (c : Cloche) : (s.setCloche p c).mem = s.mem := rfl
@[simp] theorem setCloche_kv (p : Nat) (c : Cloche) : (s.setCloche p c).kv = s.kv := rfl
@[simp] theorem setCloche_wgt (p : Nat) (c : Cloche) : (s.setCloche p c).wgt = s.wgt := rfl
@[simp] theorem setCloche_trl (p : Nat) (c : Cloche) : (s.setCloche p c).trl = s.trl := rfl
@[simp] theorem setCloche_eft (p : Nat) (c : Cloche) : (s.setCloche p c).eft = s.eft := rfl
@[simp] theorem setCloche_sync (p : Nat) (c : Cloche) : (s.setCloche p c).sync = s.sync := rfl
@[simp] theorem setCloche_pwr (p : Nat) (c : Cloche) : (s.setCloche p c).pwr = s.pwr := rfl
@[simp] theorem setCloche_rel (p : Nat) (c : Cloche) : (s.setCloche p c).rel = s.rel := rfl
@[simp] theorem setCloche_obs (p : Nat) (c : Cloche) : (s.setCloche p c).obs = s.obs := rfl
@[simp] theorem setCloche_host (p : Nat) (c : Cloche) : (s.setCloche p c).host = s.host := rfl
@[simp] theorem setCloche_board (p : Nat) (c : Cloche) : (s.setCloche p c).board = s.board := rfl
@[simp] theorem setCloche_fresh (p : Nat) (c : Cloche) : (s.setCloche p c).fresh = s.fresh := rfl
@[simp] theorem setCloche_out (p : Nat) (c : Cloche) : (s.setCloche p c).out = s.out := rfl
@[simp] theorem setCloche_pending (p : Nat) (c : Cloche) : (s.setCloche p c).pending = s.pending := rfl

@[simp] theorem emit_time (o : Out) : (s.emit o).time = s.time := rfl
@[simp] theorem emit_front (o : Out) : (s.emit o).front = s.front := rfl
@[simp] theorem emit_queues (o : Out) : (s.emit o).queues = s.queues := rfl
@[simp] theorem emit_slots (o : Out) : (s.emit o).slots = s.slots := rfl
@[simp] theorem emit_qmap (o : Out) : (s.emit o).qmap = s.qmap := rfl
@[simp] theorem emit_parts (o : Out) : (s.emit o).parts = s.parts := rfl
@[simp] theorem emit_regions (o : Out) : (s.emit o).regions = s.regions := rfl
@[simp] theorem emit_transit (o : Out) : (s.emit o).transit = s.transit := rfl
@[simp] theorem emit_mem (o : Out) : (s.emit o).mem = s.mem := rfl
@[simp] theorem emit_kv (o : Out) : (s.emit o).kv = s.kv := rfl
@[simp] theorem emit_wgt (o : Out) : (s.emit o).wgt = s.wgt := rfl
@[simp] theorem emit_trl (o : Out) : (s.emit o).trl = s.trl := rfl
@[simp] theorem emit_eft (o : Out) : (s.emit o).eft = s.eft := rfl
@[simp] theorem emit_sync (o : Out) : (s.emit o).sync = s.sync := rfl
@[simp] theorem emit_pwr (o : Out) : (s.emit o).pwr = s.pwr := rfl
@[simp] theorem emit_rel (o : Out) : (s.emit o).rel = s.rel := rfl
@[simp] theorem emit_sec (o : Out) : (s.emit o).sec = s.sec := rfl
@[simp] theorem emit_obs (o : Out) : (s.emit o).obs = s.obs := rfl
@[simp] theorem emit_host (o : Out) : (s.emit o).host = s.host := rfl
@[simp] theorem emit_board (o : Out) : (s.emit o).board = s.board := rfl
@[simp] theorem emit_fresh (o : Out) : (s.emit o).fresh = s.fresh := rfl
@[simp] theorem emit_pending (o : Out) : (s.emit o).pending = s.pending := rfl

/-! Drawing an open value. -/
@[simp] theorem draw_time : s.draw.2.time = s.time := rfl
@[simp] theorem draw_front : s.draw.2.front = s.front := rfl
@[simp] theorem draw_queues : s.draw.2.queues = s.queues := rfl
@[simp] theorem draw_slots : s.draw.2.slots = s.slots := rfl
@[simp] theorem draw_qmap : s.draw.2.qmap = s.qmap := rfl
@[simp] theorem draw_parts : s.draw.2.parts = s.parts := rfl
@[simp] theorem draw_regions : s.draw.2.regions = s.regions := rfl
@[simp] theorem draw_transit : s.draw.2.transit = s.transit := rfl
@[simp] theorem draw_mem : s.draw.2.mem = s.mem := rfl
@[simp] theorem draw_kv : s.draw.2.kv = s.kv := rfl
@[simp] theorem draw_wgt : s.draw.2.wgt = s.wgt := rfl
@[simp] theorem draw_trl : s.draw.2.trl = s.trl := rfl
@[simp] theorem draw_eft : s.draw.2.eft = s.eft := rfl
@[simp] theorem draw_sync : s.draw.2.sync = s.sync := rfl
@[simp] theorem draw_pwr : s.draw.2.pwr = s.pwr := rfl
@[simp] theorem draw_rel : s.draw.2.rel = s.rel := rfl
@[simp] theorem draw_sec : s.draw.2.sec = s.sec := rfl
@[simp] theorem draw_obs : s.draw.2.obs = s.obs := rfl
@[simp] theorem draw_host : s.draw.2.host = s.host := rfl
@[simp] theorem draw_board : s.draw.2.board = s.board := rfl
@[simp] theorem draw_out : s.draw.2.out = s.out := rfl
@[simp] theorem draw_pending : s.draw.2.pending = s.pending := rfl
@[simp] theorem draw_fresh : s.draw.2.fresh = s.fresh + 1 := rfl
@[simp] theorem emit_out (o : Out) : (s.emit o).out = o :: s.out := rfl

end Sys2Proof.Machine
end

