-- ==== Sys2Proof/Laws/Ops.lean ====
section
/-! SUPPORT. What each shared operation of Machine/Ops.lean does, said once: the fields it may change, and every other
field as it was; and what a write or a command answers when it does not run. -/
namespace Sys2Proof.Machine

/-! Events (R569). -/

/-- An event changes the rings and nothing else. -/
theorem event_eq (s : State) (island code : Nat) (part queue : Option Nat) (data : Nat) :
    ∃ r, s.event island code part queue data = { s with obs := { s.obs with rings := r } } := by
  unfold State.event
  split
  · exact ⟨s.obs.rings, rfl⟩
  · exact ⟨_, rfl⟩

/-- An event that is not withheld is the newest entry of its unit's ring. -/
theorem event_ring (s : State) (island code : Nat) (part queue : Option Nat) (data : Nat) (h : s.withheld island part = false) :
    (s.event island code part queue data).obs.rings =
      Tab.modify .reset s.obs.rings island (fun r => r.push ⟨s.now, code, part, queue, data⟩) := by
  simp [State.event, h]

/-- A withheld event leaves no trace. -/
theorem event_withheld (s : State) (island code : Nat) (part queue : Option Nat) (data : Nat) (h : s.withheld island part = true) :
    s.event island code part queue data = s := by simp [State.event, h]

theorem feEvent_eq (s : State) (code q : Nat) : ∃ r, s.feEvent code q = { s with obs := { s.obs with rings := r } } := event_eq ..
theorem discard_eq (s : State) (code o : Nat) : ∃ r, s.discard code o = { s with obs := { s.obs with rings := r } } := event_eq ..

/-! Interrupts (R586 to R589). -/

/-- A vector raised is sent or pending. -/
theorem vector_eq (s : State) (v : Nat) : ∃ o h, s.vector v = { s with out := o, host := h } := by
  unfold State.vector
  split
  · exact ⟨_, s.host, rfl⟩
  · exact ⟨s.out, _, rfl⟩

theorem irq_eq (s : State) (b : Nat) : ∃ o h, s.irq b = { s with out := o, host := h } := by
  unfold State.irq
  split
  · exact ⟨s.out, s.host, rfl⟩
  · obtain ⟨o, h, e⟩ := vector_eq ({ s with host := { s.host with irqStat := s.host.irqStat + 2 ^ b } } : State) (1032 + b)
    exact ⟨o, h, e⟩

/-- A cause that is already set raises no vector. -/
theorem irq_again (s : State) (b : Nat) (h : bit s.host.irqStat b = true) : s.irq b = s := by simp [State.irq, h]

theorem stateVector_eq (s : State) (q : Nat) : ∃ o h, s.stateVector q = { s with out := o, host := h } := vector_eq ..

/-! Notifications (R559). -/

theorem sendNotice_eq (s : State) (n : Notice) : ∃ o, s.sendNotice n = { s with out := o } := by
  unfold State.sendNotice
  split <;> dsimp only <;> split
  · exact ⟨_, rfl⟩
  · exact ⟨_, rfl⟩
  · exact ⟨_, rfl⟩
  · exact ⟨s.out, rfl⟩

/-- A notification changes the waiting list, its two counts and what leaves the pins. -/
theorem notify_eq (s : State) (code : Nat) (part : Option Nat) (data : Nat) :
    ∃ o ns k, s.notify code part data =
      { s with out := o, obs := { s.obs with nseq := (s.obs.nseq + 1) % 2 ^ 32, notices := ns, nlost := k } } := by
  unfold State.notify
  dsimp only
  split
  · exact ⟨s.out, s.obs.notices, _, rfl⟩
  · obtain ⟨o, e⟩ := sendNotice_eq ({ s with obs := { s.obs with
      nseq := (s.obs.nseq + 1) % 2 ^ 32, notices := s.obs.notices ++ [⟨s.obs.nseq, code, part.getD 0xFF, s.now, data, 1, s.now⟩] } } : State)
      ⟨s.obs.nseq, code, part.getD 0xFF, s.now, data, 1, s.now⟩
    exact ⟨o, _, s.obs.nlost, e⟩

/-- No notification when 16 wait: it is counted as lost. -/
theorem notify_full (s : State) (code : Nat) (part : Option Nat) (data : Nat) (h : 16 ≤ s.obs.notices.length) :
    (s.notify code part data).obs.notices = s.obs.notices ∧ (s.notify code part data).obs.nlost = (s.obs.nlost + 1) % 2 ^ 32 ∧
      (s.notify code part data).out = s.out := by simp [State.notify, h]

/-! The error-range log and the sync trace (R363, R475). -/

/-- A logged error changes the log, its lost count, a ring, and what a raised cause changes. -/
theorem logErrorAt_eq (s : State) (island addr tier source : Nat) (part : Option Nat) (ctx seq queue : Nat) :
    ∃ r l k o h, s.logErrorAt island addr tier source part ctx seq queue =
      { s with obs := { s.obs with rings := r }, mem := { s.mem with errlog := l, errLost := k }, out := o, host := h } := by
  unfold State.logErrorAt
  obtain ⟨r, e⟩ := event_eq s island 0x80 part none (tier + 8 * ctx)
  rw [e]
  dsimp only
  split
  · split
    · exact ⟨r, _, s.mem.errLost, s.out, s.host, rfl⟩
    · obtain ⟨o, h, k⟩ := irq_eq ({ s with
        obs := { s.obs with rings := r }, mem := { s.mem with errlog := _, errLost := _ } } : State) 0
      exact ⟨r, _, _, o, h, k⟩
  · obtain ⟨o, h, k⟩ := irq_eq ({ s with
      obs := { s.obs with rings := r }, mem := { s.mem with errlog := _, errLost := s.mem.errLost } } : State) 0
    exact ⟨r, _, _, o, h, k⟩

theorem logError_eq (s : State) (addr tier source : Nat) (part : Option Nat) (ctx seq queue : Nat) :
    ∃ r l k o h, s.logError addr tier source part ctx seq queue =
      { s with obs := { s.obs with rings := r }, mem := { s.mem with errlog := l, errLost := k }, out := o, host := h } :=
  logErrorAt_eq ..

theorem straceEntry_eq (s : State) (e : STrace) :
    ∃ t k, s.straceEntry e = { s with sync := { s.sync with trace := t, count := k } } := by
  unfold State.straceEntry
  split
  · exact ⟨s.sync.trace, s.sync.count, rfl⟩
  · exact ⟨_, _, rfl⟩

theorem strace_eq (s : State) (kind part id who queue : Nat) :
    ∃ t k, s.strace kind part id who queue = { s with sync := { s.sync with trace := t, count := k } } := straceEntry_eq ..

/-! Slot counters (R566). -/

theorem bump_eq (s : State) (q code n : Nat) : ∃ c, s.bump q code n = { s with obs := { s.obs with cnt := c } } := by
  unfold State.bump
  split
  · exact ⟨s.obs.cnt, rfl⟩
  · split
    · split
      · exact ⟨s.obs.cnt, rfl⟩
      · exact ⟨_, rfl⟩
    · exact ⟨s.obs.cnt, rfl⟩

theorem bumpPart_eq (s : State) (p code n : Nat) : ∃ c, s.bumpPart p code n = { s with obs := { s.obs with cnt := c } } := by
  unfold State.bumpPart
  split
  · exact bump_eq ..
  · exact ⟨s.obs.cnt, rfl⟩

/-! Device resets (R399, R511, R515). -/

theorem startReset_eq (s : State) (cause check q seq trig detail : Nat) :
    ∃ h r, s.startReset cause check q seq trig detail = { s with host := h, rel := { s.rel with resets := r } } := by
  unfold State.startReset
  dsimp only
  split
  · exact ⟨s.host, _, rfl⟩
  · exact ⟨_, _, rfl⟩

/-- A reset begins whatever triggers it, and one under way goes on. -/
theorem startReset_busy (s : State) (cause check q seq trig detail : Nat) :
    (s.startReset cause check q seq trig detail).inReset = true := by
  unfold State.startReset State.inReset
  dsimp only
  split
  · assumption
  · rfl

theorem trigger_eq (s : State) (trig detail : Nat) :
    ∃ h r, s.trigger trig detail = { s with host := h, rel := { s.rel with resets := r } } := startReset_eq ..

/-! Open values. -/

/-- A draw moves on to the next open value. -/
theorem draw_eq (s : State) : s.draw = (Config.freeValue s.fresh, { s with fresh := s.fresh + 1 }) := rfl

/-! Writes of registers (R581, R583). -/

/-- A write from a requester that the module does not hear changes nothing. -/
theorem regWrite_unheard (s : State) (rq : Requester) (o : Nat) (f : State → State) (h : s.portUp rq = false) :
    s.regWrite rq o f = s := by simp [State.regWrite, h]

/-- A write that the gate stops ends the held half and leaves an event. -/
theorem regWrite_gated (s : State) (rq : Requester) (o c : Nat) (f : State → State) (h : s.portUp rq = true)
    (g : (s.dropHeld rq).gateCode rq o = some c) : s.regWrite rq o f = (s.dropHeld rq).discard c o := by
  simp [State.regWrite, h, g]

/-- A write that the gate lets through acts once the held half has ended. -/
theorem regWrite_acts (s : State) (rq : Requester) (o : Nat) (f : State → State) (h : s.portUp rq = true)
    (g : (s.dropHeld rq).gateCode rq o = none) : s.regWrite rq o f = f (s.dropHeld rq) := by
  simp [State.regWrite, h, g]

/-- Nothing else can come of a write. -/
theorem regWrite_cases (s : State) (rq : Requester) (o : Nat) (f : State → State) :
    s.regWrite rq o f = s ∨ (∃ c, s.regWrite rq o f = (s.dropHeld rq).discard c o) ∨ s.regWrite rq o f = f (s.dropHeld rq) := by
  unfold State.regWrite
  split
  · exact .inl rfl
  · dsimp only
    split
    · exact .inr (.inl ⟨_, rfl⟩)
    · exact .inr (.inr rfl)

/-! Commands of a queue (R371, R374). -/

/-- A command of queue q answers the state as it is, DENIED, or what its meaning gives. -/
theorem runCmd_cases (s : State) (q : Nat) (b : CmdBody) (f : Running → Nat → Nat → State) :
    s.runCmd q b f = .next s ∨ s.runCmd q b f = .next (s.completeOk q .denied) ∨ ∃ x c p, s.runCmd q b f = .next (f x c p) := by
  unfold State.runCmd
  dsimp only
  repeat' (first | exact .inl rfl | exact .inr (.inl rfl) | exact .inr (.inr ⟨_, _, _, rfl⟩) | split)

end Sys2Proof.Machine
end

