-- ==== Sys2Proof/Laws/Table.lean ====
section
/-! SUPPORT. Sparse tables and memories: what is read after a write, and that every operation keeps the canonical form. -/
namespace Sys2Proof.Machine

variable {α : Type} {d : α}

theorem Tab.get_erase_ne (t : Tab α) {k j : Nat} (h : j ≠ k) : Tab.get d (Tab.erase t k) j = Tab.get d t j := by
  unfold Tab.erase
  induction t with
  | nil => rfl
  | cons e t ih =>
    obtain ⟨a, v⟩ := e
    by_cases h1 : a = k
    · subst h1; simpa [Tab.get, Ne.symm h] using ih
    · have h3 : ((a, v) :: t).filter (fun e => e.1 != k) = (a, v) :: t.filter (fun e => e.1 != k) := by simp [h1]
      rw [h3]; simp [Tab.get, ih]

theorem Tab.get_erase_self (t : Tab α) (k : Nat) : Tab.get d (Tab.erase t k) k = d := by
  unfold Tab.erase
  induction t with
  | nil => rfl
  | cons e t ih =>
    obtain ⟨a, v⟩ := e
    by_cases h1 : a = k
    · subst h1; simpa using ih
    · simp [Tab.get, h1, ih]

theorem Tab.get_insert (t : Tab α) (k j : Nat) (v : α) :
    Tab.get d (Tab.insert t k v) j = if j = k then v else Tab.get d t j := by
  induction t with
  | nil => by_cases h : j = k <;> simp [Tab.insert, Tab.get, h, eq_comm]; omega
  | cons e t ih =>
    obtain ⟨a, w⟩ := e
    by_cases h1 : a = k
    · subst h1; by_cases h : j = a <;> simp [Tab.insert, Tab.get, h, eq_comm]
    · by_cases h2 : k < a
      · by_cases h : j = k
        · subst h; simp [Tab.insert, Tab.get, h1, h2]
        · have := Ne.symm h; simp [Tab.insert, Tab.get, h1, h2, h, this]
      · by_cases h : a = j
        · subst h; simp [Tab.insert, Tab.get, h1, h2]
        · simp [Tab.insert, Tab.get, h1, h2, h, ih]

section
variable [DecidableEq α]

theorem Tab.wfFrom_mono {t : Tab α} {lo hi : Nat} (h : lo ≤ hi) (w : Tab.wfFrom d hi t = true) : Tab.wfFrom d lo t = true := by
  cases t with
  | nil => rfl
  | cons e t =>
    simp only [Tab.wfFrom, Bool.and_eq_true, decide_eq_true_eq] at w ⊢
    exact ⟨⟨by omega, w.1.2⟩, w.2⟩

/-- What a table reads after a write. -/
@[simp] theorem Tab.get_set (t : Tab α) (k j : Nat) (v : α) :
    Tab.get d (Tab.set d t k v) j = if j = k then v else Tab.get d t j := by
  unfold Tab.set
  by_cases hv : v = d
  · by_cases h : j = k
    · subst h; simp [hv, Tab.get_erase_self]
    · simp [hv, h, Tab.get_erase_ne t h]
  · simp [hv, Tab.get_insert]

/-- The other keys of any table read as before. -/
theorem Tab.get_set_ne (t : Tab α) {k j : Nat} (v : α) (h : j ≠ k) : Tab.get d (Tab.set d t k v) j = Tab.get d t j := by
  unfold Tab.set
  by_cases hv : v = d
  · simp [hv, Tab.get_erase_ne t h]
  · simp [hv, Tab.get_insert, h]

theorem Tab.wfFrom_insert {t : Tab α} {lo k : Nat} {v : α} (w : Tab.wfFrom d lo t = true) (hk : lo ≤ k) (hv : v ≠ d) :
    Tab.wfFrom d lo (Tab.insert t k v) = true := by
  induction t generalizing lo with
  | nil => simp [Tab.insert, Tab.wfFrom, hk, hv]
  | cons e t ih =>
    obtain ⟨a, x⟩ := e
    simp only [Tab.wfFrom, Bool.and_eq_true, decide_eq_true_eq] at w
    unfold Tab.insert
    split
    · rename_i h; subst h
      simp [Tab.wfFrom, hk, hv, w.2]
    · split
      · rename_i h1 h2
        simp only [Tab.wfFrom, Bool.and_eq_true, decide_eq_true_eq]
        exact ⟨⟨hk, hv⟩, ⟨by omega, w.1.2⟩, w.2⟩
      · simp only [Tab.wfFrom, Bool.and_eq_true, decide_eq_true_eq]
        exact ⟨w.1, ih w.2 (by omega)⟩

theorem Tab.wfFrom_filter {t : Tab α} {lo : Nat} (w : Tab.wfFrom d lo t = true) (p : Nat × α → Bool) :
    Tab.wfFrom d lo (t.filter p) = true := by
  induction t generalizing lo with
  | nil => rfl
  | cons e t ih =>
    simp only [Tab.wfFrom, Bool.and_eq_true, decide_eq_true_eq] at w
    by_cases h : p e = true
    · simp only [List.filter_cons, h, if_true, Tab.wfFrom, Bool.and_eq_true, decide_eq_true_eq]
      exact ⟨w.1, ih w.2⟩
    · simp only [List.filter_cons, h]
      exact Tab.wfFrom_mono (by omega) (ih w.2)

/-- A write keeps the canonical form. -/
theorem Tab.wf_set {t : Tab α} (w : Tab.wf d t = true) (k : Nat) (v : α) : Tab.wf d (Tab.set d t k v) = true := by
  unfold Tab.set
  by_cases hv : v = d
  · simp only [hv, if_true]; exact Tab.wfFrom_filter w _
  · simp only [hv, if_false]; exact Tab.wfFrom_insert w (Nat.zero_le k) hv

theorem Tab.wf_modify {t : Tab α} (w : Tab.wf d t = true) (k : Nat) (f : α → α) : Tab.wf d (Tab.modify d t k f) = true :=
  Tab.wf_set w k _

@[simp] theorem Tab.get_modify (t : Tab α) (k j : Nat) (f : α → α) :
    Tab.get d (Tab.modify d t k f) j = if j = k then f (Tab.get d t k) else Tab.get d t j := Tab.get_set t k j _

theorem Tab.wf_dropWhere {t : Tab α} (w : Tab.wf d t = true) (p : Nat → Bool) : Tab.wf d (Tab.dropWhere p t) = true :=
  Tab.wfFrom_filter w _

end

/-! Memory: every operation keeps the canonical form. -/

@[simp] theorem Memory.wf_nil : Memory.wf [] = true := rfl

theorem Memory.wf_put {m : Memory} (w : m.wf = true) (a : Nat) (b : Byte) : (m.put a b).wf = true := Tab.wf_set w a b

theorem Memory.wf_store {m : Memory} (w : m.wf = true) (a : Nat) (bs : List Byte) : (m.store a bs).wf = true := by
  induction bs generalizing m a with
  | nil => exact w
  | cons b bs ih => exact ih (Memory.wf_put w a b) (a + 1)

theorem Memory.wf_clear {m : Memory} (w : m.wf = true) (a n : Nat) : (m.clear a n).wf = true := Tab.wf_dropWhere w _

/-- One byte written: it reads back, and every other byte reads as before. -/
theorem Memory.byte_put (m : Memory) (a j : Nat) (b : Byte) :
    (m.put a b).byte j = if j = a then b else m.byte j := Tab.get_set m a j b

/-- Bytes outside a store read as before. -/
theorem Memory.byte_store_other (m : Memory) (a j : Nat) (bs : List Byte) (h : j < a ∨ a + bs.length ≤ j) :
    (m.store a bs).byte j = m.byte j := by
  induction bs generalizing m a with
  | nil => rfl
  | cons b bs ih =>
    have h : j < a ∨ a + (bs.length + 1) ≤ j := by simpa using h
    have hj : j ≠ a := by omega
    have := ih (m.put a b) (a + 1) (by omega)
    simp only [Memory.store, this]
    exact Tab.get_set_ne m b hj

/-- A stored byte reads back. -/
theorem Memory.byte_store (m : Memory) (a i : Nat) (bs : List Byte) (h : i < bs.length) :
    (m.store a bs).byte (a + i) = bs[i] := by
  induction bs generalizing m a i with
  | nil => simp at h
  | cons b bs ih =>
    cases i with
    | zero =>
      simp only [Memory.store, Nat.add_zero, List.getElem_cons_zero]
      rw [Memory.byte_store_other _ _ _ _ (Or.inl (Nat.lt_succ_self a)), Memory.byte_put]
      simp
    | succ i =>
      have := ih (m.put a b) (a + 1) i (by simpa using h)
      simpa [Memory.store, Nat.add_assoc, Nat.add_comm 1 i] using this

theorem Memory.length_load (m : Memory) (a n : Nat) : (m.load a n).length = n := by
  induction n generalizing a with
  | zero => rfl
  | succ n ih => simp [Memory.load, ih]

/-- What was stored reads back (R8). -/
theorem Memory.load_store (m : Memory) (a : Nat) (bs : List Byte) : (m.store a bs).load a bs.length = bs := by
  induction bs generalizing m a with
  | nil => rfl
  | cons b bs ih =>
    have hb : (m.store a (b :: bs)).byte a = b := Memory.byte_store m a 0 (b :: bs) (Nat.zero_lt_succ _)
    simp only [List.length_cons, Memory.load, hb]
    simp only [Memory.store, ih (m.put a b) (a + 1)]

end Sys2Proof.Machine
end

