-- ==== Sys2Proof/Laws/Regions.lean ====
section
/-! SUPPORT. Regions: registers, the sequencer's advance, and what the shared operations around an instruction do. -/
namespace Sys2Proof.Machine

/-! Registers. -/

@[simp] theorem reg_zero (x : Region) : x.reg 0 = 0 := rfl

/-- What a register reads after a write (R144). -/
theorem reg_setReg (x : Region) (n k : Nat) (v : Word) :
    (x.setReg n v).reg k = if k = 0 then 0 else if k = n then v else x.reg k := by
  unfold Region.setReg Region.reg
  by_cases hk : k = 0 <;> by_cases hn : n = 0 <;> simp [hk, hn]

/-- A write of a register changes registers only. -/
theorem setReg_eq (x : Region) (n : Nat) (v : Word) : ∃ t, x.setReg n v = { x with regs := t } := by
  unfold Region.setReg
  split
  · exact ⟨x.regs, rfl⟩
  · exact ⟨_, rfl⟩

@[simp] theorem setReg_loops (x : Region) (n : Nat) (v : Word) : (x.setReg n v).loops = x.loops := by
  obtain ⟨t, h⟩ := setReg_eq x n v; rw [h]
@[simp] theorem setReg_pc (x : Region) (n : Nat) (v : Word) : (x.setReg n v).pc = x.pc := by
  obtain ⟨t, h⟩ := setReg_eq x n v; rw [h]
@[simp] theorem setReg_issued (x : Region) (n : Nat) (v : Word) : (x.setReg n v).issued = x.issued := by
  obtain ⟨t, h⟩ := setReg_eq x n v; rw [h]

/-- The note of the first issue changes nothing but that note and where the region's clock counts from. -/
theorem noteFirst_eq (x : Region) (n : Nat) :
    ∃ k a u l, x.noteFirst n = { x with firstIssue := k, clkAt := a, clkUnits := u, clkLost := l } := by
  unfold Region.noteFirst
  split
  · exact ⟨x.firstIssue, x.clkAt, x.clkUnits, x.clkLost, rfl⟩
  · exact ⟨_, _, _, _, rfl⟩

/-! The sequencer (R163). -/

/-- Going round or leaving loops changes the position, the loops and registers, and nothing else. -/
theorem loopBack_eq (n : Nat) (x : Region) :
    ∃ pc loops regs, x.loopBack n = { x with pc := pc, loops := loops, regs := regs } := by
  induction n generalizing x with
  | zero => exact ⟨x.pc, x.loops, x.regs, rfl⟩
  | succ n ih =>
    unfold Region.loopBack
    split
    · exact ⟨x.pc, x.loops, x.regs, rfl⟩
    · split
      · exact ⟨x.pc, x.loops, x.regs, rfl⟩
      · split
        · rename_i t rest _ _ _
          obtain ⟨u, h⟩ := setReg_eq { x with pc := t.at_ + 1, loops := { t with iter := t.iter + 1 } :: rest } t.idxreg
            (BitVec.ofNat 64 (t.iter + 1))
          exact ⟨_, _, u, h⟩
        · rename_i t rest _ _ _
          obtain ⟨a, b, c, h⟩ := ih { x with loops := rest }
          exact ⟨a, b, c, by rw [h]⟩

/-- The next instruction starts with nothing translated and no walk (R351). -/
theorem advance_eq (x : Region) :
    ∃ pc loops regs, x.advance = { x with pc := pc, loops := loops, regs := regs, plans := [], walk := none } := by
  obtain ⟨a, b, c, h⟩ := loopBack_eq 9 { x with pc := x.pc + 1, plans := [], walk := none }
  exact ⟨a, b, c, h⟩

/-- A register that no open loop counts in is left alone. -/
theorem loopBack_reg (n : Nat) (x : Region) (k : Nat) (h : ∀ t ∈ x.loops, t.idxreg ≠ k) : (x.loopBack n).reg k = x.reg k := by
  induction n generalizing x with
  | zero => rfl
  | succ n ih =>
    unfold Region.loopBack
    split
    · rfl
    · rename_i t rest ht
      split
      · rfl
      · split
        · rw [reg_setReg, if_neg (h t (by simp [ht])).symm]
          by_cases h0 : k = 0
          · subst h0; rfl
          · rw [if_neg h0]; rfl
        · rw [ih]; rfl
          intro t' h'; exact h t' (by rw [ht]; exact List.mem_cons_of_mem _ h')

theorem goto_reg (x : Region) (pc k : Nat) (h : ∀ t ∈ x.loops, t.idxreg ≠ k) : (x.goto pc).reg k = x.reg k :=
  loopBack_reg 9 _ k h
theorem advance_reg (x : Region) (k : Nat) (h : ∀ t ∈ x.loops, t.idxreg ≠ k) : x.advance.reg k = x.reg k :=
  goto_reg x _ k h

/-- Outside loops the next instruction in list order follows. -/
theorem goto_flat (x : Region) (pc : Nat) (h : x.loops = []) : x.goto pc = { x with pc := pc, plans := [], walk := none } := by
  simp [Region.goto, Region.loopBack, h]
theorem advance_flat (x : Region) (h : x.loops = []) : x.advance = { x with pc := x.pc + 1, plans := [], walk := none } := goto_flat x _ h

theorem goto_pc (x : Region) (pc : Nat) (h : x.loops = []) : (x.goto pc).pc = pc := by rw [goto_flat x pc h]
theorem advance_pc (x : Region) (h : x.loops = []) : x.advance.pc = x.pc + 1 := goto_pc x _ h

/-! The region in the state. -/

/-- A region that stands at an instruction exists. -/
theorem atInstr_lt {s : State} {r : Nat} {b : RBody} (h : s.atInstr r b = true) : r < s.regions.length := by
  apply Decidable.byContradiction
  intro hc
  have : s.region r = .reset := by simp [State.region, List.getD, List.getElem?_eq_none (by omega : s.regions.length ≤ r)]
  simp [State.atInstr, this, Region.reset] at h

theorem region_setRegion (s : State) (r k : Nat) (x : Region) (h : r < s.regions.length) :
    (s.setRegion r x).region k = if k = r then x else s.region k := by
  unfold State.setRegion State.region
  by_cases hk : k = r
  · subst hk; simp [h]
  · simp [hk, List.getD, Ne.symm hk]

/-- Another region is left alone. -/
theorem region_setRegion_ne (s : State) (r k : Nat) (x : Region) (h : k ≠ r) : (s.setRegion r x).region k = s.region k := by
  unfold State.setRegion State.region
  simp [List.getD, Ne.symm h]

@[simp] theorem setRegion_setRegion (s : State) (r : Nat) (x y : Region) :
    (s.setRegion r x).setRegion r y = s.setRegion r y := by
  simp [State.setRegion]

@[simp] theorem setRegion_regions_length (s : State) (r : Nat) (x : Region) :
    (s.setRegion r x).regions.length = s.regions.length := by simp [State.setRegion]

/-! Running an instruction. -/

/-- An instruction that may issue runs, with its first issue noted. -/
theorem runInstr_eq {s : State} {r : Nat} {b : RBody} {p : Nat} {l : LaunchRun} {f : State → Nat → LaunchRun → State}
    (h : s.mayIssue r b p l) : s.runInstr r b f = .next (f (s.setRegion r (s.issuing r)) p l) := by
  obtain ⟨h1, h2, h3⟩ := h
  have : ¬ s.now < l.notBefore := by omega
  simp [State.runInstr, h1, h2, this, State.issuing]

/-- An instruction of a unit outside skip mode runs. -/
theorem runUnit_eq {s : State} {r : Nat} {b : RBody} {p : Nat} {l : LaunchRun} {f : State → Nat → LaunchRun → State}
    (h : s.mayStart r b p l) : s.runUnit r b f = .next (f (s.setRegion r (s.issuing r)) p l) := by
  have hr := atInstr_lt h.1.1
  obtain ⟨k, a, u, c, hk⟩ := noteFirst_eq (s.region r) s.now
  rw [State.runUnit, runInstr_eq h.1]
  simp [region_setRegion _ _ _ _ hr, State.issuing, hk, h.2]

/-- An instruction of a unit in skip mode retires at issue without effect (R175). -/
theorem runUnit_skip {s : State} {r : Nat} {b : RBody} {p : Nat} {l : LaunchRun} {f : State → Nat → LaunchRun → State}
    (h : s.mayIssue r b p l) (hs : (s.region r).skip = true) :
    s.runUnit r b f = .next (s.setRegion r (s.issuing r).advance) := by
  have hr := atInstr_lt h.1
  obtain ⟨k, a, u, c, hk⟩ := noteFirst_eq (s.region r) s.now
  rw [State.runUnit, runInstr_eq h]
  simp [region_setRegion _ _ _ _ hr, State.issuing, hk, hs, State.passOver]

/-- Every outcome of an instruction's frame: nothing happens, or its effect on the region with the first issue noted. -/
theorem runInstr_cases (s : State) (r : Nat) (b : RBody) (f : State → Nat → LaunchRun → State) :
    s.runInstr r b f = .next s ∨ ∃ p l, s.mayIssue r b p l ∧ s.runInstr r b f = .next (f (s.setRegion r (s.issuing r)) p l) := by
  by_cases h1 : s.atInstr r b = true
  · cases h2 : s.regRun r with
    | none => left; simp [State.runInstr, h1, h2]
    | some e =>
      obtain ⟨p, l⟩ := e
      by_cases h3 : s.now < l.notBefore
      · left; simp [State.runInstr, h1, h2, h3]
      · right; exact ⟨p, l, ⟨h1, h2, by omega⟩, runInstr_eq ⟨h1, h2, by omega⟩⟩
  · left; simp [State.runInstr, h1]

end Sys2Proof.Machine
end

