-- ==== Sys2Proof/Tests/Slice0.lean ====
section
/-! SUPPORT. Tests: ill-formed commands that WellFormed refuses, a witness for the hypotheses of every statement that has
some, and a few results that the spec's own examples or hand calculation give. -/
namespace Sys2Proof.Tests
set_option Elab.async false
open Sys2Proof Sys2Proof.Machine

/-! Small states. -/

/-- Partition 0 has regions 0 and 1 and sixteen sequences; context 0 has 64 KiB of SRAM and 64 bank entries in each. -/
def part0 : PartRec := { PartRec.none with valid := true, regions := 3, seqCount := 16, limit := 1000, maxlvl := 15, clocheOk := true }
def ctx0 : CtxRec := ⟨true, 0, 0, 65536, 0, 64, 2 ^ 50⟩
def structure0 : TStruct := { TStruct.empty with
  parts := part0 :: List.replicate 7 .none, ctxs := ctx0 :: List.replicate 63 .none }

/-- A module that serves: rails up, image in force, phase 9, time LOCKED at 1 ms. -/
def up : State := { State.reset with
  trl := { Trl.reset with loaded := true, phase := 9, st := structure0 },
  board := { Board.reset with input := true, rails := true },
  time := { TimeSync.reset with now := 1000000, st := .locked },
  sec := { Sec.reset with fwok := true },
  obs := { Obs.reset with endpoint := some 8 } }

/-- The LAUNCH that partition 0 runs, of batch 7 on queue 0. -/
def run0 : LaunchRun := ⟨0, 0, 7, 0, 0, false, false, 0, false, none, 0, false⟩

/-- Regions 0 and 1 run a list of one instruction, with these descriptors and registers. -/
def reg0 (b : RBody) (descs : List Desc) (regs : Tab Word) : Region := { Region.reset with
  stores := [⟨[⟨b.mayVary, b⟩], descs⟩, ⟨[], []⟩], running := true, regs := regs }
def at0 (b : RBody) (descs : List Desc) (regs : Tab Word) : State := { up with
  parts := up.parts.set 0 { Part.reset with launch := some run0 },
  regions := reg0 b descs regs :: reg0 b descs regs :: List.replicate 14 .reset }

/-- The same with another region 0. -/
def at0With (b : RBody) (descs : List Desc) (regs : Tab Word) (g : Region → Region) : State :=
  (at0 b descs regs).setRegion 0 (g (reg0 b descs regs))

/-- A tensor of FP32 rows in SRAM. -/
def rows32 (base n m : Nat) : Desc := ⟨base, 0, [n, m, 0, 0, 0], [4 * n, 0, 0, 0], .fp32, 2, .sram, false, false, 0, 0⟩

/-- The state at another device time. -/
def atTime (n : Nat) (s : State) : State := { s with time := { s.time with now := n } }

theorem may_issue (b : RBody) (s : State) (h : s.atInstr 0 b = true) (h2 : s.regRun 0 = some (0, run0)) : s.mayIssue 0 b 0 run0 :=
  ⟨h, h2, Nat.zero_le _⟩
theorem may_start (b : RBody) (s : State) (h : s.atInstr 0 b = true) (h2 : s.regRun 0 = some (0, run0)) (h3 : (s.region 0).skip = false) :
    s.mayStart 0 b 0 run0 := ⟨may_issue b s h h2, h3⟩

/-! Scalar instructions. -/

def mov0 : MovF := ⟨3, 1, 2, noDesc, 0, 0, 5⟩
def movRegs : Tab Word := [(1, 7), (2, 9)]

theorem wit_scalar_moves : ∀ op : MovOp, (at0 (.mov op mov0) [] movRegs).mayIssue 0 (.mov op mov0) 0 run0 ∧
    ((at0 (.mov op mov0) [] movRegs).region 0).issued.length < 64 := by
  intro op
  cases op <;> exact ⟨may_issue _ _ (by decide) (by decide), by decide⟩

/-- The state after a command. -/
def after (i : Instr) (s : State) : State := match exec i s with | .next t => t | _ => s

/-- Table 05-9 by hand: 7 + 9 + 5, 7 × 14, 1 << 14, and a write to s0 that is discarded. -/
theorem test_scalar_moves : ((after (.movAdd 0 mov0) (at0 (.mov .add mov0) [] movRegs)).region 0).reg 3 = 21 ∧
    ((after (.movMul 0 mov0) (at0 (.mov .mul mov0) [] movRegs)).region 0).reg 3 = 98 ∧
    ((after (.movSet 0 { mov0 with sd := 0 }) (at0 (.mov .set { mov0 with sd := 0 }) [] movRegs)).region 0).reg 0 = 0 := by
  decide

def ldAt (imm : Nat) : MovF := ⟨3, 1, 2, noDesc, 0, 0, imm⟩

/-- The last aligned word of the carve-out may be loaded and stored; the next one, and an unaligned one, may not. -/
theorem wit_scalar_loads : (∀ op ∈ [MovOp.ld, .ld32, .st], ∀ imm ∈ [0, 65528, 65536, 3],
      (at0 (.mov op (ldAt imm)) [] []).mayIssue 0 (.mov op (ldAt imm)) 0 run0) ∧
    (∀ op ∈ [MovOp.ld, .ld32, .st], ∀ imm ∈ [0, 65528],
      let s := at0 (.mov op (ldAt imm)) [] []
      (s.regCarve 0).okAt ((s.region 0).movAddr (ldAt imm)) 8 = true ∧ (s.regCarve 0).okAt ((s.region 0).movAddr (ldAt imm)) 4 = true ∧
      ∀ w ∈ [true, false], (s.region 0).heldBack (bySpan [] [sramSpan ((s.region 0).movAddr (ldAt imm)) 8 w]) = false) ∧
    (∀ op ∈ [MovOp.ld, .ld32, .st], ∀ imm ∈ [65536, 3],
      let s := at0 (.mov op (ldAt imm)) [] []
      (s.regCarve 0).okAt ((s.region 0).movAddr (ldAt imm)) 8 = false ∧ (s.regCarve 0).okAt ((s.region 0).movAddr (ldAt imm)) 4 = false) := by
  refine ⟨fun op h imm h2 => may_issue _ _ ?_ ?_, ?_, ?_⟩
  · revert op imm; decide
  · revert op imm; decide
  · decide
  · decide

def loop0 (n : Nat) : LoopF := ⟨0, 0, n, 4, 2, 5⟩
/-- A count of MAXTRIP opens, 0 passes, one more than MAXTRIP fails. -/
theorem wit_loop : (∀ n ∈ [0, 4, 5], (at0 (.loop (loop0 n)) [] []).mayIssue 0 (.loop (loop0 n)) 0 run0 ∧
      ((at0 (.loop (loop0 n)) [] []).region 0).heldBack (bySpan [] (((at0 (.loop (loop0 n)) [] []).region 0).tripSpans (loop0 n))) = false) ∧
    ((at0 (.loop (loop0 4)) [] []).region 0).tripOf ((at0 (.loop (loop0 4)) [] []).regCarve 0) (loop0 4) = some 4 ∧
    ((at0 (.loop (loop0 0)) [] []).region 0).tripOf ((at0 (.loop (loop0 0)) [] []).regCarve 0) (loop0 0) = some 0 ∧
    ((at0 (.loop (loop0 5)) [] []).region 0).tripOf ((at0 (.loop (loop0 5)) [] []).regCarve 0) (loop0 5) = none := by
  refine ⟨fun n h => ⟨may_issue _ _ ?_ ?_, ?_⟩, by decide, by decide, by decide⟩ <;> revert n <;> decide

theorem test_loop : ((after (.loop 0 (loop0 4)) (at0 (.loop (loop0 4)) [] [])).region 0).loops = [⟨0, 0, 4, 2, 5⟩] ∧
    ((after (.loop 0 (loop0 5)) (at0 (.loop (loop0 5)) [] [])).region 0).skip = true := by decide

/-! Vector and matrix instructions: three rows of two FP32 elements at 0, 64 and 128. -/

def tensors : List Desc := [rows32 0 2 3, rows32 64 2 3, rows32 128 2 3]
def vec0 (n : Nat) : VecF := ⟨0, 1, 2, noDesc, noDesc, 0, 0, 0, 0, n, 0, 0, 0⟩
def vecAt (op : VecOp) (n : Nat) : State := at0 (.vec op (vec0 n)) tensors [(4, 2), (5, 4)]
def opnd0 (i n : Nat) : Opnd := ⟨rows32 (64 * i) 2 n, 0, 0⟩

/-- SZREG names none, a register that holds 2, one that holds 4 rows of 3 (RANGE), and one that holds 0. -/
theorem wit_vector : (∀ op : VecOp, ∀ n ∈ [0, 4, 5, 6], (vecAt op n).mayStart 0 (.vec op (vec0 n)) 0 run0) ∧
    (∀ op ∈ [VecOp.add, .fma, .sort, .scan, .gather], let x := (vecAt op 0).region 0
      ∃ o, x.vecOpnds (vec0 0) = some o ∧ o.sized (op.takers false) (x.sizeOverride 0) = .ok (some o) ∧ o.ok ((vecAt op 0).regCarve 0) = true ∧
        x.heldBack (bySpan [.engine] (o.spans op)) = false) ∧
    (∀ op ∈ [VecOp.add, .fma, .sort, .scan, .gather], let x := (vecAt op 5).region 0
      ∃ o, x.vecOpnds (vec0 5) = some o ∧ o.sized (op.takers false) (x.sizeOverride 5) = .error .range) ∧
    ((vecAt .add 6).region 0).sizeOverride 6 = some 0 := by
  refine ⟨fun op n h => may_start _ _ ?_ ?_ ?_, fun op h => ⟨_, rfl, rfl, ?_, ?_⟩, fun op h => ⟨_, rfl, ?_⟩, by decide⟩
  · revert n; cases op <;> decide
  · revert n; cases op <;> decide
  · revert n; cases op <;> decide
  · revert op; decide
  · revert op; decide
  · simp only [List.mem_cons, List.not_mem_nil, or_false] at h
    rcases h with rfl | rfl | rfl | rfl | rfl <;> rfl

/-- 1.0 + 2.0 is 3.0, and a NaN meets MIN and MAX as R61 says. -/
theorem test_vec_add : (fAdd 0x3F800000 0x40000000).1 = 0x40400000 ∧ fMin 0x7FC00001 0x3F800000 = 0x3F800000 ∧
    fMax 0xFFC00000 0x7F800001 = 0x7FC00000 := by decide

theorem wit_nan : f32val 0x7FC00001 = .nan ∧ f32val 0x3F800000 ≠ .nan := by decide

/-- Two rows of four FP32 elements, and eight entries of 128. -/
def acts : Desc := rows32 0 4 2
def wide : Desc := rows32 0 128 8
def mul0 : MulF := ⟨5, 1, 0, 0, 0, 0, 0, 1, 0, 0, 0, 3, 0⟩
def loadw0 : LoadwF := ⟨5, 1, 0, 0, 0, 0⟩
def preload0 : PreloadF := ⟨5, 7, 0, 0, 0⟩
def bank0 : BankF := ⟨5, 1, 3, 0, 0, 0⟩
def bclear0 : BankF := ⟨5, 1, 3, noDesc, 0, 0⟩
def ready1 : WSet := { WSet.empty with st := .ready, regs := [(0, 0x3F800000)] }
/-- Blocks 0 and 2 hold weight set 1 in a state; blocks 1 and 3 to 5 hold nothing. -/
def withSet (st : SetState) (x : Region) : Region :=
  let b := { Block.reset with sets := [.empty, { ready1 with st := st }, .empty, .empty] }
  { x with blocks := [b, .reset, b, .reset, .reset, .reset] }

/-- A MUL on READY sets, and one on FREE sets that fails with STATE. -/
theorem wit_matmul : ∀ st ∈ [SetState.ready, .free], let s := at0With (.mul mul0) [acts] [] (withSet st)
    s.mayStart 0 (.mul mul0) 0 run0 ∧ (∃ o, (s.region 0).opnd 0 0 = some o ∧ o.sized ((s.region 0).sizeOverride 0) = .ok (some o) ∧
      o.ok (s.regCarve 0) o.matAux = true ∧
      (s.region 0).heldBack (bySpan ((blocksOf 5).map RUnit.block) (o.spans o.matAux false) ++
        (blocksOf 5).map (fun b => (⟨some (.block b), bankSpan b 3 (o.d.dim 1) true⟩ : USpan))) = false) ∧
    ∀ b ∈ blocksOf 5, (((s.region 0).block b).set 1).st ≠ .loading := by
  intro st h
  refine ⟨may_start _ _ ?_ ?_ ?_, ⟨_, rfl, rfl, ?_, ?_⟩, ?_⟩ <;> revert st <;> decide

theorem wit_weight_loads :
    (let s := at0With (.loadw loadw0) [rows32 0 4 4] [] (withSet .free)
     s.mayStart 0 (.loadw loadw0) 0 run0 ∧ (s.region 0).desc 0 = some (rows32 0 4 4) ∧
     (∀ b ∈ blocksOf 5, ((rows32 0 4 4).at_ (offBlock 0 0 b)).ok (s.regCarve 0) ((rows32 0 4 4).at_ (offBlock 0 0 b)).matAux = true ∧
       (((s.region 0).block b).set 1).st = .free) ∧
     (s.region 0).heldBack ((blocksOf 5).flatMap (fun b => bySpan [.block b] (((rows32 0 4 4).at_ (offBlock 0 0 b)).spans
       ((rows32 0 4 4).at_ (offBlock 0 0 b)).matAux false))) = false) ∧
    (let s := at0 (.preload preload0) [rows32 0 16 1] []
     s.mayStart 0 (.preload preload0) 0 run0 ∧ ∃ o, (s.region 0).opnd 0 0 = some o ∧ o.ok (s.regCarve 0) o.matAux = true ∧
       (s.region 0).heldBack (bySpan ((blocksOf 5).map RUnit.block) (o.spans o.matAux false)) = false) ∧
    (let s := at0 (.bank .bclear bclear0) [] []
     s.mayStart 0 (.bank .bclear bclear0) 0 run0 ∧
       (s.region 0).heldBack ((blocksOf 5).map (fun b => (⟨some (.block b), bankSpan b 1 3 true⟩ : USpan))) = false) := by
  refine ⟨⟨may_start _ _ (by decide) (by decide) (by decide), by decide, by decide⟩,
    ⟨may_start _ _ (by decide) (by decide) (by decide), ⟨_, rfl, by decide, by decide⟩⟩,
    ⟨may_start _ _ (by decide) (by decide) (by decide), by decide⟩⟩

theorem wit_bank_copies : ∀ op ∈ [BankOp.bstore, .bload], let s := at0 (.bank op bank0) [wide] []
    s.mayStart 0 (.bank op bank0) 0 run0 ∧ (s.region 0).desc 0 = some wide ∧ (∀ o ∈ bankOpnds (s.region 0) bank0, o.2.ok (s.regCarve 0) false = true) ∧
    ∀ w ∈ [true, false], (s.region 0).heldBack ((bankOpnds (s.region 0) bank0).flatMap (fun o => bySpan [.block o.1] (o.2.spans false w))
      ++ (blocksOf 5).map (fun b => (⟨some (.block b), bankSpan b 1 3 (!w)⟩ : USpan))) = false := by
  intro op h
  refine ⟨may_start _ _ ?_ ?_ ?_, ?_, ?_, ?_⟩ <;> revert op <;> decide

theorem wit_weight_sets : (let s := at0With (.loadw loadw0) [] [] (withSet .loading); (((s.region 0).block 2).set 1).st = .loading) ∧
    (let s := at0With (.loadw loadw0) [] [] (withSet .retiring); (((s.region 0).block 2).set 1).st = .retiring) ∧
    (at0 (.loadw loadw0) [] []).regions.length = 16 ∧ ((withSet .loading .reset).block 2).sets.length = 4 := by decide

theorem test_weight_set_ready : let s := after (.weightSetReady 0 2 1 (some ⟨3, 5, true⟩)) (at0With (.loadw loadw0) [] [] (withSet .loading))
    (((s.region 0).block 2).set 1).st = .ready ∧ (((s.region 0).block 2).set 1).failed = some (3, 5) ∧ (((s.region 0).block 0).set 1).st = .loading := by
  decide

/-! SYNC. -/

def sync0 : SyncF := ⟨2, 0, 1, 0, 0⟩
def issued0 : Issued := ⟨0, 0, ⟨false, .vec .add (vec0 0)⟩, [.engine], [], [], .ok, .ok, [], .none, 0⟩

/-- A SYNC behind an unretired instruction, and one behind none: WAITGE of a counter at 0 waits for 1. -/
theorem wit_sync : (∀ op : SyncOp, (at0 (.sync op sync0) [] []).mayIssue 0 (.sync op sync0) 0 run0 ∧
      (at0With (.sync op sync0) [] [] (fun x => { x with issued := [issued0] })).mayIssue 0 (.sync op sync0) 0 run0) ∧
    (at0With (.sync .post sync0) [] [] (fun x => { x with issued := [issued0] })).region 0 ≠ reg0 (.sync .post sync0) [] [] := by
  refine ⟨fun op => ⟨may_issue _ _ ?_ ?_, may_issue _ _ ?_ ?_⟩, by decide⟩ <;> cases op <;> decide

/-- A region alone at its barrier waits; with another's arrival it goes on. -/
theorem test_rbar : ((after (.rbar 0 sync0) (at0 (.sync .rbar sync0) [] [])).region 0).wait = some ⟨1000000, true⟩ ∧
    ((after (.syncWaitEnd 0) (after (.rbar 1 sync0) (after (.rbar 0 sync0) (at0 (.sync .rbar sync0) [] [])))).region 0).wait = none := by
  decide

def waits (timeout since : Nat) (arrived : Bool) : State :=
  at0With (.sync .rbar { sync0 with timeout := timeout }) [] [] (fun x => { x with wait := some ⟨since, arrived⟩ })

/-- A wait that has and one that has not arrived; a timeout that is 0, and one of 10 µs at its end and 1 ns before it. -/
theorem wit_sync_waits : (∀ a : Bool, (waits 0 0 a).waiting 0 = some (0, .rbar, { sync0 with timeout := 0 }, ⟨0, a⟩)) ∧
    (∀ a : Bool, (waits 10 990000 a).waiting 0 = some (0, .rbar, { sync0 with timeout := 10 }, ⟨990000, a⟩)) ∧
    990000 + 10 * 1000 ≤ (waits 10 990000 true).now ∧ (waits 10 990001 true).now < 990001 + 10 * 1000 ∧
    (waits 10 0 true).syncMet 0 0 .rbar sync0 = true ∧ (waits 10 0 true).syncMet 0 0 .waitge sync0 = false := by decide

theorem test_sync_timeout : ((after (.syncTimeout 0) (waits 10 990000 false)).region 0).fail = .timeout ∧
    ((after (.syncTimeout 0) (waits 10 990001 false)).region 0).wait = some ⟨990001, false⟩ := by decide

/-! The region DMA engine: context 0 maps its first 64 KiB to the start of HBM, and the region's cache holds that range. -/

def entry0 : RangeEntry := ⟨true, true, true, true, 0, 0, 16, 0, 0⟩
def mapped (s : State) : State := { s with mem := { s.mem with tables := [(0, [entry0])] } }
def dma0 (xp : Nat) : MovF := ⟨0, 1, 0, 0, 0, xp, 0⟩
def dmaAt (op : MovOp) (xp : Nat) : State :=
  mapped (at0With (.mov op (dma0 xp)) tensors [(1, 0x1000)] (fun x => { x with rlc := [⟨false, 0, 0, entry0⟩] }))

def dmaPlan : List (List Piece) := [0, 8, 16].map (fun i => [⟨0x1000 + i, 0x1000 + i, 8, entry0⟩])

/-- A register that XP needs aligned, and one that is not. -/
theorem wit_dma : (∀ op ∈ [MovOp.dmain, .dmaout], ∀ xp ∈ [0, 1], (dmaAt op xp).mayStart 0 (.mov op (dma0 xp)) 0 run0) ∧
    (∀ op ∈ [MovOp.dmain, .dmaout], let s := dmaAt op 0; let x := s.region 0
      x.opnd 0 0 = some (opnd0 0 3) ∧ (opnd0 0 3).ok (s.regCarve 0) false = true ∧ x.dmaBusy = false ∧
        (∀ w ∈ [true, false], x.heldBack (bySpan [.dma] ((opnd0 0 3).spans false w)) = false) ∧ s.heldLines dmaPlan.flatten = [] ∧
        (∀ y ∈ dmaPlan.flatten, y.remote s = false ∧ mapRow y.loc = .hbm ∧ s.badUnit y.loc y.len = none ∧ s.badPartial y.loc y.len = none)) ∧
    (∀ op ∈ [MovOp.dmain, .dmaout], ∀ k ∈ [AccKind.read, .write],
      (((dmaAt op 0).begun 0).planRows 0 0 run0 k (((dmaAt op 0).region 0).dmaRows (dma0 0) (opnd0 0 3).d)).1.map (fun x => (x.got, x.fail))
        = some (dmaPlan, none)) ∧
    (let s := (dmaAt .dmaout 0).begun 0
     s.windowOk (((s.region 0).dmaRows (dma0 0) (opnd0 0 3).d).map (fun y => s.reach (s.regVia 0 run0) (y.2 / 4096 + 2) y.1 y.2)) = true) ∧
    (((dmaAt .dmain 1).region 0).reg 1).toNat % 64 = 0 ∧ (((dmaAt .dmain 1).region 0).reg 1 + 1).toNat % 64 ≠ 0 := by
  refine ⟨fun op h xp h2 => may_start _ _ ?_ ?_ ?_, by decide, ?_, by decide +kernel, by decide, by decide⟩
  · revert op xp; decide
  · revert op xp; decide
  · revert op xp; decide
  · decide +kernel

/-- Rows that reach a receive window and HBM: the window check fails. -/
theorem wit_dma_window : up.windowOk [[⟨0x50000000000, 0x50000000000, 8, entry0⟩], [⟨0x1000, 0x1000, 8, entry0⟩]] = false := by decide

/-- Three rows of eight bytes come in from 0x1000 and go out there. -/
theorem test_dma : (let s := dmaAt .dmain 0
      let t := after (.dmain 0 (dma0 0)) { s with mem := { s.mem with loc := [(0x1008, 7)] } }
      (t.region 0).sramByte 8 = 7 ∧ (t.region 0).pc = 1) ∧
    (let s := dmaAt .dmaout 0
      let t := after (.dmaout 0 (dma0 0)) (s.setRegion 0 ((s.region 0).sramPut 9 5))
      t.mem.loc = [(0x1009, 5)] ∧ (t.region 0).pc = 1) := by decide

theorem wit_rlc : (let s := mapped (at0 (.mov .dmain (dma0 0)) [] []); s.regRun 0 = some (0, run0) ∧
      s.entryFor (s.regVia 0 run0) 0x2000 = some (entry0, 0) ∧ s.rlcTag 0 run0 ⟨0x2000, 0, 0, entry0⟩ ∉ (s.region 0).rlc) ∧
    (let s := dmaAt .dmain 0; s.rlcTag 0 run0 ⟨0x2000, 0, 0, entry0⟩ ∈ (s.region 0).rlc) := by decide

/-! Key-value instructions: sequence 3 of partition 0 is LIVE with 20 positions of BF16 keys and values of two elements. -/

def geom0 : Word := BitVec.ofNat 64 (2 + 4 * 16 + 2 ^ 30 + 2 ^ 59)
def page0 (st : PageState) (frame : Nat) : PageRun := ⟨0, 2, frame, st, false⟩
def seq0 (st : SeqState) : Seq := { Seq.free with st := st, geom := geom0, length := 20, runs := [page0 .priv 8], runFrames := [4], scoreFrame := some 5 }
def ints (base n m : Nat) : Desc := { rows32 base n m with fmt := .int32 }
def list0 (base : Nat) : Desc := { ints base 1 0 with rank := 1, size := [1, 0, 0, 0, 0], stride := [0, 0, 0, 0] }
def halfs (base : Nat) : Desc := { rows32 base 2 1 with fmt := .bf16, stride := [4, 0, 0, 0] }
def rows3 (base : Nat) : Desc := { halfs base with rank := 3, size := [2, 1, 4, 0, 0], stride := [4, 4, 0, 0] }
def kvDescs : List Desc := [list0 0, ints 64 2 1, halfs 128, halfs 192, ints 64 3 1, rows3 256, rows3 320, rows32 384 1 1, ints 64 4 1]
/-- Operands of each operation: SEQD, KD, VD, AUXD. -/
def kv0 : KvOp → Nat → KvF
  | .append, z => ⟨0, 2, 3, 1, 0, 0, 0, z⟩
  | .read, z => ⟨0, 5, 6, 4, 0, 0, 0, z⟩
  | .score, z => ⟨0, 7, noDesc, 1, 0, 0, 0, z⟩
  | .len, z => ⟨0, noDesc, noDesc, 8, 0, 0, 0, z⟩
/-- The sequence number 3 stands at byte 0 of SRAM, the position 17 at byte 64. -/
def kvAt (op : KvOp) (z : Nat) (x : Seq) : State :=
  let s := at0With (.kv op (kv0 op z)) kvDescs [(4, 1)] (fun y => (y.sramPut 0 3).sramPut 64 (if op = .score then 0 else 17))
  { s with kv := { s.kv with seqs := [(3, x)] } }

/-- Each instruction as declared and with the count 1 of a register. -/
theorem wit_kv : ∀ op : KvOp, ∀ z ∈ [0, 4], let s := kvAt op z (seq0 .live)
    s.mayStart 0 (.kv op (kv0 op z)) 0 run0 ∧ ∃ a a2, (s.region 0).kvArgs (kv0 op z) = some a ∧ a.shaped op = true ∧
      kvSized (s.region 0) op (kv0 op z) a a2 ∧ a2.fits (s.regCarve 0) = true ∧ (s.region 0).dmaBusy = false ∧
      (s.region 0).heldBack (bySpan [.dma] (a2.spans op)) = false := by
  intro op z h
  refine ⟨may_start _ _ ?_ ?_ ?_, ?_⟩
  · revert z; cases op <;> decide
  · revert z; cases op <;> decide
  · revert z; cases op <;> decide
  · simp only [List.mem_cons, List.not_mem_nil, or_false] at h
    rcases h with rfl | rfl
    · cases op <;> exact ⟨_, _, rfl, by decide, rfl, by decide, by decide, by decide⟩
    · cases op <;> exact ⟨_, _, rfl, by decide, ⟨by decide, by decide, rfl⟩, by decide, by decide, by decide⟩

/-- LEN of sequence 3 leaves 20 and 0 in its AUX row, SCORE of its group 0 a score. -/
theorem test_len_score : (let t := after (.len 0 (kv0 .len 0)) (kvAt .len 0 (seq0 .live)); (t.region 0).sramByte 64 = 20 ∧ (t.region 0).pc = 1) ∧
    (let t := after (.score 0 (kv0 .score 0)) (kvAt .score 0 (seq0 .live)); (t.seq 3).score 0 = some 0 ∧ (t.region 0).pc = 1) := by decide +kernel

/-- APPEND of position 17 writes its page, and waits for a page copy of a SHARED page whose frames have two holders. -/
theorem test_append : (let t := after (.append 0 (kv0 .append 0)) (kvAt .append 0 (seq0 .live))
      (t.region 0).issued.map (fun i => (i.fail, i.pend == .none)) = [(.ok, true)] ∧ (t.region 0).pc = 1) ∧
    (let t := after (.append 0 (kv0 .append 0)) (kvAt .append 0 (seq0 .free)); (t.region 0).issued.map (·.fail) = [.state]) := by decide +kernel

def kvArgs0 : KvArgs := ⟨(list0 0).at_ 0, (ints 64 2 1).at_ 0, some ((rows32 384 1 1).at_ 0), none, 1, 0⟩
/-- A row of a sequence outside the range, one that is not LIVE, one of a layer that is not held, and one that is. -/
theorem wit_kv_rows : (let s := kvAt .score 0 (seq0 .live)
      kvArgs0.seqd.bits ((s.region 0).view (s.regCarve 0)) 0 = 3 ∧ s.ownsSeq 0 3 = true ∧ s.ownsSeq 0 16 = false ∧ s.ownsSeq 0 15 = true ∧
      (s.seq 3).st = .live ∧ (s.seq 3).geo.hg0 = 0 ∧ (s.seq 3).geo.ng = 1 ∧ (s.seq 3).geo.nl = 1 ∧
      kvArgs0.aux.pos40 ((s.region 0).view (s.regCarve 0)) 0 < 16384) ∧
    ((kvAt .score 0 (seq0 .releasing)).seq 3).st ≠ .live := by decide

/-! Routing. -/

def routeDescs : List Desc := [ints 0 1 1, rows32 64 1 1, rows32 128 8 1, ints 192 5 1, ints 256 2 1, ints 320 2 1]
def route0 : RouteOp → RouteF
  | .place => ⟨0, 1, noDesc, 3, 4, 8, 9, 10, 0, 0⟩
  | .send => ⟨0, 1, 2, 5, 4, 11, 9, 12, 0, 0⟩
  | .returnAcc | .returnSlot => ⟨noDesc, noDesc, 2, noDesc, 2, 13, 0, 0, 0, 0⟩
/-- CAP 1 and 2 experts; return slot 2; for SEND 2 experts; for a return one row. -/
def routeRegs : Tab Word := [(2, 2), (3, 7), (8, 131073), (10, 131072), (11, 131072), (12, 131072), (13, 1)]
def routeAt (op : RouteOp) (g : Region → Region) : State :=
  at0With (.route op (route0 op)) routeDescs routeRegs (fun x => g { x with slots := [(2, ⟨true, false, [], 3⟩)] })

theorem wit_place : (routeAt .place id).mayIssue 0 (.route .place (route0 .place)) 0 run0 ∧
    (routeAt .place (fun x => { x with skip := true })).mayIssue 0 (.route .place (route0 .place)) 0 run0 ∧
    (let s := routeAt .place id; let x := s.region 0; let a := x.routeArgs (route0 .place)
     x.skip = false ∧ x.placeRegs (route0 .place) = some ⟨1, 2, 0, false, 2⟩ ∧ a.choice = some ((ints 0 1 1).at_ 0) ∧
     a.out = some ((ints 192 5 1).at_ 0) ∧ (x.slot 2).bound = true ∧ a.fits (s.regCarve 0) = true ∧ x.dmaBusy = false ∧
     x.heldBack (bySpan [.dma] (a.spans true)) = false ∧ ((s.part 0).submit 7 x.places (.empty 0 0)).isSome = true) ∧
    (routeAt .place (fun x => { x with regs := [] })).mayIssue 0 (.route .place (route0 .place)) 0 run0 ∧
    ((routeAt .place (fun x => { x with regs := [] })).region 0).placeRegs (route0 .place) = none :=
  ⟨may_issue _ _ (by decide) (by decide), may_issue _ _ (by decide) (by decide), by decide +kernel, may_issue _ _ (by decide) (by decide), by decide⟩

theorem test_place : let t := after (.place 0 (route0 .place)) (routeAt .place id)
    (t.part 0).rounds.map (fun e => (e.number, e.batch, e.subs.length)) = [(0, 7, 1)] ∧ ((t.region 0).slot 2).count = 0 ∧ (t.region 0).pc = 1 := by
  decide +kernel

theorem wit_send_returns : (∀ op ∈ [RouteOp.send, .returnAcc, .returnSlot], (routeAt op id).mayStart 0 (.route op (route0 op)) 0 run0 ∧
      (let s := routeAt op id; let x := s.region 0; let a := x.routeArgs (route0 op)
       a.fits (s.regCarve 0) = true ∧ x.dmaBusy = false ∧ x.heldBack (bySpan [.dma] (a.spans false)) = false)) ∧
    (let x := (routeAt .send id).region 0; let a := x.routeArgs (route0 .send)
     a.choice.isSome = true ∧ a.weight.isSome = true ∧ a.token.isSome = true ∧ a.idx.isSome = true ∧ a.out = some ((ints 320 2 1).at_ 0) ∧
     (x.reg 11).toNat = 2 * 65536 ∧ (x.reg 12).toNat = 131072) ∧
    (let x := (routeAt .returnAcc id).region 0; let a := x.routeArgs (route0 .returnAcc)
     a.token = some ((rows32 128 8 1).at_ 0) ∧ a.idx = some ((rows32 128 8 1).at_ 0) ∧ (x.reg 13).toNat = (rows32 128 8 1).dim 1) := by
  refine ⟨fun op h => ⟨may_start _ _ ?_ ?_ ?_, ?_⟩, by decide, by decide⟩
  · revert op; decide
  · revert op; decide
  · revert op; decide
  · revert op; decide +kernel

/-- Two choices of one expert with CAP 1: the second takes the pool's one row, a third is dropped; −1 is none. -/
theorem test_router : (Router.choices 2 1 1 [1, -1, 1, 1] ⟨[], 0, 0⟩).1 = [.at_ 0 false, .none, .at_ 1 true, .dropped] := by decide

def sub0 (r : Nat) : Submission := ⟨r, r, 0, 2, true, 1, 1, 2, 1, 0, false, false, [1]⟩
def round0 (n : Nat) : RoundEntry := ⟨0, 7, (List.range n).map sub0, false, 0, none⟩
def withRound (n : Nat) : State :=
  let s := routeAt .place (fun x => { x with issued := [{ issued0 with pend := .round }] })
  let x : Part := { Part.reset with
    launch := some run0, rounds := [round0 n, { round0 1 with number := 4, cancelledAt := some 0 }], filter := [(7, 0)] }
  { s with parts := s.parts.set 0 x }

/-- A round that both regions submitted to, and one that one of them did. -/
theorem wit_rounds : (∀ n ∈ [1, 2], ((withRound n).part 0).launch = some run0 ∧ (withRound n).inReset = false ∧
      ((withRound n).part 0).rounds.find? (fun e => e.takes 0 7) = some (round0 n)) ∧
    ((withRound 2).regionsOf 0).length ≤ (round0 2).subs.length ∧ (round0 1).subs.length < ((withRound 1).regionsOf 0).length ∧
    (round0 1).subs = [sub0 0] ∧ (sub0 0).rows = true ∧ (sub0 0).region < (withRound 1).regions.length ∧ 0 < (withRound 1).parts.length := by decide

theorem test_round_place : (let t := after (.roundPlace 0 0) (withRound 2)
      (t.part 0).dropped = 1 ∧ (t.region 0).issued.map (·.pend) = [.none]) ∧
    (let t := after (.roundEntryExpire 0 4) (atTime 10000000 (withRound 2));
      (t.part 0).rounds.map (·.number) = [0]) := by decide +kernel

/-! Taps, retirement and records. -/

def tap0 : TapF := ⟨0, 0, 5⟩
theorem wit_tap : (at0 (.tap tap0) tensors []).mayStart 0 (.tap tap0) 0 run0 ∧
    (let s := at0 (.tap tap0) tensors []
     (s.region 0).opnd 0 0 = some (opnd0 0 3) ∧ (opnd0 0 3).ok (s.regCarve 0) true = true ∧
     (s.region 0).heldBack (bySpan [.engine] ((opnd0 0 3).spans true false)) = false ∧ s.inCloche 0 = false ∧ Tab.get none (s.part 0).taps 5 = none) ∧
    (let s := at0 (.tap tap0) tensors []; let s := s.setPart 0 { s.part 0 with taps := [(5, some ⟨4, []⟩)] }
     s.inCloche 0 = false ∧ Tab.get none (s.part 0).taps 5 = some ⟨4, []⟩ ∧ s.atInstr 0 (.tap tap0) = true) :=
  ⟨may_start _ _ (by decide) (by decide) (by decide), by decide, by decide⟩

def retiring (fail : Status) : State :=
  at0With (.vec .add (vec0 0)) tensors [] (fun x => { x with issued := [{ issued0 with flags := [(3, 4), (9, 1)], fail := fail }], pc := 1 })

/-- An instruction that ended well, and one that a lane's failed check meets. -/
theorem wit_retire : let s := retiring .ok
    s.partOfRegion 0 = some 0 ∧ s.inReset = false ∧ (s.region 0).issued.find? (fun i => i.units.contains .engine) = some { issued0 with flags := [(3, 4), (9, 1)] } ∧
    (s.region 0).canRetire { issued0 with flags := [(3, 4), (9, 1)] } = true ∧ (RetireFault.lane 3).fits issued0 = true ∧ (RetireFault.cell 0 0 0).fits issued0 = false := by
  decide

theorem test_retire : (let t := after (.instructionRetire 0 .engine none) (retiring .range)
      (t.region 0).fail = .range ∧ (t.region 0).skip = true ∧ (t.region 0).flags = 5 ∧ (t.region 0).issued = []) ∧
    (let t := after (.instructionRetire 0 .engine (some (.lane 3))) (retiring .ok); (t.region 0).fail = .data) := by decide +kernel

/-- A record of 36 bytes with one FP32 1.0, and a slot whose landing tensor takes two of them. -/
def record (batch epoch kind gen : Nat) : List Byte :=
  leBytes 4 batch ++ leBytes 2 epoch ++ leBytes 2 1 ++ leBytes 2 0 ++ leBytes 2 1 ++ leBytes 8 0 ++ leBytes 2 kind ++ leBytes 2 gen
    ++ leBytes 4 0x40000000 ++ leBytes 4 0 ++ leBytes 4 0x3F800000
def landing0 : Desc := ⟨128, 0, [9, 2, 1, 0, 0], [36, 72, 0, 0], .fp32, 3, .sram, false, false, 0, 0⟩
def transit0 (bs : List Byte) : TransitRec := ⟨0, 0, bs, .none⟩
def landAt (bs : List Byte) : State :=
  let s := at0With (.sync .recv sync0) [landing0] [] (fun x => { x with slots := [(0, ⟨true, false, [], 0⟩)] })
  { s.setPart 0 { s.part 0 with filter := [(9, 0)], held := [⟨0, 0, bs, 0⟩] } with transit := [transit0 bs] }

/-- A partial record and a record of each route kind land; a route record of an old epoch is stale; one of batch 9 is cancelled; one of
batch 8 is held; a kind that is not listed is dropped. -/
theorem wit_records : (landAt (record 7 0 1 0)).landing 0 0 0 (record 7 0 1 0) = .lands 0 1 true ∧
    (∀ k ∈ [2, 3], (landAt (record 7 0 k 0)).landing 0 0 0 (record 7 0 k 0) = .lands 0 1 true) ∧
    (landAt (record 7 0 4 0)).landing 0 0 0 (record 7 0 4 0) = .lands 0 0 true ∧
    (landAt (record 7 1 2 0)).landing 0 0 0 (record 7 1 2 0) = .stale ∧ (landAt (record 9 0 2 0)).landing 0 0 0 (record 9 0 2 0) = .cancelled ∧
    (landAt (record 8 0 1 0)).landing 0 0 0 (record 8 0 1 0) = .held ∧ (landAt (record 7 0 5 0)).landing 0 0 0 (record 7 0 5 0) = .drop 1 ∧
    (landAt (record 7 0 5 0)).batchRuns 0 0 (record 7 0 5 0) = true ∧ (landAt (record 7 0 1 0)).partOfRegion 0 = some 0 ∧
    isRoute (record 7 0 1 0) = false ∧ isRoute (record 7 0 4 0) = true ∧ (landAt (record 7 0 1 0)).inReset = false ∧
    transit0 (record 7 0 1 0) ∈ (landAt (record 7 0 1 0)).transit := by decide +kernel

/-- Kind 3 lands its payload times its weight: 1.0 × 2.0; a record held at 0 is too old 10 ms and 1 ns later. -/
theorem test_records : (let t := after (.routeRecordLand (transit0 (record 7 0 3 0))) (landAt (record 7 0 3 0))
      (t.region 0).sramLoad (128 + 36 + 32) 4 = leBytes 4 0x40000000 ∧ ((t.region 0).slot 0).count = 1 ∧ t.transit = []) ∧
    (let t := after (.recordLand (transit0 (record 7 0 5 0))) (landAt (record 7 0 5 0)); (t.region 0).fail = .range) ∧
    (let t := after (.heldRecordExpire 0) (atTime 10000001 (landAt (record 7 0 1 0))); (t.part 0).held = [] ∧ (t.part 0).partialStale = 1) ∧
    (let t := after (.heldRecordExpire 0) (atTime 10000000 (landAt (record 7 0 1 0))); (t.part 0).held.length = 1) := by decide +kernel

/-- A row that waits for the copy of frame 8, a page of sequence 3 that two sequences share, to frame 16. -/
def cow0 : KvAct := ⟨3, 0, some (8, 16, 1), 0, [1], [2]⟩
def copying : State :=
  let s := at0With (.kv .append (kv0 .append 0)) kvDescs [] (fun x => { x with issued := [{ issued0 with pend := .cow [cow0] }] })
  { s with kv := { s.kv with seqs := [(3, { seq0 .live with runs := [⟨0, 1, 8, .shared, false⟩, ⟨1, 1, 9, .priv, false⟩] })], refs := [(8, 2), (9, 1), (16, 1)] } }
theorem wit_copies : copying.inReset = false ∧ copying.regRun 0 = some (0, run0) ∧
    (copying.region 0).issued = [] ++ { issued0 with pend := .cow [cow0] } :: [] ∧ copying.queuedActs = [cow0] ∧
    copying.badUnit (8 * 65536) 65536 = none ∧
    (match copying.ownPage 0 3 0 16 with | .ok _ => true | .error _ => false) = true ∧
    (let s := { copying with mem := { copying.mem with bad := [8 * 1024] } }; s.badUnit (8 * 65536) 65536 = some (8 * 65536)) ∧
    (let s := kvAt .len 0 (seq0 .releasing); (s.seq 3).st = .releasing ∧ s.rowsQueued 3 = false) ∧ copying.rowsQueued 3 = true ∧
    ((kvAt .len 0 (seq0 .live)).seq 3).st ≠ .releasing := by decide +kernel

/-- A source with an uncorrectable error fails the row with DATA; the page stays SHARED on frame 8, and frame 16 is free. -/
theorem test_cow_copy : let t := after (.cowCopyDone 0) { copying with mem := { copying.mem with bad := [8 * 1024] } }
    (t.seq 3).runs.head? = some ⟨0, 1, 8, .shared, false⟩ ∧ Tab.get 0 t.kv.refs 8 = 2 ∧ Tab.get 0 t.kv.refs 16 = 0 ∧
    (t.region 0).issued.map (fun i => (i.pend, i.fail)) = [(.none, .data)] := by decide +kernel

theorem test_sequence_free : (let s := kvAt .len 0 (seq0 .releasing)
      let t := after (.sequenceFree 3) { s with kv := { s.kv with refs := [(4, 1), (5, 2), (8, 1)] } }
      t.seq 3 = .free ∧ t.kv.refs = [(5, 1)]) := by decide +kernel

/-! Commands: user queue 0 acts in context 0 of partition 0. -/

def running0 (b : CmdBody) (opcode : Nat) : Running := ⟨⟨opcode, 128, 41, 2 ^ 64 - 1, b⟩, 0, 0, 0, 0, some 2000000, false, none, .ok, 0xFFFF, 0, 0, [], [], 0, 0, none, none, none, none⟩
def queue0 (st : QState) (b : CmdBody) (opcode : Nat) : Queue := { Queue.reset with
  state := st, ring := ⟨true, 4, 0x10000⟩, cring := ⟨true, 4, 0x20000⟩, enable := true, running := some (running0 b opcode) }
def serving0 : State := mapped { up with qmap := [(0, ⟨0, 0, false, true⟩)], slots := up.slots.set 0 { Slot.reset with en := true, sel := some 0 } }
/-- Queue q of 0 (a user queue) and 515 (system queue 3) runs the command. -/
def cmdOn (q : Nat) (b : CmdBody) (opcode : Nat) (s : State) : State := s.setQueue q (queue0 .active b opcode)
def cmdAt (b : CmdBody) (opcode : Nat) : State := cmdOn 0 b opcode serving0
theorem may_run (b : CmdBody) (opcode : Nat) (s : State) (h : (s.queue 0).running = some (running0 b opcode)) (h2 : opcode ≠ 0x19)
    (h3 : s.ctxOf 0 (2 ^ 64 - 1) = 0) (h4 : s.partOfCtx 0 = some 0) : s.mayRun 0 b (running0 b opcode) 0 0 :=
  ⟨h, rfl, rfl, by simpa [queueAccepts, running0] using h2, h3, h4⟩

/-- One command of each opcode that a user queue takes. -/
def cmd0 : List (CmdBody × Nat) :=
  [(.nop, 0), (.launch ⟨0x1000, 0, 7, 0, 0, false, false⟩, 1), (.fenceSignal ⟨3, 5, true, false⟩, 2), (.fenceWait ⟨3, 10, 5⟩, 3),
   (.copy ⟨0x1000, 0x2000, 8, 0, false⟩, 4), (.barrier ⟨2, 10⟩, 5), (.kvAppend ⟨0x1000, 1⟩, 8), (.kvFork ⟨3, 4, 18, false⟩, 9),
   (.kvRelease ⟨0x1000, 1⟩, 0xA), (.kvPrune ⟨0x1000, 1, 0, 0, 0, 0⟩, 0xB), (.wgtBuild ⟨0x2000, true, false, false, false⟩, 0x10),
   (.wgtSwitch 1, 0x11), (.wgtRetire 1, 0x12), (.tapSet ⟨5, 0x3000, true⟩, 0x18), (.tapSet ⟨5, 0x3000, false⟩, 0x18)]
theorem wit_commands : ∀ e ∈ cmd0, (cmdAt e.1 e.2).mayRun 0 e.1 (running0 e.1 e.2) 0 0 ∧ cmdOk e.1 = true := by
  intro e h
  exact ⟨may_run _ _ _ (by revert e; decide +kernel) (by revert e; decide) (by revert e; decide +kernel) (by revert e; decide +kernel),
    by revert e; decide⟩

/-- A command that owes answers, and one that owes none. -/
theorem wit_completion : (let s := cmdAt .nop 0; (s.queue 0).running = some (running0 .nop 0) ∧ (running0 .nop 0).owed = 0 ∧
      (s.queue 0).state ≠ .complBlocked ∧ s.partOfCtx (s.ctxOf 0 (running0 .nop 0).cmd.word1) = some 0 ∧ s.inCloche 0 = false) ∧
    (let s := cmdAt .nop 0
     let s := { s with sec := { s.sec with cloche := s.sec.cloche.set 0 { Cloche.off with st := .admitted } } }
     s.partOfCtx (s.ctxOf 0 (running0 .nop 0).cmd.word1) = some 0 ∧ s.inCloche 0 = true) ∧
    ({ running0 .nop 0 with owed := 2 } : Running).owed ≠ 0 := by decide +kernel

/-- NOP leaves a record of SEQ 41 and status OK; a COPY's STATE holds the queue. -/
theorem test_completion : (let t := after (.nop 0) (cmdAt .nop 0)
      (t.queue 0).inflight.map (fun w => (leAt w.bytes 0 4, leAt w.bytes 4 1, leAt w.bytes 22 2)) = [(41, 0, 0xFFFF)] ∧ (t.queue 0).running = none ∧
      (t.slot 0).sel = none) ∧
    (let b := CmdBody.fenceWait ⟨3, 10, 5⟩; let t := after (.fenceWait 0 ⟨3, 10, 5⟩) (cmdAt b 3)
      (t.queue 0).inflight.map (fun w => leAt w.bytes 4 1) = [1] ∧ (t.queue 0).state = .held) := by decide +kernel

def fenced (v : Option Nat) (s : State) : State := s.setPart 0 { s.part 0 with fences := match v with | some n => [(3, some n)] | none => [] }
/-- No fence, one at the value, below it, and above it; a wait whose time is over and one whose time is not. -/
theorem wit_fences : (∀ v ∈ [none, some 4, some 5, some 6], let s := fenced v (cmdAt (.fenceWait ⟨3, 10, 5⟩) 3)
      (s.part 0).fence 3 = v ∧ s.enabledCmd 0 (.fenceWait ⟨3, 10, 5⟩) = true ∧ s.partOfCtx 0 = some 0) ∧
    (∀ v ∈ [none, some 4, some 5, some 6], ∀ c ∈ [true, false], ∀ d ∈ [true, false],
      let s := fenced v (cmdAt (.fenceSignal ⟨3, 5, c, d⟩) 2)
      (s.part 0).fence 3 = v ∧ s.enabledCmd 0 (.fenceSignal ⟨3, 5, c, d⟩) = true ∧ s.partOfCtx 0 = some 0 ∧ 0 < s.parts.length) ∧
    (let x : Running := { running0 (.fenceWait ⟨3, 10, 5⟩) 3 with started := true, waitUntil := some 1000000 }
     (cmdAt .nop 0).waitOver x = true ∧ (cmdAt .nop 0).waitOver { x with waitUntil := some 1000001 } = false) := by decide +kernel

/-- A signal of 5 ends the wait of queue 1 for 5. -/
theorem test_fence : let s := fenced (some 4) (cmdAt (.fenceSignal ⟨3, 5, false, false⟩) 2)
    let w : Queue := { queue0 .active (.fenceWait ⟨3, 0, 5⟩) 3 with running := some { running0 (.fenceWait ⟨3, 0, 5⟩) 3 with started := true } }
    let t := after (.fenceSignal 0 ⟨3, 5, false, false⟩) { s.setQueue 1 w with qmap := [(0, ⟨0, 0, false, true⟩), (1, ⟨0, 0, false, true⟩)] }
    (t.part 0).fence 3 = some 5 ∧ (t.queue 1).running = none ∧ (t.queue 0).running = none := by decide +kernel

/-- Bytes at local addresses, and the state with them. -/
def holds (ws : List (Nat × List Byte)) (s : State) : State :=
  { s with mem := { s.mem with loc := ws.foldl (fun (m : Memory) w => m.store w.1 w.2) s.mem.loc } }

def copy0 : CopyF := ⟨0x1000, 0x2000, 8, 0, false⟩
def tapSet0 : TapSetF := ⟨5, 0x3000, false⟩
def rake0 : RakeF := ⟨0x4000, 8192⟩
def started (b : CmdBody) (opcode : Nat) : State :=
  serving0.setQueue 0 { queue0 .active b opcode with running := some { running0 b opcode with started := true } }
def copyPieces (a : Nat) (n : Nat) : List Piece := [⟨a, a, n, entry0⟩]
/-- The copy under way, its source and destination translated. -/
def copying0 (xc : Bool) : State :=
  let b := CmdBody.copy { copy0 with xc := xc }
  serving0.setQueue 0 { queue0 .active b 4 with
    running := some { running0 b 4 with started := true, moves := some (copyPieces 0x1000 8, copyPieces 0x2000 8) } }
/-- The RAKE of system queue 3 in context 0, under way or not. -/
def rakeRun (going : Bool) : Running := { running0 (.rake rake0) 0x19 with cmd := ⟨0x19, 128, 41, 0, .rake rake0⟩, started := going }
def raking (going : Bool) : State :=
  let s := mapped up
  { s.setQueue 515 { queue0 .active (.rake rake0) 0x19 with running := some (rakeRun going) } with
    obs := { s.obs with rake := if going then some 515 else none } }

/-- A plain copy between mapped addresses, and one whose source no range maps; a tap area of capacity 4; a RAKE on system queue 3. -/
theorem wit_copy_tap_rake :
    (match (cmdAt (.copy copy0) 4).copyPlan 0 0 copy0 with | .ok m => m == (copyPieces 0x1000 8, copyPieces 0x2000 8) | _ => false) = true ∧
    (match (cmdAt (.copy { copy0 with src := 0x10000 }) 4).copyPlan 0 0 { copy0 with src := 0x10000 } with | .error .range => true | _ => false) = true ∧
    (∀ xc ∈ [true, false], let s := copying0 xc
      (match (s.queue 0).running with
        | some x => x.started && x.ending.isNone && x.moves == some (copyPieces 0x1000 8, copyPieces 0x2000 8) | none => false) = true ∧
      s.heldLines (copyPieces 0x1000 8 ++ copyPieces 0x2000 8) = [] ∧
      (∀ y ∈ copyPieces 0x1000 8 ++ copyPieces 0x2000 8, y.remote s = false ∧ mapRow y.loc = .hbm ∧ s.badUnit y.loc y.len = none ∧
        s.badPartial y.loc y.len = none)) ∧
    (match ((copying0 true).readPieces (.cmd 0) ⟨0, 0, none⟩ 1 41 0 (copyPieces 0x1000 8)).1 with | .done bs => bs == List.replicate 8 0 | _ => false)
      = true ∧
    (let s := holds [(0x3000, [4])] (cmdAt (.tapSet tapSet0) 0x18)
     leAt (s.mem.loc.load 0x3000 64) 0 4 = 4 ∧ (match s.translate ⟨0, 0, none⟩ .write 0x3000 (64 + 64 * 4) with
       | .ok ps => ps == copyPieces 0x3000 320 | _ => false) = true ∧ (match s.translate ⟨0, 0, none⟩ .write 0x3004 8 with
       | .ok ps => ps == copyPieces 0x3004 8 | _ => false) = true ∧ s.heldLines (copyPieces 0x3000 64) = [] ∧ s.heldLines (copyPieces 0x3004 8) = [] ∧
     ∀ y ∈ copyPieces 0x3000 320 ++ copyPieces 0x3000 64 ++ copyPieces 0x3004 8, y.remote s = false ∧ mapRow y.loc = .hbm ∧
       s.badUnit y.loc y.len = none ∧ s.badPartial y.loc y.len = none) ∧
    (let s := raking true
     s.obs.rake = some 515 ∧ (s.queue 515).running = some (rakeRun true) ∧ (rakeRun true).ending = none ∧ s.partOfCtx (s.ctxOf 515 0) = some 0 ∧
     (match (s.cmdWrite 515 (s.ctxOf 515 0) 0 0x4000 (s.rakeBytes (min 200 (8192 / 4096 - 1)))).1 with | .done () => true | _ => false)
       = true) := by
  decide +kernel

theorem wit_rake : (raking false).mayRun 515 (.rake rake0) (rakeRun false) 0 0 ∧ (raking false).obs.rake = none ∧
    (raking true).obs.rake = some 515 :=
  ⟨⟨by decide +kernel, rfl, rfl, by decide, by decide +kernel, by decide +kernel⟩, rfl, rfl⟩

/-- COPY and COPY_DONE move eight bytes; TAP_SET arms; RAKE_DONE ends RANGE when it did not hold every ring. -/
theorem test_copy_tap : (let s := holds [(0x1003, [9])] (copying0 false); (after (.copyDone 0) s).mem.loc = [(0x1003, 9), (0x2003, 9)]) ∧
    (let t := after (.tapSet 0 tapSet0) (holds [(0x3000, [4])] (cmdAt (.tapSet tapSet0) 0x18))
     Tab.get none (t.part 0).taps 5 = some ⟨4, [(0x3000, 320)]⟩ ∧ (t.queue 0).running = none) := by decide +kernel

/-! Key-value commands: partition 0 has frames 32 to 63 of HBM, and one entry stands at 0x1000. -/

def kvPool (s : State) : State :=
  { s with trl := { s.trl with st := { s.trl.st with spans := [⟨3, 0, 0x200000, 0x200000⟩] } }, kv := { s.kv with geomA := [(0, geom0)] } }
def listAt (b : CmdBody) (opcode : Nat) (x : Seq) (entry : List Byte) : State :=
  let s := holds [(0x1000, entry)] (kvPool (cmdAt b opcode))
  { s with kv := { s.kv with seqs := [(3, x)], refs := [(4, 1), (5, 1), (8, 1), (9, 1)] } }
def appendBytes (n : Nat) : List Byte := leBytes 4 3 ++ leBytes 4 n ++ leBytes 8 0

/-- The list is here; an append, a fork, a release and a prune that end well, and ones that do not. -/
theorem wit_kv_lists : (let s := listAt (.kvAppend ⟨0x1000, 1⟩) 8 (seq0 .live) (appendBytes 20)
      (s.prefetch (.cmd 0) 0 (s.listPieces 0 0 16 0x1000 1)).1 = true ∧ s.enabledCmd 0 (.kvAppend ⟨0x1000, 1⟩) = true ∧
      (s.appendEntry 0 0 (AppendEntry.parse (appendBytes 20))).1 = .ok ∧ (s.appendEntry 0 0 (AppendEntry.parse (appendBytes (2 ^ 20 + 1)))).1 = .range ∧
      (s.fork 0 0 3 4 18 false).1 = .ok ∧ (s.fork 0 0 3 4 21 false).1 = .state ∧ (s.fork 0 0 3 16 18 false).1 = .denied ∧
      s.rowsQueued 3 = false ∧ s.rowsQueued 4 = false ∧ s.queuedActs = [] ∧ copying.rowsQueued 3 = true ∧ copying.ownsSeq 0 3 = true ∧
      (s.releaseEntry 0 3).1 = .ok ∧ (s.releaseEntry 0 4).1 = .state ∧ (s.releaseEntry 0 16).1 = .denied) ∧
    (let s := listAt (.kvPrune ⟨0x1000, 1, 0, 0, 0, 0⟩) 0xB (seq0 .live) (leBytes 4 3); (s.pruneEntry 0 0 3 ⟨0x1000, 1, 0, 0, 0, 0⟩).1 = .ok) ∧
    (let s := listAt (.kvAppend ⟨0x1000, 1⟩) 8 .free (appendBytes 20)
     (s.appendEntry 0 0 ⟨3, 5, 16, 0, true, false, false, 0, false⟩).1 = .ok ∧ (s.appendEntry 0 0 (AppendEntry.parse (appendBytes 20))).1 = .state) := by
  decide +kernel

/-- An append of 20 positions to 20, and an OPEN at position 16 with 5 more. -/
theorem test_kv_append : (let t := after (.kvAppend 0 ⟨0x1000, 1⟩) (listAt (.kvAppend ⟨0x1000, 1⟩) 8 (seq0 .live) (appendBytes 20))
      (t.seq 3).length = 40 ∧ (t.queue 0).running = none) ∧
    (let t := ((listAt (.kvAppend ⟨0x1000, 1⟩) 8 .free []).appendEntry 0 0 ⟨3, 5, 16, 0, true, false, false, 0, false⟩).2
     (t.seq 3).length = 21 ∧ (t.seq 3).pos0 = 16 ∧ (t.seq 3).st = .live) := by decide +kernel

/-! Weights: generation 1 in entry 0 in a state, generation 4 in entry 1. -/

def gens0 (st : GenState) (refs : Nat) : Tab Gen := [(0, { Gen.free with gen := 1, st := st, refs := refs, root := 16 }), (1, { Gen.free with gen := 4, st := .ready, root := 16 })]
def weighs (st : GenState) (refs : Nat) (s : State) : State := { s with wgt := { s.wgt with gens := gens0 st refs } }
def build0 : WgtBuildF := ⟨0x2000, true, false, false, false⟩
def building0 : Build := ⟨0, 0, 0, 2, build0, leBytes 64 2, true, some ⟨none, []⟩⟩
def buildAt (gen : Nat) : State := holds [(0x2000, leBytes 2 gen)] (weighs .current 0 (cmdAt (.wgtBuild build0) 0x10))
/-- The block read, checked and taken, as WGT_BUILD does it. -/
def buildPlan (gen : Nat) : Option (Except (Option Status) BuildPlan) :=
  match (buildAt gen).cmdRead 0 0 0 .read 0x2000 64 with
  | (.done bs, u) => if pblkCheck build0 bs ≠ .ok then none else match u.takeEntry 0 0 0 build0 bs with
    | .ok (b, v) => some ((v.modRunning 0 (fun y => { y with started := true })).planBuild b).1
    | .error e => some (.error (some e))
  | _ => none

/-- Generation 2 inherits; 1 is there already (STATE); 0xFFFF is reserved; a build loads; the states that the commands on generations meet. -/
theorem wit_weights : (match buildPlan 2 with | some (.ok x) => x == ⟨none, []⟩ | _ => false) = true ∧
    (match buildPlan 1 with | some (.error (some e)) => e == .state | _ => false) = true ∧ (buildPlan 0xFFFF).isNone = true ∧
    (let s := weighs .current 0 (started (.wgtBuild build0) 0x10)
     let s := (s.setGen 0 2 { Gen.free with gen := 2, st := .building })
     let s := { s with wgt := { s.wgt with builds := [building0] } }
     s.buildOf 0 = some building0 ∧ s.inReset = false ∧ (match (s.loadBuild building0 ⟨none, []⟩).1 with | .ok _ => true | _ => false) = true) ∧
    (∀ st ∈ [GenState.building, .ready, .current, .draining], let s := weighs st 1 (cmdAt (.wgtSwitch 1) 0x11)
      s.entryOf 0 1 = some 0 ∧ (s.gen 0 0).st = st ∧ s.entryOf 0 4 = some 1 ∧ (s.gen 0 1).st = .ready ∧ s.entryOf 0 5 = none) ∧
    (∀ k, k < 8 → ((weighs .ready 1 (cmdAt (.wgtSwitch 1) 0x11)).gen 0 k).st ≠ .building) := by decide +kernel

/-- A switch to generation 4 leaves 1 READY; a build that is done leaves its entry READY; retiring with one batch drains. -/
theorem test_weights : (let t := after (.wgtSwitch 0 4) (weighs .current 0 (cmdAt (.wgtSwitch 4) 0x11)); (t.gen 0 0).st = .ready ∧ (t.gen 0 1).st = .current) ∧
    (let t := after (.wgtRetire 0 1) (weighs .ready 1 (cmdAt (.wgtRetire 1) 0x12)); (t.gen 0 0).st = .draining) ∧
    (let t := after (.wgtBuildDone 0) (after (.wgtBuild 0 build0) (buildAt 2)); (t.gen 0 2).st = .ready ∧ (t.queue 0).running = none) := by decide +kernel

/-! The compress pass: a source at 0x8000, its output at 0x10000. What it computes for a source that passes is beyond what the kernel evaluates
here (its header alone has 7,616 bytes and three digests); a source that fails is within it. -/

def pack0 : WgtBuildF := ⟨0x2000, false, true, false, false⟩
def packBlock : List Byte := leBytes 8 2 ++ leBytes 32 0x8000 ++ leBytes 8 0x10000 ++ leBytes 8 0 ++ leBytes 8 0x1080C
def packing : Build := ⟨0, 0, 0, 2, pack0, packBlock, false, none⟩
def err {α : Type} (x : Checked α) : Option Status := match x.1 with
  | .ok _ => none
  | .error e => e
/-- The state of the pass, and the one before it. -/
def packBefore : State := weighs .current 0 (holds [(0x2000, packBlock)] (cmdAt (.wgtBuild pack0) 0x10))
def packAt (src : Nat) : State :=
  let s := holds [(0x2000, packBlock), (0x8000, leBytes 8 src)] (weighs .current 0 (started (.wgtBuild pack0) 0x10))
  { s with wgt := { s.wgt with builds := [packing] } }

/-- The block read and checked, the entry taken; SEGLOG 11 is RANGE and a reserved bit DENIED; a source without the magic number is DENIED, at
WGT_BUILD and at its end; a build whose data is not where it was planned fails. -/
theorem wit_packs : (match packBefore.cmdRead 0 0 0 .read 0x2000 64 with
      | (.done bs, u) => decide (bs = packBlock) && (pblkCheck pack0 bs == .ok) && (match u.takeEntry 0 0 0 pack0 bs with | .ok (b, _) => b == packing | _ => false)
      | _ => false) = true ∧
    pblkCheck pack0 (packBlock.set 56 11) = .range ∧ pblkCheck pack0 (packBlock.set 59 1) = .denied ∧
    err ((packAt 5).packCheck packing) = some .denied ∧ err ((packAt 5).packRun packing) = some .denied ∧
    (packAt 5).buildOf 0 = some packing ∧ (packAt 5).inReset = false ∧
    err ((packAt 5).loadBuild { packing with packed := true } ⟨none, [⟨⟨0, [], 8, true⟩, 0x90000, none⟩]⟩) = some .range := by decide +kernel

/-! LAUNCH: an image of one WAITALL at 0x1000, its instruction at offset 64. -/

def waitall0 : SyncF := ⟨0, 0, 0, 0, 0⟩
def image0 : List Byte := leBytes 8 (0x4B325047 + 2 ^ 32) ++ leBytes 8 1 ++ leBytes 8 64 ++ leBytes 40 0 ++ leBytes 16 (RInstr.encode ⟨false, .sync .waitall waitall0⟩)
def launch0 : LaunchF := ⟨0x1000, 0, 7, 1, 9, false, false⟩
/-- The LAUNCH dispatched, its batch 7 bound to generation 1 or to none; with an image of another magic number the second time. -/
def launchAt (gen : Option Nat) (img : List Byte) : State :=
  let s := holds [(0x1000, img)] (weighs .current 1 (cmdAt (.launch launch0) 1))
  s.setQueue 0 { s.queue 0 with
    batch := gen.map (fun g => ⟨7, 0, g, 1⟩), running := some { running0 (.launch launch0) 1 with gen := gen } }

theorem wit_launch : (∀ gen ∈ [some 1, none], let s := launchAt gen image0
      (s.queue 0).running = some { running0 (.launch launch0) 1 with gen := gen } ∧ queueAccepts 0 1 = true ∧ s.ctxOf 0 (2 ^ 64 - 1) = 0 ∧ s.partOfCtx 0 = some 0 ∧ (s.launchReady 0 0 0 launch0).1 = true ∧
      (let a := (s.launchReady 0 0 0 launch0).2
       let b := (a.readImage 0 0 0 0x1000 false).2.2
       let d := (b.readArgs 0 0 0 0).2.dropFetched (.cmd 0)
       (match (a.readImage 0 0 0 0x1000 false).1 with | .ok im => im.store.instrs == [⟨false, .sync .waitall waitall0⟩] | _ => false) = true ∧
       (match (b.readArgs 0 0 0 0).1 with | .ok _ => true | _ => false) = true ∧
       d.parts.length = s.parts.length ∧ d.regions.length = s.regions.length ∧ d.regionsOf 0 = [0, 1] ∧ (d.region 1).stores.length = 2 ∧
       (d.region 1).cur < 2)) ∧
    (let s := launchAt (some 1) (image0.set 0 0)
     let a := (s.launchReady 0 0 0 launch0).2
     let r := a.readImage 0 0 0 0x1000 false
     (s.launchReady 0 0 0 launch0).1 = true ∧ (match r.1 with | .error e => e == .denied | _ => false) = true ∧
     (match (r.2.2.readArgs 0 0 0 0).1 with | .ok _ => true | _ => false) = true) ∧
    (let s := at0With (.sync .waitall waitall0) [] [] (fun x => { x with pc := 1 })
     let s := s.setRegion 1 (s.region 0)
     s.launchDone 0 = true ∧ s.inReset = false ∧ (s.part 0).launch = some run0) := by decide +kernel

/-- The regions start at instruction 0 with their index, the count, the batch and the generation in s1 to s4; their last instruction retired, the
command completes. -/
theorem test_launch : (let t := after (.launch 0 launch0) (launchAt (some 1) image0)
      ((t.region 1).reg 1, (t.region 1).reg 2, (t.region 1).reg 3, (t.region 1).reg 4, (t.region 1).pc) = (1, 2, 7, 1, 0) ∧ (t.region 1).running = true ∧
      (let u := after (.launchComplete 0) (after (.waitall 1 waitall0) (after (.waitall 0 waitall0) t))
       (u.part 0).launch = none ∧ (u.queue 0).inflight.map (fun w => leAt w.bytes 4 1) = [0])) := by decide +kernel

/-! Queue registers, slots and epochs: queue 5 of serving0, assigned to slot 0, with rings in host memory. -/

/-- Requester rq may write the register at each offset of a list. -/
def mayWriteAll (rq : Requester) (os : List Nat) (s : State) : Bool :=
  s.portUp rq && (s.halves rq).held.isNone && os.all (fun o => (s.gateCode rq o).isNone)
theorem may_write (rq : Requester) (os : List Nat) (s : State) (h : mayWriteAll rq os s = true) (o : Nat) (ho : o ∈ os) : s.mayWrite rq o := by
  simp only [mayWriteAll, Bool.and_eq_true, List.all_eq_true, Option.isNone_iff_eq_none] at h
  exact ⟨h.1.1, h.1.2, h.2 o ho⟩

def plain0 (st : QState) : Queue := { queue0 st .nop 0 with running := none, ring := ⟨false, 4, 0x10000⟩, cring := ⟨false, 4, 0x20000⟩ }
/-- The host's windows of partition 0 are the first 16 MiB. -/
def windowed (s : State) : State :=
  { s with trl := { s.trl with st := { s.trl.st with spans := [⟨7, 0, 0, 0x1000000⟩] } }, qmap := [(5, ⟨0, 0, false, true⟩), (6, ⟨0, 0, true, true⟩)] }
def queueAt (st : QState) (g : Queue → Queue) : State := (windowed serving0).setQueue 5 (g (plain0 st))
def nopRec : List Byte := leBytes 2 0 ++ leBytes 4 41 ++ leBytes 2 0 ++ leBytes 8 (2 ^ 64 - 1) ++ leBytes 48 0
def write0 : ComplWrite := ⟨leBytes 32 0, false, false⟩

/-- A ring register of a DISABLED queue and of an IDLE one; CHEAD up to CTAIL and beyond it; doorbells of each kind; a fetch that returns
and one outside the windows; a completion write that may be acknowledged. -/
theorem wit_queue_registers : (∀ st ∈ [QState.disabled, .idle], mayWriteAll .host [qOff 5 0, qOff 5 8, qOff 5 0x10, qOff 5 0x18, qOff 5 0x20] (queueAt st id) = true) ∧
    (4 ≤ bits (8 : Nat) 5 1 ∧ bits (8 : Nat) 5 1 ≤ 16 ∧ bit 8 0 = false) ∧
    (∀ v ∈ [6, 34, 2 ^ 48 + 9], (((queueAt .disabled id).queue 5).ring.put v).2 = false ∧ (((queueAt .disabled id).queue 5).cring.put v).2 = false) ∧
    (∀ st ∈ [QState.complBlocked, .fetchBlocked, .aborting, .stopped, .active, .held], 15 < ((queueAt st id).queue 5).ring.size ∧
      ((queueAt st id).queue 5).state = st) ∧
    (let s := queueAt .active (fun x => { x with ring := ⟨true, 4, 0x10000⟩, cring := ⟨true, 4, 0x20000⟩, tail := 8, pass := some 8, inflight := [write0] })
     (s.queue 5).mayFetch = true ∧ s.heldLocal 0x10000 64 = [] ∧ s.heldLocal 0x20000 32 = [] ∧ s.badUnit 0x10000 64 = none ∧
     ({ s with mem := { s.mem with snoop := [0x400] } } : State).heldLocal 0x10000 64 = [0x400] ∧
     ({ s with mem := { s.mem with bad := [0x400] } } : State).badUnit 0x10000 64 = some 0x10000) ∧
    (let s := queueAt .active (fun x => { x with cring := { x.cring with base := 0x1000000 }, inflight := [write0] })
     s.complOk 5 = false ∧ (s.queue 5).state ≠ .aborting ∧ (s.queue 5).inflight ≠ []) ∧
    (let x := (queueAt .active (fun x => { x with ctail := 3, chead := 1 })).queue 5
     let n := x.cring.size
     n = 16 ∧ (3 + n - x.chead) % n ≤ (x.ctail + n - x.chead) % n ∧ (x.ctail + n - x.chead) % n < (4 + n - x.chead) % n) ∧
    (let x := (queueAt .idle id).queue 5; x.ring.size ≤ 16 ∧ 15 < x.ring.size ∧ x.pass = none ∧ x.fidx ≠ 15) ∧
    (∀ fidx ∈ [0, 15], let s := queueAt .active (fun x => { x with fidx := fidx, tail := 8, pass := some 8 })
     let x := s.queue 5
     s.inReset = false ∧ x.mayFetch = true ∧ x.ring.loc = false ∧ s.ringOk 5 x.ring (x.ring.base + 64 * x.fidx) 64 = true) ∧
    (let s := queueAt .active (fun x => { x with ring := { x.ring with base := 0x1000000 }, tail := 8, pass := some 8 })
     (s.queue 5).mayFetch = true ∧ s.ringOk 5 (s.queue 5).ring 0x1000000 64 = false) ∧
    (∀ ctail ∈ [0, 15], let s := queueAt .active (fun x => { x with ctail := ctail, inflight := [write0] })
     s.inReset = false ∧ (s.queue 5).inflight = [write0] ∧ s.complOk 5 = true) := by decide +kernel

/-- A doorbell fetches a record; its acknowledged completion turns PHASE at the ring's end. -/
theorem test_queue_registers : (let t := after (.ringFetch 5 true) (after (.doorbell .host 5 1 []) (queueAt .idle id));
      (t.queue 5).fidx = 1 ∧ (t.queue 5).pass = none ∧ (t.queue 5).fetched.length = 1) ∧
    (let t := after (.completionWriteAck 5) (queueAt .active (fun x => { x with ctail := 15, inflight := [write0] }));
      (t.queue 5).ctail = 0 ∧ (t.queue 5).phase = false ∧ t.mem.host = [(0x201E5, 1)]) := by decide +kernel

/-- Each state that an action takes, and one that it does not. -/
theorem wit_queue_actions : (∀ st : QState, mayWriteAll .host [qOff 5 0x20] (queueAt st id) = true) ∧
    (∀ st ∈ [QState.disabled, .stopped, .idle], (queueAt st id).enableOk 5 = true ∧ ((queueAt st id).queue 5).shadow = [] ∧ ((queueAt st id).queue 5).state = st) ∧
    ({ queueAt .disabled id with qmap := [] } : State).enableOk 5 = false ∧
    (∀ st ∈ [QState.disabled, .stopped], let s := queueAt st (fun x => { x with shadow := [write0] })
      s.enableOk 5 = true ∧ (s.queue 5).shadow ≠ [] ∧ (s.queue 5).state = st ∧ (s.queue 5).running = none) ∧
    (let x := (queueAt .fetchBlocked (fun x => { x with fprior := .active })).queue 5; x.state = .fetchBlocked ∧ x.fprior = .active) ∧
    (∀ st ∈ [QState.active, .fetchBlocked, .held], let x := (queueAt .complBlocked (fun x => { x with prior := st })).queue 5
      x.state = .complBlocked ∧ x.prior = st ∧ x.shadow = []) ∧
    (let s := queueAt .complBlocked (fun x => { x with prior := .active, shadow := [write0] }); (s.queue 5).shadow = [write0] ∧ s.complOk 5 = true) := by
  refine ⟨fun st => by cases st <;> decide +kernel, ?_⟩
  decide +kernel

theorem test_queue_actions : ((after (.skip .host 5) (queueAt .held id)).queue 5).state = .idle ∧
    ((after (.abort .host 5) (queueAt .active (fun x => { x with tail := 3, fidx := 3, head := 3 }))).queue 5).state = .idle ∧
    ((after (.zero .host 5) (queueAt .disabled (fun x => { x with head := 3, chead := 2 }))).queue 5).chead = 2 := by decide +kernel

def readyAt (g : Queue → Queue) : State := queueAt .active (fun x => g { x with fetched := [nopRec], staged := true })
/-- The tuning queue 6 selected in its slot, a serving queue of its partition ready. -/
def tuning : State :=
  let s := readyAt id
  { s.setQueue 6 (s.queue 5) with slots := serving0.slots.set 0 { Slot.reset with en := true, sel := some 6 } }

/-- A slot with an eligible queue and one without; a record to dispatch; a LAUNCH that waits for its regions; slots that fit and that do not;
an epoch newer and older than the LAUNCH's. -/
theorem wit_slots : (let s := { readyAt id with slots := serving0.slots.set 0 { Slot.reset with en := true } }
     (s.slot 0).en = true ∧ (s.slot 0).sel = none ∧ s.inReset = false ∧ s.eligible 0 = [5] ∧ (s.slot 1).en = false) ∧
    (let s := { queueAt .idle id with slots := serving0.slots.set 0 { Slot.reset with en := true } }; (s.slot 0).sel = none ∧ s.eligible 0 = []) ∧
    (let s := { readyAt id with slots := serving0.slots.set 0 { Slot.reset with en := true, sel := some 5 } }
     (s.queue 5).fetched = [nopRec] ∧ s.selected 5 = true ∧ s.pwr.ow = .serving ∧ s.headPart 5 = some 0 ∧ s.dispatchHeld 0 = false ∧ recOpcode nopRec = 0 ∧
     (s.queue 5).inflight.length < 8 ∧ s.tuneBarred 5 = false ∧ s.accepts 5 nopRec = true ∧ s.accepts 5 (nopRec.set 0 1) = false) ∧
    (let s := tuning; (s.queue 6).fetched = [nopRec] ∧ s.selected 6 = true ∧ s.tuneBarred 6 = true ∧ (s.queue 6).inflight.length < 8 ∧ s.inReset = false) ∧
    (let s := readyAt (fun x => { x with fetched := [nopRec.set 0 1], granted := true })
     s.accepts 5 (nopRec.set 0 1) = true ∧ queueAccepts 5 (recOpcode (nopRec.set 0 1)) = true ∧ s.headPart 5 = some 0 ∧
     (match (recCmd (nopRec.set 0 1)).body with | .launch _ => true | _ => false) = true) ∧
    (let s := { readyAt (fun x => { x with fetched := [nopRec.set 0 1] }) with slots := serving0.slots.set 0 { Slot.reset with en := true, sel := some 5 } }
     (s.part 0).launch = none ∧ s.grantOut 0 = false ∧ s.regionsOf 0 = [0, 1] ∧ s.waitsRegions 0 5 = true ∧ s.waitsRegions 0 512 = false) ∧
    (let s := windowed serving0; (allQueues.all (fun q => !(s.waitsRegions 0 q))) = true ∧ s.grantOut 0 = false) ∧
    (mayWriteAll .host [0x61000 + 8 * 5, 0x62000] (windowed serving0) = true ∧ (windowed serving0).slotFits 5 31 = false ∧ (windowed serving0).slotFits 5 0 = true) ∧
    (run0.batch = 7 ∧ newer 1 run0.epoch = true ∧ newer 0 run0.epoch = false ∧ newer 0x8001 run0.epoch = false ∧ newer 0x7FFF run0.epoch = true) := by
  decide +kernel

theorem test_slots : (let t := after (.commandDispatch 5 none) (after (.slotSelect 0) { readyAt id with slots := serving0.slots.set 0 { Slot.reset with en := true } });
      ((t.queue 5).running.map (fun x => (x.cmd.seq, x.cmd.opcode)), (t.slot 0).cmds) = (some (41, 0), 1)) ∧
    (let t := after (.commandDispatch 6 none) tuning; ((t.queue 6).running, (t.slot 0).sel, (t.queue 6).fetched) = (none, none, [nopRec])) ∧
    (let t := after (.epochRaise .host 7 1 0) (at0 (.mov .add mov0) [] []); (t.part 0).launch = some { run0 with epoch := 1 }) := by decide +kernel

/-! Device reset, power and start-up. -/

/-- A cancelled LAUNCH whose region still holds an instruction, its command waiting since 1 ms for its end. -/
def cancelling : State :=
  let s := at0With (.vec .add (vec0 0)) [] [] (fun x => { x with issued := [issued0] })
  let s := s.setPart 0 { s.part 0 with launch := some { run0 with cancelled := some .cancelled } }
  s.setQueue 0 { queue0 .active (.launch ⟨0x1000, 0, 7, 0, 0, false, false⟩) 1 with
    running := some { running0 (.launch ⟨0x1000, 0, 7, 0, 0, false, false⟩) 1 with started := true, waitUntil := some 1000000 } }
def resetting (s : State) : State := { s with rel := { s.rel with resets := { s.rel.resets with busy := true } } }

/-- An expired watchdog and one at its last moment; firmware that runs; FE_DEVRESET; a stop that takes too long. -/
theorem wit_resets : (let s := cmdAt .nop 0
     s.inReset = false ∧ (s.queue 0).running = some (running0 .nop 0) ∧ (running0 .nop 0).wdog = some 2000000 ∧ s.now < 2000000 ∧
     2000000 ≤ (atTime 2000000 s).now ∧ s.sec.fwok = true ∧ mayWriteAll .host [0x20020] s = true) ∧
    (BitVec.toNat (0xA5C3 : Word) % 65536 = 0xA5C3) ∧
    (let s := cancelling
     s.inReset = false ∧ s.regRun 0 = some (0, { run0 with cancelled := some .cancelled }) ∧
     (match (s.queue 0).running with | some y => y.waitUntil == some 1000000 | none => false) = true ∧ 1000000 ≤ s.now ∧ (s.region 0).issued ≠ []) ∧
    (let s := resetting (cmdAt .nop 0)
     s.inReset = true ∧ s.rel.resets.waitFw = false ∧ s.board.rails = true ∧ (s.queue 0).state ≠ .disabled ∧ (s.queue 1).state = .disabled ∧
     ∀ p, p < 8 → s.inCloche p = false) := by decide +kernel

theorem test_reset : (let t := after (.watchdogExpire 0) (atTime 2000000 (cmdAt .nop 0)); (t.rel.resets.cause, t.rel.resets.queue, t.rel.resets.seq, t.inReset) = (2, 0, 41, true)) ∧
    (let s := resetting (at0 (.mov .add mov0) [] [])
     let t := after (.deviceReset true) { (s.setQueue 5 (plain0 .active)) with sec := { s.sec with fwok := false }, trl := { s.trl with phase := 6 } };
     (t.queue 5).state = .stopped ∧ (t.part 0).launch = none ∧ t.inReset = false) := by decide +kernel

/-- The module at 48 V with its rails off; and one in phase 2. -/
def dark (f : Board → Board) : State := { State.reset with board := f { Board.reset with input := true } }
def phase2 : State := { dark (fun b => { b with rails := true }) with trl := { Trl.reset with phase := 2 } }

theorem wit_power : (State.reset.board.input = false ∧ State.reset.board.rails = false ∧ State.reset.board.heldOff = false ∧
      State.reset.board.critOff = false ∧ State.reset.board.sysReset = false) ∧
    (phase2.board.rails = true ∧ phase2.trl.phase ≤ 2 ∧ phase2.board.input = true ∧ phase2.board.sysReset = false) ∧
    (let s := dark (fun b => { b with railFails := 1 }); s.board.railFails = 1 ∧ s.board.mayRise = true) ∧
    (let s := dark (fun b => { b with sysReset := true }); s.board.sysReset = true ∧ s.board.input = true ∧ s.board.rails = false) ∧
    up.host.perst = false := by decide +kernel

/-- 44 V raises the rails, 43.999 V does not; a second rail failure holds them off; a pulse of 249 ns is nothing. -/
theorem test_power : (after (.powerOn 44000) .reset).trl.phase = 2 ∧ (after (.powerOn 43999) .reset).board.rails = false ∧
    (after (.railTimeout 3) { phase2 with board := { phase2.board with railFails := 1 } }).board.heldOff = true ∧
    (after (.sysResetN true 249) phase2).board.rails = true ∧ (after (.sysResetN true 1000) phase2).board.rails = false := by decide +kernel

/-! Containers. A digest is not evaluated here: a container holds it as it stands. -/

theorem cut_low (h d r : List Byte) (o n : Nat) (hl : o + n ≤ h.length) : ((h ++ (d ++ r)).drop o).take n = (h.drop o).take n := by
  rw [List.drop_append_of_le_length (by omega), List.take_append_of_le_length (by simp; omega)]
theorem cut_high (h d e r : List Byte) (o : Nat) (hd : d.length = e.length) (ho : h.length + d.length ≤ o) :
    (h ++ (d ++ r)).drop o = (h ++ (e ++ r)).drop o := by
  rw [List.drop_append, List.drop_append, List.drop_append, List.drop_append, List.drop_eq_nil_of_le (as := d) (by omega),
    List.drop_eq_nil_of_le (as := e) (by omega), hd]
theorem cut_mid (h d r : List Byte) : ((h ++ (d ++ r)).drop h.length).take d.length = d := by simp

/-- Two containers that differ in their key digest only. -/
structure Twins (a b d : List Byte) : Prop where
  len : a.length = b.length
  low : ∀ o n, o + n ≤ 128 → (a.drop o).take n = (b.drop o).take n
  high : ∀ o, 192 ≤ o → a.drop o = b.drop o
  mid : (a.drop 128).take 64 = d
theorem section_twins {a b d : List Byte} (t : Twins a b d) (p : Bool) (k : Nat) : parseSection a p k = parseSection b p k := by
  unfold parseSection
  simp only [t.high (7424 + 16 * k) (by omega)]
  split
  · rename_i h
    rw [t.high _ (by omega)]
  · rfl
theorem sections_twins {a b d : List Byte} (t : Twins a b d) (p : Bool) (k : Nat) : parseSections a p k = parseSections b p k := by
  induction k with
  | zero => rfl
  | succ k ih => simp only [parseSections, ih, section_twins t]
theorem bind_upd {α : Type} (u : Container → Container) (x : TCheck Unit) (y : TCheck α) (f : α → TCheck Unit) (g : α → Container) :
    (do x; let z ← y; f z; .ok (u (g z)) : TCheck Container) = Except.map u (do x; let z ← y; f z; .ok (g z)) := by
  cases x with
  | error e => rfl
  | ok z => cases y with
    | error e => rfl
    | ok z => cases h : f z <;> simp [Except.map, bind, Except.bind, h]
theorem container_twins {a b d : List Byte} (t : Twins a b d) :
    parseContainer a = (parseContainer b).map (fun c => { c with keydig := d }) := by
  unfold parseContainer
  simp only [leAt, zeroAt, t.len, t.mid, t.low 0 4 (by decide), t.low 4 2 (by decide), t.low 6 1 (by decide), t.low 7 1 (by decide), t.low 8 2 (by decide),
    t.low 10 6 (by decide), t.low 16 8 (by decide), t.low 24 40 (by decide), t.low 64 64 (by decide), t.high 7411 (by decide), t.high 192 (by decide), t.high 2784 (by decide), sections_twins t,
    fun n => t.high (7424 + 16 * n) (by omega)]
  rw [← bind_upd (fun c => { c with keydig := d })]
  rfl

def zeros (n : Nat) : List Byte := List.replicate n 0
/-- A container of a form, with directory and sections, whose key digest is d. -/
def sealedBy (form n len : Nat) (dir body d : List Byte) : List Byte :=
  leBytes 4 0x4B325452 ++ leBytes 2 1 ++ leBytes 1 form ++ leBytes 1 n ++ zeros 8 ++ leBytes 8 len ++ zeros 104 ++
    (d ++ (zeros 7232 ++ dir ++ zeros (256 - 16 * n) ++ body))
def dirEntry (sec count off : Nat) : List Byte := leBytes 4 sec ++ leBytes 4 count ++ leBytes 8 off
def modBytes : List Byte := leBytes 2 32 ++ leBytes 2 2000 ++ leBytes 2 2000 ++ leBytes 2 2400 ++ zeros 120
def clock0 (i : Nat) : Nat := defaultClock (i / 16) (i % 16) + 2 ^ 16 * defaultMv (i % 16)
def patch0 : List Byte → List Byte := sealedBy 1 1 7872 (dirEntry 2 1 7680) (zeros 8 ++ modBytes ++ zeros 56)
theorem sealed_twins (form n len : Nat) (dir body d e : List Byte) (hd : d.length = 64) (he : e.length = 64) :
    Twins (sealedBy form n len dir body d) (sealedBy form n len dir body e) d := by
  have hl : ∀ n v, (leBytes n v).length = n := by
    intro n; induction n with
    | zero => intro v; rfl
    | succ n ih => intro v; simp [leBytes, ih]
  have hh : (leBytes 4 0x4B325452 ++ leBytes 2 1 ++ leBytes 1 form ++ leBytes 1 n ++ zeros 8 ++ leBytes 8 len ++ zeros 104).length = 128 := by
    simp [hl, zeros]
  constructor
  · simp [sealedBy, hd, he]
  · intro o n h
    rw [sealedBy, sealedBy, cut_low _ _ _ _ _ (by omega), cut_low _ _ _ _ _ (by omega)]
  · intro o h
    exact cut_high _ _ _ _ _ (by omega) (by omega)
  · have := cut_mid (leBytes 4 0x4B325452 ++ leBytes 2 1 ++ leBytes 1 form ++ leBytes 1 n ++ zeros 8 ++ leBytes 8 len ++ zeros 104) d
      (zeros 7232 ++ dir ++ zeros (256 - 16 * n) ++ body)
    rwa [hh, hd] at this

theorem zeros_length (n : Nat) : (zeros n).length = n := List.length_replicate
theorem zeros_drop (n o : Nat) : (zeros n).drop o = zeros (n - o) := List.drop_replicate
theorem zeros_take (n o : Nat) : (zeros n).take o = zeros (min o n) := List.take_replicate

/-- A firmware container with a key digest, and the module whose fuses hold it. -/
def fwHead : List Byte := leBytes 4 0x4B324657 ++ leBytes 2 1 ++ zeros 10 ++ leBytes 8 7424 ++ zeros 40
def firmware (d : List Byte) : List Byte := fwHead ++ (d ++ zeros 7296)
def owned (s : State) : State := { s with sec := { s.sec with fuses := { s.sec.fuses with
  svn := 0, vendor := [⟨sha3 (zeros 2592), false⟩], owner := [⟨sha3 (zeros 2592), false⟩] } } }

/-- A container that the key signs is accepted: whether it does is open (Config.verify). -/
theorem wit_firmware (h : Config.verify (zeros 2592) (signedDigest (firmware (sha3 (zeros 2592))) 2720) (zeros 4627) = true) :
    (owned phase2).fwJudge (firmware (sha3 (zeros 2592))) = 0 := by
  have hd := sha3_length (zeros 2592)
  have hh : fwHead.length = 64 := by decide
  have low := fun o n => cut_low fwHead (sha3 (zeros 2592)) (zeros 7296) o n
  have high : ∀ o, 128 ≤ o → (firmware (sha3 (zeros 2592))).drop o = zeros (7424 - o) := by
    intro o ho
    rw [firmware, List.drop_append, List.drop_append, List.drop_eq_nil_of_le (by omega), List.drop_eq_nil_of_le (by omega), hh, hd, zeros_drop, List.nil_append, List.nil_append,
      show 7296 - (o - 64 - 64) = 7424 - o by omega]
  have mid : ((firmware (sha3 (zeros 2592))).drop 64).take 64 = sha3 (zeros 2592) := by
    have := cut_mid fwHead (sha3 (zeros 2592)) (zeros 7296)
    rwa [hh, hd] at this
  have len : (firmware (sha3 (zeros 2592))).length = 7424 := by simp [firmware, hh, hd, zeros_length]
  have at_ : ∀ o n, o + n ≤ 64 → leAt (firmware (sha3 (zeros 2592))) o n = leAt fwHead o n := by
    intro o n hl
    simp only [leAt, firmware, low o n (by omega)]
  have zero : ∀ o n, o + n ≤ 64 → zeroAt (firmware (sha3 (zeros 2592))) o n = zeroAt fwHead o n := by
    intro o n hl
    simp only [zeroAt, firmware, low o n (by omega)]
  have pub : ((firmware (sha3 (zeros 2592))).drop 128).take 2592 = zeros 2592 := by rw [high 128 (by omega), zeros_take, show min 2592 (7424 - 128) = 2592 by decide]
  have sig : ((firmware (sha3 (zeros 2592))).drop 2720).take 4627 = zeros 4627 := by rw [high 2720 (by omega), zeros_take, show min 4627 (7424 - 2720) = 4627 by decide]
  have pad : zeroAt (firmware (sha3 (zeros 2592))) 7347 77 = true := by rw [zeroAt, high 7347 (by omega)]; decide
  unfold State.fwJudge
  simp only [mid, pub, sig, h, pad, len, at_ 0 4 (by omega), at_ 4 2 (by omega), at_ 8 4 (by omega), at_ 16 8 (by omega), zero 6 2 (by omega),
    zero 12 4 (by omega), zero 24 40 (by omega)]
  simp [owned]
  decide

theorem ok_of {α : Type} [BEq α] [LawfulBEq α] (x : TCheck α) (a : α) (h : (match x with | .ok b => b == a | .error _ => false) = true) : x = .ok a := by
  cases x with
  | error e => cases h
  | ok b => rw [eq_of_beq h]

/-- A structure that passes its checks (lists that are shorter stand for zeros), and a patch that writes its MODULE record again. -/
def struct1 : TStruct := { TStruct.empty with
  parts := { PartRec.none with valid := true, regions := 3, seqCount := 16, limit := 1000, maxlvl := 15, clocheOk := true } :: List.replicate 7 .none
  clocks := (List.range 112).map clock0
  queues := []
  shares := []
  modrec := { ModRec.none with root := true, sustMax := 2000, sust := 2000, peak := 2400 } }
def patchable : State := owned { up with trl := { up.trl with st := struct1 }, eft := { up.eft with coord := ⟨0, true, 0, 0, false⟩ } }
def names0 : List (Nat × Nat × List Byte) := [(2, 0, modBytes)]
set_option maxRecDepth 20000

theorem judge_of (s : State) (b : List Byte) (c : Container) (t : TStruct) (h1 : parseContainer b = .ok c) (h2 : c.form = 1)
    (h3 : putRecs c.recs s.trl.st = .ok t) (h4 : s.eft.coord.valid = true) (h5 : c.modid = s.modid) (h6 : s.signOk c b = true)
    (h7 : c.basedig = s.trl.tdig) (h8 : checkStruct t s.eft.coord = .ok ()) (h9 : s.trl.loaded = true)
    (h10 : s.patchReady t (c.recs.map (fun r => (r.1, r.2.1))) = true) : s.judgeImage b = .ok (c, t) := by
  unfold State.judgeImage
  simp [h1, h2, h3, h4, h5, h6, h7, h8, h9, h10, bind, Except.bind, tneed]

def patchC : Container := ⟨1, 0, zeros 64, sha3 (zeros 2592), zeros 2592, zeros 4627, names0⟩
/-- A patch whose signature is good (check 3, which the model leaves open) passes every other check, and is due. -/
theorem wit_patch (signed : patchable.signOk patchC (patch0 (sha3 (zeros 2592))) = true) :
    patchable.judgeImage (patch0 (sha3 (zeros 2592))) = .ok (patchC, struct1) ∧ patchable.patchDue ⟨struct1, [], [], [(2, 0)]⟩ = true := by
  refine ⟨?_, by decide +kernel⟩
  have parsed := ok_of (parseContainer (patch0 (zeros 64))) ⟨1, 0, zeros 64, zeros 64, zeros 2592, zeros 4627, names0⟩ (by decide +kernel)
  have t := sealed_twins 1 1 7872 (dirEntry 2 1 7680) (zeros 8 ++ modBytes ++ zeros 56) (sha3 (zeros 2592)) (zeros 64) (sha3_length _) (zeros_length _)
  have parsed : parseContainer (patch0 (sha3 (zeros 2592))) = .ok patchC := by
    have e := container_twins t
    rw [← patch0, parsed] at e
    exact e
  have put := ok_of (putRecs names0 patchable.trl.st) struct1 (by decide +kernel)
  have checked := ok_of (checkStruct struct1 patchable.eft.coord) () (by decide +kernel)
  have ready : patchable.patchReady struct1 (names0.map (fun r => (r.1, r.2.1))) = true := by decide +kernel
  exact judge_of _ _ _ _ parsed rfl put (by decide +kernel) (by decide +kernel) signed (by decide +kernel) checked (by decide +kernel) ready

def staged (b : List Byte) (s : State) : State := { s with sec := { s.sec with fwStage := Memory.store [] 0 b, fwBytes := b.length } }
theorem staged_load (b : List Byte) (s : State) : (staged b s).sec.fwStage.load 0 (staged b s).sec.fwBytes = b := Memory.load_store [] 0 b

def phase6 (root : Bool) : State := { up with
  trl := { up.trl with phase := 6, st := { struct1 with modrec := { struct1.modrec with root := root } } }, time := { up.time with st := .free } }
def waiting0 : Patch := ⟨struct1, [], [0], [(3, 0)]⟩

/-- A management message with TAG 3 and a payload of n bytes. -/
def hdr0 (n : Nat) : MgmtHdr := ⟨3, 0, n⟩

/-- Staged bytes are what the load reads; the registers and messages of start-up may act; a module that is the root and one that is not; an
image that fails its first check; a patch that waits for a partition and one that does not. -/
theorem wit_startup : mayWriteAll .mgmt [fwOff, trlOff] phase2 = true ∧ phase2.trl.phase = 2 ∧ phase2.fwJudge [] = 1 ∧ up.trl.phase ≠ 2 ∧
    (phase2.board.rails = true ∧ phase2.trl.loaded = false ∧ up.trl.loaded = true ∧ up.board.rails = true ∧ up.obs.endpoint.isSome = true) ∧
    ((phase6 true).trl.phase = 6 ∧ (phase6 true).isRoot = true ∧ (phase6 false).isRoot = false ∧ (phase6 false).time.st ≠ .locked) ∧
    (up.trl.busy = none ∧ mayWriteAll .host [trlOff] up = true ∧ 5 ≤ up.trl.phase ∧ (match up.judgeImage [] with | .error e => e == (1, 0, 0) | .ok _ => false) = true) ∧
    (let s := { patchable with parts := patchable.parts.set 0 { Part.reset with launch := some run0 } }
     s.patchDue waiting0 = false ∧ patchable.patchDue waiting0 = true ∧ s.inReset = false ∧ s.copiesStorage struct1 = false ∧
     s.copiesStorage { struct1 with entries := [⟨5 * 2 ^ 28, 0⟩] } = true) ∧
    ((hdr0 4).fits 4 = true ∧ (hdr0 4).fits 8 = false ∧ ({ hdr0 4 with rsvd := 1 } : MgmtHdr).fits 4 = false) := by decide +kernel

theorem test_startup : (after (.trellisGo .host) up).trl.result = 1 ∧
    (after (.start (hdr0 8) 77) (phase6 false)).trl.phase = 7 ∧ (after (.coord (hdr0 4) 5 1 1 0) phase2).modid = 5 ∧
    (after (.coord (hdr0 4) 32768 1 1 0) phase2).modid = 0 ∧ (after (.coord (hdr0 4) 5 1 1 2) phase2).modid = 0 := by decide +kernel

/-! Cloche, fuses and SPDM. -/

def clocheAt (c : Cloche) : State := { serving0 with sec := { serving0.sec with cloche := serving0.sec.cloche.set 0 c } }
def session0 : Session := ⟨7, true, true, 0⟩
def withSessions (stage : Nat) (ss : List Session) (s : State) : State :=
  { s with sec := { s.sec with spdm := { s.sec.spdm with stage := stage, sessions := ss } } }

theorem wit_cloche : (let s := clocheAt .off
     s.sec.cloche.length = 8 ∧ mayWriteAll .host [clocheOff 0, 0x100008] s = true ∧ (s.partRec 0).valid = true ∧ (s.partRec 0).clocheOk = true ∧ s.queuesOff 0 = true ∧
     (s.cloche 0).st = .off ∧ (s.cloche 0).scrub = false ∧ 0 < s.parts.length ∧ (s.partRec 1).valid = false) ∧
    (let s := clocheAt { Cloche.off with st := .entering, scrub := true, scrubSpans := [(0x200000, 0x200000)], teardown := true }
     (s.cloche 0).scrub = true ∧ (s.cloche 0).teardown = true) ∧
    (let s := clocheAt { Cloche.off with st := .entering }; (s.cloche 0).st = .entering ∧ (s.cloche 0).scrub = false) ∧
    (let s := withSessions 3 [session0] (clocheAt { Cloche.off with st := .locked })
     (s.cloche 0).st = .locked ∧ s.doeSession 7 = true ∧ s.host.perst = false ∧ s.board.rails = true ∧ s.doeSession 8 = false) ∧
    ((clocheAt { Cloche.off with st := .admitted }).cloche 0).st = .admitted := by decide +kernel

theorem test_cloche : ((after (.clocheEnter .host 0) (clocheAt .off)).cloche 0).st = .entering ∧
    ((after (.clocheWipeDone 0) (clocheAt { Cloche.off with st := .entering })).cloche 0).st = .locked ∧
    (after (.scrubDone 0) (holds [(0x200001, [1]), (0x400000, [2])] (clocheAt { Cloche.off with scrub := true, scrubSpans := [(0x200000, 0x200000)] }))).mem.loc
      = [(0x400000, 2)] := by decide +kernel

def slotted (ks : List KeySlot) (s : State) : State := { s with sec := { s.sec with fuses := { s.sec.fuses with owner := ks } } }
def key1 : KeySlot := ⟨List.replicate 64 1, false⟩

/-- A blank and a programmed owner slot; slots of which one remains when another is revoked, and of which none does. -/
theorem wit_fuses : serving0.trl.phase = 9 ∧ up.trl.phase = 9 ∧ phase2.trl.phase ≠ 9 ∧ mayWriteAll .host [0x100008] serving0 = true ∧ mayWriteAll .mgmt [0x100008] phase2 = true ∧
    up.board.rails = true ∧ (∀ p, p < 8 → up.inCloche p = false) ∧ (clocheAt { Cloche.off with st := .locked }).inCloche 0 = true ∧
    ((up.sec.fuses.owner.getD 0 .blank).programmed = false ∧ ((slotted [key1, key1] up).sec.fuses.owner.getD 0 .blank).programmed = true) ∧
    (let ks := (slotted [key1, key1] up).sec.fuses.owner; liveSlots (ks.set 0 { ks.getD 0 .blank with revoked := true }) = 1) ∧
    (let ks := (slotted [key1] up).sec.fuses.owner; liveSlots (ks.set 0 { ks.getD 0 .blank with revoked := true }) = 0) := by decide +kernel

theorem test_fuses : (after (.svncommit .host) { serving0 with sec := { serving0.sec with runSvn := 3 } }).sec.fuses.svn = 3 ∧
    (after (.enrol (hdr0 65) 0 (List.replicate 64 1)) (slotted [.blank, key1] up)).sec.fuses.owner = [key1, key1] ∧
    (after (.revoke (hdr0 1) true 0) (slotted [key1] up)).sec.fuses.owner = [key1] := by decide +kernel

/-- The connection at each stage; a session that is up, one that is not, and four; a large answer's last chunk. -/
theorem wit_spdm : (∀ k ∈ [0, 1, 2, 3], (withSessions k [session0] up).spdmUp = true ∧ (withSessions k [session0] up).sec.spdm.stage = k) ∧
    (let x := (withSessions 3 [session0, { session0 with id := 8, up := false }] up).sec.spdm
     x.chunkOut = none ∧ x.sessions.length < 4 ∧ x.sessions.any (fun y => y.id == 8 && !y.up) = true ∧
     x.sessions.any (fun y => y.id == 7 && y.up) = true ∧ x.sessions.any (fun y => y.id == 8 && y.up) = false) ∧
    4 ≤ (withSessions 3 [session0, session0, session0, session0] up).sec.spdm.sessions.length ∧
    (let s := withSessions 3 [session0] up
     let s := { s with sec := { s.sec with spdm := { s.sec.spdm with chunkOut := some [1, 2] } } }
     s.sec.spdm.chunkOut = some [1, 2]) ∧
    ((withSessions 3 [session0] up).measurement 3 []).isSome = true ∧
    (let s := withSessions 3 [session0] (clocheAt { Cloche.off with st := .admitted, session := some 7 })
     let s := { s with trl := { s.trl with st := { s.trl.st with routing := [⟨4, 2 ^ 104 + 2 ^ 98, 0, [0]⟩] } } }
     s.plotSession 4 = some 7 ∧ s.plotSession 5 = none) := by decide +kernel

theorem test_spdm : (after .getVersion up).out = [.spdm (.version [0x13])] ∧ (after .getCapabilities up).out = [.spdm (.error 0x04)] ∧
    (after (.finish 7 true) (withSessions 3 [{ session0 with up := false }] up)).sec.spdm.sessions = [session0] ∧
    (after (.heartbeat 9) (withSessions 3 [session0] up)).out = [.spdm (.error 0x02)] := by decide +kernel

/-! Management, the host's port and the test access port. -/

def bdpAt (c space off : Nat) (s : State) : State := { s with obs := { s.obs with bdp := s.obs.bdp.set c { BdpCh.reset with space := space, offset := off } } }
def notice0 (tries : Nat) : Notice := ⟨4, 2, 0, 0, 0, tries, 0⟩
def noticed (tries : Nat) (s : State) : State := { s with obs := { s.obs with notices := [notice0 tries] } }

/-- A module that hears; one on its way into overwintering; a notification before its second is over, after it, and after eight sendings;
a space that is refused and one that is served on each channel. -/
theorem wit_management : (up.board.rails = true ∧ up.obs.endpoint.isSome = true ∧ 1 < up.obs.bdp.length ∧ up.inReset = false ∧ up.pwr.ow = .serving ∧ up.obs.i3c = none) ∧
    (({ up with pwr := { up.pwr with ow := .entering } } : State).pwr.ow = .entering) ∧
    ((noticed 1 up).obs.notices.find? (fun y => y.nseq == 4) = some (notice0 1) ∧ (noticed 1 up).now = 1000000 ∧
      (notice0 1).sentAt + 1000000 ≤ (noticed 1 up).now ∧ (atTime 999999 (noticed 1 up)).now < (notice0 1).sentAt + 1000000 ∧ 8 ≤ (notice0 8).tries) ∧
    (BitVec.toNat (0x1000000000000000 : Word) / 2 ^ 60 < 5) ∧
    (∀ c ∈ [0, 1], let s := bdpAt c 3 0 up; s.bdpFail true (s.bdpCh c).space 4 8 = some .denied) ∧
    (∀ c ∈ [0, 1], let s := bdpAt c 4 0 up; s.bdpFail false (s.bdpCh c).space 4 8 = some .denied) ∧
    (∀ c ∈ [0, 1], ∀ w ∈ [true, false], let s := bdpAt c 1 (2 ^ 21 - 4096) up; (s.bdpCh c).space = 1 ∧ s.bdpFail w 1 ((s.bdpCh c).offset + 0) 4096 = none ∧
      s.bdpFail w 1 ((s.bdpCh c).offset + 4096) 1 = some .range) := by decide +kernel

theorem test_management : (after (.regRead (hdr0 9) 0x20008 2) up).out = [.mgmt 0x03 3 0 (leBytes 8 0x000927C0006403E8 ++ leBytes 8 0)] ∧
    (after (.regRead (hdr0 9) 0x20008 33) up).out = [.mgmt 0x03 3 9 []] ∧ (after (.regRead (hdr0 8) 0x20008 2) up).out = [.mgmt 0x03 3 9 []] ∧
    (let t := after (.bdpRead (hdr0 4) 0 3) (after (.bdpWrite (hdr0 6) 1 [7, 8]) (bdpAt 1 1 64 up)); t.out.head? = some (.mgmt 0x07 3 0 [0, 7, 8])) ∧
    (after (.bulkRead ⟨false, 5, 0⟩ 3) up).out = [.bulk 3 5 2 []] ∧ (after (.echo ⟨true, 5, 0⟩ [6]) up).out = [.bulk 4 5 0 [6]] ∧
    (after (.notifyAck 4) (noticed 1 up)).obs.notices = [] := by decide +kernel

def exposed0 : State := { up with
  trl := { up.trl with st := { up.trl.st with spans := [⟨1, 0, 0x10000000, 0x10000000⟩, ⟨9, 0, 0x10000000, 0x10000000⟩] } }
  mem := { up.mem with hdm := up.mem.hdm.set 0 (0x10000000, 0x20000000) } }

/-- A register that may be written, one for each half of the tables; the host's window onto the staging area; capture while none runs; a pending vector; the
phases of configuration space; a line inside an exposed span, and one decoded but not exposed. -/
theorem wit_host_port : (mayWriteAll .host [0x20008, 0x80048, rrOff, 0x140010] up = true ∧ mayWriteAll .mgmt [0x140008] up = true ∧ (up.halves .host).latch = none ∧
      regOf 0x20008 = some .feWdog ∧ blockOf 0x20008 ≠ .bdpWin) ∧
    (let s := bdpAt 2 1 0 up
     s.portUp .host = true ∧ (s.halves .host).held = none ∧ s.inReset = false ∧ windowFits 4032 64 = true ∧ windowFits 0 4 = true ∧ windowFits 60 8 = false ∧
     (s.bdpCh 2).space = 1 ∧ ∀ w ∈ [true, false], s.bdpFail w 1 ((s.bdpCh 2).offset + 4032) 64 = none) ∧
    (up.obs.rrBusy = false ∧ ({ up with obs := { up.obs with rrBusy := true } } : State).obs.rrBusy = true) ∧
    (let s := { up with host := { up.host with msixPend := [(3, true)], msixEn := true } }
     Tab.get false s.host.msixPend 3 = true ∧ Tab.get false s.host.msixPend 2047 = false ∧ s.host.msixEn = true ∧ s.host.fmask = false ∧ s.inReset = false) ∧
    (phase2.trl.phase < 3 ∧ 3 ≤ up.trl.phase ∧ phase2.host.perst = false) ∧
    (let s := exposed0
     s.cxlUp = true ∧ (∀ a ∈ [0x10000000, 0x1FFFFFC0], s.decoded a 64 = true ∧ s.exposed a 64 = true ∧ s.badUnit a 64 = none ∧ s.badPartial a 64 = none ∧
       mapRow a ≠ .host ∧ unitsOf a 64 = [a / 64] ∧ s.overLines a 64 = 0) ∧ s.decoded 0x20000000 64 = true ∧ s.exposed 0x20000000 64 = false) ∧
    (let s := { exposed0 with mem := { exposed0.mem with snoop := [4194304], snooping := [4194304] } };
     4194304 ∈ s.mem.snooping ∧ 4194305 ∉ s.mem.snooping ∧ s.mem.held = [] ∧ s.mem.cxlWait = [] ∧ s.badPartial (64 * 4194304) 8 = none ∧
     ({ s with mem := { s.mem with snoop := [], snooping := [] } } : State).heldLocal (64 * 4194304) 8 = []) ∧
    (let s := { exposed0 with mem := { exposed0.mem with bad := [4194304] } }; s.badPartial 0x10000000 8 = some 0x10000000) := by
  decide +kernel

/-- A snoop filter with room for no more lines. -/
theorem wit_full_filter (l : List Nat) (h : l.length = 1048576) (h2 : 4194304 ∉ l) :
    ({ exposed0 with mem := { exposed0.mem with snoop := l } } : State).overLines 0x10000000 64 ≠ 0 := by
  have e : unitsOf 0x10000000 64 = [4194304] := by decide
  have n : ({ exposed0 with mem := { exposed0.mem with snoop := l } } : State).newLines 0x10000000 64 = [4194304] := by
    simp [State.newLines, e, h2]
  simp [State.overLines, n, h, snoopLimit]
theorem wit_full_list : (List.replicate 1048576 0).length = 1048576 ∧ 4194304 ∉ List.replicate 1048576 0 := by
  constructor
  · exact List.length_replicate
  · intro h
    exact absurd (List.eq_of_mem_replicate h) (by decide)

theorem test_host_port : (after (.registerWrite .host 0x20008 8 0x0009_27C0_0064_0001) up).front.wdog.base = 1 ∧
    (let t := after (.cxlMemRead 0x10000000 64) exposed0; t.mem.snoop = [4194304]) ∧
    (after (.cxlMemWrite 0x10000001 [5]) exposed0).mem.loc = [(0x10000001, 5)] ∧
    (after (.configurationRequest (.bar0 0xFFFFFFFFF)) up).host.bar0 = 0xF00000000 ∧
    (after (.msixUnmask 3) { up with host := { up.host with msixPend := [(3, true)], msixEn := true } }).out = [.vector 3] := by decide +kernel

/-- Before the image and after it, with and without a stack selected; loopbacks that may start, may not, and end. -/
theorem wit_test_port : (up.board.rails = true ∧ up.trl.loaded = true ∧ phase2.board.rails = true ∧ phase2.trl.loaded = false ∧ phase2.board.hbmsel = none) ∧
    (({ phase2 with board := { phase2.board with hbmsel := some 5 } } : State).board.hbmsel = some 5) ∧
    (let v : Word := BitVec.ofNat 64 (2 ^ 36 + 2 ^ 16)
     let s := { up with eft := { up.eft with links := up.eft.links.set 0 { Link.reset with disable := true, cause := .disable } } }
     bit v.toNat 36 = true ∧ s.board.lb = none ∧ s.loopRefusal (bits v.toNat 3 0) (bits v.toNat 11 4) (bits v.toNat 13 12) (bits v.toNat 35 16) = 0 ∧
     up.loopRefusal 0 0 0 1 = 4 ∧ s.loopRefusal 0 0 2 1 = 5 ∧ s.loopRefusal 0 0 0 0 = 4 ∧ bits v.toNat 11 4 < s.eft.links.length) ∧
    (let s := { up with trl := { up.trl with loaded := false, phase := 5 } }
     s.board.rails = true ∧ s.loopRefusal 3 0 2 1 = 0 ∧ loopHolds 3 0 0x10000000000 = false ∧ s.board.lb = none) ∧
    (let s := { up with board := { up.board with lb := some ⟨0, 0, 3, 0, 1000⟩ } }; s.board.lb = some ⟨0, 0, 3, 0, 1000⟩ ∧ s.now ≥ 0 + 1000 * 1000) := by decide +kernel

theorem test_test_port : (after .idcode phase2).out = [.tdo 0x14B3258B] ∧ (after (.bypass 3) phase2).out = [.tdo 6] ∧
    (after (.loopbackEnd 0 8 false) { up with board := { up.board with lb := some ⟨0, 0, 3, 0, 1000⟩ } }).board.lbState = 5 ∧
    (after (.loopbackEnd 0 8 true) { up with board := { up.board with lb := some ⟨0, 0, 3, 0, 1000⟩ } }).board.lbState = 2 := by decide +kernel

/-! Range operations, links and messages. -/

/-- A range operation in the registers: pages 16 to 31 of context 0 to the start of partition 0's memory. -/
def rangeAt : State :=
  let s := mapped { up with trl := { up.trl with st := { up.trl.st with spans := [⟨1, 0, 0, 0x200000⟩] } } }
  { s with mem := { s.mem with rtData := [57 + 2 ^ 12 * 16, 16, 16 * 2 ^ 12, 0] } }
def busy0 (op : Nat) (drain : Bool) : RangeOp := ⟨0, op, drain, [57 + 2 ^ 12 * 16, 16, 16 * 2 ^ 12, 0]⟩
def rangeBusy (op : Nat) (drain : Bool) (s : State) : State := { s with mem := { s.mem with rtBusy := some (busy0 op drain) } }

/-- An operation with RESULT 0 and one that is refused; one in progress that need not drain, and one that must. -/
theorem wit_ranges : (mayWriteAll .host [0x80000, 0x80048] rangeAt = true ∧ rangeAt.mem.rtBusy = none ∧ (∀ op ∈ [0, 3], rangeAt.rangeRefusal .host 0 op = 0) ∧ rangeAt.rangeRefusal .host 0 1 = 2 ∧ rangeAt.rangeRefusal .host 1 3 = 7) ∧
    (let s := rangeBusy 1 true rangeAt; s.mem.rtBusy = some (busy0 1 true) ∧ s.inReset = false ∧ s.accessing 0 ((s.partOfCtx 0).getD 8) = false) ∧
    (let s := rangeBusy 1 true (at0With (.vec .add (vec0 0)) [] [] (fun x => { x with issued := [{ issued0 with units := [.dma] }] }))
     s.mem.rtBusy = some (busy0 1 true) ∧ s.inReset = false ∧ s.accessing 0 ((s.partOfCtx 0).getD 8) = true) ∧
    (rangeAt.mem.hotEn = false ∧ ({ rangeAt with mem := { rangeAt.mem with hotEn := true } } : State).mem.hotEn = true ∧ mapRow 0 = .hbm ∧ mapRow 0x10000000000 = .cellar) := by
  decide +kernel

theorem test_ranges : (let t := after .rtOpDone (after (.rtInsert .host 0 false) rangeAt)
      (t.table 0).map (fun e => (e.start, e.length, e.pbase)) = [(0, 16, 0), (16, 16, 16)] ∧ t.mem.rtResult = 0 ∧ t.mem.rtCount = 2) ∧
    (after .rtOpDone (after (.rtFlush .host 0 true) rangeAt)).table 0 = [] ∧
    (after (.rtRemove .host 0 false) rangeAt).mem.rtResult = 2 ∧
    (after (.backgroundRead 0x1234 .uncorrectable) up).mem.bad = [0x48] := by decide +kernel

/-! Links and messages: port 0 is a port of axis t, port 1 the z+ port; plot 4 has this module as a member with partition 0. -/

def route4 : RoutingRec := ⟨4, 2 ^ 104 + 2 ^ 98 + 2 ^ 86, 2 ^ 16 + 2 ^ 15 + 3 * 2 ^ 32, [0, 1]⟩
def linked (g : Link → Link) (s : State) : State := { s with
  trl := { s.trl with st := { s.trl.st with
    ports := [2 ^ 22 + 1, 2 ^ 22 + 5 * 2 ^ 18 + 2] ++ List.replicate 14 0, shares := List.replicate 18 (List.replicate 64 1), routing := [route4] } }
  eft := { s.eft with coord := ⟨0, true, 0, 0, true⟩, links := g { Link.reset with st := .up, cable := true } :: { Link.reset with st := .up, cable := true } :: List.replicate 16 .reset } }
def frame0 (good : Bool) (kind fseq : Nat) : FrameIn := ⟨good, frameBlock kind fseq (some 4) [(10, 3)] 0xFF []⟩
def tx0 (n : Nat) : TxFrame := ⟨n, 997000, 0, [], []⟩
def msg0 (typ dst : Nat) : LinkMsg := ⟨typ, 2, 0, false, false, 4, 1, 1, dst, 9, 0, 0, 0, [], []⟩

/-- The three kinds of frame, intact and not; an UP link that has and has not sent its NAK; a frame acknowledged and one that is not; a queued message with room in the replay buffer
and without. -/
theorem wit_links : (let f := frame0 true 0 7; f.good = true ∧ f.kind = 0 ∧ f.fseq = 7 ∧ f.ack = some 4 ∧ f.creds = [(10, 3)]) ∧
    (frame0 false 0 7).good = false ∧ (let f := frame0 true 1 7; f.good = true ∧ f.kind = 1) ∧ (let f := frame0 true 2 7; f.good = true ∧ f.kind = 2) ∧
    (∀ n : Bool, let s := linked (fun l => { l with naked := n, expected := 7 }) up
     0 < s.eft.links.length ∧ (s.link 0).st = .up ∧ (s.link 0).naked = n ∧ (frame0 true 0 7).fseq = (s.link 0).expected ∧ (frame0 true 0 8).fseq ≠ (s.link 0).expected ∧
     (s.link 0).txq = []) ∧
    unacked (some 4) [tx0 4, tx0 5] = [tx0 5] ∧ unacked (some 4) [tx0 65535] = [] ∧
    (let s := linked (fun l => { l with txq := [⟨msg0 0x20 1, none⟩], replay := [tx0 4, tx0 5] }) up
     (s.link 0).txq = [⟨msg0 0x20 1, none⟩] ∧ (msg0 0x20 1).cls = 2 ∧ s.orateOf 0 = none ∧
     (unacked (some 4) (s.link 0).replay).length + (framesOf [msg0 0x20 1] s.now (s.link 0).nextFseq).length ≤ 1024) ∧
    1024 < (List.replicate 1024 (tx0 5)).length + (framesOf [msg0 0x20 1] 1000000 0).length := by decide +kernel

/-- The check value of ECMA-182's CRC for the digits 1 to 9. -/
theorem test_crc64 : crc64 [0x31, 0x32, 0x33, 0x34, 0x35, 0x36, 0x37, 0x38, 0x39] = 0x6C40DF5F0B497347 := by decide +kernel

theorem test_links : (let t := after (.dataFrame 0 ⟨true, frameBlock 0 7 none [] 0 (msg0 0x20 1).bytes⟩) (linked (fun l => { l with expected := 7 }) up)
      (t.link 0).expected = 8 ∧ (t.link 0).rxMsgs = [⟨none, { msg0 0x20 1 with hops := 2 }⟩] ∧ t.out = [.frame 0 (frameBlock 1 0 (some 7) [] 0xFF [])]) ∧
    (let t := after (.nak 0 (frame0 true 2 0)) (linked (fun l => { l with replay := [tx0 4, tx0 5] }) up); (t.link 0).replay = [tx0 5] ∧ t.out.length = 1) := by
  decide +kernel

/-- A port in each state; a far end that its role expects and one that it does not; round trips at the limits; an acknowledgement overdue
and one that has 1 ns left; a disabled port; a loopback on it. -/
theorem wit_link_states : (∀ st : LinkSt, ((linked (fun l => { l with st := st }) up).link 0).st = st ∧ 0 < (linked (fun l => { l with st := st }) up).eft.links.length) ∧
    (let s := linked id up; s.trl.loaded = true ∧ s.farOk 0 (2 ^ 14) 0 = true ∧ s.farOk 0 1 0 = false ∧ s.farOk 5 9 9 = true ∧
     (s.link 0).active = false ∧ lanes ((s.link 0).good &&& 15) = 4 ∧ lanes ((s.link 0).good &&& 7) < 4 ∧ lanes 511 = 9 ∧ bit (s.link 0).good 8 = true ∧
     64 * (s.link 0).lthresh = 65536 ∧ mayWriteAll .host [0xC0100] s = true ∧ (s.link 0).disable = false ∧ s.loopsPort 0 = false) ∧
    (let s := linked (fun l => { l with replay := [{ tx0 4 with sentAt := 998000 }] }) up
     (∃ f ∈ (s.link 0).replay, f.sentAt + 2000 ≤ s.now) ∧ ∀ f ∈ (s.link 0).replay, (atTime 999999 s).now < f.sentAt + 2000) ∧
    (let s := linked (fun l => { l with disable := true, good := 255, failedRetrains := 2, st := .retrain }) up
     (s.link 0).disable = true ∧ bit (s.link 0).good 8 = false ∧ 2 ≤ (s.link 0).failedRetrains ∧ (s.link 0).st = .retrain) ∧
    ({ linked id up with board := { up.board with lb := some ⟨0, 0, 0, 0, 1⟩ } } : State).loopsPort 0 = true := by
  refine ⟨fun st => by cases st <;> decide +kernel, ?_⟩
  decide +kernel

theorem test_link_states : (let t := after (.linkTrainDone 0 ⟨2 ^ 14, 0, 201, 511, 511⟩) (linked (fun l => { l with st := .training }) up); ((t.link 0).st, (t.link 0).cause) = (.failed, .reach)) ∧
    (let t := after (.linkTrainDone 0 ⟨2 ^ 14, 0, 200, 511, 511⟩) (linked (fun l => { l with st := .training }) up); (t.link 0).st = .up) ∧
    (let t := after (.laneBad 0 8 none) (linked id up); ((t.link 0).good, (t.link 0).st, (t.link 0).retrains) = (255, .retrain, 1)) := by decide +kernel

/-- The state with a message in port 0's buffer, which may be dealt with. -/
def got (m : LinkMsg) (s : State) : State := linked (fun l => { l with rxMsgs := [⟨m.share, m⟩] }) s
def wr0 (dst addr : Nat) (xc : Bool) (data : List Byte) : LinkMsg := { msg0 1 dst with cls := 0, addr := addr, data := data, xc := xc }
def rd0 (addr n : Nat) : LinkMsg := { msg0 2 0 with cls := 0, addr := addr, aux := n }
/-- Plot 4 may reach the first 64 KiB of HBM. -/
def open4 (s : State) : State := { s with trl := { s.trl with st := { s.trl.st with spans := [⟨10, 4, 0, 65536⟩] } } }
def isAt (r : RoutingRec) (s : State) (m : LinkMsg) : Bool := (match s.rxTurn 0 m with | some x => x == ⟨m.share, m⟩ | none => false) &&
  (match s.arrival 0 m with | .here m2 q => m2 == m && q == r | _ => false) && !s.inReset
def isHere : State → LinkMsg → Bool := isAt route4
theorem delivered (r : RoutingRec) (s : State) (m : LinkMsg) (h : isAt r s m = true) : deliveredAs s 0 m ⟨m.share, m⟩ m r := by
  simp only [isAt, Bool.and_eq_true, Bool.not_eq_true'] at h
  obtain ⟨⟨h1, h2⟩, h3⟩ := h
  refine ⟨by decide, ?_, ?_, h3⟩
  · split at h1
    · rename_i x e; rw [e, eq_of_beq h1]
    · cases h1
  · split at h2
    · rename_i a r e
      simp only [Bool.and_eq_true] at h2
      rw [e, eq_of_beq h2.1, eq_of_beq h2.2]
    · cases h2

/-- A codebook block of zeros on its way to the cellar: the transfer that it continues has come as far as 32 bytes into a page further on. -/
def block0 : List Byte := leBytes 8 0x000000014B324342 ++ leBytes 4 0 ++ leBytes 4 0x5BA8B807 ++ leBytes 176 0
def cel : Nat := 0x10000000000
def moving (n : Nat) (g : Mem → Mem) : State :=
  let s := got (wr0 0 cel true block0) up
  { s with trl := { s.trl with st := { s.trl.st with spans := [⟨10, 4, cel, n⟩] } }, mem := g s.mem,
           wgt := { s.wgt with xfers := [⟨1, 4, cel, cel + 4128, [], 0, []⟩] } }
def moved (s : State) : List (Nat × List Byte) :=
  let x := s.xferOf 1 4 cel block0
  let bs := x.buf ++ block0
  ((rxPath 0).all (bs.length / 64 + 1) ⟨bs, x.pos, x.out, x.blocks, [], none, false⟩ s).1.writes

/-- Output in a line that the host holds, outside the plot's spans, beside an uncorrectable unit, and free of all three. -/
theorem wit_xc_messages : (∀ n ∈ [4096, 8192], let s := moving n id; let m := wr0 0 cel true block0
      isHere s m = true ∧ s.serveFail route4 m cel 192 true = none ∧ s.heldLocal cel 192 = [] ∧ mapRow (cel + 4128) = .cellar ∧
      moved s = [(cel + 4128, block0)] ∧ s.ingress 4 (cel + 4128) 192 = decide (n = 8192) ∧ s.scrubHit (cel + 4128) 192 = false ∧
      s.heldLocal (cel + 4128) 192 = [] ∧ s.badPartial (cel + 4128) 192 = none) ∧
    (let s := moving 8192 (fun m => { m with snoop := [(cel + 4096) / 64] })
     moved s = [(cel + 4128, block0)] ∧ s.heldLocal (cel + 4128) 192 ≠ [] ∧ s.heldLocal cel 192 = []) ∧
    (let s := moving 8192 (fun m => { m with bad := [(cel + 4096) / 64] })
     moved s = [(cel + 4128, block0)] ∧ (s.badPartial (cel + 4128) 192).isSome = true ∧ s.heldLocal (cel + 4128) 192 = []) ∧
    (let m := wr0 0 0x50000000000 true [1]; let s := got m (landAt (record 8 0 1 0)); isHere s m = true ∧
      s.serveFail route4 m 0x50000000000 1 true = none ∧ m.xc = true) := by decide +kernel

/-- A message passed on, and ones dropped by the hop count and by an unknown plot; a WR to memory that plot 4 may and may not reach, to a
receive window, to a line the host holds, and beside an uncorrectable unit; an RD of each kind; a response with and without its request. -/
theorem wit_messages : (let m := wr0 1 0 false [1]; let s := got m up
     (match s.rxTurn 0 m with | some x => x == ⟨m.share, m⟩ | none => false) = true ∧
     (match s.arrival 0 m with | .onward p m2 => p == 1 && m2.vc == 0 | _ => false) = true ∧ s.arrival 0 { m with hops := 48 } = .drop 1 none ∧
     s.arrival 0 { m with plot := 5 } = .drop 2 (some .denied)) ∧
    (let m := wr0 0 0 false [1]; let s := open4 (got m up)
     isHere s m = true ∧ s.serveFail route4 m 0 1 true = none ∧ mapRow 0 ≠ .recvWin ∧ mapRow 0 ≠ .host ∧ s.heldLocal 0 1 = [] ∧ s.badPartial 0 1 = none ∧
     ({ s with mem := { s.mem with snoop := [0] } } : State).heldLocal 0 1 = [0] ∧ ({ s with mem := { s.mem with bad := [0] } } : State).badPartial 0 1 = some 0 ∧
     s.serveFail route4 m 65535 2 true = some .denied) ∧
    (let m := wr0 0 0x50000000000 false [1]; let s := got m (landAt (record 8 0 1 0))
     isHere s m = true ∧ s.serveFail route4 m 0x50000000000 1 true = none ∧ mapRow 0x50000000000 = .recvWin ∧ s.recordWaits 0 ⟨0, 0, [1], .remote 1 9 4⟩ = false) ∧
    (∀ n ∈ [0, 1, 64, 8192, 8193], let s := open4 (got (rd0 0 n) up); isHere s (rd0 0 n) = true ∧ s.serveFail route4 (rd0 0 n) 0 8192 false = none ∧ s.badUnit 0 8192 = none ∧ s.heldLocal 0 8192 = [] ∧
      s.serveFail route4 (rd0 0 n) 65536 64 false = some .denied ∧ ({ s with mem := { s.mem with snoop := [0] } } : State).heldLocal 0 64 = [0] ∧
      ({ s with mem := { s.mem with bad := [0] } } : State).badUnit 0 64 = some 0) ∧
    (∀ k ∈ [0, 3], let m := { wr0 0 0 false [1] with cls := k }; let s := resetting (got m up)
     (match s.rxTurn 0 m with | some _ => true | none => false) = true ∧
     (match s.arrival 0 m with | .here m2 _ => m2.cls == k | _ => false) = true ∧ s.inReset = true) ∧
    (let m := { msg0 3 0 with cls := 1 }; let s := got m (cmdAt .nop 0)
     isHere s m = true ∧ s.answers m = false ∧
     (let req : RemoteReq := ⟨9, 1, 900000, .cmd 0, none⟩
      let u := { s with eft := { s.eft with reqs := [req] } }
      u.answers m = true ∧ isHere u m = true ∧ u.eft.reqs.find? (fun y => y.tag == m.tag) = some req ∧ req.dst = m.src ∧ req.sentAt + 100000 ≤ u.now ∧
      (u.queue 0).running = some (running0 .nop 0) ∧ (running0 .nop 0).ending = none)) ∧
    (∀ o ∈ [ReqOwner.instr 0 0, .region 0, .cmd 0], let m := { msg0 3 0 with cls := 1 }; let s := got m (started .nop 0)
     let req : RemoteReq := ⟨9, 1, 900000, o, if o = .region 0 then some (64, 4) else none⟩
     let u := { s with eft := { s.eft with reqs := [req] } }
     u.answers m = true ∧ isHere u m = true ∧ u.eft.reqs.find? (fun y => y.tag == 9) = some req ∧ req.dst = m.src ∧ req.sentAt + 100000 ≤ u.now ∧
     (atTime 999999 u).now < req.sentAt + 100000 ∧ 0 < u.regions.length) ∧
    (let x : Running := { running0 .nop 0 with started := true, owed := 1, ending := some 7 }
     let s := cmdAt .nop 0; ((s.setQueue 0 { s.queue 0 with running := some x }).queue 0).running = some x ∧ x.owed = 1) := by decide +kernel

theorem test_messages : (after (.wr 0 (wr0 0 4 false [5])) (open4 (got (wr0 0 4 false [5]) up))).mem.loc = [(4, 5)] ∧
    (let s := got (rd0 0 4) up
     let req : RemoteReq := ⟨9, 1, 900000, .region 0, some (64, 4)⟩
     let t := after (.remoteTimeout 9) { s with eft := { s.eft with reqs := [req] } }
     t.eft.reqs = [] ∧ t.eft.fetched.map (fun f => (f.pa, f.status)) = [(64, 7)]) := by decide +kernel

/-! The twin pair, device time and barriers. -/

def twinAt (f : Twin → Twin) (s : State) : State := { s with eft := { s.eft with twin := f s.eft.twin } }
/-- A heartbeat for this module and one for another; a twin that beats and one that does not; a takeover that has begun. -/
theorem wit_twins : (∀ e ∈ [(0x20, 0), (0x20, 1), (0x21, 0), (0x21, 1)], let m := msg0 e.1 e.2; let s := got m up
     (match s.rxTurn 0 m with | some x => x == ⟨m.share, m⟩ | none => false) = true ∧ s.isPortT 0 = true ∧ s.isPortT 1 = false ∧ s.modid = 0 ∧ s.directPort 3 1 m = none ∧
     s.directPort 0 0 m = some 0) ∧
    (let s := resetting (linked id up); s.eft.coord.twin = true ∧ s.inReset = true) ∧
    (∀ a ∈ [some 980000, none], let s := twinAt (fun t => { t with lastAlt := a }) (linked id up)
     (match s.eft.twin.lastAlt with | some b => decide (b + 20000 ≤ s.now) | none => true) = true ∧ s.eft.twin.lastHbt = none ∧ s.eft.twin.lost = false) ∧
    (let s := twinAt (fun t => { t with lastHbt := some 980001 }) (linked id up); s.eft.twin.lastHbt = some 980001 ∧ s.now < 980001 + 20000) ∧
    (let s := linked id up; s.eft.coord.twin = true ∧ s.serving = true ∧ s.inReset = false ∧ s.eft.twin.count = 0 ∧ s.beating = false ∧ s.eft.twin.lost = false ∧
     mayWriteAll .host [0xC0018] s = true ∧ s.eft.twin.taken = false) ∧
    (let s := twinAt (fun t => { t with count := 5, hbBase := 995001, lastHbt := some 980001, lost := true, takeover := some 1 }) (linked id up)
     s.eft.twin.count ≠ 0 ∧ s.now < s.eft.twin.hbBase + 5000 ∧ s.beating = true ∧ s.eft.twin.lost = true ∧ s.eft.twin.takeover.isSome = true ∧ Tab.wf Seq.free s.kv.seqs = true ∧
     (atTime 1000001 s).beating = false) := by decide +kernel

theorem test_twins : (let t := after .hbtSend (linked id up); t.eft.twin.count = 1 ∧ (t.link 0).replay.length = 1) ∧
    (let t := after (.hbt 0 (msg0 0x20 0)) (got (msg0 0x20 0) up); t.eft.twin.lastHbt = some 1000000) ∧
    (let t := after .twinLost (linked id up); t.eft.twin.lost = true ∧ t.eft.twin.takeover = some 1000000) := by decide +kernel

/-- Sequence 3 in a state, as the twin holds it, with a message for it. -/
def repl (typ aux : Nat) (data : List Byte) : LinkMsg := { msg0 typ 0 with cls := 3, addr := 3 + 2 ^ 18 * 5, aux := aux, data := data }
def replAt (st : SeqState) (m : LinkMsg) : State :=
  let s := kvPool (got m serving0)
  { s with kv := { s.kv with seqs := [(3, { seq0 st with replpos := 16 }), (5, { seq0 st with runs := [], runFrames := [6], scoreFrame := some 7 })], refs := [(4, 1), (5, 1), (6, 1), (7, 1), (8, 1), (9, 1)] } }
def openBytes : List Byte := leBytes 8 0 ++ leBytes 8 geom0.toNat ++ leBytes 8 0 ++ leBytes 8 32

/-- Each message for a sequence that takes it, and for one that does not; a part of a page; the page after REPLPOS. -/
theorem wit_replication : (∀ typ ∈ [0x30, 0x31, 0x32, 0x33, 0x34, 0x35], ∀ st ∈ [SeqState.mirror, .live, .free],
      isHere (replAt st (repl typ 0 openBytes)) (repl typ 0 openBytes) = true) ∧ (replAt .live (repl 0x30 0 [])).isPortT 0 = true ∧
    (let s := replAt .mirror (repl 0x30 0 openBytes)
     s.ownsSeq 0 3 = true ∧ (s.seq 3).st = .mirror ∧ (s.seq 5).st = .mirror ∧ ((s.freeSeq 3).openSeq 0 0 0 32 geom0 0).isSome = true ∧
     (match (s.freeSeq 5).forkSeqs 0 (s.seq 3) 16 false with | .ok _ => true | .error _ => false) = true ∧ (s.evictGroup 0 3 0).isSome = true ∧ (s.pageBytes 3 0 1).length < 1 * 65536 ∧ (s.seq 3).geo.frames = 1) ∧
    (let s := replAt .live (repl 0x35 1 []); (s.seq 3).st = .live ∧ (s.seq 3).nextRepl 1 = true ∧ (s.seq 3).nextRepl 0 = false) ∧
    ((replAt .mirror (repl 0x31 0 [])).seq 3).runs = [page0 .priv 8] ∧ (page0 .priv 8).lpage ≤ 1 ∧ 1 < (page0 .priv 8).lpage + (page0 .priv 8).count := by decide +kernel

/-- A mirrored page that another sequence shares, and frames free for a copy of its own; no frames where there is no pool. -/
theorem wit_shared_page : (let s := replAt .mirror (repl 0x31 0 [])
     let x := { s.seq 3 with runs := [⟨0, 1, 8, .shared, false⟩] }
     let u := { s with kv := { s.kv with seqs := [(3, x)], refs := [(4, 1), (5, 1), (8, 2)] } }
     (u.seq 3).runs = [⟨0, 1, 8, .shared, false⟩] ∧ 1 < Tab.get 0 u.kv.refs 8 ∧ (u.seq 3).runFrames ≠ [] ∧ u.findFrames 0 (u.seq 3).geo.tier (u.seq 3).geo.frames = some 32 ∧
     mapRow (32 * 65536) ≠ .host ∧ (∀ y ∈ (u.seq 3).runFrames, y + 1 ≤ 32 ∨ 32 + (u.seq 3).geo.frames ≤ y)) ∧
    (let s := replAt .mirror (repl 0x30 0 openBytes)
     let u := { s with trl := { s.trl with st := { s.trl.st with spans := [] } } }
     ((u.freeSeq 3).openSeq 0 0 0 32 geom0 0).isNone = true ∧ (u.storePage 0 3 5 []).isNone = true ∧
     (match (u.freeSeq 5).forkSeqs 0 (u.seq 3) 16 false with | .ok _ => false | .error _ => true) = true) ∧
    (let s := replAt .mirror (repl 0x33 0 [])
     let u := { s with trl := { s.trl with st := { s.trl.st with spans := [] } }, kv := { s.kv with seqs := [(3, { s.seq 3 with runFrames := [] })] } }
     (u.seq 3).st = .mirror ∧ (u.evictGroup 0 3 0).isNone = true) := by decide +kernel

/-- A part that holds a page's bytes completes it. -/
theorem wit_whole_page : 65536 ≤ (({ up with eft := { up.eft with parts := [(3, 1, 0, List.replicate 65536 7)] } } : State).pageBytes 3 1 1).length := by
  have h : ∀ bs : List Byte, (({ up with eft := { up.eft with parts := [(3, 1, 0, bs)] } } : State).pageBytes 3 1 1) = bs := by
    intro bs
    simp [State.pageBytes, show List.range 8 = [0, 1, 2, 3, 4, 5, 6, 7] by decide]
  exact Nat.le_of_eq ((congrArg List.length (h _)).trans List.length_replicate).symm

theorem test_replication : (let t := after (.replOpen 0 (repl 0x30 0 openBytes)) (replAt .free (repl 0x30 0 openBytes)); ((t.seq 3).st, (t.seq 3).pos0, (t.seq 3).replpos) = (.mirror, 32, 32)) ∧
    (let t := after (.replAck 0 (repl 0x35 1 [])) (replAt .live (repl 0x35 1 [])); (t.seq 3).replpos = 32) ∧
    (let t := after (.replRelease 0 (repl 0x34 0 [])) (replAt .mirror (repl 0x34 0 [])); t.seq 3 = .free) := by decide +kernel

/-- A child whose parent is at port 1. -/
def child (st : TimeSt) (s : State) : State :=
  let s := linked id s
  { s with trl := { s.trl with st := { s.trl.st with modrec := { s.trl.st.modrec with root := false, parent := 0 } } }, time := { s.time with st := st, t1 := some 6400, good := 15, lastResp := 992000 } }
def childGot (st : TimeSt) (m : LinkMsg) : State := let s := child st (got m up); { s with eft := (got m up).eft }
def tresp0 (t2 t3 : Nat) : LinkMsg := { msg0 0x11 0 with plot := 0, aux := t2, data := leBytes 8 t3 }

/-- A child and the root; each time state with an answer to the exchange in progress; a child that has heard nothing for 8 µs, and for 1 ns less. -/
theorem wit_time : (let s := child .locked up; s.trl.loaded = true ∧ s.isRoot = false ∧ (s.link s.parentPort).st = .up ∧ s.time.st = .locked ∧ s.time.lastResp + 8000 ≤ s.now ∧
      (atTime 999999 s).now < s.time.lastResp + 8000 ∧ s.time.lastReq = none ∧
      ∀ a ∈ [999000, 999001], let u := { s with time := { s.time with lastReq := some a } }; decide (a + 1000 ≤ u.now) = decide (a = 999000)) ∧
    (phase6 true).isRoot = true ∧
    (∀ st : TimeSt, let m := tresp0 6400 6400; let s := childGot st m
      (match s.rxTurn 0 m with | some x => x == ⟨none, m⟩ | none => false) = true ∧ s.time.t1 = some 6400 ∧ s.isRoot = false ∧ s.parentPort = 0 ∧ m.addr = s.time.xchg ∧ s.time.st = st) ∧
    (timeOffset 6400 6400 6464 6400 = 32 ∧ timeOffset 0 129 0 0 = 64 ∧ timeOffset 0 130 0 0 = 65 ∧ timeOffset 0 0 0 128002 = -64001 ∧ timeOffset 0 128002 0 0 = 64001) ∧
    (let m := msg0 0x10 0; let s := got m up; (match s.rxTurn 0 m with | some x => x == ⟨none, m⟩ | none => false) = true ∧ s.time.st = .locked) ∧
    (let s := at0 (.mov .add mov0) [] []
     let d := { s with trl := { s.trl with st := { s.trl.st with parts := { part0 with det := true } :: List.replicate 7 .none } } }
     let x := { Part.reset with needAlign := true }
     ((d.partRec 0).valid = true ∧ (d.partRec 0).det = true ∧ d.partRuns 0 = true) ∧
     (let e := { d with parts := d.parts.set 0 x }; (e.part 0).needAlign = true ∧ e.partRuns 0 = false ∧ 0 < e.parts.length ∧ e.inReset = false ∧ e.inCloche 0 = false)) := by
  refine ⟨by decide +kernel, by decide +kernel, fun st => by cases st <;> decide +kernel, ?_⟩
  decide +kernel

theorem test_time : (let m := tresp0 12800 12800; let t := after (.tresp 0 m 6400) (childGot .free m); (t.time.st, t.now, t.time.offset) = (.locking, 1000100, 6400)) ∧
    (let m := tresp0 6400 6400; let t := after (.tresp 0 m 134402) (childGot .holdover m); (t.time.st, t.time.hold) = (.locking, 1000)) := by decide +kernel

/-- Barrier 2 of plot 4 with one generation. -/
def barAt (g : BarGen) (s : State) : State := { s with sync := { s.sync with bars := [(barKey 4 2, ⟨1, [g]⟩)] } }
def gen0 : BarGen := { BarGen.fresh 1 with queue := some 0, own := true, members := 1 }
def rel0 : Rel := ⟨999999, 0, false, 15, false⟩
def barMsg (typ src aux : Nat) : LinkMsg := { msg0 typ 0 with src := src, addr := 1 + 2 ^ 32 * 2, aux := aux, data := leBytes 16 0 }

/-- The same plot where module 1 is the root. -/
def leaf4 : RoutingRec := { route4 with bar := 2 ^ 16 + 1 }
def leafed (s : State) : State := { s with trl := { s.trl with st := { s.trl.st with routing := [leaf4] } } }

/-- A BARRIER of a partition with a plot and of one without; a first and a second ARRIVE of a child; a RELEASE for a generation that waits; a
release that is due; a held LAUNCH. -/
theorem wit_barriers : (let s := cmdAt (.barrier ⟨2, 10⟩) 5; s.plotOf 0 = none) ∧
    (let s := linked id (cmdAt (.barrier ⟨2, 10⟩) 5)
     s.plotOf 0 = some route4 ∧ s.enabledCmd 0 (.barrier ⟨2, 10⟩) = true ∧ ((s.bar (barKey 4 2)).genOf 1).members + 1 ≠ route4.barSize ∧ route4.barRoot = true ∧ route4.barSize = 2) ∧
    (let m := barMsg 0x12 1 1; let s := barAt gen0 (got m up); isHere s m = true ∧ m.src ∉ ((s.bar (barKey 4 2)).genOf 1).kids ∧
     m.src ∈ (((barAt { gen0 with kids := [1] } s).bar (barKey 4 2)).genOf 1).kids) ∧
    (let m := barMsg 0x13 1 1000001; let s := barAt { gen0 with sent := true } (leafed (got m up)); isAt leaf4 s m = true ∧ leaf4.barRoot = false ∧ (s.bar (barKey 4 2)).gens.find? (fun y => y.gen == 1) = some { gen0 with sent := true } ∧
     s.now ≤ m.aux ∧ (barMsg 0x13 1 999999).aux < s.now) ∧
    (let s := barAt { gen0 with sent := true, rel := some rel0 } (linked id (cmdAt (.barrier ⟨2, 10⟩) 5))
     s.routeOf 4 = some route4 ∧ (s.bar (barKey 4 2)).gens = [{ gen0 with sent := true, rel := some rel0 }] ∧ rel0.rt ≤ s.now ∧ (atTime 999998 s).now < rel0.rt ∧
     (s.queue 0).running = some (running0 (.barrier ⟨2, 10⟩) 5) ∧ s.waitOver { running0 (.barrier ⟨2, 10⟩) 5 with started := true, waitUntil := some 1000000 } = true) ∧
    (let s := at0 (.mov .add mov0) [] []
     let s := s.setPart 0 { s.part 0 with launch := some { run0 with notBefore := 1000000 } }
     (s.part 0).launch = some { run0 with notBefore := 1000000 } ∧ 1000000 ≤ s.now ∧ (atTime 999999 s).now < 1000000 ∧ run0.notBefore = 0) := by decide +kernel

theorem test_barriers : (let s := barAt { gen0 with queue := none, own := false, kids := [1] } (linked id (cmdAt (.barrier ⟨2, 10⟩) 5))
      let t := after (.barrier 0 ⟨2, 10⟩) { s with sync := { s.sync with bars := [(barKey 4 2, ⟨0, [{ gen0 with queue := none, own := false, kids := [1] }]⟩)] } }
      (((t.bar (barKey 4 2)).genOf 1).members, ((t.bar (barKey 4 2)).genOf 1).rel.map (·.rt)) = (2, some 1003000)) ∧
    (let s := barAt { gen0 with sent := true, rel := some rel0 } (linked id (started (.barrier ⟨2, 10⟩) 5))
     let t := after (.releaseApply 4 2) s; (t.queue 0).running = none ∧ (t.bar (barKey 4 2)).gens = []) := by decide +kernel

/-! Power, thermal control and repair. -/

def pwrAt (f : Pwr → Pwr) (s : State) : State := { s with pwr := f s.pwr }
/-- Partition 0, the die uncore groups and the shed at level 3; an event of kind 2 costs 256/256 pJ at level 15. -/
def powered (f : Pwr → Pwr) : State := pwrAt f { up with
  trl := { up.trl with st := { struct1 with modrec := { struct1.modrec with uncoreMax := 15, shedMax := 15 } } }
  pwr := { up.pwr with level := [3, 0, 0, 0, 0, 0, 0, 0, 3, 3, 3], mgr := List.replicate 11 3, coef := 0 :: 0 :: 256 :: List.replicate 8 0 } }
def count0 : List PCount := [⟨.module_, 0, 2, 1000⟩]
def windowOf (s : State) : List (PTag × Nat) := s.windowEnergy (count0 ++ (List.range 8).flatMap s.productCounts)
def energyOf (s : State) : Nat := (windowOf s).foldl (fun n x => n + x.2) 0

theorem energy_pos (f : Pwr → Pwr) (h : 1 ≤ (powered f).countEnergy ⟨.module_, 0, 2, 1000⟩) : 1 ≤ energyOf (powered f) := by
  have on : (List.range 11).filter (powered f).groupOn = [0, 8, 9, 10] := rfl
  have idle : (List.range 8).flatMap (powered f).productCounts = [] :=
    (show _ = (List.range 8).flatMap (powered id).productCounts from rfl).trans (by decide +kernel)
  simp only [energyOf, windowOf, State.windowEnergy, on, idle, count0, List.map, List.foldl, List.append_nil, List.cons_append, List.nil_append]
  omega

theorem control_power (s : State) (e : Nat) (h : s.pwr.diverge = false) : s.controlPower e = e * s.pwr.k / 2 ^ 14 := by
  simp [State.controlPower, State.withK, h]

/-- A state whose window exceeds P_X; one above P_S and at P_X that dropped 1 µs ago, and 1 ns later than that; one that has been low for 10 µs
and last rose 10 µs ago. Partition 0 is the hungriest. -/
theorem wit_power_step : up.board.rails = true ∧ mayWriteAll .host [0xE0100, 0xE0150] up = true ∧
    (∀ f : Pwr → Pwr, f ∈ [id, fun w => { w with peak := 0 }, fun w => { w with k := 0 }] →
      (powered f).pwr.level.length = 11 ∧ (powered f).pwr.mgr.length = 11 ∧ ∀ n, n < 11 → (powered f).level n = (powered f).levelTarget n) ∧
    (let s := powered (fun w => { w with peak := 0 }); wattEnergy s.pwr.peak < s.controlPower (energyOf s)) ∧
    (∀ d ∈ [999000, 999001], let s := powered (fun w => { w with sust := 0, peak := energyOf (powered id), lastDrop := d })
      wattEnergy s.pwr.sust < s.controlPower (energyOf s) ∧ s.controlPower (energyOf s) ≤ wattEnergy s.pwr.peak ∧ s.pwr.excurSince = none ∧ s.pwr.excurEnd = none ∧
      (d = 999000 → s.pwr.lastDrop + 1000 ≤ s.now) ∧ (d = 999001 → s.now < s.pwr.lastDrop + 1000) ∧ s.hungriest (windowOf s) = some 0) ∧
    (let s := powered (fun w => { w with k := 0, lowSince := some 990000, lastRise := 990000 })
     100 * s.controlPower (energyOf s) ≤ 95 * wattEnergy s.pwr.sust ∧ s.controlPower (energyOf s) ≤ wattEnergy s.pwr.peak ∧ (∀ p, p < 8 → s.overLimit p = false) ∧
     s.pwr.lowSince = some 990000 ∧ 990000 + 10000 ≤ s.now ∧ s.pwr.lastRise + 10000 ≤ s.now ∧ s.mayRise 0 = true) := by
  refine ⟨by decide +kernel, by decide +kernel, ?_, ?_, ?_, ?_⟩
  · intro f hf
    simp only [List.mem_cons, List.not_mem_nil, or_false] at hf
    rcases hf with rfl | rfl | rfl <;> decide +kernel
  · have h := energy_pos (fun w => { w with peak := 0 }) (by decide +kernel)
    intro s
    rw [control_power s _ rfl]
    exact Nat.lt_of_lt_of_le (show 0 * 25600000 < 1 * 16384 / 16384 by decide) (Nat.div_le_div_right (Nat.mul_le_mul_right _ h))
  · intro d hd s
    have h := energy_pos id (by decide +kernel)
    have e : ∀ d, energyOf (powered (fun w => { w with sust := 0, peak := energyOf (powered id), lastDrop := d })) = energyOf (powered id) := fun _ => rfl
    simp only [List.mem_cons, List.not_mem_nil, or_false] at hd
    refine ⟨?_, ?_, rfl, rfl, ?_, ?_, rfl⟩
    · rw [control_power s _ rfl, show energyOf s = energyOf (powered id) from e d]
      exact Nat.lt_of_lt_of_le (show 0 * 25600000 < 1 * 16384 / 16384 by decide) (Nat.div_le_div_right (Nat.mul_le_mul_right _ h))
    · rw [control_power s _ rfl, show energyOf s = energyOf (powered id) from e d]
      show energyOf (powered id) * 16384 / 16384 ≤ energyOf (powered id) * 25600000
      generalize energyOf (powered id) = n
      omega
    · rintro rfl
      decide +kernel
    · rintro rfl
      decide +kernel
  · have z : ∀ e, State.controlPower (powered (fun w => { w with k := 0, lowSince := some 990000, lastRise := 990000 })) e = 0 := fun e => by
      rw [control_power _ _ (by rfl)]
      show e * 0 / 16384 = 0
      rw [Nat.mul_zero, Nat.zero_div]
    intro s
    refine ⟨?_, ?_, by decide +kernel, rfl, by decide, by decide +kernel, by decide +kernel⟩ <;> rw [show s.controlPower _ = 0 from z _] <;> omega

/-- An excursion that is 10 ms old, and one that ended 40 ms ago; a partition over its limit that dropped 1 µs ago, and 1 ns later than that. -/
theorem wit_power_limits : (∀ e : Option Nat × Option Nat, e ∈ [(some 0, none), (none, some 0)] →
      let s := atTime (if e.1.isSome then 10000000 else 40000000) (powered (fun w => { w with sust := 0, excurSince := e.1, excurEnd := e.2 }))
      wattEnergy s.pwr.sust < s.controlPower (energyOf s) ∧ s.pwr.level.length = 11 ∧ s.pwr.mgr.length = 11 ∧
      (s.pwr.excurSince = some 0 ∧ 0 + 10000000 ≤ s.now ∨ s.pwr.excurEnd = some 0 ∧ s.now ≤ 0 + 40000000)) ∧
    (∀ d ∈ [999000, 999001], let s := powered (fun w => { w with k := 0, plimit := [1], partPower := [25600001], limitDrop := [(0, d)] })
      s.controlPower (energyOf s) ≤ wattEnergy s.pwr.sust ∧ s.controlPower (energyOf s) ≤ wattEnergy s.pwr.peak ∧ s.overLimit 0 = true ∧ s.detRuns 0 = false ∧
      decide (Tab.get 0 s.pwr.limitDrop 0 + 1000 ≤ s.now) = decide (d = 999000)) := by
  constructor
  · intro e he s
    have a : 1 ≤ energyOf s := energy_pos (fun w => { w with sust := 0, excurSince := e.1, excurEnd := e.2 })
      (Nat.le_trans (by decide +kernel : 1 ≤ (powered id).countEnergy ⟨.module_, 0, 2, 1000⟩) (Nat.le_of_eq rfl))
    refine ⟨?_, rfl, rfl, ?_⟩
    · rw [control_power s _ rfl]
      exact Nat.lt_of_lt_of_le (show 0 * 25600000 < 1 * 16384 / 16384 by decide) (Nat.div_le_div_right (Nat.mul_le_mul_right _ a))
    · simp only [List.mem_cons, List.not_mem_nil, or_false] at he
      rcases he with rfl | rfl
      · exact .inl (by decide +kernel)
      · exact .inr (by decide +kernel)
  · intro d hd s
    have z : ∀ e, s.controlPower e = 0 := fun e => by
      rw [control_power _ _ (by rfl)]
      show e * 0 / 16384 = 0
      rw [Nat.mul_zero, Nat.zero_div]
    simp only [List.mem_cons, List.not_mem_nil, or_false] at hd
    refine ⟨?_, ?_, ?_, ?_, ?_⟩
    · rw [z]; omega
    · rw [z]; omega
    all_goals rcases hd with rfl | rfl <;> decide +kernel

/-- Hand calculation: 2,000 × 2,560,000 × 2^14 / 6,400,000,000 clamps to 0.85 and M/E = 0.8 < 0.85 diverges; VIN and MEAS are taken. -/
theorem test_power_step : (let t := after (.telemetryWindow 2000 4800) (powered (fun w => { w with ewSum := 12800000000, ewSteps := 2, divStreak := 9 }))
      (t.pwr.k, t.pwr.diverge, t.pwr.eLast, t.pwr.meas, t.pwr.vin) = (13926, true, 6400000000, 2000, 4800)) ∧
    (after .telemetryLost (powered (fun w => { w with missed := 2 }))).pwr.k = 18841 ∧ (after .telemetryLost (powered id)).pwr.k = 0x4000 ∧
    (after (.coefWrite .host 10 (2 ^ 24 + 5)) (powered id)).pwr.coef.getD 10 0 = 5 := by decide +kernel

def owAt (o : OwState) (s : State) : State := pwrAt (fun w => { w with ow := o }) s
/-- VR_ALERT_N before, in and 100 µs after it and 1 ns less; a sensor at THROTTLE and at TRIP and above, on a die, on the shed and of a stack;
a domain that may rise and that is warm, too early, or at 15; a trim up, the same and beyond 24; each overwintering state. -/
theorem wit_alerts : (∀ ring ∈ [0x0001, 0x2001, 0x5001, 0x3001], up.withheld ring none = false) ∧
    (up.pwr.vra = false ∧ up.pwr.level.length = 11 ∧ (pwrAt (fun w => { w with vra := true }) up).pwr.vra = true) ∧
    (∀ a ∈ [900000, 900001], let s := pwrAt (fun w => { w with vrHold := true, vrRelease := some a }) up
      s.pwr.vrRelease = some a ∧ s.pwr.vrHold = true ∧ (a = 900000 → a + 100000 ≤ s.now) ∧ (a = 900001 → s.now < a + 100000)) ∧
    (up.pwr.throttle = 95 ∧ up.pwr.trip = 105 ∧ (∀ d, d < 3 → up.pwr.therm.getD d 15 = 15 ∧ up.pwr.thermAt.getD d 0 + 1000000 ≤ up.now) ∧
      up.pwr.tripped = [false, false, false] ∧ (∀ n, n < 11 → 8 ≤ n → up.domainsOf n = [n - 8])) ∧
    (∀ d, d < 3 → let s := pwrAt (fun w => { w with therm := [14, 14, 14], tripped := [true, true, true] }) up
      s.pwr.therm.getD d 15 < 15 ∧ s.pwr.tripped.getD d false = true ∧ (s.setReadings d [90]).coolTo d (s.pwr.throttle - 5) = true ∧
      (s.setReadings d [91]).coolTo d (s.pwr.throttle - 5) = false ∧ (s.setReadings d [95]).coolTo d (s.pwr.trip - 10) = true ∧
      (s.setReadings d [96]).coolTo d (s.pwr.trip - 10) = false ∧ (∀ i, i < 84 → (s.setReadings d [90]).pwr.sensors.getD i 0 ≤ 95)) ∧
    (Tab.get 0 (pwrAt (fun w => { w with trims := [(7, 23)] }) up).pwr.trims 7 = 23) ∧
    (∀ o : OwState, mayWriteAll .host [0xE0018] (owAt o up) = true ∧ (owAt o up).pwr.ow = o ∧ (owAt o up).pwr.level.length = 11) ∧
    (up.regionOfIsland (up.regionIsland 9) = some 9 ∧ up.regionOfIsland 0 = none) ∧
    (∀ q ∈ (owAt .entering up).queues, q.2.running = none) ∧ (up.queues = []) ∧ (cmdAt .nop 0).queue 0 = queue0 .active .nop 0 ∧
    (let s := { up with trl := { up.trl with st := { up.trl.st with parts := { part0 with det := true } :: List.replicate 7 .none } } }
     s.parts.length = 8 ∧ (s.partRec 0).valid = true ∧ (s.partRec 0).det = true) ∧
    (∀ a ∈ [1000000, 1000001], let s := { up with mem := { up.mem with selfRefresh := true, wokenUntil := some a } }
      s.mem.wokenUntil = some a ∧ s.mem.selfRefresh = true ∧ (a = 1000000 → a ≤ s.now) ∧ (a = 1000001 → s.now < a)) := by
  refine ⟨by decide +kernel, by decide +kernel, by decide +kernel, by decide +kernel, by decide +kernel, by decide +kernel,
    fun o => by cases o <;> decide +kernel, by decide +kernel, by decide +kernel, by decide +kernel, by decide +kernel, by decide +kernel⟩

theorem test_alerts : (let t := after (.thermalThrottle 3 96) (powered (fun w => { w with level := [15, 0, 0, 0, 0, 0, 0, 0, 15, 15, 15], mgr := List.replicate 11 15 }))
      (t.pwr.therm, t.pwr.level) = ([14, 15, 15], [14, 0, 0, 0, 0, 0, 0, 0, 14, 15, 15])) ∧
    (let t := after .vrAlertAssert (powered id); (t.pwr.level, t.pwr.vrcount) = (List.replicate 11 0, 1)) ∧
    (after (.thermalTrip 72 105) up).pwr.tripped = [false, false, false] ∧ (after (.thermalTrip 72 106) up).pwr.tripped = [true, false, false] := by decide +kernel

def column0 : Nat := unitColumn 0 0 2 5
def pending0 (unit st : Nat) : PendRepair := ⟨999, 1, st, 30, unit⟩
/-- Decided columns of block 2 of region 0 in the pending list; partition 0 idle. -/
def repairing (ps : List PendRepair) : State := { up with rel := { up.rel with pending := ps } }
/-- n faults counted under a key at 1 ms. -/
def faulty (key n : Nat) (s : State) : State := { s with rel := { s.rel with faults := Tab.set [] s.rel.faults key (List.replicate n 1000000) } }

/-- Each trigger of Table 18-2 as it begins to hold, and just before. -/
theorem wit_triggers : (∀ n ∈ [2, 3], (faulty column0 n up).qualifies column0 0 0 = decide (n = 3)) ∧
    (faulty (besideKey (blockOfUnit column0)) 1 (faulty column0 1 up)).qualifies column0 0 0 = true ∧
    (∀ n ∈ [3, 4], (faulty (blockOfUnit column0) n up).qualifies (blockOfUnit column0) 0 0 = decide (n = 4)) ∧
    (∀ n ∈ [1, 2], decide (2 ≤ ((faulty (4 * 2 ^ 28) n up).faults24 (4 * 2 ^ 28)).length) = decide (n = 2)) ∧
    (∀ n ∈ [63, 64], decide (64 ≤ ((faulty (besideKey (4 * 2 ^ 28)) n up).faults24 (besideKey (4 * 2 ^ 28))).length) = decide (n = 64)) ∧
    (∀ e ∈ [(5, 2, 0), (5, 0, 64), (6, 1, 0), (6, 0, 1025), (7, 1, 0), (7, 0, 16)], up.qualifies (e.1 * 2 ^ 28) e.2.1 e.2.2 = true) ∧
    (∀ e ∈ [(5, 1, 63), (6, 0, 1024), (7, 0, 15), (8, 9, 9)], up.qualifies (e.1 * 2 ^ 28) e.2.1 e.2.2 = false) ∧
    (atTime 86400001000001 (faulty column0 3 up)).qualifies column0 0 0 = false := by decide +kernel

/-- A kind-1 decision with and without an older one of its block; a list with 255 and with 256 entries; a block that is busy, mapped and
free; a slice of a unit that serves and of a spare, before and after the image is loaded; a lane beyond the spares. -/
theorem wit_repairs : up.sec.fwok = true ∧ up.inReset = false ∧ (repairing []).rel.waitingColumn column0 = none ∧
    (repairing [pending0 column0 0]).rel.waitingColumn (column0 + 65536) = some (pending0 column0 0) ∧
    (∀ n ∈ [255, 256], (repairing (List.replicate n (pending0 column0 1))).rel.pending.length = n) ∧ phase2.sec.fwok = false ∧
    (let f := fun (e : PendRepair) => e.kind == 1 && e.st == 0 && e.unit / 2 ^ 20 == unitColumn 0 0 2 0 / 2 ^ 20
     (repairing []).rel.pending.find? f = none ∧ (repairing [pending0 column0 1, pending0 column0 0]).rel.pending.find? f = some (pending0 column0 0)) ∧
    (up.logicalRegion 0 0 = some 0 ∧ up.partOfRegion 0 = some 0 ∧ (up.part 0).launch = none ∧ up.trl.st.entries = [] ∧
      ((at0 (.mov .add mov0) [] []).part 0).launch.isSome = true) ∧
    (up.trl.loaded = true ∧ up.rel.stEn = true ∧ up.sliceOk column0 = true ∧ up.servesAs column0 = some 0 ∧ (at0 (.mov .add mov0) [] []).sliceOk column0 = false ∧
      up.servesAs (unitColumn 0 8 2 5) = none) ∧
    (let s := { up with trl := { up.trl with loaded := false } }
     s.sec.fwok = true ∧ s.inReset = false ∧ s.trl.loaded = false ∧ column0 ∉ s.rel.failedUnits) ∧
    (let s := { up with trl := { up.trl with st := { up.trl.st with parts := { part0 with det := true } :: List.replicate 7 .none } } }
     s.servesAs column0 = some 0 ∧ s.partOfRegion 0 = some 0 ∧ s.parts.length = 8 ∧ (s.partRec 0).det = true) := by decide +kernel

theorem wit_lane (link : Nat) : Config.dieSpares link < Tab.get 0 ([(link, Config.dieSpares link)] : Tab Nat) link + 1 := by
  simp [Tab.get]

/-- Columns 5 and 6 of block 2: the second decision makes one of KIND 2 with both counts; a mapping is in force at once. -/
theorem test_repairs : (let t := after (.repairDecide (column0 + 65536) 0 0) (faulty (column0 + 65536) 3 (repairing [pending0 column0 0]))
      t.rel.pending.map (fun e => (e.kind, e.count, e.unit)) = [(2, 33, 0x20200000)]) ∧
    (let t := after (.dieNetworkRetry 1 4 8) up; (t.rel.resets.trig, t.rel.resets.detail, t.inReset) = (6, 0x104, true)) := by decide +kernel

/-! Region instruction words. -/

/-- Words written out from the bit positions of Tables 05-3, 05-5, 05-6, 05-8, 05-11, 05-12 and 05-13, every field with a value of its own. -/
def wordList : List (Nat × RInstr) := [
  (33 * 2 ^ 16 + 2 * 2 ^ 22 + 1 * 2 ^ 24 + 2 * 2 ^ 26 + 4 * 2 ^ 28 + 3 * 2 ^ 31 + 2 * 2 ^ 33 + 2 ^ 35 + 2 ^ 36 + 700 * 2 ^ 38 + 9 * 2 ^ 48 + 400 * 2 ^ 53 + 21 * 2 ^ 64,
    ⟨false, .mul ⟨33, 2, 1, 2, 4, 3, 2, 1, 1, 700, 9, 400, 21⟩⟩),
  (1 * 2 ^ 8 + 5 * 2 ^ 16 + 3 * 2 ^ 22 + 2 ^ 24 + 701 * 2 ^ 25 + 8 * 2 ^ 35 + 31 * 2 ^ 40, ⟨false, .loadw ⟨5, 3, 1, 701, 8, 31⟩⟩),
  (2 * 2 ^ 8 + 5 * 2 ^ 16 + 6 * 2 ^ 22 + 701 * 2 ^ 25 + 8 * 2 ^ 35 + 2 ^ 40, ⟨false, .preload ⟨5, 6, 701, 8, 1⟩⟩),
  (4 * 2 ^ 8 + 5 * 2 ^ 16 + 500 * 2 ^ 22 + 512 * 2 ^ 31 + 701 * 2 ^ 41 + 8 * 2 ^ 51 + 30 * 2 ^ 56, ⟨false, .bank .bload ⟨5, 500, 512, 701, 8, 30⟩⟩),
  (1 + 3 * 2 ^ 8 + 1 * 2 ^ 16 + 2 * 2 ^ 26 + 3 * 2 ^ 36 + 4 * 2 ^ 46 + 0x3FF * 2 ^ 56 + 5 * 2 ^ 66 + 6 * 2 ^ 71 + 7 * 2 ^ 76 + 8 * 2 ^ 81 + 9 * 2 ^ 86 + 10 * 2 ^ 91 + 2 * 2 ^ 96,
    ⟨false, .vec .fma ⟨1, 2, 3, 4, 0x3FF, 5, 6, 7, 8, 9, 10, 2, 0⟩⟩),
  (1 + 0x1A * 2 ^ 8 + 0x3FF * 2 ^ 36 + 63 * 2 ^ 98, ⟨false, .vec .topk ⟨0, 0, 0x3FF, 0, 0, 0, 0, 0, 0, 0, 0, 0, 63⟩⟩),
  (2 + 2 ^ 4 + 0x20 * 2 ^ 8 + 30 * 2 ^ 16 + 1 * 2 ^ 48, ⟨true, .mov .spec ⟨30, 0, 0, 0, 0, 0, 1⟩⟩),
  (2 + 0x30 * 2 ^ 8 + 1 * 2 ^ 16 + 2 * 2 ^ 21 + 3 * 2 ^ 26 + 600 * 2 ^ 31 + 4 * 2 ^ 41 + 2 ^ 46 + (2 ^ 64 - 5) * 2 ^ 48, ⟨false, .mov .dmain ⟨1, 2, 3, 600, 4, 1, 2 ^ 64 - 5⟩⟩),
  (3 + 2 * 2 ^ 16 + 17 * 2 ^ 18 + 0x80000001 * 2 ^ 23 + 0x80000002 * 2 ^ 55 + 8191 * 2 ^ 87 + 19 * 2 ^ 100, ⟨false, .loop ⟨2, 17, 0x80000001, 0x80000002, 8191, 19⟩⟩),
  (4 + 2 ^ 4 + 4 * 2 ^ 8 + 255 * 2 ^ 16 + 18 * 2 ^ 24 + 0x90000001 * 2 ^ 29 + 0x8001 * 2 ^ 61 + 2 ^ 77, ⟨true, .sync .recv ⟨255, 18, 0x90000001, 0x8001, 1⟩⟩),
  (5 + 2 * 2 ^ 8 + 1 * 2 ^ 16 + 2 * 2 ^ 26 + 3 * 2 ^ 36 + 4 * 2 ^ 46 + 1023 * 2 ^ 56 + 63 * 2 ^ 66 + 5 * 2 ^ 72 + 6 * 2 ^ 77, ⟨false, .kv .score ⟨1, 2, 3, 4, 1023, 63, 5, 6⟩⟩),
  (6 + 2 ^ 4 + 2 * 2 ^ 8 + 1 * 2 ^ 16 + 2 * 2 ^ 26 + 3 * 2 ^ 36 + 4 * 2 ^ 46 + 5 * 2 ^ 56 + 6 * 2 ^ 66 + 7 * 2 ^ 71 + 8 * 2 ^ 76 + 9 * 2 ^ 81 + 2 ^ 86,
    ⟨true, .route .returnAcc ⟨1, 2, 3, 4, 5, 6, 7, 8, 9, 1⟩⟩),
  (7 + 1022 * 2 ^ 16 + 30 * 2 ^ 26 + 63 * 2 ^ 31, ⟨false, .tap ⟨1022, 30, 63⟩⟩)]

/-- Both directions of the agreement have instances, and the words are read as the tables lay them out. -/
theorem wit_words : ∀ e ∈ wordList, RInstr.decode e.1 = some e.2 ∧ e.2.wf = true ∧ e.1 < 2 ^ 128 := by decide +kernel

/-- Reserved bits, reserved classes and unlisted operations and fields spell nothing: bits 5 and 37, class 8, VEC 0x1F, SCALSEL 3, RBM 3, SRC 3. -/
theorem test_words : ∀ w ∈ [7 + 2 ^ 5, 2 ^ 16 + 2 ^ 37, 8, 1 + 0x1F * 2 ^ 8, 1 + 3 * 2 ^ 96, 2 ^ 16 + 3 * 2 ^ 26, 3 + 3 * 2 ^ 16 + 2 ^ 55 + 2 ^ 87, 7 + 2 ^ 127],
    RInstr.decode w = none := by decide +kernel

/-! The machine as a whole. -/

/-- A command in front; no command, with device time running, held and without rails. -/
theorem wit_step : ({ up with pending := [.hbtSend, .twinLost] } : State).pending = .hbtSend :: [.twinLost] ∧ up.pending = [] ∧ up.board.rails = true ∧ up.time.hold = 0 ∧
    ({ up with time := { up.time with hold := 3 } } : State).time.hold ≠ 0 ∧ State.reset.board.rails = false := by decide +kernel
theorem test_step : (match step up with | .next t => t.now == 1000001 | _ => false) = true := by decide +kernel

/-- Private modes are closed at reset, so the invariant holds there, and a step of that state answers. -/
theorem wit_invariants : State.reset.trustInv ∧ step .reset = .next .reset := ⟨by unfold State.trustInv; decide, by rfl⟩

/-! Ill-formed commands that WellFormed refuses, one for each check. -/

theorem refused_numbers : ∀ i ∈ [Instr.nop 516, .syncWaitEnd 16, .launchComplete 8, .ackTimeout 18, .wake (.bdp 3), .slotSelect 32, .slotQmapWrite .host 512 0, .slotQmapWrite .host 0 32,
    .instructionRetire 0 (.block 6) none, .weightSetReady 0 6 0 none, .weightSetReady 0 0 4 none, .weightSetFree 0 6 0, .sequenceFree 262144,
    .cancelFilterExpire 0 (2 ^ 32), .doorbell .host 0 (2 ^ 16) [], .epochRaise .host (2 ^ 32) 0 0, .epochRaise .host 0 (2 ^ 16) 0, .epochRaise .host 0 0 8,
    .rtInsert .host 64 false, .rtRemove .host 64 false, .rtReplace .host 64 false, .rtFlush .host 64 false, .rlcWalkDone 0 (2 ^ 57)], i.wf = false := by decide +kernel

theorem refused_fields : ∀ i ∈ [Instr.wgtSwitch 0 (2 ^ 16), .tapSet 0 ⟨64, 0, false⟩, .fenceSignal 0 ⟨0, 1, true, true⟩, .movAdd 0 { mov0 with sd := 32 }, .movAdd 0 { mov0 with xp := 1 }, .movAdd 16 mov0,
    .backgroundRead (2 ^ 48) .good, .cxlMemRead (2 ^ 48) 64, .cxlMemWrite (2 ^ 48) [0], .wr 0 { msg0 1 0 with typ := 256 }, .wr 18 (msg0 1 0),
    .dataFrame 0 ⟨true, []⟩, .trainFrame 0 (2 ^ 15) 0, .trainFrame 0 0 32, .laneBad 0 9 none, .releaseApply 64 0, .releaseApply 0 64], i.wf = false := by decide +kernel

theorem refused_units : ∀ i ∈ [Instr.spareColumnMap 2 0 0, .spareColumnMap 0 9 0, .spareColumnMap 0 0 7, .powerStep [⟨.module_, 11, 0, 1⟩], .powerStep [⟨.module_, 0, 11, 1⟩],
    .coefWrite .host 11 0, .droopDetect (2 ^ 16) 16, .ageingTrim (2 ^ 16) 1 0, .thermalTrip 84 0, .thermalCapRise 3 [], .powerStep [⟨.module_, 0, 1, 1⟩], .repairDecide (2 ^ 28 - 1) 0 0, .repairDecide (9 * 2 ^ 28) 0 0,
    .selftestSlice (2 ^ 32) true, .dieLinkLaneSpare 3 0, .dieNetworkRetry 2 0 0, .dieNetworkRetry 0 9 0], i.wf = false := by decide +kernel

theorem refused_messages : ∀ i ∈ [Instr.coord ⟨256, 0, 4⟩ 0 0 0 0, .coord ⟨0, 256, 4⟩ 0 0 0 0, .coord (hdr0 4) (2 ^ 16) 0 0 0, .coord (hdr0 4) 0 16 0 0, .coord (hdr0 4) 0 0 16 0,
    .coord (hdr0 4) 0 0 0 256, .enrol (hdr0 65) 0 [0], .revoke (hdr0 1) true 4, .start (hdr0 8) (2 ^ 64), .regRead (hdr0 9) 0 256,
    .bdpWrite (hdr0 4) (2 ^ 16) [], .bdpRead (hdr0 4) (2 ^ 16) 1, .mgtReset (hdr0 2) (2 ^ 16), .notifyAck (2 ^ 32), .notifyResend (2 ^ 32),
    .bulkRead ⟨true, 256, 0⟩ 1, .bulkRead ⟨true, 0, 2 ^ 16⟩ 1, .bulkRead ⟨true, 0, 0⟩ (2 ^ 16), .bdpWindowAccess 4096 1 none, .bdpWindowAccess 0 2 (some [0]), .bdpAddrWrite .host 3 0,
    .challenge 0 [0], .getMeasurements 0 [0], .plotKey 0 64 0 (zeros 32), .plotKey 0 0 2 (zeros 32), .plotKey 0 0 0 [0], .msixUnmask 2048,
    .registerWrite .host (2 ^ 32) 8 0, .entdaa 128], i.wf = false := by decide +kernel

/-- And one of each kind that it takes. -/
theorem accepted : ∀ i ∈ [Instr.nop 515, .wake (.bdp 2), .movAdd 15 mov0, .wr 17 (msg0 1 0), .plotKey 0 63 1 (zeros 32), .powerStep count0, .entdaa 127, .msixUnmask 2047,
    .bdpWindowAccess 4095 1 (some [0])], i.wf = true := by decide +kernel

end Sys2Proof.Tests
end

section
/-! SUPPORT. What each unit reads as at reset, for every number, also one past the units that the module has; and the
settlement of O57. -/
namespace Sys2Proof.Machine

/-- A list filled with the default reads as the default everywhere. -/
theorem getD_replicate_default {α : Type} (d : α) (n i : Nat) : (List.replicate n d).getD i d = d := by
  rw [List.getD_eq_getElem?_getD, List.getElem?_replicate]
  split
  case isTrue => rfl
  case isFalse => rfl

@[simp] theorem State.queue_reset (q : Nat) : State.reset.queue q = .reset := rfl
@[simp] theorem State.seq_reset (n : Nat) : State.reset.seq n = .free := rfl
@[simp] theorem State.gen_reset (p e : Nat) : State.reset.gen p e = .free := rfl
@[simp] theorem State.slot_reset (i : Nat) : State.reset.slot i = .reset := getD_replicate_default ..
@[simp] theorem State.link_reset (p : Nat) : State.reset.link p = .reset := getD_replicate_default ..
@[simp] theorem State.cloche_reset (p : Nat) : State.reset.cloche p = .off := getD_replicate_default ..
@[simp] theorem State.level_reset (n : Nat) : State.reset.level n = 0 := getD_replicate_default ..

/-- Nothing is listed in any memory, the 16 regions' SRAM included. -/
theorem State.memWf_reset : State.reset.memWf = true := by
  have regions : State.reset.regions.all (fun r => Memory.wf r.sram) = true :=
    List.all_eq_true.mpr fun r hr => by rw [List.eq_of_mem_replicate hr]; rfl
  unfold State.memWf
  rw [regions]
  rfl

/-- The private modes are closed, so that the fuses do not matter (R540). -/
theorem State.trustInv_reset : State.reset.trustInv := fun opened => nomatch opened

/-- A queue at power-on is DISABLED and holds no command (R373). -/
theorem Queue.reset_empty : Queue.reset.state = .disabled ∧ Queue.reset.running = none ∧ Queue.reset.fetched = [] ∧
    Queue.reset.enable = false := ⟨rfl, rfl, rfl, rfl⟩

/-- A port at power-on is DOWN, may train, and has its Reset threshold (Tables 15-6, 15-7). -/
theorem Link.reset_down : Link.reset.st = .down ∧ Link.reset.disable = false ∧ Link.reset.lthresh = 0x0400 :=
  ⟨rfl, rfl, rfl⟩

/-- Settles O57: each unit reads as its own reset record, and what is no table or list is a field of the reset state. -/
theorem resetLeavesTheGivenState : Obligations.ResetLeavesTheGivenState := by
  unfold Obligations.ResetLeavesTheGivenState
  refine ⟨fun q => ?queue, fun i => ?slot, fun p => ?link, rfl, rfl, rfl, rfl, rfl, rfl, rfl, rfl, rfl, rfl,
    State.level_reset, rfl, rfl, rfl, rfl, fun n => ?seq, fun p e => ?gen, fun p => ?cloche, rfl, rfl, rfl,
    State.memWf_reset, State.trustInv_reset⟩
  case queue => rw [State.queue_reset]; exact Queue.reset_empty
  case slot => rw [State.slot_reset]; rfl
  case link => rw [State.link_reset]; exact Link.reset_down
  case seq => rw [State.seq_reset]; rfl
  case gen => rw [State.gen_reset]; rfl
  case cloche => rw [State.cloche_reset]; rfl

end Sys2Proof.Machine
end

section
/-! SUPPORT. What the FP32 operations make of a NaN operand (R33, R61); and the settlement of O6. -/
namespace Sys2Proof.Machine

/-! Exact sums and products with a NaN. -/

@[simp] theorem FVal.nan_add (v : FVal) : FVal.nan.add v = .nan := by cases v <;> rfl
@[simp] theorem FVal.add_nan (v : FVal) : v.add .nan = .nan := by cases v <;> rfl
@[simp] theorem FVal.nan_mul (v : FVal) : FVal.nan.mul v = .nan := by cases v <;> rfl
@[simp] theorem FVal.mul_nan (v : FVal) : v.mul .nan = .nan := by cases v <;> rfl

/-- A NaN rounds to the canonical one, without a flag (Table 02-5). -/
@[simp] theorem toF32_nan : toF32 .nan = (f32nan, 0) := rfl

/-! Operations of two operands. -/

theorem fAdd_nan {a b : F32} (h : f32val a = .nan ∨ f32val b = .nan) : (fAdd a b).1 = f32nan := by
  rcases h with h | h <;> simp [fAdd, h]

theorem fSub_nan {a b : F32} (h : f32val a = .nan ∨ f32val b = .nan) : (fSub a b).1 = f32nan := by
  rcases h with h | h <;> simp [fSub, h]

theorem fMul_nan {a b : F32} (h : f32val a = .nan ∨ f32val b = .nan) : (fMul a b).1 = f32nan := by
  rcases h with h | h <;> simp [fMul, h]

theorem fDiv_nan {a b : F32} (h : f32val a = .nan ∨ f32val b = .nan) : (fDiv a b).1 = f32nan := by
  rcases h with h | h
  · simp [fDiv, h]
  · cases ha : f32val a <;> simp [fDiv, h, ha]

theorem fFma_nan {a b c : F32} (h : f32val a = .nan ∨ f32val b = .nan ∨ f32val c = .nan) : (fFma a b c).1 = f32nan := by
  rcases h with h | h | h <;> simp [fFma, h]

/-! Functions of one operand. -/

section
variable {a : F32} (h : f32val a = .nan)
include h

theorem fSqrt_nan : fSqrt a = (f32nan, 0) := by simp [fSqrt, h]
theorem fRcp_nan : fRcp a = (f32nan, 0) := by simp [fRcp, h]
theorem fRsq_nan : fRsq a = (f32nan, 0) := by simp [fRsq, h]
theorem fExp_nan : fExp a = (f32nan, 0) := by simp [fExp, h]
theorem fLog_nan : fLog a = (f32nan, 0) := by simp [fLog, h]
theorem fSin_nan : fSin a = (f32nan, 0) := by simp [fSin, h]
theorem fCos_nan : fCos a = (f32nan, 0) := by simp [fCos, h]

end

/-! Minimum and maximum: the operand that is not NaN. -/

theorem isNaN32_eq (a : F32) : isNaN32 a = decide (f32val a = .nan) := rfl

section
variable {a : F32} (b : F32) (h : f32val a = .nan)
include h

theorem fMin_nan_left : fMin a b = if f32val b = .nan then f32nan else b := by
  simp [fMin, isNaN32_eq, h]

theorem fMax_nan_left : fMax a b = if f32val b = .nan then f32nan else b := by
  simp [fMax, isNaN32_eq, h]

theorem fMin_nan_right : fMin b a = if f32val b = .nan then f32nan else b := by
  simp [fMin, isNaN32_eq, h]

theorem fMax_nan_right : fMax b a = if f32val b = .nan then f32nan else b := by
  simp [fMax, isNaN32_eq, h]

end

/-- Settles O6: one lemma for each operation; 0x7FC0_0000 is `f32nan`. -/
theorem nanOperandsGiveTheCanonicalNan : Obligations.NanOperandsGiveTheCanonicalNan := by
  unfold Obligations.NanOperandsGiveTheCanonicalNan
  refine ⟨fun a b h => ?arith, fun a b c h => fFma_nan h, fun a h => ?unary, fun a b h => ?minmax⟩
  case arith => exact ⟨fAdd_nan h, fSub_nan h, fMul_nan h, fDiv_nan h⟩
  case unary =>
    rw [fSqrt_nan h, fRcp_nan h, fRsq_nan h, fExp_nan h, fLog_nan h, fSin_nan h, fCos_nan h]
    exact ⟨rfl, rfl, rfl, rfl, rfl, rfl, rfl⟩
  case minmax => exact ⟨fMin_nan_left b h, fMax_nan_left b h, fMin_nan_right b h, fMax_nan_right b h⟩

end Sys2Proof.Machine
end

section
/-! SUPPORT. What leaves every region as it is: logged errors and events, messages to other modules, writes of memory and
of physical areas (R365, R426 to R440, R571). -/
namespace Sys2Proof.Machine

/-- A fold whose every step keeps a part of the state keeps that part. -/
theorem foldl_keeps_part {α β σ : Type} (g : σ → β) (f : σ → α → σ) (h : ∀ s a, g (f s a) = g s) (l : List α)
    (s : σ) : g (l.foldl f s) = g s := by
  induction l generalizing s with
  | nil => rfl
  | cons a l ih => rw [List.foldl_cons, ih, h]

variable (s : State)

/-! Events, counters and logs. -/

@[simp] theorem event_regions (island code : Nat) (part queue : Option Nat) (data : Nat) :
    (s.event island code part queue data).regions = s.regions := by
  obtain ⟨r, e⟩ := event_eq s island code part queue data; rw [e]

@[simp] theorem irq_regions (b : Nat) : (s.irq b).regions = s.regions := by
  obtain ⟨o, h, e⟩ := irq_eq s b; rw [e]

@[simp] theorem logError_regions (addr tier source : Nat) (part : Option Nat) (ctx seq queue : Nat) :
    (s.logError addr tier source part ctx seq queue).regions = s.regions := by
  obtain ⟨r, l, k, o, h, e⟩ := logError_eq s addr tier source part ctx seq queue; rw [e]

@[simp] theorem bumpPart_regions (p code n : Nat) : (s.bumpPart p code n).regions = s.regions := by
  obtain ⟨c, e⟩ := bumpPart_eq s p code n; rw [e]

@[simp] theorem countFault_regions (unit : Nat) : (s.countFault unit).regions = s.regions := rfl

@[simp] theorem regLog_regions (p addr tier : Nat) : (s.regLog p addr tier).regions = s.regions := by
  unfold State.regLog
  split
  · exact logError_regions ..
  · rfl

/-! Messages that leave the module. -/

@[simp] theorem idleFrames_regions (port key : Nat) : (s.idleFrames port key).regions = s.regions :=
  foldl_keeps_part State.regions (fun (s : State) _ => s.idleFrame port 1) (fun _ _ => rfl) _ s

@[simp] theorem freeRx_regions (port : Nat) (share : Option Nat) (n : Nat) : (s.freeRx port share n).regions = s.regions := by
  cases share with
  | none => rfl
  | some k =>
    simp only [State.freeRx]
    split
    · exact idleFrames_regions ..
    · rfl

@[simp] theorem countRate_regions (port : Nat) (t : TxMsg) : (s.countRate port t).regions = s.regions := by
  unfold State.countRate
  split <;> rfl

@[simp] theorem takeAll_regions (port fuel : Nat) (ts : List TxMsg) :
    (State.takeAll port fuel ts s).2.regions = s.regions := by
  induction fuel generalizing ts s with
  | zero => rfl
  | succ fuel ih =>
    unfold State.takeAll
    dsimp only
    split
    · rfl
    · split
      · rfl
      · rw [ih, countRate_regions, setLink_regions]

@[simp] theorem pump_regions (port fuel : Nat) : (State.pump port fuel s).regions = s.regions := by
  unfold State.pump
  split
  · rfl
  · dsimp only
    rw [foldl_keeps_part State.regions _ ?free, foldl_keeps_part State.regions _ ?send, setLink_regions, takeAll_regions]
    case send => exact fun _ _ => rfl
    case free =>
      intro s t
      split
      · exact freeRx_regions ..
      · rfl

@[simp] theorem transmit_regions (port : Nat) (t : TxMsg) : (s.transmit port t).regions = s.regions := pump_regions ..

theorem seal_regions {s : State} {r : RoutingRec} {m : LinkMsg} {z : LinkMsg × State} (h : s.seal r m = some z) :
    z.2.regions = s.regions := by
  unfold State.seal State.encrypt at h
  split at h
  · dsimp only at h
    split at h
    · cases h
    · cases h; rfl
  · cases h; rfl

@[simp] theorem originate_regions (m : LinkMsg) : (s.originate m).2.regions = s.regions := by
  unfold State.originate
  split
  · rfl
  · split
    · rfl
    · split
      · rfl
      · rename_i sealed
        dsimp only
        split
        · rw [transmit_regions, bumpPart_regions, seal_regions sealed]
        · rw [transmit_regions, seal_regions sealed]

theorem originate_regions_of_eq {s : State} {m : LinkMsg} {z : Option Status × State} (h : s.originate m = z) :
    z.2.regions = s.regions := h ▸ originate_regions s m

/-- A write that a region asked for, and no instruction waits for, is settled without a trace in any region. -/
theorem settleOne_regions (x : RemoteReq) (r : Nat) (st : Status) (data : List Byte) (h : x.owner = .region r) :
    (s.settleOne x st data).regions = s.regions := by
  unfold State.settleOne
  dsimp only
  rw [h]
  cases x.read <;> rfl

/-- A request of a region, that no instruction waits for, changes no region, also when it fails at once. -/
@[simp] theorem request_regions (r plot pa : Nat) (xc : Bool) (write : Option (List Byte)) (n : Nat) :
    (s.request (.region r) plot pa xc write n).regions = s.regions := by
  unfold State.request
  dsimp only
  split
  · rename_i sent
    exact originate_regions_of_eq sent
  · rename_i failed
    rw [settleOne_regions _ _ r _ _ rfl]
    exact originate_regions_of_eq failed

/-! Writes of memory. -/

@[simp] theorem snoopLines_regions (ls : List Nat) : (s.snoopLines ls).regions = s.regions := by
  refine foldl_keeps_part State.regions _ (fun s l => ?_) ls s
  dsimp only
  split <;> rfl

@[simp] theorem deferWrite_regions (a : Nat) (bs : List Byte) : (s.deferWrite none a bs).regions = s.regions :=
  snoopLines_regions ..

@[simp] theorem writeLocal_regions (a : Nat) (bs : List Byte) : (s.writeLocal a bs).regions = s.regions := by
  unfold State.writeLocal
  split <;> rfl

@[simp] theorem hotLog_regions (word0 : Nat) : (s.hotLog word0).regions = s.regions := by
  unfold State.hotLog
  rw [irq_regions]
  split <;> rfl

@[simp] theorem hotBump_regions (ctx : Nat) (e : RangeEntry) (seg n : Nat) (now : Option Nat) :
    (s.hotBump ctx e seg n now).regions = s.regions := by
  unfold State.hotBump
  dsimp only
  split
  · rfl
  · split
    · rw [hotLog_regions]; cases now <;> rfl
    · rfl

@[simp] theorem hotCount_regions (v : Via) (ps : List Piece) : (s.hotCount v ps).regions = s.regions := by
  unfold State.hotCount
  split
  · rfl
  · refine foldl_keeps_part State.regions _ (fun s x => ?_) ps s
    split
    · rfl
    · exact foldl_keeps_part State.regions _ (fun s c => hotBump_regions ..) _ s

@[simp] theorem writePieces_regions (r : Nat) (v : Via) (source seq queue : Nat) (xc : Bool) (ps : List Piece) (bs : List Byte) :
    (s.writePieces (.region r) v source seq queue xc ps bs).2.regions = s.regions := by
  unfold State.writePieces
  dsimp only
  split
  · exact snoopLines_regions ..
  · split
    · exact logError_regions ..
    · rw [hotCount_regions]
      refine foldl_keeps_part (fun acc : State × Nat × List Byte => acc.1.regions) _ (fun acc x => ?_) ps (s, 0, bs)
      split
      · exact foldl_keeps_part (fun a : State × Nat × List Byte => a.1.regions) _ (fun a y => request_regions ..) _ _
      · exact writeLocal_regions ..

@[simp] theorem areaPut_regions (p r a : Nat) (bs : List Byte) : (s.areaPut p r a bs).regions = s.regions := by
  have kept := writePieces_regions s r ⟨64, p, none⟩ 0 0 0 false [⟨0, a, bs.length, .blank⟩] bs
  unfold State.areaPut
  split
  all_goals rename_i written; rw [written] at kept
  · rw [deferWrite_regions]; exact kept
  · exact kept

@[simp] theorem areaWrite_regions (p r : Nat) (spans : List (Nat × Nat)) (off : Nat) (bs : List Byte) :
    (s.areaWrite p r spans off bs).regions = s.regions := by
  unfold State.areaWrite
  exact foldl_keeps_part (fun a : State × List Byte => a.1.regions) _ (fun a x => areaPut_regions ..) _ _

@[simp] theorem tapWrite_regions (p r : Nat) (area : TapArea) (body : List Byte) :
    (s.tapWrite p r area body).regions = s.regions := by
  unfold State.tapWrite
  dsimp only
  rw [areaWrite_regions]
  split
  · exact areaWrite_regions ..
  · rfl

end Sys2Proof.Machine
end

section
/-! SUPPORT. Retirement of a region's instruction (R63, R110, R111, R132, R175), one lemma for each of its effects on the
region; and the settlement of O23. -/
namespace Sys2Proof.Machine

/-! One region becomes another, and every other region is left alone. -/

/-- From s to t region r has become y, and no other region has changed. -/
def RegionBecomes (s t : State) (r : Nat) (y : Region) : Prop := t.regions = (s.setRegion r y).regions

section
variable {s t u : State} {r : Nat} {y z : Region}

theorem region_of_regions_eq (h : t.regions = s.regions) (k : Nat) : t.region k = s.region k := by
  rw [State.region, h, State.region]

theorem RegionBecomes.refl (hr : r < s.regions.length) (h : t.regions = s.regions) : RegionBecomes s t r (s.region r) := by
  have read : s.region r = s.regions[r] := by
    rw [State.region, List.getD_eq_getElem?_getD, List.getElem?_eq_getElem hr, Option.getD_some]
  rw [RegionBecomes, h, read, State.setRegion, List.set_getElem_self]

theorem RegionBecomes.trans (h : RegionBecomes s t r y) (k : RegionBecomes t u r z) : RegionBecomes s u r z := by
  have h : t.regions = s.regions.set r y := h
  have k : u.regions = t.regions.set r z := k
  rw [RegionBecomes, k, h, List.set_set]
  rfl

theorem RegionBecomes.length (h : RegionBecomes s t r y) : t.regions.length = s.regions.length := by
  rw [h, setRegion_regions_length]

theorem RegionBecomes.region (h : RegionBecomes s t r y) (hr : r < s.regions.length) : t.region r = y := by
  rw [region_of_regions_eq h, region_setRegion _ _ _ _ hr, if_pos rfl]

theorem RegionBecomes.other (h : RegionBecomes s t r y) {k : Nat} (hk : k ≠ r) : t.region k = s.region k := by
  rw [region_of_regions_eq h, region_setRegion_ne _ _ _ _ hk]

end

/-! The effects of a retirement, in their order. -/

/-- A status joined to the one that a region's command has; OK joins nothing (R18). -/
def Status.joined (old st : Status) : Status := if st = .ok then old else old.worst st

/-- What the checks of an instruction found, in its execution and now (R111). -/
def Issued.found (i : Issued) (fault : Option RetireFault) : List RetireFault := i.bad ++ fault.toList.filter (fun f => f.fits i)

/-- The status that an instruction ends with: DATA joins it when a check failed (R111). -/
def Issued.endStatus (i : Issued) (fault : Option RetireFault) : Status :=
  if (i.found fault).any (·.fails) then i.fail.worst .data else i.fail

/-- A finding changes no more of its region than its blocks and its count of corrected SRAM errors. -/
theorem checkFail_becomes {s : State} {r : Nat} (hr : r < s.regions.length) (p : Nat) (i : Issued) (f : RetireFault) :
    ∃ bs n, RegionBecomes s (s.checkFail p r i f) r { s.region r with blocks := bs, sramCorrected := n } := by
  have same {t : State} (h : t.regions = s.regions) :
      ∃ bs n, RegionBecomes s t r { s.region r with blocks := bs, sramCorrected := n } :=
    ⟨(s.region r).blocks, (s.region r).sramCorrected, .refl hr h⟩
  cases f with
  | cell b row col => exact same (by simp [State.checkFail])
  | setFailed b row col => exact same (by simp [State.checkFail])
  | bank b entry col =>
    simp only [State.checkFail]
    generalize hu : (State.countFault _ _) = u
    have hu : u.regions = s.regions := by simp [← hu]
    exact ⟨_, _, (RegionBecomes.refl hr hu).trans (by rw [region_of_regions_eq hu]; rfl)⟩
  | bankSingle b entry col => exact ⟨_, _, rfl⟩
  | lane n => exact same (by simp [State.checkFail])
  | sram off => exact same (by simp [State.checkFail])
  | sramSingle off => exact ⟨_, _, rfl⟩
  | store reread => exact same rfl

/-- All the findings of an instruction change no more of the region than one does. -/
theorem checks_become {s : State} {r : Nat} (hr : r < s.regions.length) (p : Nat) (i : Issued) (fs : List RetireFault) :
    ∃ bs n, RegionBecomes s (fs.foldl (fun (s : State) f => s.checkFail p r i f) s) r
      { s.region r with blocks := bs, sramCorrected := n } := by
  induction fs generalizing s with
  | nil => exact ⟨(s.region r).blocks, (s.region r).sramCorrected, .refl hr rfl⟩
  | cons f fs ih =>
    obtain ⟨_, _, first⟩ := checkFail_becomes hr p i f
    obtain ⟨bs, n, rest⟩ := ih (first.length ▸ hr)
    rw [first.region hr] at rest
    exact ⟨bs, n, first.trans rest⟩

/-- A status that an instruction notes joins the command's, and skip mode stays as it is (R132). -/
theorem noteStatus_becomes {s : State} {r : Nat} (hr : r < s.regions.length) (st : Status) :
    ∃ o, RegionBecomes s (if st = .ok then s else s.noteStatus r st) r
      { s.region r with fail := (s.region r).fail.joined st, failOrder := o } := by
  unfold Status.joined
  split
  · exact ⟨(s.region r).failOrder, .refl hr rfl⟩
  · exact ⟨_, rfl⟩

/-- A status other than OK that an instruction ends with joins the command's, and puts the region into skip mode (R175). -/
theorem failRegion_becomes {s : State} {r : Nat} (hr : r < s.regions.length) (st : Status) :
    ∃ o, RegionBecomes s (if st = .ok then s else s.failRegion r st) r
      { s.region r with fail := (s.region r).fail.joined st, failOrder := o, skip := (s.region r).skip || st != .ok } := by
  by_cases ok : st = .ok
  · refine ⟨(s.region r).failOrder, ?_⟩
    simpa [ok, Status.joined] using RegionBecomes.refl hr rfl
  · obtain ⟨o, noted⟩ := noteStatus_becomes hr st
    rw [if_neg ok] at noted
    refine ⟨o, ?_⟩
    have skips : ((s.region r).skip || st != .ok) = true := by simp [ok]
    rw [if_neg ok, State.failRegion, noted.region hr, skips]
    exact noted.trans rfl

/-- The instruction leaves the table, and its flags join the region's (R63). -/
def State.takeOut (s : State) (r : Nat) (i : Issued) : State :=
  let x := s.region r
  s.setRegion r { (x.orFlags i.flags.summary) with issued := x.issued.filter (fun j => j.id != i.id) }

/-- The record that an instruction still has to write is written: a TAP's (R572). -/
def State.writeTap (s : State) (p r : Nat) (i : Issued) : State :=
  match i.pend with
  | .tapArea area body => s.tapWrite p r area body
  | _ => s

@[simp] theorem writeTap_regions (s : State) (p r : Nat) (i : Issued) : (s.writeTap p r i).regions = s.regions := by
  unfold State.writeTap
  split
  · exact tapWrite_regions ..
  · rfl

/-- A retirement in its parts: a tap's record, the table and the flags, the findings, and the two statuses. -/
theorem retire_eq (s : State) (p r : Nat) (i : Issued) (fault : Option RetireFault) :
    s.retire p r i fault =
      let u := (i.found fault).foldl (fun (s : State) f => s.checkFail p r i f) ((s.writeTap p r i).takeOut r i)
      let v := if i.note = .ok then u else u.noteStatus r i.note
      if i.endStatus fault = .ok then v else v.failRegion r (i.endStatus fault) := by
  unfold Issued.endStatus Issued.found
  cases fault with
  | none => rfl
  | some f => simp only [Option.toList, List.filter_cons, List.filter_nil]; rfl

/-- What a retirement leaves of its region; the other regions are left alone (R63, R111, R132, R175). -/
theorem retire_becomes {s : State} {r : Nat} (hr : r < s.regions.length) (p : Nat) (i : Issued) (fault : Option RetireFault) :
    ∃ bs n o, RegionBecomes s (s.retire p r i fault) r
      { s.region r with
        flags := (s.region r).flags ||| i.flags.summary, issued := (s.region r).issued.filter (fun j => j.id != i.id),
        blocks := bs, sramCorrected := n, fail := ((s.region r).fail.joined i.note).joined (i.endStatus fault), failOrder := o,
        skip := (s.region r).skip || i.endStatus fault != .ok } := by
  have tapped := writeTap_regions s p r i
  have taken : RegionBecomes s ((s.writeTap p r i).takeOut r i) r _ := (RegionBecomes.refl hr tapped).trans rfl
  obtain ⟨bs, n, checked⟩ := checks_become (taken.length ▸ hr) p i (i.found fault)
  have checked := taken.trans checked
  obtain ⟨_, noted⟩ := noteStatus_becomes (checked.length ▸ hr) i.note
  have noted := checked.trans noted
  obtain ⟨o, failed⟩ := failRegion_becomes (noted.length ▸ hr) (i.endStatus fault)
  have failed := noted.trans failed
  rw [noted.region hr, checked.region hr, taken.region hr, region_of_regions_eq tapped] at failed
  rw [retire_eq]
  exact ⟨bs, n, o, failed⟩

/-! The command. -/

theorem exec_instructionRetire (r : Nat) (u : RUnit) (fault : Option RetireFault) (s : State) :
    exec (.instructionRetire r u fault) s = execInstructionRetire r u fault s := rfl

section
variable {s : State} {r : Nat} {u : RUnit} (h16 : r < 16) (hreset : s.inReset = false)
include h16 hreset

/-- INSTRUCTION_RETIRE retires the oldest instruction of the unit when it may retire. -/
theorem instructionRetire_retires {p : Nat} {i : Issued} {fault : Option RetireFault} (hp : s.partOfRegion r = some p)
    (oldest : (s.region r).issued.find? (fun i => i.units.contains u) = some i) (ready : (s.region r).canRetire i = true)
    (hfault : ∀ ok, fault ≠ some (.store ok)) :
    exec (.instructionRetire r u fault) s = .next (s.retire p r i fault) := by
  have acts : ¬ (16 ≤ r ∨ s.inReset = true) := by simp [hreset, h16]
  rw [exec_instructionRetire]
  unfold execInstructionRetire
  rw [if_neg acts]
  split
  · exact absurd rfl (hfault _)
  · simp only [oldest, hp, ready, if_true]

/-- A program store word that is re-read where nothing of the unit is issued counts as a fault at most (Table 05-17). -/
theorem instructionRetire_reread (idle : (s.region r).issued.find? (fun i => i.units.contains u) = none) :
    exec (.instructionRetire r u (some (.store true))) s =
      .next (if (s.region r).running then s.countFault (unitRegion (r / 8) (s.physRegion r)) else s) := by
  have acts : ¬ (16 ≤ r ∨ s.inReset = true) := by simp [hreset, h16]
  rw [exec_instructionRetire]
  unfold execInstructionRetire
  rw [if_neg acts]
  dsimp only [State.storeParity]
  rw [if_pos rfl]
  generalize ht : (if (s.region r).running then s.countFault (unitRegion (r / 8) (s.physRegion r)) else s) = t
  have same : t.regions = s.regions := by rw [← ht]; split <;> rfl
  rw [region_of_regions_eq same, idle]

end

/-- Settles O23: the region after a retirement is `retire_becomes`'s, and a re-read word is a fault counted. -/
theorem retirementJoinsFlagsAndStatus : Obligations.RetirementJoinsFlagsAndStatus := by
  unfold Obligations.RetirementJoinsFlagsAndStatus
  intro r p u i fault s x h16 hr hreset hp
  refine ⟨fun oldest ready hfault => ?retires, fun idle => ?reread⟩
  case retires =>
    obtain ⟨bs, n, o, h⟩ := retire_becomes hr p i fault
    refine ⟨_, instructionRetire_retires h16 hreset hp oldest ready hfault, ?_⟩
    rw [h.region hr]
    exact ⟨rfl, rfl, rfl, rfl, rfl, fun _ => rfl, fun k hk => h.other hk⟩
  case reread =>
    refine ⟨_, instructionRetire_reread h16 hreset idle, ?_⟩
    split
    · rfl
    · rfl

end Sys2Proof.Machine
end

section
/-! SUPPORT. Bytes of a context's carve-outs: what is read after one byte has been written, in SRAM or in a bank word, and
after all the byte writes of an instruction (R91 to R93, R554). -/
namespace Sys2Proof.Machine

/-! SRAM. -/

theorem Tab.get_dropWhere {α : Type} {d : α} (p : Nat → Bool) (t : Tab α) (k : Nat) :
    Tab.get d (Tab.dropWhere p t) k = if p k then d else Tab.get d t k := by
  unfold Tab.dropWhere
  induction t with
  | nil => simp [Tab.get]
  | cons e t ih =>
    obtain ⟨j, v⟩ := e
    by_cases dropped : p j = true
    · rw [List.filter_cons_of_neg (by simp [dropped]), ih, Tab.get]
      by_cases hk : j = k
      · simp [← hk, dropped]
      · simp [hk]
    · rw [List.filter_cons_of_pos (by simp [dropped]), Tab.get, Tab.get, ih]
      by_cases hk : j = k
      · simp [← hk, dropped]
      · simp [hk]

theorem Memory.byte_clear (m : Memory) (a n j : Nat) :
    (m.clear a n).byte j = if a ≤ j ∧ j < a + n then 0 else m.byte j := by
  simp [Memory.clear, Memory.byte, Tab.get_dropWhere]

/-- A byte written reads back, and every other byte reads as before, also in a line that is now marked (R554). -/
theorem sramByte_sramPut (x : Region) (a j : Nat) (b : Byte) :
    (x.sramPut a b).sramByte j = if j = a then b else x.sramByte j := by
  unfold Region.sramPut
  by_cases marked : Tab.get false x.sramMark (a / 64) = true
  · by_cases hj : j = a
    · simp [Region.sramByte, Memory.byte_put, hj, marked]
    · simp [Region.sramByte, Memory.byte_put, hj, marked]
  · rw [if_neg marked]
    by_cases line : j / 64 = a / 64
    · have inLine : a / 64 * 64 ≤ j ∧ j < a / 64 * 64 + 64 := by omega
      simp [Region.sramByte, Memory.byte_put, Memory.byte_clear, line, inLine, marked]
    · have outside : ¬ (a / 64 * 64 ≤ j ∧ j < a / 64 * 64 + 64) := by omega
      have hj : j ≠ a := by rintro rfl; exact line rfl
      simp only [Region.sramByte, Memory.byte_put, Memory.byte_clear, Tab.get_set, if_neg line, if_neg outside, if_neg hj]

theorem sramPut_eq (x : Region) (a : Nat) (b : Byte) :
    ∃ m k, x.sramPut a b = { x with sram := m, sramMark := k } := by
  unfold Region.sramPut
  split
  · exact ⟨_, x.sramMark, rfl⟩
  · exact ⟨_, _, rfl⟩

/-! Bank words. -/

/-- Byte i of a number replaced: above and below it the number is as it was. -/
theorem setBits_byte (v i x : Nat) :
    setBits v (8 * i + 7) (8 * i) x = 256 ^ i * (256 * (v / 256 ^ (i + 1)) + x % 256) + v % 256 ^ i := by
  have pow : 2 ^ (8 * i) = 256 ^ i := by rw [Nat.pow_mul]
  have width : 8 * i + 7 + 1 - 8 * i = 8 := by omega
  rw [setBits, bits, width, show 2 ^ 8 = 256 from rfl, Nat.shiftRight_eq_div_pow, pow, Nat.pow_succ, ← Nat.div_div_eq_div_mul]
  have whole : 256 ^ i * (v / 256 ^ i) + v % 256 ^ i = v := Nat.div_add_mod v (256 ^ i)
  have byte : 256 * (v / 256 ^ i / 256) + v / 256 ^ i % 256 = v / 256 ^ i := Nat.div_add_mod (v / 256 ^ i) 256
  generalize v / 256 ^ i / 256 = high at *
  generalize v / 256 ^ i % 256 = old at *
  generalize v % 256 ^ i = low at *
  rw [← byte, Nat.mul_add, Nat.mul_comm _ old] at whole
  rw [Nat.mul_add, Nat.mul_comm _ (x % 256)]
  omega

/-- Byte j of a number is decided by the number modulo a higher power of 256. -/
theorem byte_mod (v : Nat) {j i : Nat} (h : j < i) : v % 256 ^ i / 256 ^ j % 256 = v / 256 ^ j % 256 := by
  have divides : 256 ^ j * 256 ∣ 256 ^ i := by rw [← Nat.pow_succ]; exact Nat.pow_dvd_pow 256 h
  rw [← Nat.mod_mul_right_div_self, Nat.mod_mod_of_dvd v divides, Nat.mod_mul_right_div_self]

/-- The byte replaced reads as the new one, and every other byte as before. -/
theorem setBits_byte_read (v i j x : Nat) :
    setBits v (8 * i + 7) (8 * i) x / 256 ^ j % 256 = if j = i then x % 256 else v / 256 ^ j % 256 := by
  have pos : 0 < 256 ^ i := Nat.pow_pos (by omega)
  have below : v % 256 ^ i < 256 ^ i := Nat.mod_lt _ pos
  rw [setBits_byte]
  generalize hw : 256 ^ i * (256 * (v / 256 ^ (i + 1)) + x % 256) + v % 256 ^ i = w
  have low : w % 256 ^ i = v % 256 ^ i := by rw [← hw, Nat.mul_add_mod, Nat.mod_mod]
  have high : w / 256 ^ i = 256 * (v / 256 ^ (i + 1)) + x % 256 := by
    rw [← hw, Nat.mul_add_div pos, Nat.div_eq_of_lt below, Nat.add_zero]
  rcases Nat.lt_trichotomy j i with lt | rfl | gt
  · rw [if_neg (by omega), ← byte_mod w lt, low, byte_mod v lt]
  · rw [if_pos rfl, high]
    omega
  · obtain ⟨m, rfl⟩ := Nat.exists_eq_add_of_lt gt
    have above : w / 256 ^ (i + 1) = v / 256 ^ (i + 1) := by
      calc w / 256 ^ (i + 1) = w / 256 ^ i / 256 := by rw [Nat.pow_succ, Nat.div_div_eq_div_mul]
        _ = v / 256 ^ (i + 1) := by rw [high]; omega
    have split : 256 ^ (i + m + 1) = 256 ^ (i + 1) * 256 ^ m := by rw [← Nat.pow_add, Nat.add_right_comm]
    rw [if_neg (by omega), split, ← Nat.div_div_eq_div_mul, above, Nat.div_div_eq_div_mul]

theorem block_setBlock (x : Region) (b k : Nat) (z : Block) (hb : b < x.blocks.length) :
    (x.setBlock b z).block k = if k = b then z else x.block k := by
  unfold Region.setBlock Region.block
  by_cases hk : k = b
  · simp [hk, hb]
  · simp [hk, List.getD, Ne.symm hk]

/-- A word written to the bank reads back, and every other word as before. -/
theorem word_putWord (z : Block) (e n e' n' : Nat) (w : U32) :
    (z.putWord e n w).word e' n' = if e' * 128 + n' = e * 128 + n then w else z.word e' n' := by
  unfold Block.putWord Block.word
  rw [Tab.get_set]
  split
  · rfl
  · rfl

/-- Byte a of the bank of a block, counted from entry `first`. -/
def Block.byteAt (z : Block) (first a : Nat) : Byte :=
  BitVec.ofNat 8 ((z.word (first + a / 512) (a % 512 / 4)).toNat / 256 ^ (a % 4))

/-- The block with that byte written. -/
def Block.putByte (z : Block) (first a : Nat) (v : Byte) : Block :=
  z.putWord (first + a / 512) (a % 512 / 4) (BitVec.ofNat 32
    (setBits (z.word (first + a / 512) (a % 512 / 4)).toNat (8 * (a % 4) + 7) (8 * (a % 4)) v.toNat))

theorem view_bank (x : Region) (c : Carve) (b a : Nat) : x.view c (.bank b) a = (x.block b).byteAt c.bankFirst a := rfl

theorem poke_bank (x : Region) (c : Carve) (b a : Nat) (v : Byte) :
    x.poke c (.bank b, a, v) = x.setBlock b ((x.block b).putByte c.bankFirst a v) := rfl

/-- A byte written to a bank reads back, and every other byte as before. -/
theorem byteAt_putByte (z : Block) (first a j : Nat) (v : Byte) :
    (z.putByte first a v).byteAt first j = if j = a then v else z.byteAt first j := by
  have byte : (j = a) = (j % 4 = a % 4 ∧ j / 4 = a / 4) := by rw [eq_iff_iff]; omega
  unfold Block.byteAt Block.putByte
  rw [word_putWord]
  by_cases word : j / 4 = a / 4
  · have same : first + j / 512 = first + a / 512 ∧ j % 512 / 4 = a % 512 / 4 := by omega
    rw [if_pos (by omega), same.1, same.2, BitVec.toNat_ofNat, show 2 ^ 32 = 256 ^ 4 from rfl]
    apply BitVec.eq_of_toNat_eq
    rw [BitVec.toNat_ofNat, byte_mod _ (Nat.mod_lt j (by omega)), setBits_byte_read]
    simp only [byte, word, and_true]
    split
    · omega
    · rw [BitVec.toNat_ofNat]
  · rw [if_neg (by omega), if_neg (by omega)]

/-! Both spaces. -/

theorem poke_eq (c : Carve) (x : Region) (w : Space × Nat × Byte) :
    ∃ m k bs, bs.length = x.blocks.length ∧ x.poke c w = { x with sram := m, sramMark := k, blocks := bs } := by
  obtain ⟨sp, a, v⟩ := w
  cases sp with
  | sram =>
    obtain ⟨m, k, h⟩ := sramPut_eq x (c.sramBase + a) v
    exact ⟨m, k, x.blocks, rfl, h⟩
  | bank b => exact ⟨x.sram, x.sramMark, _, List.length_set, rfl⟩

/-- A byte written to a carve-out reads back through it, and every other byte as before. -/
theorem view_poke (c : Carve) (x : Region) (w : Space × Nat × Byte) (sp : Space) (a : Nat) (has : x.hasSpace sp) :
    (x.poke c w).view c sp a = if w.1 = sp ∧ w.2.1 = a then w.2.2 else x.view c sp a := by
  obtain ⟨sp', a', v⟩ := w
  cases sp' with
  | sram =>
    cases sp with
    | sram =>
      simp only [Region.poke, Region.view, sramByte_sramPut, true_and, Nat.add_left_cancel_iff, eq_comm]
    | bank b =>
      obtain ⟨m, k, h⟩ := sramPut_eq x (c.sramBase + a') v
      simp [Region.poke, h, view_bank, Region.block]
  | bank b' =>
    cases sp with
    | sram => rw [if_neg (by simp)]; rfl
    | bank b =>
      have has : b < x.blocks.length := has
      rw [poke_bank, view_bank, view_bank]
      by_cases hb : b' = b
      · subst hb
        rw [block_setBlock _ _ _ _ has, if_pos rfl, byteAt_putByte]
        simp only [true_and, eq_comm]
      · simp [Region.setBlock, Region.block, hb]

theorem over_cons (rd : Reader) (w : Space × Nat × Byte) (ws : List (Space × Nat × Byte)) (sp : Space) (a : Nat) :
    rd.over (w :: ws) sp a = if w.1 = sp ∧ w.2.1 = a then w.2.2 else rd.over ws sp a := by
  by_cases h : w.1 = sp ∧ w.2.1 = a
  · simp [Reader.over, h]
  · simp [Reader.over, h]

theorem pokes_eq (c : Carve) (x : Region) (ws : List (Space × Nat × Byte)) :
    ∃ m k bs, bs.length = x.blocks.length ∧ x.pokes c ws = { x with sram := m, sramMark := k, blocks := bs } := by
  induction ws with
  | nil => exact ⟨x.sram, x.sramMark, x.blocks, rfl, rfl⟩
  | cons w ws ih =>
    obtain ⟨m, k, bs, len, h⟩ := ih
    obtain ⟨m', k', bs', len', h'⟩ := poke_eq c (x.pokes c ws) w
    refine ⟨m', k', bs', len'.trans (by rw [h]; exact len), h'.trans (by rw [h])⟩

theorem hasSpace_congr {x y : Region} (h : y.blocks.length = x.blocks.length) (sp : Space) : y.hasSpace sp ↔ x.hasSpace sp := by
  cases sp with
  | sram => exact Iff.rfl
  | bank b => rw [Region.hasSpace, Region.hasSpace, h]

/-- The byte writes of an instruction leave in the carve-outs what they lay over the bytes before. -/
theorem view_pokes (c : Carve) (x : Region) (ws : List (Space × Nat × Byte)) (sp : Space) (a : Nat) (has : x.hasSpace sp) :
    (x.pokes c ws).view c sp a = (x.view c).over ws sp a := by
  induction ws with
  | nil => rfl
  | cons w ws ih =>
    have kept : (x.pokes c ws).hasSpace sp := by
      obtain ⟨m, k, bs, len, h⟩ := pokes_eq c x ws
      exact (hasSpace_congr (by rw [h]; exact len) sp).mpr has
    rw [over_cons, ← ih]
    exact view_poke c _ w sp a kept

end Sys2Proof.Machine
end

section
/-! SUPPORT. What the ways of an instruction out of its issue leave of a region: it retires without effect, it fails, or it
goes to its unit (R18, R63, R147, R175). -/
namespace Sys2Proof.Machine

/-! Region r of the state with its first issue noted. -/

@[simp] theorem regCarve_setRegion (s : State) (r k : Nat) (x : Region) : (s.setRegion r x).regCarve k = s.regCarve k := rfl

@[simp] theorem regCarve_begun (s : State) (r k : Nat) : (s.begun r).regCarve k = s.regCarve k := rfl

theorem region_begun {s : State} {r : Nat} (hr : r < s.regions.length) : (s.begun r).region r = s.issuing r := by
  rw [State.begun, region_setRegion _ _ _ _ hr, if_pos rfl]

theorem setRegion_begun (s : State) (r : Nat) (y : Region) : (s.begun r).setRegion r y = s.setRegion r y :=
  setRegion_setRegion ..

/-- The note of the first issue is no part of what an instruction reads of its region. -/
theorem issuing_eq (s : State) (r : Nat) :
    ∃ k a u l, s.issuing r = { s.region r with firstIssue := k, clkAt := a, clkUnits := u, clkLost := l } := noteFirst_eq ..

theorem runUnit_begun {s : State} {r : Nat} {b : RBody} {p : Nat} {l : LaunchRun} {f : State → Nat → LaunchRun → State}
    (start : s.mayStart r b p l) : s.runUnit r b f = .next (f (s.begun r) p l) := runUnit_eq start

/-- The region's program has the instruction at the position where it stands (R147). -/
theorem atInstr_stands {s : State} {r : Nat} {b : RBody} (h : s.atInstr r b = true) :
    (s.region r).store.instrs[(s.region r).pc]? = some ⟨b.mayVary, b⟩ := by
  simp only [State.atInstr, Bool.and_eq_true, beq_iff_eq] at h
  exact h.2

theorem mayStart_lt {s : State} {r : Nat} {b : RBody} {p : Nat} {l : LaunchRun} (start : s.mayStart r b p l) :
    r < s.regions.length := atInstr_lt start.1.1

theorem mayStart_stands {s : State} {r : Nat} {b : RBody} {p : Nat} {l : LaunchRun} (start : s.mayStart r b p l) :
    (s.region r).store.instrs[(s.region r).pc]? = some ⟨b.mayVary, b⟩ := atInstr_stands start.1.1

/-! The sequencer goes on. -/

section
variable (x : Region)

@[simp] theorem advance_issued : x.advance.issued = x.issued := by obtain ⟨pc, loops, regs, h⟩ := advance_eq x; rw [h]
@[simp] theorem advance_nextId : x.advance.nextId = x.nextId := by obtain ⟨pc, loops, regs, h⟩ := advance_eq x; rw [h]
@[simp] theorem advance_blocks : x.advance.blocks = x.blocks := by obtain ⟨pc, loops, regs, h⟩ := advance_eq x; rw [h]
@[simp] theorem advance_skip : x.advance.skip = x.skip := by obtain ⟨pc, loops, regs, h⟩ := advance_eq x; rw [h]
@[simp] theorem advance_fail : x.advance.fail = x.fail := by obtain ⟨pc, loops, regs, h⟩ := advance_eq x; rw [h]
@[simp] theorem advance_flags : x.advance.flags = x.flags := by obtain ⟨pc, loops, regs, h⟩ := advance_eq x; rw [h]
@[simp] theorem advance_view (c : Carve) : x.advance.view c = x.view c := by
  obtain ⟨pc, loops, regs, h⟩ := advance_eq x; rw [h]; rfl

end

section
variable {x y : Region}

theorem wentOn_advance (pc : y.pc = x.pc) (loops : y.loops = x.loops) : wentOn x y.advance := fun flat => by
  rw [advance_pc y (loops.trans flat), pc]

theorem sameRegs_advance (regs : sameRegs x y) (loops : y.loops = x.loops) : sameRegs x y.advance := fun k open_ =>
  (advance_reg y k (loops ▸ open_)).trans (regs k open_)

theorem sameSram_advance (sram : sameSram x y) : sameSram x y.advance := by
  obtain ⟨pc, loops, regs, h⟩ := advance_eq y
  rw [h]
  exact sram

theorem sameUnits_advance (units : sameUnits x y) : sameUnits x y.advance := by
  obtain ⟨pc, loops, regs, h⟩ := advance_eq y
  rw [h]
  exact units

theorem sameUnits_refl (x : Region) : sameUnits x x := ⟨rfl, rfl, rfl, rfl, rfl, rfl, rfl, rfl, rfl, rfl, rfl, rfl⟩

end

/-! Retiring at issue without effect. -/

/-- The sequencer goes on, and nothing else comes of the instruction but the note of the first issue. -/
theorem issuing_advance (s : State) (r : Nat) :
    wentOn (s.region r) (s.issuing r).advance ∧ sameRegs (s.region r) (s.issuing r).advance ∧
      sameSram (s.region r) (s.issuing r).advance ∧ sameUnits (s.region r) (s.issuing r).advance := by
  obtain ⟨k, a, u, l, h⟩ := issuing_eq s r
  rw [h]
  exact ⟨wentOn_advance rfl rfl, sameRegs_advance (fun _ _ => rfl) rfl, sameSram_advance (fun _ => rfl),
    sameUnits_advance (sameUnits_refl _)⟩

theorem passOver_begun {s : State} {r : Nat} (hr : r < s.regions.length) :
    (s.begun r).passOver r = s.setRegion r (s.issuing r).advance := by
  rw [State.passOver, region_begun hr, setRegion_begun]

/-! Failing at issue. -/

theorem failIssue_eq {s : State} {r : Nat} (hr : r < s.regions.length) (st : Status) :
    ∃ o, s.failIssue r st = s.setRegion r
      ({ s.region r with fail := (s.region r).fail.worst st, failOrder := o, skip := true } : Region).advance := by
  have h : r < (s.noteStatus r st).regions.length := by rw [State.noteStatus, setRegion_regions_length]; exact hr
  rw [State.failIssue, State.failRegion, region_setRegion _ _ _ _ h, if_pos rfl, State.noteStatus, region_setRegion _ _ _ _ hr,
    if_pos rfl, setRegion_setRegion, setRegion_setRegion]
  exact ⟨_, rfl⟩

/-- An instruction that fails at issue leaves its region in skip mode with the status joined, and nothing else (R175). -/
theorem failIssue_begun {s : State} {r : Nat} (hr : r < s.regions.length) (st : Status) :
    ∃ y, (s.begun r).failIssue r st = s.setRegion r y ∧ failedAtIssue (s.region r) y st := by
  have hb : r < (s.begun r).regions.length := by rw [State.begun, setRegion_regions_length]; exact hr
  obtain ⟨o, failed⟩ := failIssue_eq hb st
  rw [region_begun hr, setRegion_begun] at failed
  refine ⟨_, failed, ?_⟩
  obtain ⟨k, a, u, l, h⟩ := issuing_eq s r
  rw [h]
  exact ⟨advance_skip _, advance_fail _, advance_issued _, advance_blocks _, sameSram_advance (fun _ => rfl),
    sameRegs_advance (fun _ _ => rfl) rfl, wentOn_advance rfl rfl⟩

/-! Going to a unit. -/

theorem issue_eq {x : Region} {i : RInstr} (stands : x.store.instrs[x.pc]? = some i) (units : List RUnit) (spans : List USpan)
    (t : Tail) : x.issue units spans t = ({ x with
      issued := x.issued ++ [⟨x.nextId, x.pc, i, units, spans, t.flags, t.fail, t.note, t.bad, t.pend, t.owed⟩],
      nextId := x.nextId + 1 } : Region).advance := by
  rw [Region.issue, stands]

/-- The first issue noted and bytes written, a region still stands where it stood, with the same table, registers and
status. -/
theorem issuing_pokes_eq (s : State) (r : Nat) (c : Carve) (ws : List (Space × Nat × Byte)) :
    ∃ k a u l m w bs, (s.issuing r).pokes c ws = { s.region r with
      firstIssue := k, clkAt := a, clkUnits := u, clkLost := l, sram := m, sramMark := w, blocks := bs } := by
  obtain ⟨m, w, bs, _, h⟩ := pokes_eq c (s.issuing r) ws
  obtain ⟨k, a, u, l, note⟩ := issuing_eq s r
  exact ⟨k, a, u, l, m, w, bs, by rw [h, note]⟩

/-- An instruction that issues once its bytes are written is the newest of the table, and the sequencer goes on. -/
theorem issue_issuedNow {s : State} {r : Nat} {i : RInstr} (stands : (s.region r).store.instrs[(s.region r).pc]? = some i)
    (c : Carve) (ws : List (Space × Nat × Byte)) (units : List RUnit) (spans : List USpan) (t : Tail) :
    issuedNow (s.region r) (((s.issuing r).pokes c ws).issue units spans t) units spans t := by
  obtain ⟨k, a, u, l, m, w, bs, h⟩ := issuing_pokes_eq s r c ws
  rw [h, issue_eq (i := i) ?stands]
  case stands => exact stands
  exact ⟨⟨i, stands, advance_issued _⟩, advance_nextId _, wentOn_advance rfl rfl, sameRegs_advance (fun _ _ => rfl) rfl,
    advance_skip _, advance_fail _, advance_flags _⟩

theorem issue_view (x : Region) (units : List RUnit) (spans : List USpan) (t : Tail) (c : Carve) :
    (x.issue units spans t).view c = x.view c := by
  unfold Region.issue
  split
  · rfl
  · rw [advance_view]; rfl

end Sys2Proof.Machine
end

section
/-! SUPPORT. The VEC instructions (chapter 04, R122, R132, R157, R159) and skip mode (R175); and the settlements of O4 and
O5. -/
namespace Sys2Proof.Machine

/-- Every VEC instruction is its operation's. -/
theorem exec_vec : ∀ e ∈ vecInstrs, ∀ (r : Nat) (f : VecF) (s : State), exec (e.1 r f) s = s.vec r e.2 f := by
  unfold vecInstrs
  simp only [List.forall_mem_cons, List.not_mem_nil, false_implies, implies_true, and_true]
  and_intros
  all_goals exact fun _ _ _ => rfl

/-! The first issue noted, a region has the same operands and computes the same results. -/

section
variable (s : State) (r : Nat)

theorem issuing_vecOpnds (f : VecF) : (s.issuing r).vecOpnds f = (s.region r).vecOpnds f := by
  obtain ⟨k, a, u, l, h⟩ := issuing_eq s r; rw [h]; rfl

theorem issuing_sizeOverride (n : Nat) : (s.issuing r).sizeOverride n = (s.region r).sizeOverride n := by
  obtain ⟨k, a, u, l, h⟩ := issuing_eq s r; rw [h]; rfl

theorem issuing_heldBack (spans : List USpan) : (s.issuing r).heldBack spans = (s.region r).heldBack spans := by
  obtain ⟨k, a, u, l, h⟩ := issuing_eq s r; rw [h]; rfl

theorem issuing_view (c : Carve) : (s.issuing r).view c = (s.region r).view c := by
  obtain ⟨k, a, u, l, h⟩ := issuing_eq s r; rw [h]; rfl

theorem issuing_hasSpace (sp : Space) : (s.issuing r).hasSpace sp ↔ (s.region r).hasSpace sp :=
  hasSpace_congr (by obtain ⟨k, a, u, l, h⟩ := issuing_eq s r; rw [h]) sp

theorem issuing_vecCompute (rd : Reader) (op : VecOp) (f : VecF) (o : VecOpnds) :
    vecCompute (s.issuing r) rd op f o = vecCompute (s.region r) rd op f o := by
  obtain ⟨k, a, u, l, h⟩ := issuing_eq s r; rw [h]; rfl

end

/-! A VEC instruction with its operands. -/

section
variable {s : State} {r p : Nat} {l : LaunchRun} {op : VecOp} {f : VecF} {o : VecOpnds}
  (start : s.mayStart r (.vec op f) p l) (named : (s.region r).vecOpnds f = some o)
include start named

/-- With the size 0 the instruction retires without effect (R122). -/
theorem vec_retires (empty : o.sized (op.takers (bit f.auxop 0)) ((s.region r).sizeOverride f.szreg) = .ok none) :
    s.vec r op f = .next (s.setRegion r (s.issuing r).advance) := by
  have hr := mayStart_lt start
  rw [State.vec, runUnit_begun start]
  simp only [region_begun hr, issuing_vecOpnds, issuing_sizeOverride, named, empty, passOver_begun hr]

/-- A size above the declared one fails the instruction (R122). -/
theorem vec_sizeFails {st : Status}
    (above : o.sized (op.takers (bit f.auxop 0)) ((s.region r).sizeOverride f.szreg) = .error st) :
    s.vec r op f = .next ((s.begun r).failIssue r st) := by
  have hr := mayStart_lt start
  rw [State.vec, runUnit_begun start]
  simp only [region_begun hr, issuing_vecOpnds, issuing_sizeOverride, named, above]

variable {o2 : VecOpnds} (sized : o.sized (op.takers (bit f.auxop 0)) ((s.region r).sizeOverride f.szreg) = .ok (some o2))
include sized

/-- An operand that leaves its carve-out fails the instruction (R159). -/
theorem vec_leavesCarve (leaves : o2.ok (s.regCarve r) = false) : s.vec r op f = .next ((s.begun r).failIssue r .range) := by
  have hr := mayStart_lt start
  rw [State.vec, runUnit_begun start]
  simp only [region_begun hr, issuing_vecOpnds, issuing_sizeOverride, named, sized, regCarve_begun, leaves,
    Bool.not_false, if_true]

/-- With its operands in the carve-outs and its spans free the instruction computes and issues (R132, R157). -/
theorem vec_issues (inside : o2.ok (s.regCarve r) = true)
    (free : (s.region r).heldBack (bySpan [.engine] (o2.spans op)) = false) :
    let c := s.regCarve r
    let z := vecCompute (s.region r) ((s.region r).view c) op f o2
    s.vec r op f = .next (s.setRegion r (((s.issuing r).pokes c z.1).issue [.engine] (bySpan [.engine] (o2.spans op))
      { flags := raiseAll z.2.1, note := if z.2.2 then .range else .ok })) := by
  have hr := mayStart_lt start
  dsimp only
  rw [State.vec, runUnit_begun start]
  simp only [region_begun hr, issuing_vecOpnds, issuing_sizeOverride, named, sized, regCarve_begun, inside,
    issuing_heldBack, free, issuing_view, issuing_vecCompute, setRegion_begun, Bool.not_true, Bool.false_eq_true, if_false]

end

/-- Settles O4: the instruction issues as `vec_issues` says, and its byte writes read back through the carve-outs. -/
theorem vectorInstructionsWriteTheirResults : Obligations.VectorInstructionsWriteTheirResults := by
  unfold Obligations.VectorInstructionsWriteTheirResults
  intro e he r p l f s o o2 x c start named sized inside free z
  refine ⟨_, (exec_vec e he r f s).trans (vec_issues start named sized inside free), ?issues, fun sp a has => ?bytes⟩
  case issues => exact issue_issuedNow (mayStart_stands start) ..
  case bytes => rw [issue_view, view_pokes c _ _ sp a ((issuing_hasSpace s r sp).mpr has), issuing_view]

/-- A size of 0 in the register, whatever the operands (R122). -/
theorem sized_zero (o : VecOpnds) (t : Bool × Bool × Bool × Bool) : o.sized t (some 0) = .ok none := rfl

/-- Settles O5: a VEC instruction goes the way that its size and its operands give; in skip mode each instruction of a unit is
passed over by the frame that all of them share. -/
theorem unitInstructionsFailOrPassOver : Obligations.UnitInstructionsFailOrPassOver := by
  unfold Obligations.UnitInstructionsFailOrPassOver
  refine ⟨?vec, fun r p l s i b issues skips which => ?skip⟩
  case vec =>
    intro e he r p l f s o x start named
    refine ⟨fun fails => ?fails, fun zero => ?zero⟩
    case fails =>
      obtain ⟨y, failed, left⟩ := failIssue_begun (mayStart_lt start) .range
      refine ⟨y, ?_, left⟩
      rw [exec_vec e he, ← failed]
      rcases fails with above | ⟨o2, sized, leaves⟩
      · exact vec_sizeFails start named above
      · exact vec_leavesCarve start named sized leaves
    case zero =>
      have empty : o.sized (e.2.takers (bit f.auxop 0)) (x.sizeOverride f.szreg) = .ok none := by rw [zero, sized_zero]
      exact ⟨_, (exec_vec e he r f s).trans (vec_retires start named empty), issuing_advance s r⟩
  case skip =>
    obtain ⟨g, shared⟩ : ∃ g, exec i s = s.runUnit r b g := by
      rcases which with h | h | h | h | h | h | vec | h | h | h | h | h | h | h | h | h | h
      rotate_left 6
      · obtain ⟨e, he, f, rfl, rfl⟩ := vec
        exact ⟨_, exec_vec e he r f s⟩
      all_goals
        obtain ⟨f, rfl, rfl⟩ := h
        dsimp only [exec, execAppend, execKvRead, execScore, execLen, execReturnAcc, execReturnSlot]
        exact ⟨_, rfl⟩
    exact ⟨_, shared.trans (runUnit_skip issues skips), issuing_advance s r⟩

end Sys2Proof.Machine
end

section
/-! SUPPORT. A message that this module originates changes the links, the counters of encrypted messages, the slot counters
and what leaves the pins, and nothing else (R426 to R445, R551). -/
namespace Sys2Proof.Machine

/-- From s to t no more has changed than what sending on the links may change. -/
def SendsOnly (s t : State) : Prop := ∃ e c o x, t = { s with eft := e, sec := c, obs := o, out := x }

section
variable {s t u : State}

theorem SendsOnly.refl : SendsOnly s s := ⟨s.eft, s.sec, s.obs, s.out, rfl⟩

theorem SendsOnly.trans (h : SendsOnly s t) (k : SendsOnly t u) : SendsOnly s u := by
  obtain ⟨_, _, _, _, rfl⟩ := h
  obtain ⟨e, c, o, x, rfl⟩ := k
  exact ⟨e, c, o, x, rfl⟩

/-- A fold whose every step only sends only sends. -/
theorem foldl_sendsOnly {α : Type} (f : State → α → State) (h : ∀ s a, SendsOnly s (f s a)) (l : List α) (s : State) :
    SendsOnly s (l.foldl f s) := by
  induction l generalizing s with
  | nil => exact .refl
  | cons a l ih => exact (h s a).trans (ih (f s a))

theorem SendsOnly.transit_eq (h : SendsOnly s t) : t.transit = s.transit := by obtain ⟨_, _, _, _, rfl⟩ := h; rfl
theorem SendsOnly.parts_eq (h : SendsOnly s t) : t.parts = s.parts := by obtain ⟨_, _, _, _, rfl⟩ := h; rfl
theorem SendsOnly.regions_eq (h : SendsOnly s t) : t.regions = s.regions := by obtain ⟨_, _, _, _, rfl⟩ := h; rfl

end

variable (s : State)

theorem setLink_sendsOnly (port : Nat) (l : Link) : SendsOnly s (s.setLink port l) := ⟨_, s.sec, s.obs, s.out, rfl⟩

theorem idleFrame_sendsOnly (port kind : Nat) : SendsOnly s (s.idleFrame port kind) := ⟨_, s.sec, s.obs, _, rfl⟩

theorem sendFrame_sendsOnly (port : Nat) (f : TxFrame) : SendsOnly s (s.sendFrame port f) := ⟨_, s.sec, s.obs, _, rfl⟩

theorem bumpPart_sendsOnly (p code n : Nat) : SendsOnly s (s.bumpPart p code n) := by
  obtain ⟨c, e⟩ := bumpPart_eq s p code n
  exact ⟨s.eft, s.sec, _, s.out, e⟩

theorem freeRx_sendsOnly (port : Nat) (share : Option Nat) (n : Nat) : SendsOnly s (s.freeRx port share n) := by
  cases share with
  | none => exact .refl
  | some k =>
    have freed := setLink_sendsOnly s port ((s.link port).free k n)
    dsimp only [State.freeRx]
    split
    · exact freed.trans (foldl_sendsOnly _ (fun s _ => idleFrame_sendsOnly s port 1) _ _)
    · exact freed

theorem countRate_sendsOnly (port : Nat) (t : TxMsg) : SendsOnly s (s.countRate port t) := by
  unfold State.countRate
  split
  · exact ⟨_, s.sec, s.obs, s.out, rfl⟩
  · exact .refl

theorem takeAll_sendsOnly (port fuel : Nat) (ts : List TxMsg) : SendsOnly s (State.takeAll port fuel ts s).2 := by
  induction fuel generalizing ts s with
  | zero => exact .refl
  | succ fuel ih =>
    unfold State.takeAll
    dsimp only
    split
    · exact .refl
    · split
      · exact .refl
      · exact ((setLink_sendsOnly ..).trans (countRate_sendsOnly ..)).trans (ih ..)

theorem pump_sendsOnly (port fuel : Nat) : SendsOnly s (State.pump port fuel s) := by
  unfold State.pump
  split
  · exact .refl
  · dsimp only
    refine SendsOnly.trans ?sent (foldl_sendsOnly _ (fun s t => ?freed) _ _)
    case sent =>
      exact ((takeAll_sendsOnly ..).trans (setLink_sendsOnly ..)).trans
        (foldl_sendsOnly _ (fun s f => sendFrame_sendsOnly s port f) _ _)
    case freed =>
      split
      · exact freeRx_sendsOnly ..
      · exact .refl

theorem transmit_sendsOnly (port : Nat) (t : TxMsg) : SendsOnly s (s.transmit port t) := by
  unfold State.transmit
  exact (setLink_sendsOnly ..).trans (pump_sendsOnly ..)

theorem seal_sendsOnly {s : State} {r : RoutingRec} {m : LinkMsg} {z : LinkMsg × State} (h : s.seal r m = some z) :
    SendsOnly s z.2 := by
  unfold State.seal State.encrypt at h
  split at h
  · dsimp only at h
    split at h
    · cases h
    · cases h; exact ⟨s.eft, _, s.obs, s.out, rfl⟩
  · cases h; exact .refl

theorem originate_sendsOnly (m : LinkMsg) : SendsOnly s (s.originate m).2 := by
  unfold State.originate
  split
  · exact .refl
  · split
    · exact .refl
    · split
      · exact .refl
      · rename_i sealed
        dsimp only
        split
        · exact ((seal_sendsOnly sealed).trans (bumpPart_sendsOnly ..)).trans (transmit_sendsOnly ..)
        · exact (seal_sendsOnly sealed).trans (transmit_sendsOnly ..)

end Sys2Proof.Machine
end

section
/-! SUPPORT. Records into receive slots (R187 to R190, R252, R253): the rows that they write, their outcomes, and the holding
area; and the settlement of O24. -/
namespace Sys2Proof.Machine

/-! Partitions in the state. -/

section
variable (s : State) (p : Nat) (x y : Part)

theorem part_setPart (h : p < s.parts.length) : (s.setPart p x).part p = x := by
  simp [State.setPart, State.part, h]

theorem part_setPart_ne {k : Nat} (h : k ≠ p) : (s.setPart p x).part k = s.part k := by
  simp [State.setPart, State.part, Ne.symm h]

theorem setPart_setPart : (s.setPart p x).setPart p y = s.setPart p y := by simp [State.setPart]

theorem setPart_part (h : p < s.parts.length) : s.setPart p (s.part p) = s := by
  have read : s.part p = s.parts[p] := by simp [State.part, h]
  rw [read, State.setPart, List.set_getElem_self]

end

/-! Rows of SRAM (R554). -/

/-- Bytes written to SRAM read back, and every other byte reads as before. -/
theorem sramByte_sramStore (x : Region) (a j : Nat) (bs : List Byte) :
    (x.sramStore a bs).sramByte j = if a ≤ j ∧ j < a + bs.length then bs.getD (j - a) 0 else x.sramByte j := by
  induction bs generalizing x a with
  | nil => rw [if_neg (by simp)]; rfl
  | cons b bs ih =>
    rw [Region.sramStore, ih, sramByte_sramPut, List.length_cons]
    rcases Nat.lt_trichotomy j a with before | rfl | after
    · rw [if_neg (by omega), if_neg (by omega), if_neg (by omega)]
    · rw [if_neg (by omega), if_pos rfl, if_pos (by omega), Nat.sub_self, List.getD_cons_zero]
    · have next : j - a = j - (a + 1) + 1 := by omega
      have inside : (a + 1 ≤ j ∧ j < a + 1 + bs.length) ↔ (a ≤ j ∧ j < a + (bs.length + 1)) := by omega
      rw [if_neg (Nat.ne_of_gt after), next, List.getD_cons_succ]
      simp only [inside]

/-! The sender no longer waits. -/

/-- The region with other instructions unretired. -/
def Region.withIssued (x : Region) (is : List Issued) : Region := { x with issued := is }

theorem modIssued_region (s : State) (r id k : Nat) (f : Issued → Issued) :
    ∃ is, (s.modIssued r id f).region k = (s.region k).withIssued is := by
  unfold State.modIssued
  by_cases hk : k = r
  · subst hk
    by_cases exists_ : k < s.regions.length
    · exact ⟨_, by rw [region_setRegion _ _ _ _ exists_, if_pos rfl]; rfl⟩
    · exact ⟨(s.region k).issued, region_of_regions_eq (List.set_eq_of_length_le (Nat.le_of_not_lt exists_)) k⟩
  · exact ⟨(s.region k).issued, by rw [region_setRegion_ne _ _ _ _ hk]; rfl⟩

section
variable (s : State) (t : TransitRec)

/-- A record that has reached its slot or the holding area is on its way no longer. -/
theorem delivered_transit : (s.delivered t).transit = s.transit.erase t := by
  unfold State.delivered
  dsimp only
  split
  · rfl
  · rfl
  · exact (originate_sendsOnly ..).transit_eq

theorem delivered_parts : (s.delivered t).parts = s.parts := by
  unfold State.delivered
  dsimp only
  split
  · rfl
  · rfl
  · exact (originate_sendsOnly ..).parts_eq

/-- Of a region no more changes than what its unretired instructions wait for. -/
theorem delivered_region (k : Nat) : ∃ is, (s.delivered t).region k = (s.region k).withIssued is := by
  unfold State.delivered
  dsimp only
  split
  · exact ⟨(s.region k).issued, rfl⟩
  · exact modIssued_region ..
  · exact ⟨(s.region k).issued, region_of_regions_eq (originate_sendsOnly ..).regions_eq k⟩

theorem delivered_sameSram {u : State} {k : Nat} (h : u.region k = s.region k) :
    sameSram (s.region k) ((u.delivered t).region k) := by
  obtain ⟨is, e⟩ := delivered_region u t k
  rw [e, h]
  exact fun _ => rfl

end

/-! Outcomes of a record that is not held. -/

/-- A discarded record counted by its kind (R190, R262). -/
def Part.countingStale (x : Part) (bs : List Byte) : Part :=
  if isRoute bs then { x with rteStale := (x.rteStale + 1) % 2 ^ 32 }
  else { x with partialStale := (x.partialStale + 1) % 2 ^ 32 }

theorem countStale_eq (s : State) (p : Nat) (bs : List Byte) :
    s.countStale p bs = s.setPart p ((s.part p).countingStale bs) := by
  unfold State.countStale Part.countingStale
  split
  · rfl
  · rfl

/-- The region after a landing: its row written, its flags joined, and the slot counted in unless a record is replaced. -/
def Region.landed (x : Region) (c : Carve) (d : Desc) (k g i : Nat) (counts : Bool) (bs : List Byte) : Region :=
  let a := d.rowAt c g i
  let out := landBytes bs (x.sramLoad a bs.length)
  let sl := x.slot k
  { x.sramStore a out.1 with
    flags := x.flags ||| out.2,
    slots := Tab.set .unbound x.slots k
      (if counts then { sl with landed := (g * d.s1 + i) :: sl.landed, count := sl.count + 1 } else sl) }

section
variable (x : Region) (c : Carve) (d : Desc) (k g i : Nat) (counts : Bool) (bs : List Byte)

theorem landed_count : ((x.landed c d k g i counts bs).slot k).count = (x.slot k).count + (if counts then 1 else 0) := by
  rw [Region.landed, Region.slot, Tab.get_set, if_pos rfl]
  cases counts
  · rfl
  · rfl

theorem landed_sramByte (j : Nat) : (x.landed c d k g i counts bs).sramByte j =
    let a := d.rowAt c g i
    let out := (landBytes bs (x.sramLoad a bs.length)).1
    if a ≤ j ∧ j < a + out.length then out.getD (j - a) 0 else x.sramByte j := sramByte_sramStore ..

end

/-- A choice that was placed settles when its record is counted in (R253, R259). -/
def State.settleLanded (s : State) (p : Nat) (counts : Bool) (bs : List Byte) : State :=
  if counts ∧ (hdrKind bs = 3 ∨ hdrKind bs = 4) then s.setPart p ((s.part p).settle (hdrBatch bs) (hdrHome bs)) else s

section
variable (s : State) (p r k : Nat) (bs : List Byte)

theorem settleLanded_regions (counts : Bool) : (s.settleLanded p counts bs).regions = s.regions := by
  unfold State.settleLanded
  split
  · rfl
  · rfl

theorem settleLanded_transit (counts : Bool) : (s.settleLanded p counts bs).transit = s.transit := by
  unfold State.settleLanded
  split
  · rfl
  · rfl

/-- A landing in its parts: the region, the placed choice, the slot counters. -/
theorem landAt_eq {d : Desc} (named : (s.region r).desc k = some d) (g i : Nat) (counts : Bool) :
    s.landAt p r k g i counts bs = ((s.setRegion r ((s.region r).landed (s.regCarve r) d k g i counts bs)).settleLanded
      p counts bs).bumpPart p 0x19 1 := by
  simp only [State.landAt, named]
  rfl

theorem landAt_becomes {d : Desc} (named : (s.region r).desc k = some d) (g i : Nat) (counts : Bool) :
    RegionBecomes s (s.landAt p r k g i counts bs) r ((s.region r).landed (s.regCarve r) d k g i counts bs) := by
  rw [landAt_eq s p r k bs named, RegionBecomes, bumpPart_regions, settleLanded_regions]

theorem landAt_transit (g i : Nat) (counts : Bool) : (s.landAt p r k g i counts bs).transit = s.transit := by
  cases named : (s.region r).desc k with
  | none => simp only [State.landAt, named]
  | some d => rw [landAt_eq s p r k bs named, (bumpPart_sendsOnly ..).transit_eq, settleLanded_transit, setRegion_transit]

/-- A failed check leaves an event, and puts the region into skip mode with RANGE unless it is check 1 outside the record's
command (R188). -/
theorem land_drop_eq (c : Nat) : ∃ u, SendsOnly s u ∧
    s.land p r k bs (.drop c) = if c = 1 ∧ s.batchRuns p r bs = false then u else u.failRegion r .range := by
  obtain ⟨rings, e⟩ := event_eq s (s.regionIsland r) 0x40 (some p) none (landData c k r)
  refine ⟨_, ⟨s.eft, s.sec, _, s.out, e⟩, ?_⟩
  have runs : (s.event (s.regionIsland r) 0x40 (some p) none (landData c k r)).batchRuns p r bs = s.batchRuns p r bs := by
    rw [e]; rfl
  simp only [State.land, runs, Bool.not_eq_true']

theorem land_cancelled_regions : (s.land p r k bs .cancelled).regions = s.regions := by
  dsimp only [State.land]
  split
  · rfl
  · rfl

theorem land_stale_regions : (s.land p r k bs .stale).regions = s.regions := by
  dsimp only [State.land]
  rw [bumpPart_regions, countStale_eq]
  rfl

/-- Whatever becomes of a record, what else is on its way stays so. -/
theorem land_transit (o : Landing) : (s.land p r k bs o).transit = s.transit := by
  cases o with
  | drop c =>
    obtain ⟨u, sent, e⟩ := land_drop_eq s p r k bs c
    rw [e, ← sent.transit_eq]
    split
    · rfl
    · rfl
  | cancelled =>
    dsimp only [State.land]
    split
    · rfl
    · rfl
  | held => rfl
  | stale =>
    dsimp only [State.land]
    rw [(bumpPart_sendsOnly ..).transit_eq, countStale_eq]
    rfl
  | lands g i counts => exact landAt_transit ..

end

/-! The arrival (R187, R190). -/

/-- A record on its way arrives by the command of its kind. -/
theorem exec_arrives {s : State} {t : TransitRec} {i : Instr}
    (kind : i = .recordLand t ∧ isRoute t.bytes = false ∨ i = .routeRecordLand t ∧ isRoute t.bytes = true)
    (coming : t ∈ s.transit) (hreset : s.inReset = false) : exec i s = .next (s.arrive t) := by
  rcases kind with ⟨rfl, route⟩ | ⟨rfl, route⟩
  · show execRecordLand t s = _
    simp [execRecordLand, coming, route, hreset]
  · show execRouteRecordLand t s = _
    simp [execRouteRecordLand, coming, route, hreset]

section
variable {s : State} {t : TransitRec} {p : Nat} (owned : s.partOfRegion t.region = some p)
include owned

theorem arrive_unheld {o : Landing} (becomes : s.landing p t.region t.slot t.bytes = o) (unheld : o ≠ .held) :
    s.arrive t = (s.land p t.region t.slot t.bytes o).delivered t := by
  subst becomes
  unfold State.arrive
  simp only [owned]

theorem arrive_held (held : s.landing p t.region t.slot t.bytes = .held) :
    s.arrive t = if 2 ^ 22 < (s.part p).heldBytes + t.bytes.length then s
      else (s.setPart p { s.part p with held := (s.part p).held ++ [⟨t.region, t.slot, t.bytes, s.now⟩] }).delivered t := by
  unfold State.arrive
  simp only [owned, held]

theorem arrive_transit {o : Landing} (becomes : s.landing p t.region t.slot t.bytes = o) (unheld : o ≠ .held) :
    (s.arrive t).transit = s.transit.erase t := by
  rw [arrive_unheld owned becomes unheld, delivered_transit, land_transit]

/-- A record that lands leaves its row, its flags and its count, and every other region as it was (R189, R253). -/
theorem arrive_lands {g n : Nat} {counts : Bool} {d : Desc} (hr : t.region < s.regions.length)
    (lands : s.landing p t.region t.slot t.bytes = .lands g n counts) (named : (s.region t.region).desc t.slot = some d) :
    (∀ k, k ≠ t.region → sameSram (s.region k) ((s.arrive t).region k)) ∧
      ∃ is, (s.arrive t).region t.region =
        ((s.region t.region).landed (s.regCarve t.region) d t.slot g n counts t.bytes).withIssued is := by
  have becomes := landAt_becomes s p t.region t.slot t.bytes named g n counts
  rw [arrive_unheld owned lands nofun]
  refine ⟨fun k hk => delivered_sameSram s t (becomes.other hk), ?_⟩
  obtain ⟨is, e⟩ := delivered_region (s.land p t.region t.slot t.bytes (.lands g n counts)) t t.region
  exact ⟨is, e.trans (congrArg (·.withIssued is) (becomes.region hr))⟩

/-- A record that changes no region while it is dealt with changes no SRAM. -/
theorem arrive_sameSram {o : Landing} (becomes : s.landing p t.region t.slot t.bytes = o) (unheld : o ≠ .held)
    (regions : (s.land p t.region t.slot t.bytes o).regions = s.regions) (k : Nat) :
    sameSram (s.region k) ((s.arrive t).region k) := by
  rw [arrive_unheld owned becomes unheld]
  exact delivered_sameSram s t (region_of_regions_eq regions k)

/-- A record that fails a check changes no SRAM, and the region skips what follows of the record's command (R188). -/
theorem arrive_drop {n : Nat} (hr : t.region < s.regions.length) (drop : s.landing p t.region t.slot t.bytes = .drop n) :
    sameSram (s.region t.region) ((s.arrive t).region t.region) ∧
      (¬ (n = 1 ∧ s.batchRuns p t.region t.bytes = false) → ((s.arrive t).region t.region).skip = true ∧
        ((s.arrive t).region t.region).fail = (s.region t.region).fail.worst .range) := by
  obtain ⟨u, sent, e⟩ := land_drop_eq s p t.region t.slot t.bytes n
  rw [arrive_unheld owned drop nofun, e]
  have left : u.region t.region = s.region t.region := region_of_regions_eq sent.regions_eq _
  split
  · rename_i outside
    exact ⟨delivered_sameSram s t left, fun inside => absurd outside inside⟩
  · obtain ⟨o, failed⟩ := failRegion_becomes (sent.regions_eq ▸ hr) .range
    have failed := failed.region (sent.regions_eq ▸ hr)
    obtain ⟨is, e⟩ := delivered_region (u.failRegion t.region .range) t t.region
    have becomes := e.trans (congrArg (·.withIssued is) failed)
    rw [left] at becomes
    rw [becomes]
    exact ⟨fun _ => rfl, fun _ => ⟨Bool.or_true _, rfl⟩⟩

/-- A record for a batch that does not run there waits in the holding area, or, when that is full, on its way (R190). -/
theorem arrive_holds (hp : p < s.parts.length) (held : s.landing p t.region t.slot t.bytes = .held) :
    (∀ k, sameSram (s.region k) ((s.arrive t).region k)) ∧
      if 2 ^ 22 < (s.part p).heldBytes + t.bytes.length then s.arrive t = s
      else (s.arrive t).transit = s.transit.erase t ∧
        ((s.arrive t).part p).held = (s.part p).held ++ [⟨t.region, t.slot, t.bytes, s.now⟩] := by
  rw [arrive_held owned held]
  split
  · exact ⟨fun _ _ => rfl, rfl⟩
  · refine ⟨fun k => delivered_sameSram s t rfl, delivered_transit .., ?_⟩
    rw [State.part, delivered_parts]
    exact congrArg Part.held (part_setPart s p _ hp)

end

/-! The end of the wait in the holding area (R190). -/

/-- Held records discarded: each is counted by its kind. -/
def Part.countingAll (x : Part) (hs : List HeldRec) : Part := hs.foldl (fun x h => x.countingStale h.bytes) x

theorem countingStale_held (x : Part) (bs : List Byte) : (x.countingStale bs).held = x.held := by
  unfold Part.countingStale
  split
  · rfl
  · rfl

theorem countingAll_held (x : Part) (hs : List HeldRec) : (x.countingAll hs).held = x.held :=
  foldl_keeps_part Part.held (fun (x : Part) (h : HeldRec) => x.countingStale h.bytes)
    (fun x h => countingStale_held x h.bytes) hs x

/-- A counter to which each discarded record of some kind adds one, modulo 2^32. -/
theorem countingAll_counter (counter : Part → Nat) (kind : List Byte → Bool)
    (adds : ∀ x bs, counter (x.countingStale bs) % 2 ^ 32 = (counter x + (if kind bs then 1 else 0)) % 2 ^ 32)
    (x : Part) (hs : List HeldRec) :
    counter (x.countingAll hs) % 2 ^ 32 = (counter x + (hs.filter (fun h => kind h.bytes)).length) % 2 ^ 32 := by
  induction hs generalizing x with
  | nil => rfl
  | cons h hs ih =>
    have rest := ih (x.countingStale h.bytes)
    rw [Nat.add_mod, adds, ← Nat.add_mod, Nat.add_assoc] at rest
    refine rest.trans (congrArg (fun n => (counter x + n) % 2 ^ 32) ?_)
    rw [List.filter_cons]
    split
    · rw [List.length_cons, Nat.add_comm]
    · exact Nat.zero_add _

theorem countingAll_rteStale (x : Part) (hs : List HeldRec) : (x.countingAll hs).rteStale % 2 ^ 32 =
    (x.rteStale + (hs.filter (fun h => isRoute h.bytes)).length) % 2 ^ 32 := by
  refine countingAll_counter Part.rteStale isRoute (fun x bs => ?_) x hs
  cases route : isRoute bs
  · simp [Part.countingStale, route]
  · simp [Part.countingStale, route]

theorem countingAll_partialStale (x : Part) (hs : List HeldRec) : (x.countingAll hs).partialStale % 2 ^ 32 =
    (x.partialStale + (hs.filter (fun h => !(isRoute h.bytes))).length) % 2 ^ 32 := by
  refine countingAll_counter Part.partialStale (fun bs => !(isRoute bs)) (fun x bs => ?_) x hs
  cases route : isRoute bs
  · simp [Part.countingStale, route]
  · simp [Part.countingStale, route]

/-- A held record discarded: an event, and its count. -/
def State.discardHeld (p : Nat) (s : State) (h : HeldRec) : State :=
  (s.event (islandShed 20) 0x41 (some p) none (landData 3 h.slot h.region)).countStale p h.bytes

theorem discardHeld_eq (p : Nat) (s : State) (h : HeldRec) :
    ∃ o, s.discardHeld p h = { s.setPart p ((s.part p).countingStale h.bytes) with obs := o } := by
  obtain ⟨_, e⟩ := event_eq s (islandShed 20) 0x41 (some p) none (landData 3 h.slot h.region)
  rw [State.discardHeld, countStale_eq, e]
  exact ⟨_, rfl⟩

theorem foldl_discardHeld {p : Nat} {s : State} (hp : p < s.parts.length) (hs : List HeldRec) :
    ∃ o, hs.foldl (State.discardHeld p) s = { s.setPart p ((s.part p).countingAll hs) with obs := o } := by
  induction hs generalizing s with
  | nil => exact ⟨s.obs, (setPart_part s p hp).symm⟩
  | cons h hs ih =>
    obtain ⟨_, first⟩ := discardHeld_eq p s h
    have exists_ : p < (s.discardHeld p h).parts.length := by rw [first]; simpa [State.setPart] using hp
    have read : (s.discardHeld p h).part p = (s.part p).countingStale h.bytes := by rw [first]; exact part_setPart s p _ hp
    obtain ⟨o, rest⟩ := ih exists_
    refine ⟨o, rest.trans ?_⟩
    rw [read, first]
    exact congrArg (fun u : State => { u with obs := o }) (setPart_setPart s p _ _)

/-- The partition without the records that it has held for more than 10 ms. -/
def Part.withoutOver (x : Part) (now : Nat) : Part := { x with held := x.held.filter (fun h => !(h.over now)) }

/-- The partition once those records are discarded and counted (R190). -/
def Part.expired (x : Part) (now : Nat) : Part := (x.withoutOver now).countingAll (x.held.filter (fun h => h.over now))

/-- HELD_RECORD_EXPIRE changes its partition, and leaves events. -/
theorem heldRecordExpire_eq {p : Nat} {s : State} (h8 : p < 8) (hp : p < s.parts.length) :
    ∃ o, exec (.heldRecordExpire p) s = .next { s.setPart p ((s.part p).expired s.now) with obs := o } := by
  have acts : exec (.heldRecordExpire p) s = .next (((s.part p).held.filter (fun h => h.over s.now)).foldl
      (State.discardHeld p) (s.setPart p ((s.part p).withoutOver s.now))) := if_neg (Nat.not_le_of_lt h8)
  have exists_ : p < (s.setPart p ((s.part p).withoutOver s.now)).parts.length := by simpa [State.setPart] using hp
  obtain ⟨o, discarded⟩ := foldl_discardHeld exists_ ((s.part p).held.filter (fun h => h.over s.now))
  rw [part_setPart _ _ _ hp, setPart_setPart] at discarded
  exact ⟨o, acts.trans (congrArg Host.Outcome.next discarded)⟩

/-- Settles O24: a record that arrives, by its outcome, and then the records that a partition has held too long. -/
theorem arrivingRecordsLandWaitOrDrop : Obligations.ArrivingRecordsLandWaitOrDrop := by
  unfold Obligations.ArrivingRecordsLandWaitOrDrop
  refine ⟨fun t p i s kind coming hreset owned hr hp => ?arrives, fun p s h8 hp => ?expires⟩
  case arrives =>
    dsimp only
    rw [exec_arrives kind coming hreset]
    refine ⟨fun g n counts d lands named => ?lands, fun held => ?held, fun gone => ?gone, fun n drop => ?drop⟩
    case lands =>
      obtain ⟨others, is, row⟩ := arrive_lands owned hr lands named
      refine ⟨_, rfl, arrive_transit owned lands nofun, others, ?_⟩
      rw [row]
      exact ⟨landed_count _ (s.regCarve t.region) d t.slot g n counts t.bytes, rfl,
        landed_sramByte _ _ d t.slot g n counts t.bytes⟩
    case held =>
      obtain ⟨sram, waits⟩ := arrive_holds owned hp held
      exact ⟨_, rfl, sram, waits⟩
    case gone =>
      rcases gone with stale | cancelled
      · exact ⟨_, rfl, arrive_transit owned stale nofun, arrive_sameSram owned stale nofun (land_stale_regions ..)⟩
      · exact ⟨_, rfl, arrive_transit owned cancelled nofun,
          arrive_sameSram owned cancelled nofun (land_cancelled_regions ..)⟩
    case drop =>
      obtain ⟨sram, skips⟩ := arrive_drop owned hr drop
      refine ⟨_, rfl, arrive_transit owned drop nofun, sram, fun inside => skips ?_⟩
      rintro ⟨rfl, outside⟩
      simp [outside] at inside
  case expires =>
    obtain ⟨o, e⟩ := heldRecordExpire_eq h8 hp
    have here : ({ s.setPart p ((s.part p).expired s.now) with obs := o } : State).part p = (s.part p).expired s.now :=
      part_setPart s p _ hp
    dsimp only
    refine ⟨_, e, ?_⟩
    rw [here]
    exact ⟨countingAll_held .., countingAll_rteStale .., countingAll_partialStale .., rfl,
      fun k hk => part_setPart_ne s p _ hk⟩

end Sys2Proof.Machine
end

section
/-! SUPPORT. The router (R243): what one choice changes, what a list of choices adds up to; and the settlement of O20. -/
namespace Sys2Proof.Machine

/-- A choice that took a row of the pool. -/
def Placed.fromPool : Placed → Bool
  | .at_ _ true => true
  | _ => false

/-! One choice. -/

section
variable (x : Router) (experts cap pool : Nat)

/-- The router once expert n has got one more row. -/
def Router.fillOne (n : Nat) : Router := { x with fill := Tab.set 0 x.fill n (Tab.get 0 x.fill n + 1) }

theorem fill_fillOne (n k : Nat) :
    Tab.get 0 (x.fillOne n).fill k = Tab.get 0 x.fill k + if k = n then 1 else 0 := by
  rw [Router.fillOne, Tab.get_set]
  split
  case isTrue same => rw [same]
  case isFalse => rfl

/-- What becomes of a choice: it names no expert, it takes a row below its expert's capacity or one of the pool, or it is
dropped. -/
inductive Router.Chooses (e : Int) : Placed × Router → Prop
  | none (outside : e < 0 ∨ (experts : Int) ≤ e) : Chooses e (.none, x)
  | own (inside : 0 ≤ e ∧ e < experts) (room : Tab.get 0 x.fill e.toNat < cap) :
      Chooses e (.at_ (Tab.get 0 x.fill e.toNat) false, x.fillOne e.toNat)
  | pooled (inside : 0 ≤ e ∧ e < experts) (room : x.used < pool) :
      Chooses e (.at_ (Tab.get 0 x.fill e.toNat) true, { x.fillOne e.toNat with used := x.used + 1 })
  | dropped (inside : 0 ≤ e ∧ e < experts) : Chooses e (.dropped, { x with dropped := x.dropped + 1 })

theorem choice_chooses (e : Int) : x.Chooses experts cap pool e (x.choice experts cap pool e) := by
  unfold Router.choice
  dsimp only
  split
  case isTrue outside => exact .none outside
  case isFalse named =>
    have inside : 0 ≤ e ∧ e < experts := by omega
    split
    case isTrue room => exact .own inside room
    case isFalse =>
      split
      case isTrue room => exact .pooled inside room
      case isFalse => exact .dropped inside

/-- No more is taken from the pool than it holds, and no expert has more rows than its capacity and what was taken. -/
def Router.Within : Prop := x.used ≤ pool ∧ ∀ k, Tab.get 0 x.fill k ≤ cap + x.used

end

section
variable {x : Router} {experts cap pool : Nat} {e : Int} {z : Placed × Router} (chooses : x.Chooses experts cap pool e z)
include chooses

theorem Router.Chooses.used_eq : z.2.used = x.used + if z.1.fromPool then 1 else 0 := by cases chooses <;> rfl

theorem Router.Chooses.dropped_eq : z.2.dropped = x.dropped + if z.1 == .dropped then 1 else 0 := by cases chooses <;> rfl

/-- A choice that is placed gives its own expert one more row, and no other choice gives any. -/
theorem Router.Chooses.fill_eq (k : Nat) :
    Tab.get 0 z.2.fill k = Tab.get 0 x.fill k + if decide (e = k) && z.1.isAt then 1 else 0 := by
  have own (inside : 0 ≤ e ∧ e < experts) : (k = e.toNat) = (e = k) := by rw [eq_iff_iff]; omega
  cases chooses with
  | none => simp [Placed.isAt]
  | own inside => simp [fill_fillOne, own inside, Placed.isAt]
  | pooled inside => simp [fill_fillOne, own inside, Placed.isAt]
  | dropped => simp [Placed.isAt]

/-- A row given is the next one of the expert that the choice names. -/
theorem Router.Chooses.row_eq {row : Nat} {b : Bool} (at_ : z.1 = .at_ row b) :
    ∃ n : Nat, e = n ∧ row = Tab.get 0 x.fill n := by
  have named (inside : 0 ≤ e ∧ e < experts) : e = e.toNat := (Int.toNat_of_nonneg inside.1).symm
  cases chooses with
  | none => cases at_
  | own inside => cases at_; exact ⟨e.toNat, named inside, rfl⟩
  | pooled inside => cases at_; exact ⟨e.toNat, named inside, rfl⟩
  | dropped => cases at_

theorem Router.Chooses.none_of_outside (outside : e < 0 ∨ (experts : Int) ≤ e) : z.1 = .none := by
  cases chooses with
  | none => rfl
  | own inside => omega
  | pooled inside => omega
  | dropped inside => omega

theorem Router.Chooses.within (before : x.Within cap pool) : z.2.Within cap pool := by
  obtain ⟨taken, rows⟩ := before
  cases chooses with
  | none => exact ⟨taken, rows⟩
  | own inside room =>
    refine ⟨taken, fun k => ?_⟩
    have := rows k
    rw [fill_fillOne]
    dsimp only [Router.fillOne]
    split
    case isTrue same => rw [same]; omega
    case isFalse => exact this
  | pooled inside room =>
    refine ⟨room, fun k => ?_⟩
    have := rows k
    have := fill_fillOne x e.toNat k
    dsimp only
    split at this <;> omega
  | dropped => exact ⟨taken, rows⟩

end

/-! Choices in order. -/

section
variable (experts cap pool : Nat) (es : List Int) (x : Router)

/-- The first choice is placed by itself, and the others by the router that it leaves. -/
theorem choices_cons (e : Int) : Router.choices experts cap pool (e :: es) x =
    ((x.choice experts cap pool e).1 :: (Router.choices experts cap pool es (x.choice experts cap pool e).2).1,
      (Router.choices experts cap pool es (x.choice experts cap pool e).2).2) := rfl

theorem choices_length : (Router.choices experts cap pool es x).1.length = es.length := by
  induction es generalizing x with
  | nil => rfl
  | cons e es ih => rw [choices_cons, List.length_cons, List.length_cons, ih]

theorem choices_within (before : x.Within cap pool) : (Router.choices experts cap pool es x).2.Within cap pool := by
  induction es generalizing x with
  | nil => exact before
  | cons e es ih => exact ih _ ((choice_chooses x experts cap pool e).within before)

/-- A counter that each result of some kind adds one to counts the results of that kind. -/
theorem choices_counter (counter : Router → Nat) (kind : Placed → Bool)
    (adds : ∀ x e z, Router.Chooses x experts cap pool e z → counter z.2 = counter x + if kind z.1 then 1 else 0) :
    counter (Router.choices experts cap pool es x).2 =
      counter x + ((Router.choices experts cap pool es x).1.filter kind).length := by
  induction es generalizing x with
  | nil => rfl
  | cons e es ih =>
    rw [choices_cons, ih, adds _ _ _ (choice_chooses x experts cap pool e), List.filter_cons]
    split
    · rw [List.length_cons, Nat.add_assoc, Nat.add_comm 1]
    · rfl

theorem choices_none_of_outside {i : Nat} (hi : i < es.length) (outside : es.getD i 0 < 0 ∨ (experts : Int) ≤ es.getD i 0) :
    (Router.choices experts cap pool es x).1.getD i .dropped = .none := by
  induction es generalizing x i with
  | nil => cases hi
  | cons e es ih =>
    rw [choices_cons]
    cases i with
    | zero => exact (choice_chooses x experts cap pool e).none_of_outside outside
    | succ i => exact ih _ (Nat.lt_of_succ_lt_succ hi) outside

/-- How many of the first i choices name expert e and are placed, by their results. -/
def placedBefore (es : List Int) (rs : List Placed) (e : Int) (i : Nat) : Nat :=
  ((List.range i).filter (fun j => decide (es.getD j 0 = e) && (rs.getD j .none).isAt)).length

theorem placedBefore_cons (e : Int) (es : List Int) (r : Placed) (rs : List Placed) (n : Int) (i : Nat) :
    placedBefore (e :: es) (r :: rs) n (i + 1) = (if decide (e = n) && r.isAt then 1 else 0) + placedBefore es rs n i := by
  unfold placedBefore
  rw [List.range_succ_eq_map, List.filter_cons, List.filter_map, Nat.add_comm, List.getD_cons_zero, List.getD_cons_zero]
  split
  · rw [List.length_cons, List.length_map]; rfl
  · rw [List.length_map]; rfl

/-- A placed choice has the row that follows those that its expert had and those of its earlier placed choices. -/
theorem choices_row {i row : Nat} {b : Bool} (hi : i < es.length)
    (at_ : (Router.choices experts cap pool es x).1.getD i .none = .at_ row b) :
    ∃ n : Nat, es.getD i 0 = n ∧
      row = Tab.get 0 x.fill n + placedBefore es (Router.choices experts cap pool es x).1 n i := by
  induction es generalizing x i with
  | nil => cases hi
  | cons e es ih =>
    have first := choice_chooses x experts cap pool e
    rw [choices_cons] at at_ ⊢
    cases i with
    | zero => exact first.row_eq at_
    | succ i =>
      obtain ⟨n, named, rfl⟩ := ih _ (Nat.lt_of_succ_lt_succ hi) at_
      exact ⟨n, named, by rw [first.fill_eq, placedBefore_cons, Nat.add_assoc]⟩

end

/-- Settles O20: every choice keeps the router within its bounds and counts its result. -/
theorem routerKeepsToCapacityAndPool : Obligations.RouterKeepsToCapacityAndPool := by
  unfold Obligations.RouterKeepsToCapacityAndPool
  intro experts cap pool es z
  have start : Router.Within ⟨[], 0, 0⟩ cap pool := ⟨Nat.zero_le _, fun _ => Nat.zero_le _⟩
  obtain ⟨taken, rows⟩ := choices_within experts cap pool es _ start
  refine ⟨taken, ?pooled, ?dropped, choices_length .., fun e _ => rows e, fun i hi outside => ?outside,
    fun i row b hi at_ => ?row⟩
  case pooled =>
    exact (choices_counter experts cap pool es _ Router.used Placed.fromPool (fun _ _ _ h => h.used_eq)).trans (Nat.zero_add _)
  case dropped =>
    exact (choices_counter experts cap pool es _ Router.dropped (· == .dropped) (fun _ _ _ h => h.dropped_eq)).trans
      (Nat.zero_add _)
  case outside => exact choices_none_of_outside experts cap pool es _ hi outside
  case row =>
    obtain ⟨n, named, next⟩ := choices_row experts cap pool es _ hi at_
    rw [named]
    exact next.trans (Nat.zero_add _)

end Sys2Proof.Machine
end

section
/-! SUPPORT. What a ROUTE instruction reads of its region does not depend on the note of the first issue; the records of SEND
and of the returns on their way (R254, R255); and the settlement of O19. -/
namespace Sys2Proof.Machine

/-! The first issue noted, a region has the same operands, registers and unretired instructions. -/

section
variable (s : State) (r : Nat)

@[simp] theorem issuing_routeArgs (f : RouteF) : (s.issuing r).routeArgs f = (s.region r).routeArgs f := by
  obtain ⟨k, a, u, l, h⟩ := issuing_eq s r; rw [h]; rfl

@[simp] theorem issuing_reg (n : Nat) : (s.issuing r).reg n = (s.region r).reg n := by
  obtain ⟨k, a, u, l, h⟩ := issuing_eq s r; rw [h]; rfl

@[simp] theorem issuing_dmaBusy : (s.issuing r).dmaBusy = (s.region r).dmaBusy := by
  obtain ⟨k, a, u, l, h⟩ := issuing_eq s r; rw [h]; rfl

@[simp] theorem issuing_nextId : (s.issuing r).nextId = (s.region r).nextId := by
  obtain ⟨k, a, u, l, h⟩ := issuing_eq s r; rw [h]

end

/-! Records on their way. -/

theorem issue_sameSram {x y : Region} (sram : sameSram x y) (units : List RUnit) (spans : List USpan) (t : Tail) :
    sameSram x (y.issue units spans t) := by
  unfold Region.issue
  split
  · exact sram
  · exact sameSram_advance sram

/-- A list is as long without its missing entries as with them when it has none. -/
theorem filterMap_id_length_eq_iff {α : Type} [BEq α] [LawfulBEq α] (rs : List (Option α)) :
    (rs.filterMap id).length = rs.length ↔ rs.contains none = false := by
  rw [List.filterMap_length_eq_length, ← Bool.not_eq_true, List.contains_iff_mem]
  exact ⟨fun all missing => Bool.noConfusion (all _ missing),
    fun whole a mem => Option.isSome_iff_ne_none.mpr fun h => whole (h ▸ mem)⟩

/-- From s to t, the instruction of region r has issued to the DMA engine with these records on their way, a missing one
failing it with RANGE. -/
def EmitsRecords (s t : State) (r p : Nat) (spans : List Span) (rs : List (Option (Nat × Nat × List Byte))) : Prop :=
  t.transit = s.transit ++ (rs.filterMap id).map (fun e =>
      ⟨(s.regionsOf p).getD e.1 0, e.2.1, e.2.2, .instr r (s.region r).nextId⟩) ∧
    issuedNow (s.region r) (t.region r) [.dma] (bySpan [.dma] spans)
      { fail := if rs.contains none then .range else .ok, owed := (rs.filterMap id).length } ∧
    sameSram (s.region r) (t.region r) ∧ t = { s with regions := t.regions, transit := t.transit } ∧
    ∀ k, k ≠ r → t.region k = s.region k

section
variable {s : State} {r p : Nat} {l : LaunchRun} {b : RBody} (start : s.mayStart r b p l)
include start

theorem issueRecords_emits (spans : List Span) (rs : List (Option (Nat × Nat × List Byte))) :
    EmitsRecords s ((s.begun r).issueRecords r p spans rs) r p spans rs := by
  have hr := mayStart_lt start
  have status : (if (rs.filterMap id).length = rs.length then Status.ok else .range) =
      if rs.contains none then .range else .ok := by
    simp only [filterMap_id_length_eq_iff]
    cases rs.contains none
    · rfl
    · rfl
  have becomes : RegionBecomes s ((s.begun r).issueRecords r p spans rs) r
      ((s.issuing r).issue [.dma] (bySpan [.dma] spans)
        { fail := if rs.contains none then .range else .ok, owed := (rs.filterMap id).length }) := by
    rw [← status]
    dsimp only [State.issueRecords, State.sendRecords, RegionBecomes]
    rw [region_begun hr, setRegion_begun]
  refine ⟨?records, ?issues, ?sram, rfl, fun k hk => becomes.other hk⟩
  case records =>
    dsimp only [State.issueRecords, State.sendRecords]
    rw [region_begun hr, issuing_nextId]
    rfl
  case issues =>
    rw [becomes.region hr]
    exact issue_issuedNow (mayStart_stands start) (s.regCarve r) [] _ _ _
  case sram =>
    obtain ⟨k, a, u, c, note⟩ := issuing_eq s r
    rw [becomes.region hr]
    exact issue_sameSram (by rw [note]; exact fun _ => rfl) _ _ _

/-! The records themselves are those of the state before. -/

theorem dispatches_begun (experts home slot : Nat) (ch w tk m idx : Opnd) :
    (s.begun r).dispatches r p l experts home slot ch w tk m idx = s.dispatches r p l experts home slot ch w tk m idx := by
  unfold State.dispatches
  simp only [region_begun (mayStart_lt start), issuing_view, issuing_reg, regCarve_begun]
  rfl

theorem returnRec_begun (acc : Bool) (tk idx : Opnd) (i : Nat) :
    (s.begun r).returnRec r p acc tk idx i = s.returnRec r p acc tk idx i := by
  unfold State.returnRec
  simp only [region_begun (mayStart_lt start), issuing_view, issuing_reg, regCarve_begun]
  rfl

end

/-- SEND and the returns may go to the DMA engine: the operands lie in their carve-outs, and nothing holds them back. -/
def State.routeFree (s : State) (r : Nat) (f : RouteF) : Prop :=
  ((s.region r).routeArgs f).fits (s.regCarve r) = true ∧ (s.region r).dmaBusy = false ∧
    (s.region r).heldBack (bySpan [.dma] (((s.region r).routeArgs f).spans false)) = false

section
variable {s : State} {r p : Nat} {l : LaunchRun} {f : RouteF}

/-- SEND with its operands and with registers of Table 08-2 issues with its dispatches. -/
theorem send_issues (start : s.mayStart r (.route .send f) p l) (free : s.routeFree r f) {ch w tk m idx : Opnd}
    (args : (s.region r).routeArgs f = ⟨some ch, some w, some tk, some m, some idx⟩) :
    let cap := ((s.region r).reg f.capreg).toNat
    let ep := ((s.region r).reg f.epochreg).toNat
    cap % 65536 = 0 → cap / 65536 ≠ 0 → cap / 65536 ≤ 4096 → ep % 65536 = 0 → ep < 2 ^ 32 → m.d.dim 0 = cap / 65536 →
    exec (.send r f) s = .next ((s.begun r).issueRecords r p (((s.region r).routeArgs f).spans false)
      (s.dispatches r p l (cap / 65536) (s.regionIndex p r + 16 * bits ep 23 16) (bits ep 31 24) ch w tk m idx)) := by
  obtain ⟨fits, idle, unheld⟩ := free
  intro cap ep low experts few epLow epHigh size
  have registers : ¬ (cap % 65536 ≠ 0 ∨ cap / 65536 = 0 ∨ 4096 < cap / 65536 ∨ ep % 65536 ≠ 0 ∨ 2 ^ 32 ≤ ep ∨
      m.d.dim 0 ≠ cap / 65536) := by omega
  show execSend r f s = _
  rw [execSend, runUnit_begun start]
  simp only [region_begun (mayStart_lt start), issuing_routeArgs, issuing_reg, issuing_dmaBusy, issuing_heldBack, regCarve_begun,
    fits, idle, unheld, dispatches_begun start]
  simp only [args]
  rw [if_neg registers]
  rfl

/-- A return of no more rows than its operands have issues with a record for each. -/
theorem returns_issue {op : RouteOp} (start : s.mayStart r (.route op f) p l) (free : s.routeFree r f) {tk idx : Opnd}
    (token : ((s.region r).routeArgs f).token = some tk) (index : ((s.region r).routeArgs f).idx = some idx)
    (rows : ((s.region r).reg f.capreg).toNat ≤ tk.d.dim 1 ∧ ((s.region r).reg f.capreg).toNat ≤ idx.d.dim 1) (acc : Bool) :
    s.returns r op acc f = .next ((s.begun r).issueRecords r p (((s.region r).routeArgs f).spans false)
      ((List.range ((s.region r).reg f.capreg).toNat).map (s.returnRec r p acc tk idx))) := by
  obtain ⟨fits, idle, unheld⟩ := free
  have inside : ¬ (tk.d.dim 1 < ((s.region r).reg f.capreg).toNat ∨ idx.d.dim 1 < ((s.region r).reg f.capreg).toNat) := by omega
  rw [State.returns, runUnit_begun start]
  simp only [region_begun (mayStart_lt start), issuing_routeArgs, issuing_reg, issuing_dmaBusy, issuing_heldBack, regCarve_begun,
    fits, idle, unheld, token, index, funext (returnRec_begun start acc tk idx)]
  rw [if_neg inside]
  rfl

end

/-- Settles O19: each of the three issues with the records that its rows give. -/
theorem sendsAndReturnsEmitRecords : Obligations.SendsAndReturnsEmitRecords := by
  unfold Obligations.SendsAndReturnsEmitRecords
  intro r p l f s x a ready emits cap ep
  refine ⟨?send, ?returnSlot, ?returnAcc⟩
  case send =>
    intro ch w tk m idx ⟨start, free⟩ choice weight token out index low experts few epLow epHigh size
    have args : x.routeArgs f = ⟨some ch, some w, some tk, some m, some idx⟩ := by
      rw [← choice, ← weight, ← token, ← out, ← index]
    exact ⟨_, send_issues start free args low experts few epLow epHigh size, issueRecords_emits start ..⟩
  case returnSlot =>
    intro tk idx ⟨start, free⟩ token index tokenRows indexRows
    exact ⟨_, returns_issue start free token index ⟨tokenRows, indexRows⟩ false, issueRecords_emits start ..⟩
  case returnAcc =>
    intro tk idx ⟨start, free⟩ token index tokenRows indexRows
    exact ⟨_, returns_issue start free token index ⟨tokenRows, indexRows⟩ true, issueRecords_emits start ..⟩

end Sys2Proof.Machine
end

section
/-! SUPPORT. PLACE (R238, R239, R249): the return slot cleared, the submission in its round, and what either leaves of the
region; and the settlement of O18. -/
namespace Sys2Proof.Machine

/-! The partition of a running region. -/

theorem regRun_part_lt {s : State} {r p : Nat} {l : LaunchRun} (h : s.regRun r = some (p, l)) : p < s.parts.length := by
  have launched : (s.part p).launch = some l := by
    unfold State.regRun at h
    split at h
    · obtain ⟨l', launch, e⟩ := Option.map_eq_some_iff.mp h
      cases e
      exact launch
    · cases h
  refine Nat.lt_of_not_le fun above => ?_
  rw [State.part, List.getD_eq_getElem?_getD, List.getElem?_eq_none above] at launched
  cases launched

/-! A slot cleared (R249). -/

theorem sameSram_sramStore {x y : Region} (sram : sameSram x y) (a : Nat) (bs : List Byte) :
    sameSram (x.sramStore a bs) (y.sramStore a bs) := fun j => by
  rw [sramByte_sramStore, sramByte_sramStore, sram j]

/-- The rows of a descriptor's slot written over with zeros. -/
def Region.zeroSlot (x : Region) (c : Carve) (d : Desc) : Region :=
  (List.range d.s2).foldl (fun (y : Region) g => (List.range d.s1).foldl (fun (y : Region) i =>
    y.sramStore (d.rowAt c g i) (List.replicate (4 * d.s0) 0)) y) x

theorem sameSram_zeroSlot {x y : Region} (sram : sameSram x y) (c : Carve) (d : Desc) :
    sameSram (x.zeroSlot c d) (y.zeroSlot c d) :=
  List.foldl_rel sram fun _ _ _ _ rows => List.foldl_rel rows fun _ _ _ _ row => sameSram_sramStore row _ _

/-- From x to y no more has changed than SRAM, its marks and the slots. -/
def SlotsOnly (x y : Region) : Prop := ∃ m k sl, y = { x with sram := m, sramMark := k, slots := sl }

theorem SlotsOnly.refl (x : Region) : SlotsOnly x x := ⟨x.sram, x.sramMark, x.slots, rfl⟩

theorem SlotsOnly.trans {x y z : Region} (h : SlotsOnly x y) (k : SlotsOnly y z) : SlotsOnly x z := by
  obtain ⟨_, _, _, rfl⟩ := h
  obtain ⟨m, k, sl, rfl⟩ := k
  exact ⟨m, k, sl, rfl⟩

theorem sramStore_slotsOnly (x : Region) (a : Nat) (bs : List Byte) : SlotsOnly x (x.sramStore a bs) := by
  induction bs generalizing x a with
  | nil => exact .refl x
  | cons b bs ih =>
    obtain ⟨m, k, h⟩ := sramPut_eq x a b
    have put : SlotsOnly x (x.sramPut a b) := ⟨m, k, x.slots, h⟩
    exact put.trans (ih ..)

theorem zeroSlot_slotsOnly (x : Region) (c : Carve) (d : Desc) : SlotsOnly x (x.zeroSlot c d) :=
  List.foldlRecOn (motive := SlotsOnly x) _ _ (.refl x) fun _ groups _ _ =>
    List.foldlRecOn (motive := SlotsOnly x) _ _ groups fun _ rows _ _ => rows.trans (sramStore_slotsOnly ..)

theorem clearSlot_none {x : Region} {k : Nat} (unnamed : x.desc k = none) (c : Carve) : x.clearSlot c k = x := by
  rw [Region.clearSlot, unnamed]

/-- The region with no row of a slot landed. -/
def Region.unland (x : Region) (k : Nat) : Region :=
  { x with slots := Tab.set .unbound x.slots k { x.slot k with landed := [], count := 0 } }

theorem clearSlot_some {x : Region} {k : Nat} {d : Desc} (named : x.desc k = some d) (c : Carve) :
    x.clearSlot c k = (x.zeroSlot c d).unland k := by
  rw [Region.clearSlot, named]
  rfl

theorem clearSlot_slotsOnly (x : Region) (c : Carve) (k : Nat) : SlotsOnly x (x.clearSlot c k) := by
  cases named : x.desc k with
  | none => rw [clearSlot_none named]; exact .refl x
  | some d => rw [clearSlot_some named]; exact (zeroSlot_slotsOnly x c d).trans ⟨_, _, _, rfl⟩

theorem clearSlot_count {x : Region} {k : Nat} (named : x.desc k ≠ none) (c : Carve) : ((x.clearSlot c k).slot k).count = 0 := by
  obtain ⟨d, named⟩ := Option.ne_none_iff_exists'.mp named
  rw [clearSlot_some named, Region.unland, Region.slot, Tab.get_set, if_pos rfl]

theorem sameSram_clearSlot {x y : Region} (sram : sameSram x y) {k : Nat} (desc : y.desc k = x.desc k) (c : Carve) :
    sameSram (x.clearSlot c k) (y.clearSlot c k) := by
  cases named : x.desc k with
  | none => rw [clearSlot_none named, clearSlot_none (desc.trans named)]; exact sram
  | some d => rw [clearSlot_some named, clearSlot_some (desc.trans named)]; exact sameSram_zeroSlot sram c d

/-! The first issue noted. -/

section
variable (s : State) (r : Nat)

theorem issuing_desc (n : Nat) : (s.issuing r).desc n = (s.region r).desc n := by
  obtain ⟨k, a, u, l, h⟩ := issuing_eq s r; rw [h]; rfl

theorem issuing_slot (n : Nat) : (s.issuing r).slot n = (s.region r).slot n := by
  obtain ⟨k, a, u, l, h⟩ := issuing_eq s r; rw [h]; rfl

theorem issuing_placeRegs (f : RouteF) : (s.issuing r).placeRegs f = (s.region r).placeRegs f := by
  obtain ⟨k, a, u, l, h⟩ := issuing_eq s r; rw [h]; rfl

theorem issuing_places : (s.issuing r).places = (s.region r).places := by
  obtain ⟨k, a, u, l, h⟩ := issuing_eq s r; rw [h]

theorem issuing_skip : (s.issuing r).skip = (s.region r).skip := by
  obtain ⟨k, a, u, l, h⟩ := issuing_eq s r; rw [h]

theorem issuing_sameSram : sameSram (s.region r) (s.issuing r) := by
  obtain ⟨k, a, u, l, h⟩ := issuing_eq s r; rw [h]; exact fun _ => rfl

end

/-! Issue from a region that has changed elsewhere. -/

/-- From x to y nothing has changed that an issue takes over from the region. -/
structure SameIssue (x y : Region) : Prop where
  store : y.store = x.store
  pc : y.pc = x.pc
  loops : y.loops = x.loops
  regs : ∀ n, y.reg n = x.reg n
  issued : y.issued = x.issued
  nextId : y.nextId = x.nextId
  skip : y.skip = x.skip
  fail : y.fail = x.fail
  flags : y.flags = x.flags

theorem SameIssue.symm {x y : Region} (h : SameIssue x y) : SameIssue y x :=
  ⟨h.store.symm, h.pc.symm, h.loops.symm, fun n => (h.regs n).symm, h.issued.symm, h.nextId.symm, h.skip.symm, h.fail.symm,
    h.flags.symm⟩

theorem SameIssue.trans {x y z : Region} (h : SameIssue x y) (k : SameIssue y z) : SameIssue x z :=
  ⟨k.store.trans h.store, k.pc.trans h.pc, k.loops.trans h.loops, fun n => (k.regs n).trans (h.regs n),
    k.issued.trans h.issued, k.nextId.trans h.nextId, k.skip.trans h.skip, k.fail.trans h.fail, k.flags.trans h.flags⟩

theorem SlotsOnly.sameIssue {x y : Region} (h : SlotsOnly x y) : SameIssue x y := by
  obtain ⟨m, k, sl, rfl⟩ := h
  exact ⟨rfl, rfl, rfl, fun _ => rfl, rfl, rfl, rfl, rfl, rfl⟩

theorem issuing_sameIssue (s : State) (r : Nat) : SameIssue (s.region r) (s.issuing r) := by
  obtain ⟨k, a, u, l, h⟩ := issuing_eq s r
  rw [h]
  exact ⟨rfl, rfl, rfl, fun _ => rfl, rfl, rfl, rfl, rfl, rfl⟩

theorem SameIssue.issuedNow {x y : Region} (h : SameIssue x y) {i : RInstr} (stands : x.store.instrs[x.pc]? = some i)
    (units : List RUnit) (spans : List USpan) (t : Tail) : issuedNow x (y.issue units spans t) units spans t := by
  have stands' : y.store.instrs[y.pc]? = some i := by rw [h.store, h.pc, stands]
  rw [issue_eq stands', h.issued, h.nextId, h.pc]
  exact ⟨⟨i, stands, advance_issued _⟩, advance_nextId _, wentOn_advance rfl h.loops,
    sameRegs_advance (fun n _ => h.regs n) h.loops, (advance_skip _).trans h.skip, (advance_fail _).trans h.fail, (advance_flags _).trans h.flags⟩

theorem advance_places (x : Region) : x.advance.places = x.places := by obtain ⟨pc, loops, regs, h⟩ := advance_eq x; rw [h]
theorem advance_slots (x : Region) : x.advance.slots = x.slots := by obtain ⟨pc, loops, regs, h⟩ := advance_eq x; rw [h]

section
variable (x : Region) (units : List RUnit) (spans : List USpan) (t : Tail)

theorem issue_places : (x.issue units spans t).places = x.places := by
  unfold Region.issue
  split
  · rfl
  · rw [advance_places]

theorem issue_slots : (x.issue units spans t).slots = x.slots := by
  unfold Region.issue
  split
  · rfl
  · rw [advance_slots]

end

/-! The region once its PLACE has submitted. -/

/-- The region with a number of PLACEs counted. -/
def Region.withPlaces (x : Region) (n : Nat) : Region := { x with places := n }

theorem withPlaces_sameIssue (x : Region) (n : Nat) : SameIssue x (x.withPlaces n) :=
  ⟨rfl, rfl, rfl, fun _ => rfl, rfl, rfl, rfl, rfl, rfl⟩

/-- The region after a PLACE with rows: its slot cleared, and the instruction waiting for the round. -/
def Region.placed (x : Region) (c : Carve) (slot : Nat) (spans : List USpan) : Region :=
  ((x.clearSlot c slot).withPlaces (x.places + 1)).issue [.dma] spans { pend := .round }

/-- The region after a PLACE without rows: in skip mode with this status, the sequencer gone on. -/
def Region.placedEmpty (x : Region) (st : Status) (order : Nat) : Region :=
  ({ x.withPlaces (x.places + 1) with fail := st, failOrder := order, skip := true } : Region).advance

section
variable (s : State) (r : Nat)

theorem placed_places (c : Carve) (slot : Nat) (spans : List USpan) :
    ((s.issuing r).placed c slot spans).places = (s.region r).places + 1 := by
  rw [Region.placed, issue_places, Region.withPlaces, issuing_places]

theorem placed_count (c : Carve) {slot : Nat} (spans : List USpan) (named : (s.region r).desc slot ≠ none) :
    (((s.issuing r).placed c slot spans).slot slot).count = 0 := by
  rw [Region.placed, Region.slot, issue_slots]
  exact clearSlot_count (issuing_desc s r slot ▸ named) c

theorem placed_sameSram (c : Carve) (slot : Nat) (spans : List USpan) :
    sameSram ((s.region r).clearSlot c slot) ((s.issuing r).placed c slot spans) := by
  have cleared := sameSram_clearSlot (issuing_sameSram s r) (issuing_desc s r slot) c
  exact issue_sameSram (y := ((s.issuing r).clearSlot c slot).withPlaces ((s.issuing r).places + 1)) cleared _ _ _

theorem placed_issuedNow {i : RInstr} (stands : (s.region r).store.instrs[(s.region r).pc]? = some i) (c : Carve) (slot : Nat)
    (spans : List USpan) : issuedNow ((s.region r).clearSlot c slot) ((s.issuing r).placed c slot spans) [.dma] spans
      { pend := .round } := by
  have before := (clearSlot_slotsOnly (s.region r) c slot).sameIssue
  have after := (clearSlot_slotsOnly (s.issuing r) c slot).sameIssue
  have counted := withPlaces_sameIssue ((s.issuing r).clearSlot c slot) ((s.issuing r).places + 1)
  have same := ((before.symm.trans (issuing_sameIssue s r)).trans after).trans counted
  exact same.issuedNow (i := i) (by rw [before.store, before.pc, stands]) _ _ _

theorem placedEmpty_leaves (st : Status) (order : Nat) :
    let x := s.region r
    let y := (s.issuing r).placedEmpty st order
    y.places = x.places + 1 ∧ y.issued = x.issued ∧ sameSram x y ∧ y.skip = true ∧ y.fail = st ∧ wentOn x y := by
  intro x y
  have same := issuing_sameIssue s r
  exact ⟨(advance_places _).trans (congrArg (· + 1) (issuing_places s r)), (advance_issued _).trans same.issued,
    sameSram_advance (issuing_sameSram s r), advance_skip _, advance_fail _, wentOn_advance same.pc same.loops⟩

end

/-! The instruction. -/

/-- PLACE has operands and registers of Table 08-2, a bound return slot, and operands within their carve-outs, so that it
submits rows (R237, R239, R249). -/
def Region.placeFits (x : Region) (c : Carve) (f : RouteF) (g : PlaceRegs) (o out : Opnd) : Prop :=
  x.placeRegs f = some g ∧ (x.routeArgs f).choice = some o ∧ (x.routeArgs f).out = some out ∧
    out.d.dim 0 = g.experts + 3 ∧ o.d.count ≤ 65535 ∧ (x.slot g.slot).bound = true ∧ (x.routeArgs f).fits c = true

/-- The submission of a PLACE with rows (R238). -/
def State.placeSub (s : State) (r p : Nat) (f : RouteF) (g : PlaceRegs) (o : Opnd) : Submission :=
  { index := s.regionIndex p r, region := r, id := (s.region r).nextId, slot := g.slot, rows := true, k := o.d.dim 0,
    t := o.d.dim 1, experts := g.experts, cap := g.cap, pool := g.pool, strict := g.strict, renorm := f.renorm == 1,
    choices := (List.range o.d.count).map (fun i => sext 32 (o.bits ((s.region r).view (s.regCarve r)) i)) }

section
variable {s : State} {r p : Nat} {l : LaunchRun} {y : Part}

theorem placeRows_eq {f : RouteF} {a : RouteArgs} {g : PlaceRegs} {o : Opnd}
    (round : (s.part p).submit l.batch (s.region r).places (s.placeSub r p f g o) = some y) :
    s.placeRows r p l f a g o =
      (s.setPart p y).setRegion r ((s.region r).placed (s.regCarve r) g.slot (bySpan [.dma] (a.spans true))) := by
  unfold State.placeRows
  dsimp only
  split
  case h_1 none_ => exact absurd (none_.symm.trans round) nofun
  case h_2 y' some_ =>
    obtain rfl : y' = y := Option.some.inj (some_.symm.trans round)
    rfl

theorem placeRows_begun (hr : r < s.regions.length) (f : RouteF) (a : RouteArgs) (g : PlaceRegs) (o : Opnd)
    (round : (s.part p).submit l.batch (s.region r).places (s.placeSub r p f g o) = some y) :
    (s.begun r).placeRows r p l f a g o =
      (s.setPart p y).setRegion r ((s.issuing r).placed (s.regCarve r) g.slot (bySpan [.dma] (a.spans true))) := by
  have same : (s.begun r).placeSub r p f g o = s.placeSub r p f g o := by
    unfold State.placeSub
    rw [region_begun hr, issuing_view, issuing_nextId]
    rfl
  rw [placeRows_eq (s := s.begun r) (y := y) (by rw [same, region_begun hr, issuing_places]; exact round), region_begun hr]
  exact setRegion_begun (s.setPart p y) r _

/-- A submission without rows counts the PLACE before the instruction passes over or fails. -/
theorem placeEmpty_eq (round : (s.part p).submit l.batch (s.region r).places (.empty (s.regionIndex p r) r) = some y)
    (st : Status) : s.placeEmpty r p l st =
      let t := (s.setPart p y).setRegion r ((s.region r).withPlaces ((s.region r).places + 1))
      if st = .ok then t.passOver r else t.failIssue r st := by
  unfold State.placeEmpty
  dsimp only
  split
  case h_1 none_ => exact absurd (none_.symm.trans round) nofun
  case h_2 y' some_ =>
    obtain rfl : y' = y := Option.some.inj (some_.symm.trans round)
    rfl

variable (hr : r < s.regions.length)
  (round : (s.part p).submit l.batch (s.region r).places (.empty (s.regionIndex p r) r) = some y)
include hr round

theorem placeEmpty_begun (st : Status) : (s.begun r).placeEmpty r p l st =
    let t := (s.setPart p y).setRegion r ((s.issuing r).withPlaces ((s.issuing r).places + 1))
    if st = .ok then t.passOver r else t.failIssue r st := by
  rw [placeEmpty_eq (s := s.begun r) (y := y) (by rw [region_begun hr, issuing_places]; exact round), region_begun hr]
  exact congrArg (fun t : State => if st = .ok then t.passOver r else t.failIssue r st) (setRegion_begun (s.setPart p y) r _)

theorem placeEmpty_skips (skips : (s.region r).skip = true) : ∃ order, (s.begun r).placeEmpty r p l .ok =
    (s.setPart p y).setRegion r ((s.issuing r).placedEmpty (s.region r).fail order) := by
  have same := issuing_sameIssue s r
  refine ⟨(s.issuing r).failOrder, ?_⟩
  have stays : (s.issuing r).placedEmpty (s.region r).fail (s.issuing r).failOrder =
      ((s.issuing r).withPlaces ((s.issuing r).places + 1)).advance := by
    rw [Region.placedEmpty, ← same.fail, ← skips, ← same.skip]
    rfl
  rw [placeEmpty_begun hr round, stays, if_pos rfl, State.passOver, setRegion_setRegion,
    region_setRegion (s.setPart p y) r r _ hr, if_pos rfl]

theorem placeEmpty_fails : ∃ order, (s.begun r).placeEmpty r p l .range =
    (s.setPart p y).setRegion r ((s.issuing r).placedEmpty ((s.region r).fail.worst .range) order) := by
  have same := issuing_sameIssue s r
  obtain ⟨order, failed⟩ := failIssue_eq (s := (s.setPart p y).setRegion r
    ((s.issuing r).withPlaces ((s.issuing r).places + 1))) (r := r) (by rw [setRegion_regions_length]; exact hr) .range
  refine ⟨order, ?_⟩
  rw [region_setRegion (s.setPart p y) r r _ hr, if_pos rfl, setRegion_setRegion] at failed
  rw [placeEmpty_begun hr round, if_neg nofun, failed, ← same.fail]
  rfl

end

section
variable {s : State} {r p : Nat} {l : LaunchRun} {f : RouteF} (issues : s.mayIssue r (.route .place f) p l)
include issues

theorem exec_place_rows {g : PlaceRegs} {o out : Opnd} (runs : (s.region r).skip = false)
    (fits : (s.region r).placeFits (s.regCarve r) f g o out) (idle : (s.region r).dmaBusy = false)
    (unheld : (s.region r).heldBack (bySpan [.dma] (((s.region r).routeArgs f).spans true)) = false) :
    exec (.place r f) s = .next ((s.begun r).placeRows r p l f ((s.region r).routeArgs f) g o) := by
  obtain ⟨regs, choice, out_, size, count, bound, inside⟩ := fits
  have fits : ¬ (out.d.dim 0 ≠ g.experts + 3 ∨ 65535 < o.d.count ∨ (!((s.region r).slot g.slot).bound) = true ∨
      (!((s.region r).routeArgs f).fits (s.regCarve r)) = true) := by simp [size, count, bound, inside]
  show execPlace r f s = _
  rw [execPlace, runInstr_eq issues, ← State.begun]
  simp only [region_begun (atInstr_lt issues.1), issuing_routeArgs, issuing_placeRegs, issuing_skip, issuing_slot, issuing_dmaBusy,
    issuing_heldBack, regCarve_begun, runs, regs, choice, out_, idle, unheld]
  rw [if_neg Bool.false_ne_true, if_neg fits]
  rfl

theorem exec_place_empty (misses : (s.region r).skip = true ∨ ∀ g o out, ¬ (s.region r).placeFits (s.regCarve r) f g o out) :
    exec (.place r f) s = .next ((s.begun r).placeEmpty r p l (if (s.region r).skip then .ok else .range)) := by
  show execPlace r f s = _
  rw [execPlace, runInstr_eq issues, ← State.begun]
  simp only [region_begun (atInstr_lt issues.1), issuing_routeArgs, issuing_placeRegs, issuing_skip, issuing_slot, issuing_dmaBusy,
    issuing_heldBack, regCarve_begun]
  by_cases skips : (s.region r).skip = true
  · rw [if_pos skips, if_pos skips]
  · rw [if_neg skips, if_neg skips]
    have misses := misses.resolve_left skips
    split
    case h_2 => rfl
    case h_1 g o out regs choice out_ =>
      refine congrArg Host.Outcome.next (if_pos (Classical.byContradiction fun fits => ?_))
      simp only [not_or, Decidable.not_not, ne_eq, Bool.not_eq_true, Bool.not_eq_false', Nat.not_lt] at fits
      obtain ⟨size, count, bound, inside⟩ := fits
      exact misses g o out ⟨regs, choice, out_, size, count, bound, inside⟩

end

/-- Settles O18: with rows or without, a PLACE submits to its round, and leaves its region as `placed` or `placedEmpty`. -/
theorem placeSubmitsToItsRound : Obligations.PlaceSubmitsToItsRound := by
  unfold Obligations.PlaceSubmitsToItsRound
  intro r p l f s x c a fitsRows issues
  have hr := atInstr_lt issues.1
  have hp := regRun_part_lt issues.2.1
  have region (y : Part) (z : Region) : ((s.setPart p y).setRegion r z).region r = z :=
    (region_setRegion (s.setPart p y) r r z hr).trans (if_pos rfl)
  refine ⟨fun g o out y runs fits idle unheld round => ?rows, fun y misses round => ?empty⟩
  case rows =>
    refine ⟨_, (exec_place_rows issues runs fits idle unheld).trans (congrArg _ (placeRows_begun hr f a g o round)), ?_⟩
    rw [region]
    exact ⟨part_setPart s p y hp, placed_places .., placed_issuedNow s r (atInstr_stands issues.1) .., placed_sameSram s r _ _ _,
      placed_count s r _ _, fun k hk => part_setPart_ne s p y hk⟩
  case empty =>
    obtain ⟨order, submitted⟩ : ∃ order, (s.begun r).placeEmpty r p l (if x.skip then .ok else .range) =
        (s.setPart p y).setRegion r ((s.issuing r).placedEmpty (if x.skip then x.fail else x.fail.worst .range) order) := by
      cases skips : x.skip
      · exact placeEmpty_fails hr round
      · exact placeEmpty_skips hr round skips
    refine ⟨_, (exec_place_empty issues misses).trans (congrArg _ submitted), ?_⟩
    rw [region]
    exact ⟨part_setPart s p y hp, placedEmpty_leaves ..⟩

end Sys2Proof.Machine
end

section
/-! SUPPORT. What an arriving message meets (R444, R445, Table 15-12), one lemma for each outcome of its checks; and what is
left of the state when it is done with. -/
namespace Sys2Proof.Machine

/-! A message done with here (R429, R439). -/

theorem foldl_idleFrame_eq {α : Type} (port : Nat) (l : List α) (s : State) : ∃ ls o,
    l.foldl (fun (s : State) _ => s.idleFrame port 1) s = { s with eft := { s.eft with links := ls }, out := o } := by
  induction l generalizing s with
  | nil => exact ⟨s.eft.links, s.out, rfl⟩
  | cons a l ih =>
    obtain ⟨ls, o, e⟩ := ih (s.idleFrame port 1)
    exact ⟨ls, o, e⟩

theorem freeRx_eq (s : State) (port : Nat) (share : Option Nat) (n : Nat) : ∃ ls o,
    s.freeRx port share n = { s with eft := { s.eft with links := ls }, out := o } := by
  cases share with
  | none => exact ⟨s.eft.links, s.out, rfl⟩
  | some k =>
    dsimp only [State.freeRx]
    split
    · obtain ⟨ls, o, e⟩ := foldl_idleFrame_eq port _ (s.setLink port ((s.link port).free k n))
      exact ⟨ls, o, e⟩
    · exact ⟨_, s.out, rfl⟩

/-- A message that is done with changes its link, and the credits that this returns leave in frames. -/
theorem rxDone_eq (s : State) (port : Nat) (x : RxMsg) : ∃ ls o,
    s.rxDone port x = { s with eft := { s.eft with links := ls }, out := o } := by
  obtain ⟨ls, o, e⟩ := freeRx_eq (s.rxTake port x) port x.share x.msg.slots
  exact ⟨ls, o, e⟩

/-! A message dropped. -/

/-- The event of the checks that write one: too many hops, and a failed authentication. -/
def State.noteDrop (s : State) (port c : Nat) : State := if c = 1 ∨ c = 5 then s.linkEvent port 0x52 c 0 else s

theorem noteDrop_eq (s : State) (port c : Nat) : s.noteDrop port c = { s with obs := (s.noteDrop port c).obs } := by
  unfold State.noteDrop
  split
  · obtain ⟨r, e⟩ : ∃ r, s.linkEvent port 0x52 c 0 = { s with obs := { s.obs with rings := r } } := event_eq ..
    rw [e]
  · rfl

theorem noteDrop_of_ne (s : State) (port : Nat) {c : Nat} (hops : c ≠ 1) (authentic : c ≠ 5) : s.noteDrop port c = s :=
  if_neg (not_or.mpr ⟨hops, authentic⟩)

/-! The outcomes. -/

section
variable {s : State} {port typ : Nat} {m m2 : LinkMsg} {x : RxMsg} {r : RoutingRec}
  {f : LinkMsg → RoutingRec → State → Bool × State}

section
variable (typed : m.typ = typ) (inPort : port < 18) (turn : s.rxTurn port m = some x)
include typed inPort turn

theorem onArrival_onward {p : Nat} (onward : s.arrival port m = .onward p m2) :
    s.onArrival port m typ f = .next ((s.rxTake port x).transmit p ⟨m2, x.share.map (fun k => (port, k))⟩) := by
  simp [State.onArrival, typed, Nat.not_le.mpr inPort, turn, onward]

theorem onArrival_drop_silent {c : Nat} (dropped : s.arrival port m = .drop c none) :
    s.onArrival port m typ f = .next ((s.noteDrop port c).rxDone port x) := by
  simp [State.onArrival, typed, Nat.not_le.mpr inPort, turn, dropped, State.noteDrop]

theorem onArrival_drop_answered {c : Nat} {st : Status} (dropped : s.arrival port m = .drop c (some st)) :
    s.onArrival port m typ f = .next (((s.noteDrop port c).rxDone port x).respondBack port m st) := by
  simp [State.onArrival, typed, Nat.not_le.mpr inPort, turn, dropped, State.noteDrop]

theorem onArrival_reset_refused (here : s.arrival port m = .here m2 r) (reset : s.inReset = true) (request : m2.cls = 0) :
    s.onArrival port m typ f = .next ((s.rxDone port x).respond m2 .remote []) := by
  simp [State.onArrival, typed, Nat.not_le.mpr inPort, turn, here, reset, request]

omit inPort in
theorem onArrival_reset_waits (here : s.arrival port m = .here m2 r) (reset : s.inReset = true) (replication : m2.cls = 3) :
    s.onArrival port m typ f = .next s := by
  simp [State.onArrival, typed, turn, here, reset, replication]

end

section
variable {t : State} (typed : m.typ = typ) (delivered : deliveredAs s port m x m2 r)
include typed delivered

theorem onArrival_done (served : f m2 r s = (true, t)) : s.onArrival port m typ f = .next (t.rxDone port x) := by
  obtain ⟨inPort, turn, here, running⟩ := delivered
  simp [State.onArrival, typed, Nat.not_le.mpr inPort, turn, here, running, served]

theorem onArrival_waits (served : f m2 r s = (false, t)) : s.onArrival port m typ f = .next t := by
  obtain ⟨inPort, turn, here, running⟩ := delivered
  simp [State.onArrival, typed, Nat.not_le.mpr inPort, turn, here, running, served]

end

end

/-- Every routed message is executed as an arrival of its type. -/
theorem exec_routed {e : (Nat → LinkMsg → Instr) × Nat} (routed : e ∈ routedMsgs) (port : Nat) (m : LinkMsg) (s : State) :
    ∃ f, exec (e.1 port m) s = s.onArrival port m e.2 f := by
  simp only [routedMsgs, List.mem_cons, List.not_mem_nil, or_false] at routed
  rcases routed with rfl | rfl | rfl | rfl | rfl | rfl | rfl | rfl | rfl | rfl | rfl | rfl
  all_goals
    dsimp only [exec, execWr, execRd, execWrack, execRddata, execArrive, execRelease, execReplOpen, execReplPage, execReplFork,
      execReplEvict, execReplRelease, execReplAck]
    exact ⟨_, rfl⟩

end Sys2Proof.Machine
end

section
/-! SUPPORT. A WR or RD served at its target (R437), one lemma for each way out of it: refused, waiting, or done. -/
namespace Sys2Proof.Machine

/-! Memory woken for an access (R498), and an error logged for a remote one. -/

theorem wakeMem_eq (s : State) : ∃ w, s.wakeMem = { s with mem := { s.mem with wokenUntil := w } } := by
  unfold State.wakeMem
  split
  · exact ⟨_, rfl⟩
  · exact ⟨s.mem.wokenUntil, rfl⟩

/-- From s to t neither device memory nor host memory has changed, nor has a region, nor what belongs to the links. -/
def SameMemory (s t : State) : Prop :=
  t.mem.loc = s.mem.loc ∧ t.mem.host = s.mem.host ∧ t.regions = s.regions ∧ t.eft = s.eft

theorem SameMemory.trans {s t u : State} (h : SameMemory s t) (k : SameMemory t u) : SameMemory s u := by
  obtain ⟨loc, host, regions, eft⟩ := k
  obtain ⟨loc', host', regions', eft'⟩ := h
  exact ⟨loc.trans loc', host.trans host', regions.trans regions', eft.trans eft'⟩

theorem wakeMem_sameMemory (s : State) : SameMemory s s.wakeMem := by
  obtain ⟨w, e⟩ := wakeMem_eq s
  rw [e]
  exact ⟨rfl, rfl, rfl, rfl⟩

theorem logRemote_sameMemory (s : State) (r : RoutingRec) (a : Nat) : SameMemory s (s.logRemote r a) := by
  obtain ⟨g, l, k, o, h, e⟩ := logError_eq s.draw.2 a (if a < 0x9000000000 then 1 else 2) (s.draw.1.toNat % 7) (some r.part) 0 0 0
  have logged : s.logRemote r a = _ := e
  rw [logged]
  exact ⟨rfl, rfl, rfl, rfl⟩

theorem snoopLines_sameMemory (s : State) (ls : List Nat) : SameMemory s (s.snoopLines ls) := by
  induction ls generalizing s with
  | nil => exact ⟨rfl, rfl, rfl, rfl⟩
  | cons l ls ih =>
    refine SameMemory.trans ?_ (ih _)
    dsimp only
    split <;> exact ⟨rfl, rfl, rfl, rfl⟩

theorem wakeMem_writeLocal (s : State) (a : Nat) (bs : List Byte) : ∃ w, s.wakeMem.writeLocal a bs = { s with mem := w } ∧
    (mapRow a ≠ .host → w.loc = s.mem.loc.store a bs ∧ w.host = s.mem.host) ∧
    (mapRow a = .host → w.host = s.mem.host.store (a % 2 ^ 47) bs ∧ w.loc = s.mem.loc) := by
  obtain ⟨w, e⟩ := wakeMem_eq s
  rw [e, State.writeLocal]
  split
  · rename_i host
    exact ⟨_, rfl, fun device => absurd host device, fun _ => ⟨rfl, rfl⟩⟩
  · rename_i device
    exact ⟨_, rfl, fun _ => ⟨rfl, rfl⟩, fun host => absurd host device⟩

/-! Stores of a transfer. -/

/-- Stores outside the host's memory are made in device memory, in order. -/
theorem foldl_writeLocal_device (ws : List (Nat × List Byte)) (s : State) (device : ∀ w ∈ ws, mapRow w.1 ≠ .host) :
    let t := ws.foldl (fun (s : State) w => s.writeLocal w.1 w.2) s
    t.mem.loc = ws.foldl (fun n w => n.store w.1 w.2) s.mem.loc ∧ t.mem.host = s.mem.host ∧ t.regions = s.regions ∧ t.eft = s.eft := by
  induction ws generalizing s with
  | nil => exact ⟨rfl, rfl, rfl, rfl⟩
  | cons w ws ih =>
    obtain ⟨first, rest⟩ := List.forall_mem_cons.mp device
    obtain ⟨loc, host, regions, eft⟩ := ih (s.writeLocal w.1 w.2) rest
    rw [State.writeLocal, if_neg first] at loc host regions eft
    rw [List.foldl_cons, State.writeLocal, if_neg first]
    exact ⟨loc, host, regions, eft⟩

/-! The path of a compressed transfer (R267): it reads the bindings of the state and changes nothing. -/

section
variable {s t : State} (p : Nat) (binds : t.wgt = s.wgt)
include binds

theorem rxPath_stream_eq (h : StreamHdr) (x : XcRun) :
    (rxPath p).stream h x t = (((rxPath p).stream h x s).1, t) := by
  have tags : t.tagCheck (rxPath p).part h = s.tagCheck (rxPath p).part h := by unfold State.tagCheck; rw [binds]
  have fetch (u : State) (i : Int) (n : Nat) : (rxPath p).fetch i n u = (.fail .expand, u) := rfl
  unfold XcPath.stream
  rw [tags]
  cases s.tagCheck (rxPath p).part h with
  | some st => rfl
  | none =>
    cases (rxPath p).mode x.pos h.len x.out 1 with
    | error st => rfl
    | ok mode =>
      dsimp only
      split
      · rfl
      · cases x.blocks.find? (fun b => (b.1 : Int) == (x.pos : Int) + h.cboff) with
        | none => simp only [fetch]
        | some b =>
          dsimp only
          split
          · rfl
          · split <;> rfl

theorem rxPath_one_eq (x : XcRun) : (rxPath p).one x t = ((rxPath p).one x s).map (fun z => (z.1, t)) := by
  unfold XcPath.one
  split
  · rfl
  · split
    · dsimp only
      split
      · rfl
      · split <;> rfl
    · split
      · rfl
      · split
        · rfl
        · rw [rxPath_stream_eq p binds]; rfl

theorem rxPath_all_eq (n : Nat) (x : XcRun) : (rxPath p).all n x t = (((rxPath p).all n x s).1, t) := by
  induction n generalizing x s with
  | zero => rfl
  | succ n ih =>
    unfold XcPath.all
    rw [rxPath_one_eq p binds]
    split
    · rfl
    · cases one : (rxPath p).one x s with
      | none => rfl
      | some z =>
        have same : z.2 = s := by
          rw [rxPath_one_eq p (rfl : s.wgt = s.wgt)] at one
          obtain ⟨y, -, rfl⟩ := Option.map_eq_some_iff.mp one
          rfl
        exact ih (by rw [same]; exact binds) _

end

/-! The data of an XC message (R267, R345, R361, R365). -/

section
variable {s t : State} {r : RoutingRec} {m : LinkMsg} {a : Nat}

/-- The structures of a transfer up to and with this message: its writes and its failure. -/
def State.xcRun (s : State) (r : RoutingRec) (m : LinkMsg) (a : Nat) : XcRun :=
  let x := s.xferOf m.src m.plot a m.data
  ((rxPath r.part).all ((x.buf ++ m.data).length / 64 + 1) ⟨x.buf ++ m.data, x.pos, x.out, x.blocks, [], none, false⟩ s).1

/-- The lines that the host may hold among those that the message writes. -/
def State.xcHeld (s : State) (r : RoutingRec) (m : LinkMsg) (a : Nat) : List Nat :=
  (s.xcRun r m a).writes.flatMap (fun w => s.heldLocal w.1 w.2.length)

/-- A write of the message lies in no ingress span, or in memory that is being scrubbed. -/
def State.xcBarred (s : State) (r : RoutingRec) (m : LinkMsg) (a : Nat) : Bool :=
  (s.xcRun r m a).writes.any (fun w => !(s.ingress r.plot w.1 w.2.length) || s.scrubHit w.1 w.2.length)

/-- A unit with an uncorrectable error that a write of the message covers in part. -/
def State.xcBad (s : State) (r : RoutingRec) (m : LinkMsg) (a : Nat) : Option Nat :=
  (s.xcRun r m a).writes.findSome? (fun w => s.badPartial w.1 w.2.length)

theorem xcBarred_iff : s.xcBarred r m a = true ↔
    ∃ w ∈ (s.xcRun r m a).writes, s.ingress r.plot w.1 w.2.length = false ∨ s.scrubHit w.1 w.2.length = true := by
  simp [State.xcBarred]

theorem xcBad_eq_none_iff : s.xcBad r m a = none ↔ ∀ w ∈ (s.xcRun r m a).writes, s.badPartial w.1 w.2.length = none :=
  List.findSome?_eq_none_iff

theorem xcBad_isSome_iff : (s.xcBad r m a).isSome = true ↔
    ∃ w ∈ (s.xcRun r m a).writes, (s.badPartial w.1 w.2.length).isSome = true :=
  List.findSome?_isSome_iff

theorem xcRun_congr (binds : t.wgt = s.wgt) : t.xcRun r m a = s.xcRun r m a := by
  have transfer : t.xferOf m.src m.plot a m.data = s.xferOf m.src m.plot a m.data := by unfold State.xferOf; rw [binds]
  unfold State.xcRun
  dsimp only
  rw [transfer, rxPath_all_eq r.part binds]

/-- Waking memory changes nothing that the message's checks read. -/
theorem wakeMem_xcChecks (s : State) (r : RoutingRec) (m : LinkMsg) (a : Nat) :
    s.wakeMem.xcRun r m a = s.xcRun r m a ∧ s.wakeMem.xcHeld r m a = s.xcHeld r m a ∧
      s.wakeMem.xcBarred r m a = s.xcBarred r m a ∧ s.wakeMem.xcBad r m a = s.xcBad r m a := by
  obtain ⟨w, e⟩ := wakeMem_eq s
  have run : s.wakeMem.xcRun r m a = s.xcRun r m a := xcRun_congr (by rw [e])
  refine ⟨run, ?_, ?_, ?_⟩
  · rw [State.xcHeld, run, e]; rfl
  · rw [State.xcBarred, run, e]; rfl
  · rw [State.xcBad, run, e]; rfl

theorem serveXc_waits (held : s.xcHeld r m a ≠ []) : s.serveXc r m a = (none, s.snoopLines (s.xcHeld r m a)) := by
  unfold State.serveXc
  dsimp only
  rw [rxPath_all_eq r.part rfl]
  exact if_pos held

theorem serveXc_denied (clear : s.xcHeld r m a = []) (barred : s.xcBarred r m a = true) :
    ∃ w, s.serveXc r m a = (some .denied, { s with wgt := w }) := by
  unfold State.serveXc
  dsimp only
  rw [rxPath_all_eq r.part rfl]
  exact ⟨_, (if_neg (Classical.not_not.mpr clear)).trans (if_pos barred)⟩

theorem serveXc_data {b : Nat} (clear : s.xcHeld r m a = []) (free : s.xcBarred r m a = false) (bad : s.xcBad r m a = some b) :
    ∃ w, s.serveXc r m a = (some .data, { s.logRemote r b with wgt := w }) := by
  unfold State.serveXc
  dsimp only
  rw [rxPath_all_eq r.part rfl]
  unfold State.xcHeld State.xcBarred State.xcBad State.xcRun at *
  dsimp only at *
  simp only [clear, free, bad]
  exact ⟨_, rfl⟩

theorem serveXc_stores (clear : s.xcHeld r m a = []) (free : s.xcBarred r m a = false) (good : s.xcBad r m a = none) :
    ∃ w, s.serveXc r m a = (some ((s.xcRun r m a).fail.getD .ok),
      { (s.xcRun r m a).writes.foldl (fun (s : State) w => s.writeLocal w.1 w.2) s with wgt := w }) := by
  unfold State.serveXc
  dsimp only
  rw [rxPath_all_eq r.part rfl]
  unfold State.xcHeld State.xcBarred State.xcBad State.xcRun at *
  dsimp only at *
  simp only [clear, free, good]
  cases (XcPath.all _ _ _ _).1.fail with
  | none => exact ⟨_, rfl⟩
  | some st => exact ⟨_, rfl⟩

/-! The same in memory woken for the message: its checks are those of the state before. -/

theorem wakeMem_serveXc_waits (held : s.xcHeld r m a ≠ []) : ∃ u, s.wakeMem.serveXc r m a = (none, u) ∧ SameMemory s u := by
  obtain ⟨-, heldEq, -, -⟩ := wakeMem_xcChecks s r m a
  exact ⟨_, serveXc_waits (by rwa [heldEq]), (wakeMem_sameMemory s).trans (snoopLines_sameMemory ..)⟩

section
variable (clear : s.xcHeld r m a = [])
include clear

theorem wakeMem_serveXc_denied (barred : s.xcBarred r m a = true) :
    ∃ u, s.wakeMem.serveXc r m a = (some .denied, u) ∧ SameMemory s u := by
  obtain ⟨-, heldEq, barredEq, -⟩ := wakeMem_xcChecks s r m a
  obtain ⟨w, served⟩ := serveXc_denied (heldEq.trans clear) (barredEq.trans barred)
  exact ⟨_, served, wakeMem_sameMemory s⟩

section
variable (free : s.xcBarred r m a = false)
include free

theorem wakeMem_serveXc_data (bad : (s.xcBad r m a).isSome = true) :
    ∃ u, s.wakeMem.serveXc r m a = (some .data, u) ∧ SameMemory s u := by
  obtain ⟨-, heldEq, barredEq, badEq⟩ := wakeMem_xcChecks s r m a
  obtain ⟨b, at_⟩ := Option.isSome_iff_exists.mp bad
  obtain ⟨w, served⟩ := serveXc_data (heldEq.trans clear) (barredEq.trans free) (badEq.trans at_)
  exact ⟨_, served, (wakeMem_sameMemory s).trans (logRemote_sameMemory ..)⟩

theorem wakeMem_serveXc_stores (good : s.xcBad r m a = none) (device : ∀ w ∈ (s.xcRun r m a).writes, mapRow w.1 ≠ .host) :
    ∃ u, s.wakeMem.serveXc r m a = (some ((s.xcRun r m a).fail.getD .ok), u) ∧
      u.mem.loc = (s.xcRun r m a).writes.foldl (fun n w => n.store w.1 w.2) s.mem.loc ∧ u.mem.host = s.mem.host ∧
      u.regions = s.regions ∧ u.eft = s.eft := by
  obtain ⟨runEq, heldEq, barredEq, badEq⟩ := wakeMem_xcChecks s r m a
  obtain ⟨w, served⟩ := serveXc_stores (heldEq.trans clear) (barredEq.trans free) (badEq.trans good)
  rw [runEq] at served
  obtain ⟨loc, host, regions, eft⟩ := foldl_writeLocal_device _ s.wakeMem device
  obtain ⟨loc', host', regions', eft'⟩ := wakeMem_sameMemory s
  rw [loc'] at loc
  exact ⟨_, served, loc, host.trans host', regions.trans regions', eft.trans eft'⟩

end

end

end

/-! A WR. -/

/-- The record that a WR to a receive window carries. -/
def LinkMsg.windowRecord (m : LinkMsg) : TransitRec :=
  ⟨winRegion (m.addr % 2 ^ 48), winSlot (m.addr % 2 ^ 48), m.data, .remote m.src m.tag m.plot⟩

section
variable {s : State} {r : RoutingRec} {m : LinkMsg}

theorem serveWr_refused {st : Status} (refused : s.serveFail r m (m.addr % 2 ^ 48) m.data.length true = some st) :
    s.serveWr m r = (true, s.respond m st []) := by
  simp [-Nat.reducePow, State.serveWr, refused]

section
variable (passes : s.serveFail r m (m.addr % 2 ^ 48) m.data.length true = none)
include passes

section
variable (window : mapRow (m.addr % 2 ^ 48) = .recvWin)
include window

theorem serveWr_window_compressed (xc : m.xc = true) : s.serveWr m r = (true, s.respond m .expand []) := by
  simp [-Nat.reducePow, State.serveWr, passes, window, xc]

theorem serveWr_window_waits (xc : m.xc = false) (full : s.recordWaits r.part m.windowRecord = true) :
    s.serveWr m r = (false, s) := by
  rw [LinkMsg.windowRecord] at full
  simp [-Nat.reducePow, State.serveWr, passes, window, xc, full]

theorem serveWr_window_record (xc : m.xc = false) (room : s.recordWaits r.part m.windowRecord = false) :
    s.serveWr m r = (true, { s with transit := s.transit ++ [m.windowRecord] }) := by
  rw [LinkMsg.windowRecord] at room ⊢
  simp [-Nat.reducePow, State.serveWr, passes, window, xc, room]

end

section
variable (memory : mapRow (m.addr % 2 ^ 48) ≠ .recvWin)
include memory

theorem serveWr_held (held : s.heldLocal (m.addr % 2 ^ 48) m.data.length ≠ []) :
    s.serveWr m r = (false, s.snoopLines (s.heldLocal (m.addr % 2 ^ 48) m.data.length)) := by
  simp [-Nat.reducePow, State.serveWr, passes, memory, held]

section
variable (clear : s.heldLocal (m.addr % 2 ^ 48) m.data.length = [])
include clear

theorem serveWr_bad (xc : m.xc = false) {b : Nat} (bad : s.badPartial (m.addr % 2 ^ 48) m.data.length = some b) :
    s.serveWr m r = (true, (s.wakeMem.logRemote r b).respond m .data []) := by
  simp [-Nat.reducePow, State.serveWr, passes, memory, clear, xc, bad]

theorem serveWr_stores (xc : m.xc = false) (good : s.badPartial (m.addr % 2 ^ 48) m.data.length = none) :
    s.serveWr m r = (true, (s.wakeMem.writeLocal (m.addr % 2 ^ 48) m.data).respond m .ok []) := by
  simp [-Nat.reducePow, State.serveWr, passes, memory, clear, xc, good]

theorem serveWr_xc_waits (xc : m.xc = true) {u : State} (waits : s.wakeMem.serveXc r m (m.addr % 2 ^ 48) = (none, u)) :
    s.serveWr m r = (false, u) := by
  simp [-Nat.reducePow, State.serveWr, passes, memory, clear, xc, waits]

theorem serveWr_xc_ends (xc : m.xc = true) {u : State} {st : Status}
    (served : s.wakeMem.serveXc r m (m.addr % 2 ^ 48) = (some st, u)) : s.serveWr m r = (true, u.respond m st []) := by
  simp [-Nat.reducePow, State.serveWr, passes, memory, clear, xc, served]

end

end

end

/-! An RD. -/

theorem serveRd_length (range : m.aux % 2 ^ 14 = 0 ∨ 8192 < m.aux % 2 ^ 14) : s.serveRd m r = (true, s.respond m .range []) := by
  simp [-Nat.reducePow, State.serveRd, range]

section
variable (nonempty : 0 < m.aux % 2 ^ 14) (fits : m.aux % 2 ^ 14 ≤ 8192)
include nonempty fits

theorem serveRd_refused {st : Status} (refused : s.serveFail r m (m.addr % 2 ^ 48) (m.aux % 2 ^ 14) false = some st) :
    s.serveRd m r = (true, s.respond m st []) := by
  simp [-Nat.reducePow, State.serveRd, Nat.ne_of_gt nonempty, Nat.not_lt.mpr fits, refused]

section
variable (passes : s.serveFail r m (m.addr % 2 ^ 48) (m.aux % 2 ^ 14) false = none)
include passes

theorem serveRd_held (held : s.heldLocal (m.addr % 2 ^ 48) (m.aux % 2 ^ 14) ≠ []) :
    s.serveRd m r = (false, s.snoopLines (s.heldLocal (m.addr % 2 ^ 48) (m.aux % 2 ^ 14))) := by
  simp [-Nat.reducePow, State.serveRd, Nat.ne_of_gt nonempty, Nat.not_lt.mpr fits, passes, held]

section
variable (clear : s.heldLocal (m.addr % 2 ^ 48) (m.aux % 2 ^ 14) = [])
include clear

theorem serveRd_bad {b : Nat} (bad : s.badUnit (m.addr % 2 ^ 48) (m.aux % 2 ^ 14) = some b) :
    s.serveRd m r = (true, (s.wakeMem.logRemote r b).respond m .data []) := by
  simp [-Nat.reducePow, State.serveRd, Nat.ne_of_gt nonempty, Nat.not_lt.mpr fits, passes, clear, bad]

theorem serveRd_reads (good : s.badUnit (m.addr % 2 ^ 48) (m.aux % 2 ^ 14) = none) :
    s.serveRd m r = (true, s.wakeMem.respond m .ok (s.readLocal (m.addr % 2 ^ 48) (m.aux % 2 ^ 14))) := by
  simp [-Nat.reducePow, State.serveRd, Nat.ne_of_gt nonempty, Nat.not_lt.mpr fits, passes, clear, good]

end

end

end

end

end Sys2Proof.Machine
end

section
/-! SUPPORT. This module's own requests (R346): the response that settles one, and the timeout; and the settlement of O47. -/
namespace Sys2Proof.Machine

/-! Queues and regions in the state. -/

theorem queue_setQueue (s : State) (q k : Nat) (x : Queue) : (s.setQueue q x).queue k = if k = q then x else s.queue k :=
  Tab.get_set ..

theorem modRunning_some {s : State} {q : Nat} {y : Running} (runs : (s.queue q).running = some y) (f : Running → Running) :
    s.modRunning q f = s.setQueue q { s.queue q with running := some (f y) } := by
  simp [State.modRunning, runs]

/-! A request settled. -/

/-- The state whose request x waits no longer. -/
def State.withoutReq (s : State) (x : RemoteReq) : State := { s with eft := { s.eft with reqs := s.eft.reqs.erase x } }

section
variable {s : State} {x : RemoteReq}

theorem settleOne_read {pa k : Nat} (read : x.read = some (pa, k)) (st : Status) (data : List Byte) :
    s.settleOne x st data = { s with eft := { s.eft with
      reqs := s.eft.reqs.erase x, fetched := s.eft.fetched ++ [⟨x.owner, pa, st.code, data⟩] } } := by
  simp [State.settleOne, read]

section
variable (write : x.read = none) (st : Status) (data : List Byte)
include write

theorem settleOne_instr {g id : Nat} (owner : x.owner = .instr g id) : s.settleOne x st data =
    (s.withoutReq x).modIssued g id (fun i => { i with owed := i.owed - 1, fail := i.fail.worst st }) := by
  simp [State.settleOne, State.withoutReq, write, owner]

theorem settleOne_cmd {q : Nat} (owner : x.owner = .cmd q) : s.settleOne x st data = (s.withoutReq x).writeDone q st := by
  simp [State.settleOne, State.withoutReq, write, owner]

end

theorem tag_of_found {tag : Nat} (found : s.eft.reqs.find? (fun y => y.tag == tag) = some x) : x.tag = tag := by
  simpa using List.find?_some found

theorem settleReq_found {tag : Nat} (found : s.eft.reqs.find? (fun y => y.tag == tag) = some x) (st : Status) (data : List Byte) :
    s.settleReq tag st data = s.settleOne x st data := by
  simp [State.settleReq, found]

end

section
variable {s : State} {q : Nat} {y : Running} (runs : (s.queue q).running = some y) (st : Status)
include runs

/-- A command that still works notes the write. -/
theorem writeDone_works (works : y.ending = none) : s.writeDone q st = s.setQueue q { s.queue q with
    running := some { y with owed := y.owed - 1, status := y.status.worst st } } := by
  simp [State.writeDone, modRunning_some runs, queue_setQueue, works]

/-- A command that waited for this write alone completes. -/
theorem writeDone_completes {e : Nat} (ending : y.ending = some e) (last : y.owed = 1) : s.writeDone q st =
    (s.modRunning q (fun z => { z with owed := 0, status := z.status.worst st })).finish q e 0 := by
  simp [State.writeDone, modRunning_some runs, queue_setQueue, ending, last]

end

/-! A response. -/

section
variable {s : State} {m : LinkMsg} {r : RoutingRec}

theorem takeReply_unasked (unasked : s.answers m = false) : s.takeReply m r = (true, s) := by
  simp [State.takeReply, unasked]

theorem takeReply_settles {x : RemoteReq} (found : s.eft.reqs.find? (fun y => y.tag == m.tag) = some x) (asked : x.dst = m.src) :
    s.takeReply m r = (true, s.settleOne x (Status.ofCode m.status) m.data) := by
  have answers : s.answers m = true := List.any_eq_true.mpr ⟨x, List.mem_of_find?_eq_some found, by simp [tag_of_found found, asked]⟩
  simp [State.takeReply, answers, settleReq_found found]

end

/-! The timeout. -/

section
variable {s : State} {tag : Nat}

theorem remoteTimeout_early (early : ∀ y ∈ s.eft.reqs, y.tag = tag → s.now < y.sentAt + 100000) :
    exec (.remoteTimeout tag) s = .next s := by
  have none_due : s.eft.reqs.any (fun x => x.tag == tag && decide (x.sentAt + 100000 ≤ s.now)) = false := by
    simpa using early
  exact if_neg (by simp [none_due])

theorem remoteTimeout_due {x : RemoteReq} (found : s.eft.reqs.find? (fun y => y.tag == tag) = some x)
    (due : x.sentAt + 100000 ≤ s.now) : exec (.remoteTimeout tag) s = .next (s.settleOne x .remote []) := by
  have overdue : s.eft.reqs.any (fun x => x.tag == tag && decide (x.sentAt + 100000 ≤ s.now)) = true :=
    List.any_eq_true.mpr ⟨x, List.mem_of_find?_eq_some found, by simp [tag_of_found found, due]⟩
  rw [← settleReq_found found]
  exact if_pos overdue

end

/-- A response is executed as an arrival of its type that the waiting request takes. -/
theorem exec_reply {e : (Nat → LinkMsg → Instr) × Nat} (reply : e ∈ [(Instr.wrack, 3), (Instr.rddata, 4)]) {port : Nat}
    {m m2 : LinkMsg} {x : RxMsg} {r : RoutingRec} {s t : State} (typed : m.typ = e.2) (delivered : deliveredAs s port m x m2 r)
    (taken : s.takeReply m2 r = (true, t)) : exec (e.1 port m) s = .next (t.rxDone port x) := by
  simp only [List.mem_cons, List.not_mem_nil, or_false] at reply
  rcases reply with rfl | rfl
  all_goals exact onArrival_done typed delivered taken

/-- Settles O47: each message by the way that its delivery takes, and the timeout by what its request asked for. -/
theorem messagesAreServedAndAnswered : Obligations.MessagesAreServedAndAnswered := by
  unfold Obligations.MessagesAreServedAndAnswered
  refine ⟨?routed, ?wr, ?rd, ?reply, ?timeout⟩
  case routed =>
    intro e routed port m x s typed inPort turn
    obtain ⟨f, runs⟩ := exec_routed routed port m s
    rw [runs]
    refine ⟨fun p m2 onward => onArrival_onward typed inPort turn onward, fun c st dropped => ?_, fun m2 r here reset => ?_⟩
    · refine ⟨s.noteDrop port c, noteDrop_eq s port c, noteDrop_of_ne s port, ?_⟩
      cases st with
      | none => exact onArrival_drop_silent typed inPort turn dropped
      | some st => exact onArrival_drop_answered typed inPort turn dropped
    · exact ⟨onArrival_reset_refused typed inPort turn here reset, onArrival_reset_waits typed turn here reset⟩
  case wr =>
    intro port m x m2 r s typed delivered
    refine ⟨fun st refused => ⟨s, onArrival_done typed delivered (serveWr_refused refused), rfl⟩,
      fun passes window => ⟨fun xc => ⟨s, onArrival_done typed delivered (serveWr_window_compressed passes window xc), rfl⟩,
        fun xc full => onArrival_waits typed delivered (serveWr_window_waits passes window xc full),
        fun xc room => onArrival_done typed delivered (serveWr_window_record passes window xc room)⟩,
      fun passes memory => ⟨fun held => onArrival_waits typed delivered (serveWr_held passes memory held),
        fun clear xc => ⟨fun b bad => ?bad, fun good => ?stores⟩, fun clear xc => ?compressed⟩⟩
    case bad =>
      obtain ⟨loc, host, regions, eft⟩ := (wakeMem_sameMemory s).trans (logRemote_sameMemory s.wakeMem r b)
      exact ⟨_, onArrival_done typed delivered (serveWr_bad passes memory clear xc bad), loc, host, regions, eft⟩
    case stores =>
      obtain ⟨w, stored, device, host⟩ := wakeMem_writeLocal s (m2.addr % 2 ^ 48) m2.data
      refine ⟨_, onArrival_done typed delivered (serveWr_stores passes memory clear xc good), ?_⟩
      rw [stored]
      exact ⟨rfl, device, host⟩
    case compressed =>
      have waits {u : State} (h : s.wakeMem.serveXc r m2 (m2.addr % 2 ^ 48) = (none, u)) :=
        onArrival_waits typed delivered (serveWr_xc_waits passes memory clear xc h)
      have ends {u : State} {st : Status} (h : s.wakeMem.serveXc r m2 (m2.addr % 2 ^ 48) = (some st, u)) :=
        onArrival_done typed delivered (serveWr_xc_ends passes memory clear xc h)
      refine ⟨fun held => ?_, fun none_held barred => ?_, fun none_held free bad => ?_, fun none_held free good device => ?_⟩
      · obtain ⟨u, served, loc, -, regions, eft⟩ := wakeMem_serveXc_waits held
        exact ⟨u, waits served, eft, loc, regions⟩
      · obtain ⟨u, served, loc, -, regions, eft⟩ := wakeMem_serveXc_denied none_held (xcBarred_iff.mpr barred)
        exact ⟨u, ends served, loc, regions, eft⟩
      · obtain ⟨u, served, loc, -, regions, eft⟩ := wakeMem_serveXc_data none_held
          (Bool.eq_false_iff.mpr (mt xcBarred_iff.mp free)) (xcBad_isSome_iff.mpr bad)
        exact ⟨u, ends served, loc, regions, eft⟩
      · obtain ⟨u, served, kept⟩ := wakeMem_serveXc_stores none_held
          (Bool.eq_false_iff.mpr (mt xcBarred_iff.mp free)) (xcBad_eq_none_iff.mpr good) device
        exact ⟨u, ends served, kept⟩
  case rd =>
    intro port m x m2 r s typed delivered
    refine ⟨fun range => ⟨s, onArrival_done typed delivered (serveRd_length range), rfl⟩, fun nonempty fits =>
      ⟨fun st refused => ⟨s, onArrival_done typed delivered (serveRd_refused nonempty fits refused), rfl⟩,
        fun passes held => onArrival_waits typed delivered (serveRd_held nonempty fits passes held),
        fun passes clear => ⟨fun b bad => ?_, fun good => ?_⟩⟩⟩
    · obtain ⟨loc, -, regions, eft⟩ := (wakeMem_sameMemory s).trans (logRemote_sameMemory s.wakeMem r b)
      exact ⟨_, onArrival_done typed delivered (serveRd_bad nonempty fits passes clear bad), loc, regions, eft⟩
    · obtain ⟨w, woken⟩ := wakeMem_eq s
      refine ⟨_, onArrival_done typed delivered (serveRd_reads nonempty fits passes clear good), ?_⟩
      rw [woken]
      exact ⟨rfl, rfl, rfl⟩
  case reply =>
    intro e reply port m x m2 r s typed delivered
    refine ⟨fun unasked => exec_reply reply typed delivered (takeReply_unasked unasked), fun req found asked => ?_⟩
    have settles := exec_reply reply typed delivered (takeReply_settles found asked)
    obtain ⟨ls, o, left⟩ := rxDone_eq (s.settleOne req (Status.ofCode m2.status) m2.data) port x
    rw [left] at settles
    refine ⟨fun pa k read => ?_, fun q y write owner runs works => ?_, fun g id write owner exists_ => ?_⟩
    · rw [settleOne_read read] at settles
      exact ⟨_, settles, rfl, rfl, rfl, rfl, rfl⟩
    · rw [settleOne_cmd write _ _ owner, writeDone_works (s := s.withoutReq req) runs _ works] at settles
      refine ⟨_, settles, rfl, ?_, fun k other => ?_⟩
      · exact (queue_setQueue ..).trans (if_pos rfl)
      · exact (queue_setQueue ..).trans (if_neg other)
    · rw [settleOne_instr write _ _ owner] at settles
      exact ⟨_, settles, rfl, (region_setRegion _ _ _ _ exists_).trans (if_pos rfl)⟩
  case timeout =>
    intro tag s
    refine ⟨remoteTimeout_early, fun req pa k found due read => ?_, fun req g id found due write owner => ?_,
      fun req q y e found due write owner runs ending last => ?_⟩
    · rw [remoteTimeout_due found due, settleOne_read read]
    · rw [remoteTimeout_due found due, settleOne_instr write _ _ owner]
      rfl
    · rw [remoteTimeout_due found due, settleOne_cmd write _ _ owner,
        writeDone_completes (s := s.withoutReq req) runs _ ending last]
      rfl

end Sys2Proof.Machine
end

section
/-! SUPPORT. A command that may run; the entries of the generation table; and what the end of a command leaves of the weight
unit (chapter 10). -/
namespace Sys2Proof.Machine

/-! A command that may run. -/

theorem runCmd_runs {s : State} {q : Nat} {b : CmdBody} {x : Running} {ctx p : Nat} (h : s.mayRun q b x ctx p)
    (f : Running → Nat → Nat → State) : s.runCmd q b f = .next (f x ctx p) := by
  obtain ⟨runs, body, fresh, accepted, context, part⟩ := h
  simp [State.runCmd, State.enabledCmd, runs, body, fresh, accepted, context, part]

/-! Entries of the generation table. -/

theorem gen_setGen (s : State) (p e : Nat) (g : Gen) (p2 k : Nat) :
    (s.setGen p e g).gen p2 k = if 8 * p2 + k = 8 * p + e then g else s.gen p2 k := Tab.get_set ..

theorem gen_setGen_self (s : State) (p e : Nat) (g : Gen) : (s.setGen p e g).gen p e = g := by
  rw [gen_setGen, if_pos rfl]

theorem gen_setGen_ne (s : State) {p e p2 k : Nat} (g : Gen) (he : e < 8) (hk : k < 8) (other : p2 ≠ p ∨ k ≠ e) :
    (s.setGen p e g).gen p2 k = s.gen p2 k := by
  rw [gen_setGen, if_neg (by omega)]

theorem gen_freeGen (s : State) (p e p2 k : Nat) : (s.freeGen p e).gen p2 k = (s.setGen p e .free).gen p2 k := rfl

theorem entryOf_some {s : State} {p gen e : Nat} (found : s.entryOf p gen = some e) : e < 8 ∧ (s.gen p e).st ≠ .free := by
  have live := List.find?_some found
  simp only [Bool.and_eq_true, bne_iff_ne] at live
  exact ⟨List.mem_range.mp (List.mem_of_find?_eq_some found), live.1⟩

/-! The end of a command leaves the weight unit as it is, but for the codebooks held for it (R276). -/

/-- From s to t nothing of the weight unit has changed but the codebook blocks it holds. -/
def CachesOnly (s t : State) : Prop := ∃ c, t.wgt = { s.wgt with caches := c }

section
variable (s : State) (q : Nat)

@[simp] theorem stage_wgt : (s.stage q).wgt = s.wgt := by
  unfold State.stage
  dsimp only
  split
  · split
    · rfl
    · split
      · rfl
      · obtain ⟨h, r, e⟩ := startReset_eq s 1 (s.malformed q ‹_›) q (recSeq ‹_›) 0 0
        rw [e]
  · rfl

@[simp] theorem noteReady_wgt : (s.noteReady q).wgt = s.wgt := by
  unfold State.noteReady
  dsimp only
  split
  · split <;> rfl
  · rfl

@[simp] theorem noteIdle_wgt : (s.noteIdle q).wgt = s.wgt := by
  unfold State.noteIdle
  dsimp only
  split <;> rfl

@[simp] theorem settle_wgt : (s.settle q).wgt = s.wgt := by simp [State.settle]

@[simp] theorem stateVector_wgt : (s.stateVector q).wgt = s.wgt := by
  obtain ⟨o, h, e⟩ := stateVector_eq s q
  rw [e]

@[simp] theorem snapshot_wgt (x : Running) (cloche : Bool) (tend : Nat) : (s.snapshot q x cloche tend).wgt = s.wgt := by
  unfold State.snapshot
  split <;> rfl

@[simp] theorem modRunning_wgt (f : Running → Running) : (s.modRunning q f).wgt = s.wgt := by
  unfold State.modRunning
  split <;> rfl

theorem finish_cachesOnly (tend estimate : Nat) : CachesOnly s (s.finish q tend estimate) := by
  unfold State.finish
  split
  case h_1 => exact ⟨s.wgt.caches, rfl⟩
  case h_2 x runs =>
    refine ⟨s.wgt.caches.filter (fun c => c.queue != q), ?_⟩
    simp [State.freeSlot, apply_ite State.wgt]

theorem completeOk_cachesOnly (st : Status) : CachesOnly s (s.completeOk q st) := by
  unfold State.completeOk State.complete
  generalize marked : s.modRunning q _ = u
  have kept : u.wgt = s.wgt := by rw [← marked, modRunning_wgt]
  unfold State.endCmdAt CachesOnly
  rw [← kept]
  split
  · exact ⟨u.wgt.caches, rfl⟩
  · split
    · exact finish_cachesOnly ..
    · exact ⟨u.wgt.caches, rfl⟩

end

theorem CachesOnly.gen {s t : State} (h : CachesOnly s t) (p k : Nat) : t.gen p k = s.gen p k := by
  obtain ⟨c, e⟩ := h
  rw [State.gen, e, State.gen]

theorem CachesOnly.buildOf {s t : State} (h : CachesOnly s t) (q : Nat) : t.buildOf q = s.buildOf q := by
  obtain ⟨c, e⟩ := h
  rw [State.buildOf, e, State.buildOf]

end Sys2Proof.Machine
end

section
/-! SUPPORT. WGT_BUILD, WGT_BUILD_DONE, WGT_SWITCH and WGT_RETIRE (R312 to R314), one lemma for each outcome; and the
settlement of O30. -/
namespace Sys2Proof.Machine

/-! WGT_BUILD (R312). -/

section
variable {s u v w : State} {q ctx p : Nat} {f : WgtBuildF} {x : Running} {bs : List Byte} {b : Build}

theorem exec_wgtBuild (q : Nat) (f : WgtBuildF) (s : State) : exec (.wgtBuild q f) s = execWgtBuild q f s := rfl

/-- The entry that a build takes was FREE and is BUILDING with the number from the parameter block. -/
theorem takeEntry_takes (took : s.takeEntry q ctx p f bs = .ok (b, v)) :
    (v.gen p b.entry).st = .building ∧ (v.gen p b.entry).gen = leAt bs 0 2 ∧ (s.gen p b.entry).st = .free ∧ b ∈ v.wgt.builds := by
  unfold State.takeEntry at took
  split at took
  case h_1 => contradiction
  case h_2 e found =>
    have was_free : (s.gen p e).st = .free := by simpa using List.find?_some found
    split at took
    case isTrue => contradiction
    case isFalse =>
      obtain ⟨rfl, rfl⟩ := took
      have taken := gen_setGen_self s p e { Gen.free with gen := leAt bs 0 2, st := .building, root := 16 }
      exact ⟨congrArg Gen.st taken, congrArg Gen.gen taken, was_free, List.mem_append_right _ (List.mem_singleton_self _)⟩

section
variable (may : s.mayRun q (.wgtBuild f) x ctx p) (read : s.cmdRead q ctx p .read f.pblk 64 = (.done bs, u))
include may read

theorem wgtBuild_blockFails (bad : pblkCheck f bs ≠ .ok) :
    exec (.wgtBuild q f) s = .next ((u.dropFetched (.cmd q)).completeOk q (pblkCheck f bs)) := by
  rw [exec_wgtBuild, execWgtBuild, runCmd_runs may]
  simp [read, bad]

theorem wgtBuild_entryFails (good : pblkCheck f bs = .ok) {e : Status} (fails : u.takeEntry q ctx p f bs = .error e) :
    exec (.wgtBuild q f) s = .next ((u.dropFetched (.cmd q)).completeOk q e) := by
  rw [exec_wgtBuild, execWgtBuild, runCmd_runs may]
  simp [read, good, fails]

theorem wgtBuild_plans (good : pblkCheck f bs = .ok) (took : u.takeEntry q ctx p f bs = .ok (b, v)) (loads : f.compress = false)
    {plan : BuildPlan} (planned : (v.modRunning q (fun y => { y with started := true })).planBuild b = (.ok plan, w)) :
    exec (.wgtBuild q f) s = .next (w.setBuild { b with plan := some plan }) := by
  rw [exec_wgtBuild, execWgtBuild, runCmd_runs may]
  simp [read, good, took, loads, State.tryPlan, planned]

theorem wgtBuild_packs (good : pblkCheck f bs = .ok) (took : u.takeEntry q ctx p f bs = .ok (b, v)) (packs : f.compress = true)
    {y : List Byte × List Byte × Fmt × PackParams}
    (checked : (v.modRunning q (fun y => { y with started := true })).packCheck b = (.ok y, w)) :
    exec (.wgtBuild q f) s = .next w := by
  rw [exec_wgtBuild, execWgtBuild, runCmd_runs may]
  simp [read, good, took, packs, checked]

theorem wgtBuild_packFails (good : pblkCheck f bs = .ok) (took : u.takeEntry q ctx p f bs = .ok (b, v)) (packs : f.compress = true)
    {e : Status} (fails : (v.modRunning q (fun y => { y with started := true })).packCheck b = (.error (some e), w)) :
    exec (.wgtBuild q f) s = .next (w.endBuild b e false) := by
  rw [exec_wgtBuild, execWgtBuild, runCmd_runs may]
  simp [read, good, took, packs, fails]

end
end

/-! WGT_BUILD_DONE and the end of a build. -/

section
variable (u : State) (b : Build) (st : Status) (keep : Bool)

/-- The entry of a build that has ended: READY since now when what was built is kept, FREE otherwise. -/
def State.endEntry : State :=
  if st = .ok ∧ keep then u.modGen b (fun g => { g with st := .ready, tReady := u.now }) else u.freeGen b.part b.entry

theorem endBuild_cachesOnly : CachesOnly { u.endEntry b st keep with wgt := { (u.endEntry b st keep).wgt with
    builds := (u.endEntry b st keep).wgt.builds.filter (fun x => x.queue != b.queue) } } (u.endBuild b st keep) :=
  completeOk_cachesOnly ..

theorem endBuild_buildOf : (u.endBuild b st keep).buildOf b.queue = none := by
  rw [(endBuild_cachesOnly u b st keep).buildOf]
  simp [State.buildOf]

theorem endBuild_keeps_ready : ((u.endBuild b .ok true).gen b.part b.entry).st = .ready ∧
    ((u.endBuild b .ok true).gen b.part b.entry).tReady = u.now := by
  rw [(endBuild_cachesOnly u b .ok true).gen]
  have ready : (u.endEntry b .ok true).gen b.part b.entry =
      { u.gen b.part b.entry with st := .ready, tReady := u.now } := gen_setGen_self ..
  exact ⟨congrArg Gen.st ready, congrArg Gen.tReady ready⟩

theorem endBuild_drops_free : ((u.endBuild b st false).gen b.part b.entry).st = .free := by
  rw [(endBuild_cachesOnly u b st false).gen]
  have free : (u.endEntry b st false).gen b.part b.entry = .free := by
    rw [State.endEntry, if_neg (by simp), gen_freeGen, gen_setGen_self]
  exact congrArg Gen.st free

end

section
variable {s u : State} {q : Nat} {b : Build}

theorem buildOf_queue (has : s.buildOf q = some b) : b.queue = q := by simpa using List.find?_some has

theorem buildSteps_none (n : Nat) (ended : s.buildOf q = none) : State.buildSteps q n s = s := by
  cases n with
  | zero => rfl
  | succ n => simp [State.buildSteps, ended]

section
variable (live : s.inReset = false) (has : s.buildOf q = some b)
include live has

theorem wgtBuildDone_steps : exec (.wgtBuildDone q) s = .next (State.buildSteps q 2 (s.buildStep b)) := by
  have out : exec (.wgtBuildDone q) s = .next (if s.inReset then s else State.buildSteps q 3 s) := rfl
  rw [out, live, State.buildSteps, has]
  rfl

theorem wgtBuildDone_ends {st : Status} {keep : Bool} (ends : s.buildStep b = u.endBuild b st keep) :
    exec (.wgtBuildDone q) s = .next (u.endBuild b st keep) ∧ (u.endBuild b st keep).buildOf q = none := by
  have ended : (u.endBuild b st keep).buildOf q = none := buildOf_queue has ▸ endBuild_buildOf u b st keep
  rw [wgtBuildDone_steps live has, ends, buildSteps_none 2 ended]
  exact ⟨rfl, ended⟩

end

theorem buildStep_packs (unpacked : b.packed = false) (ran : s.packRun b = (.ok (), u)) (kept : b.f.nogen = false) :
    s.buildStep b = u.setBuild { b with packed := true } := by simp [State.buildStep, unpacked, ran, kept]

theorem buildStep_packFails (unpacked : b.packed = false) {e : Status} (ran : s.packRun b = (.error (some e), u)) :
    s.buildStep b = u.endBuild b e false := by simp [State.buildStep, unpacked, ran]

section
variable (packed : b.packed = true) {plan : BuildPlan} (planned : b.plan = some plan)
include packed planned

theorem buildStep_loads (loaded : s.loadBuild b plan = (.ok (), u)) : s.buildStep b = u.endBuild b .ok true := by
  simp [State.buildStep, packed, planned, loaded]

theorem buildStep_loadFails {e : Status} (loaded : s.loadBuild b plan = (.error (some e), u)) :
    s.buildStep b = u.endBuild b e false := by simp [State.buildStep, packed, planned, loaded]

end
end

/-! WGT_SWITCH (R313): the generation that was current becomes READY. -/

def Gen.demoted (g : Gen) : Gen := if g.st = .current then { g with st := .ready } else g

theorem Gen.demoted_demoted (g : Gen) : g.demoted.demoted = g.demoted := by
  by_cases current : g.st = .current
  · simp [Gen.demoted, current]
  · simp [Gen.demoted, current]

def State.demote (p : Nat) (s : State) (k : Nat) : State :=
  if (s.gen p k).st = .current then s.setGen p k { s.gen p k with st := .ready } else s

/-- Every generation of partition p that was current is READY. -/
def State.demoteAll (s : State) (p : Nat) : State := (List.range 8).foldl (State.demote p) s

theorem gen_demote (p : Nat) (s : State) (k p2 j : Nat) :
    (s.demote p k).gen p2 j = if 8 * p2 + j = 8 * p + k then (s.gen p2 j).demoted else s.gen p2 j := by
  have same (h : 8 * p2 + j = 8 * p + k) : s.gen p2 j = s.gen p k := by rw [State.gen, h, State.gen]
  unfold State.demote
  split
  case isTrue current =>
    rw [gen_setGen]
    split
    case isTrue h => rw [same h, Gen.demoted, if_pos current]
    case isFalse => rfl
  case isFalse other =>
    split
    case isTrue h => rw [same h, Gen.demoted, if_neg other]
    case isFalse => rfl

theorem gen_foldl_demote (p : Nat) (l : List Nat) (s : State) (p2 j : Nat) :
    (l.foldl (State.demote p) s).gen p2 j = if ∃ k ∈ l, 8 * p2 + j = 8 * p + k then (s.gen p2 j).demoted else s.gen p2 j := by
  induction l generalizing s with
  | nil => simp
  | cons k l ih =>
    rw [List.foldl_cons, ih, gen_demote]
    by_cases here : 8 * p2 + j = 8 * p + k
    · simp [here, Gen.demoted_demoted]
    · simp [here]

theorem gen_demoteAll (s : State) {p k : Nat} (hk : k < 8) : (s.demoteAll p).gen p k = (s.gen p k).demoted := by
  rw [State.demoteAll, gen_foldl_demote, if_pos ⟨k, List.mem_range.mpr hk, rfl⟩]

theorem gen_demoteAll_ne (s : State) {p p2 k : Nat} (hk : k < 8) (other : p2 ≠ p) : (s.demoteAll p).gen p2 k = s.gen p2 k := by
  rw [State.demoteAll, gen_foldl_demote, if_neg]
  rintro ⟨j, hj, same⟩
  have hj := List.mem_range.mp hj
  omega

/-- From s to t only generation entries have changed. -/
def GensOnly (s t : State) : Prop := ∃ g, t = { s with wgt := { s.wgt with gens := g } }

theorem foldl_demote_gensOnly (p : Nat) (l : List Nat) (s : State) : GensOnly s (l.foldl (State.demote p) s) := by
  induction l generalizing s with
  | nil => exact ⟨s.wgt.gens, rfl⟩
  | cons k l ih =>
    obtain ⟨g, e⟩ := ih (s.demote p k)
    rw [List.foldl_cons, e]
    unfold State.demote
    split
    · exact ⟨g, rfl⟩
    · exact ⟨g, rfl⟩

section
variable {s : State} {q gen ctx p : Nat} {x : Running}

theorem exec_wgtSwitch (q gen : Nat) (s : State) : exec (.wgtSwitch q gen) s = execWgtSwitch q gen s := rfl

/-- The state with entry e of partition p current instead of the one that was. -/
def State.switched (s : State) (p e : Nat) : State := (s.demoteAll p).setGen p e { s.gen p e with st := .current }

theorem switched_gensOnly (s : State) (p e : Nat) : GensOnly s (s.switched p e) := by
  obtain ⟨g, demoted⟩ := foldl_demote_gensOnly p (List.range 8) s
  rw [State.switched, State.demoteAll, demoted]
  exact ⟨_, rfl⟩

section
variable (may : s.mayRun q (.wgtSwitch gen) x ctx p)
include may

theorem wgtSwitch_unknown (unknown : s.entryOf p gen = none) : exec (.wgtSwitch q gen) s = .next (s.completeOk q .state) := by
  rw [exec_wgtSwitch, execWgtSwitch, runCmd_runs may]
  simp [unknown]

section
variable {e : Nat} (found : s.entryOf p gen = some e)
include found

theorem wgtSwitch_building {k : Nat} (hk : k < 8) (building : (s.gen p k).st = .building) :
    exec (.wgtSwitch q gen) s = .next (s.completeOk q .state) := by
  have some_build : (List.range 8).any (fun k => (s.gen p k).st == .building) = true :=
    List.any_eq_true.mpr ⟨k, List.mem_range.mpr hk, by simp [building]⟩
  rw [exec_wgtSwitch, execWgtSwitch, runCmd_runs may]
  simp only [found, some_build, if_true]

theorem wgtSwitch_draining (draining : (s.gen p e).st = .draining) : exec (.wgtSwitch q gen) s = .next (s.completeOk q .state) := by
  rw [exec_wgtSwitch, execWgtSwitch, runCmd_runs may]
  simp only [found, draining, ite_self]

section
variable (idle : ∀ k, k < 8 → (s.gen p k).st ≠ .building)
include idle

theorem wgtSwitch_current (current : (s.gen p e).st = .current) : exec (.wgtSwitch q gen) s = .next (s.completeOk q .ok) := by
  have no_build : (List.range 8).any (fun k => (s.gen p k).st == .building) = false := by simpa using idle
  rw [exec_wgtSwitch, execWgtSwitch, runCmd_runs may]
  simp [found, no_build, current]

theorem wgtSwitch_switches (ready : (s.gen p e).st = .ready) :
    exec (.wgtSwitch q gen) s = .next ((s.switched p e).completeOk q .ok) := by
  have no_build : (List.range 8).any (fun k => (s.gen p k).st == .building) = false := by simpa using idle
  rw [exec_wgtSwitch, execWgtSwitch, runCmd_runs may]
  simp only [found, no_build, ready, Bool.false_eq_true, if_false, State.switched, State.demoteAll]
  rfl

end
end
end

/-! WGT_RETIRE (R314). -/

theorem exec_wgtRetire (q gen : Nat) (s : State) : exec (.wgtRetire q gen) s = execWgtRetire q gen s := rfl

/-- The state with entry e of partition p retired: FREE, or DRAINING while batches are bound to it. -/
def State.retired (s : State) (p e : Nat) : State :=
  if (s.gen p e).refs = 0 then s.freeGen p e else s.setGen p e { s.gen p e with st := .draining }

theorem gen_retired (s : State) (p e : Nat) :
    (s.retired p e).gen p e = if (s.gen p e).refs = 0 then .free else { s.gen p e with st := .draining } := by
  unfold State.retired
  split
  · rw [gen_freeGen, gen_setGen_self]
  · rw [gen_setGen_self]

theorem gen_retired_ne (s : State) {p e p2 k : Nat} (he : e < 8) (hk : k < 8) (other : p2 ≠ p ∨ k ≠ e) :
    (s.retired p e).gen p2 k = s.gen p2 k := by
  unfold State.retired
  split
  · rw [gen_freeGen, gen_setGen_ne s _ he hk other]
  · rw [gen_setGen_ne s _ he hk other]

theorem retired_frame (s : State) (p e : Nat) :
    (s.retired p e).queues = s.queues ∧ (s.retired p e).mem = s.mem ∧ (s.retired p e).parts = s.parts := by
  unfold State.retired
  split
  · exact ⟨rfl, rfl, rfl⟩
  · exact ⟨rfl, rfl, rfl⟩

section
variable (may : s.mayRun q (.wgtRetire gen) x ctx p)
include may

theorem wgtRetire_unknown (unknown : s.entryOf p gen = none) : exec (.wgtRetire q gen) s = .next (s.completeOk q .state) := by
  rw [exec_wgtRetire, execWgtRetire, runCmd_runs may]
  simp [unknown]

section
variable {e : Nat} (found : s.entryOf p gen = some e)
include found

theorem wgtRetire_retires (ready : (s.gen p e).st = .ready) :
    exec (.wgtRetire q gen) s = .next ((s.retired p e).completeOk q .ok) := by
  rw [exec_wgtRetire, execWgtRetire, runCmd_runs may]
  simp only [found, ready, State.retired]
  split <;> rfl

theorem wgtRetire_draining (draining : (s.gen p e).st = .draining) : exec (.wgtRetire q gen) s = .next (s.completeOk q .ok) := by
  rw [exec_wgtRetire, execWgtRetire, runCmd_runs may]
  simp [found, draining]

theorem wgtRetire_refused (wrong : (s.gen p e).st = .current ∨ (s.gen p e).st = .building) :
    exec (.wgtRetire q gen) s = .next (s.completeOk q .state) := by
  rw [exec_wgtRetire, execWgtRetire, runCmd_runs may]
  rcases wrong with current | building
  · simp [found, current]
  · simp [found, building]

end
end
end

/-- Settles O30: each command by the outcome of its checks, and the end of a build by its stage. -/
theorem weightCommandsMoveGenerations : Obligations.WeightCommandsMoveGenerations := by
  unfold Obligations.WeightCommandsMoveGenerations
  refine ⟨?build, ?pack, ?load, ?switch, ?retire⟩
  case build =>
    intro q f x ctx p bs b plan u v w s may read
    refine ⟨wgtBuild_blockFails may read, fun e good => wgtBuild_entryFails may read good, fun good took loads => ?_,
      fun y good took packs => ⟨wgtBuild_packs may read good took packs, fun e => wgtBuild_packFails may read good took packs⟩⟩
    obtain ⟨building, number, was_free, listed⟩ := takeEntry_takes took
    exact ⟨building, number, was_free, listed, wgtBuild_plans may read good took loads⟩
  case pack =>
    intro q b u s live has unpacked
    refine ⟨fun ran kept => ?_, fun e ran => ?_⟩
    · rw [wgtBuildDone_steps live has, buildStep_packs unpacked ran kept]
    · obtain ⟨out, ended⟩ := wgtBuildDone_ends live has (buildStep_packFails unpacked ran)
      exact ⟨_, out, rfl, endBuild_drops_free u b e, ended⟩
  case load =>
    intro q b plan u s live has packed planned
    refine ⟨fun loaded => ?_, fun e loaded => ?_⟩
    · obtain ⟨out, ended⟩ := wgtBuildDone_ends live has (buildStep_loads packed planned loaded)
      obtain ⟨ready, since⟩ := endBuild_keeps_ready u b
      exact ⟨_, out, rfl, ready, since, ended⟩
    · obtain ⟨out, ended⟩ := wgtBuildDone_ends live has (buildStep_loadFails packed planned loaded)
      exact ⟨_, out, rfl, endBuild_drops_free u b e, ended⟩
  case switch =>
    intro q gen x ctx p s may
    refine ⟨fun e found idle ready => ?_, fun e found idle current => wgtSwitch_current may found idle current, ?_⟩
    · have he := (entryOf_some found).1
      refine ⟨s.switched p e, wgtSwitch_switches may found idle ready, ?_, gen_setGen_self .., fun k hk other => ?_,
        fun p2 k hk other => ?_⟩
      · obtain ⟨g, only⟩ := switched_gensOnly s p e
        rw [only]
      · rw [State.switched, gen_setGen_ne _ _ he hk (.inr other), gen_demoteAll s hk]
        rfl
      · rw [State.switched, gen_setGen_ne _ _ he hk (.inl other), gen_demoteAll_ne s hk other]
    · intro wrong
      cases found : s.entryOf p gen with
      | none => exact wgtSwitch_unknown may found
      | some e =>
        rcases wrong with unknown | ⟨k, hk, building⟩ | ⟨e2, found2, draining⟩
        · exact nomatch found.symm.trans unknown
        · exact wgtSwitch_building may found hk building
        · exact wgtSwitch_draining may found2 draining
  case retire =>
    intro q gen x ctx p s may
    refine ⟨fun e found ready => ?_, fun e found draining => wgtRetire_draining may found draining, ?_⟩
    · obtain ⟨queues, mem, parts⟩ := retired_frame s p e
      exact ⟨_, wgtRetire_retires may found ready, gen_retired s p e,
        fun p2 k hk other => gen_retired_ne s (entryOf_some found).1 hk other,
        fun k => by rw [State.queue, queues, State.queue], mem, parts⟩
    · rintro (unknown | ⟨e, found, wrong⟩)
      · exact wgtRetire_unknown may unknown
      · exact wgtRetire_refused may found wrong

end Sys2Proof.Machine
end

section
/-! SUPPORT. The first best of a list, and the queue that SLOT_SELECT and REGION_GRANT choose by it (chapter 14, R404, R408,
R410). -/
namespace Sys2Proof.Machine

/-! The best of a list, the first one of equals. -/

section
variable {α : Type} (better : α → α → Prop) [DecidableRel better]

/-- What is kept of the best so far and the next: the next when it is better. -/
def keepBest (best : Option α) (next : α) : Option α :=
  match best with
  | none => some next
  | some c => if better next c then some next else best

variable {better}

/-- What is kept of a list is an element of it and related by R to every element, when R relates what each comparison
keeps to what it drops. -/
theorem foldl_keepBest_some {R : α → α → Prop} (refl : ∀ a, R a a) (trans : ∀ {a b c}, R a b → R b c → R a c)
    (takes : ∀ {a b}, better b a → R b a) (l : List α) (a : α) (keeps : (a :: l).Pairwise (fun a b => ¬ better b a → R a b)) :
    ∃ best ∈ a :: l, l.foldl (keepBest better) (some a) = some best ∧ ∀ k ∈ a :: l, R best k := by
  induction l generalizing a with
  | nil => exact ⟨a, List.mem_singleton_self a, rfl, fun k hk => List.mem_singleton.mp hk ▸ refl a⟩
  | cons b l ih =>
    rw [List.foldl_cons]
    by_cases wins : better b a
    · obtain ⟨best, member, folds, best_of⟩ := ih b keeps.tail
      refine ⟨best, List.mem_cons_of_mem a member, by rw [keepBest, if_pos wins, folds], fun k hk => ?_⟩
      rcases List.mem_cons.mp hk with rfl | hk
      · exact trans (best_of b List.mem_cons_self) (takes wins)
      · exact best_of k hk
    · have stays : R a b := List.rel_of_pairwise_cons keeps List.mem_cons_self wins
      obtain ⟨best, member, folds, best_of⟩ := ih a (keeps.sublist (.cons_cons a (List.sublist_cons_self b l)))
      refine ⟨best, ?_, by rw [keepBest, if_neg wins, folds], fun k hk => ?_⟩
      · rcases List.mem_cons.mp member with rfl | member
        · exact List.mem_cons_self
        · exact List.mem_cons_of_mem a (List.mem_cons_of_mem b member)
      · have best_a := best_of a List.mem_cons_self
        rcases List.mem_cons.mp hk with rfl | hk
        · exact best_a
        · rcases List.mem_cons.mp hk with rfl | hk
          · exact trans best_a stays
          · exact best_of k (List.mem_cons_of_mem a hk)

theorem foldl_keepBest {R : α → α → Prop} (refl : ∀ a, R a a) (trans : ∀ {a b c}, R a b → R b c → R a c)
    (takes : ∀ {a b}, better b a → R b a) {l : List α} (keeps : l.Pairwise (fun a b => ¬ better b a → R a b)) (nonempty : l ≠ []) :
    ∃ best ∈ l, l.foldl (keepBest better) none = some best ∧ ∀ k ∈ l, R best k := by
  cases l with
  | nil => exact absurd rfl nonempty
  | cons a l => exact foldl_keepBest_some refl trans takes l a keeps

end

/-! SLOT_SELECT (R408). -/

/-- Queue q has an earlier deadline than k, or the same and no higher number. -/
def State.dueBefore (s : State) (q k : Nat) : Prop :=
  (s.queue q).deadline < (s.queue k).deadline ∨ (s.queue q).deadline = (s.queue k).deadline ∧ q ≤ k

theorem eligible_sorted (s : State) (i : Nat) : (s.eligible i).Pairwise (· < ·) := List.pairwise_lt_range.filter _

theorem dueBefore_trans {s : State} {a b c : Nat} (h : s.dueBefore a b) (k : s.dueBefore b c) : s.dueBefore a c := by
  unfold State.dueBefore at *
  omega

theorem earliest_eq (s : State) (qs : List Nat) :
    s.earliest qs = qs.foldl (keepBest (fun q c => (s.queue q).deadline < (s.queue c).deadline)) none := by
  unfold State.earliest
  congr 1
  funext b q
  cases b with
  | none => rfl
  | some c => rfl

theorem earliest_eligible (s : State) (i : Nat) (nonempty : s.eligible i ≠ []) :
    ∃ q ∈ s.eligible i, s.earliest (s.eligible i) = some q ∧ ∀ k ∈ s.eligible i, s.dueBefore q k := by
  have ties : (s.eligible i).Pairwise (fun a b => ¬ (s.queue b).deadline < (s.queue a).deadline → s.dueBefore a b) :=
    (eligible_sorted s i).imp fun lower later => by unfold State.dueBefore; omega
  generalize s.eligible i = qs at ties nonempty ⊢
  rw [earliest_eq]
  exact foldl_keepBest (R := s.dueBefore) (fun q => .inr ⟨rfl, Nat.le_refl q⟩) dueBefore_trans .inl ties nonempty

section
variable {s : State} {i : Nat}

theorem exec_slotSelect (i : Nat) (s : State) : exec (.slotSelect i) s = execSlotSelect i s := rfl

theorem slotSelect_none (empty : s.eligible i = []) : exec (.slotSelect i) s = .next s := by
  simp [exec_slotSelect, execSlotSelect, empty, earliest_eq]

theorem slotSelect_some (hi : i < 32) (en : (s.slot i).en = true) (free : (s.slot i).sel = none) (live : s.inReset = false)
    {q : Nat} (first : s.earliest (s.eligible i) = some q) :
    exec (.slotSelect i) s = .next (s.setSlot i { s.slot i with sel := some q, tSel := s.now }) := by
  have in_use : (!(s.slot i).en || (s.slot i).sel.isSome || decide (32 ≤ i) || s.inReset) = false := by
    rw [en, free, live, decide_eq_false (Nat.not_le_of_lt hi)]
    rfl
  rw [exec_slotSelect, execSlotSelect]
  dsimp only
  rw [in_use, first]
  rfl

end

/-! REGION_GRANT (R404, R410). -/

section
variable {s : State} {p : Nat}

/-- The user queues that wait for partition p's regions, the serving ones alone when there are any. -/
def State.userWaiters (s : State) (p : Nat) : List Nat :=
  let ws := (List.range 512).filter (s.waitsRegions p)
  let main := ws.filter (fun q => !(s.qmapOf q).tune)
  if main = [] then ws else main

theorem mem_userWaiters {k : Nat} : k ∈ s.userWaiters p ↔ k < 512 ∧ s.waitsRegions p k = true ∧
    ((∃ j, j < 512 ∧ s.waitsRegions p j = true ∧ (s.qmapOf j).tune = false) → (s.qmapOf k).tune = false) := by
  have main_iff : ((List.range 512).filter (s.waitsRegions p)).filter (fun q => !(s.qmapOf q).tune) = [] ↔
      ¬ ∃ j, j < 512 ∧ s.waitsRegions p j = true ∧ (s.qmapOf j).tune = false := by
    simp only [List.filter_eq_nil_iff, List.mem_filter, List.mem_range, Bool.not_eq_true', not_exists, not_and, and_imp]
  unfold State.userWaiters
  dsimp only
  by_cases serving : ∃ j, j < 512 ∧ s.waitsRegions p j = true ∧ (s.qmapOf j).tune = false
  · rw [if_neg (mt main_iff.mp (Classical.not_not.mpr serving))]
    simp only [List.mem_filter, List.mem_range, Bool.not_eq_true', serving, true_imp_iff, and_assoc]
  · rw [if_pos (main_iff.mpr serving)]
    simp [serving]

/-- A user queue is granted before another that has a later deadline, or the same and a higher slot. -/
abbrev State.grantsFirst (s : State) (q c : Nat) : Prop :=
  (s.queue q).deadline < (s.queue c).deadline ∨
    ((s.queue q).deadline = (s.queue c).deadline ∧ s.slotHolding q < s.slotHolding c)

theorem best_userWaiter (nonempty : s.userWaiters p ≠ []) : ∃ q ∈ s.userWaiters p,
    (s.userWaiters p).foldl (keepBest s.grantsFirst) none = some q ∧
      ∀ k ∈ s.userWaiters p, (s.queue q).deadline ≤ (s.queue k).deadline :=
  foldl_keepBest (R := fun q k => (s.queue q).deadline ≤ (s.queue k).deadline) (fun _ => Nat.le_refl _) Nat.le_trans
    (fun first => by omega) (List.pairwise_of_forall fun a b stays => by omega) nonempty

theorem grantee_system {q : Nat} (first : [512, 513, 514, 515].find? (s.waitsRegions p) = some q) : s.grantee p = some q := by
  rw [State.grantee, first]

theorem grantee_user (no_system : [512, 513, 514, 515].find? (s.waitsRegions p) = none) :
    s.grantee p = (s.userWaiters p).foldl (keepBest s.grantsFirst) none := by
  rw [State.grantee, no_system]
  dsimp only
  rw [← State.userWaiters]
  generalize s.userWaiters p = ws
  congr 1
  funext b q
  cases b with
  | none => rfl
  | some c => rfl

/-- Queue q waits for partition p's regions, and no other that does goes before it (R410). -/
structure Grantee (s : State) (p q : Nat) : Prop where
  waits : s.waitsRegions p q = true
  system : (∃ k, 512 ≤ k ∧ k < 516 ∧ s.waitsRegions p k = true) → 512 ≤ q
  user : q < 512 → ∀ k, k < 512 → s.waitsRegions p k = true →
    ((s.qmapOf q).tune = true → (s.qmapOf k).tune = true) ∧
    ((s.qmapOf q).tune = (s.qmapOf k).tune → (s.queue q).deadline ≤ (s.queue k).deadline)

theorem waitsRegions_of_no_system (no_system : [512, 513, 514, 515].find? (s.waitsRegions p) = none) {k : Nat} (low : 512 ≤ k) (high : k < 516) :
    s.waitsRegions p k = false := by
  have listed : k ∈ [512, 513, 514, 515] := by
    simp only [List.mem_cons, List.not_mem_nil, or_false]
    omega
  exact Bool.eq_false_iff.mpr (List.find?_eq_none.mp no_system k listed)

theorem grantee_grants (waiter : ∃ q ∈ allQueues, s.waitsRegions p q = true) : ∃ q, s.grantee p = some q ∧ Grantee s p q := by
  cases first : [512, 513, 514, 515].find? (s.waitsRegions p) with
  | some q =>
    have high : 512 ≤ q := by
      have listed := List.mem_of_find?_eq_some first
      simp only [List.mem_cons, List.not_mem_nil, or_false] at listed
      omega
    exact ⟨q, grantee_system first, List.find?_some first, fun _ => high, fun low => absurd low (by omega)⟩
  | none =>
    obtain ⟨w, listed, waits⟩ := waiter
    have below : w < 516 := List.mem_range.mp listed
    have user : w < 512 := by
      refine Nat.lt_of_not_le fun high => ?_
      exact Bool.false_ne_true ((waitsRegions_of_no_system first high below).symm.trans waits)
    have waiting : s.userWaiters p ≠ [] := by
      by_cases serving : ∃ j, j < 512 ∧ s.waitsRegions p j = true ∧ (s.qmapOf j).tune = false
      · obtain ⟨j, hj, waits_j, serves_j⟩ := serving
        exact List.ne_nil_of_mem (mem_userWaiters.mpr ⟨hj, waits_j, fun _ => serves_j⟩)
      · exact List.ne_nil_of_mem (mem_userWaiters.mpr ⟨user, waits, fun h => absurd h serving⟩)
    obtain ⟨q, member, best, earliest⟩ := best_userWaiter waiting
    obtain ⟨hq, waits_q, serving_q⟩ := mem_userWaiters.mp member
    refine ⟨q, (grantee_user first).trans best, waits_q, ?system, fun _ k hk waits_k => ⟨?tune, ?deadline⟩⟩
    case system =>
      rintro ⟨k, low, high, waits_k⟩
      exact absurd ((waitsRegions_of_no_system first low high).symm.trans waits_k) Bool.false_ne_true
    case tune =>
      intro tune_q
      refine Bool.of_not_eq_false fun serves_k => ?_
      exact absurd ((serving_q ⟨k, hk, waits_k, serves_k⟩).symm.trans tune_q) Bool.false_ne_true
    case deadline =>
      intro same
      exact earliest k (mem_userWaiters.mpr ⟨hk, waits_k, fun h => same ▸ serving_q h⟩)

theorem grantee_none (nobody : ∀ q ∈ allQueues, s.waitsRegions p q = false) : s.grantee p = none := by
  have waits_none {k : Nat} (hk : k < 516) : s.waitsRegions p k = false := nobody k (List.mem_range.mpr hk)
  have no_system : [512, 513, 514, 515].find? (s.waitsRegions p) = none := by simp [waits_none]
  have no_user : s.userWaiters p = [] := List.eq_nil_iff_forall_not_mem.mpr fun k member => by
    obtain ⟨hk, waits, -⟩ := mem_userWaiters.mp member
    exact Bool.false_ne_true ((waits_none (by omega)).symm.trans waits)
  rw [grantee_user no_system, no_user]
  rfl

theorem exec_regionGrant (p : Nat) (s : State) : exec (.regionGrant p) s = execRegionGrant p s := rfl

theorem regionGrant_waits (nobody : s.grantee p = none) : exec (.regionGrant p) s = .next s := by
  simp [exec_regionGrant, execRegionGrant, nobody]

theorem regionGrant_grants (idle : (s.part p).launch = none) (unused : s.grantOut p = false) (live : s.inReset = false)
    (has : s.regionsOf p ≠ []) {q : Nat} (first : s.grantee p = some q) :
    exec (.regionGrant p) s = .next (s.setQueue q { s.queue q with granted := true }) := by
  simp [exec_regionGrant, execRegionGrant, idle, unused, live, has, first]

end

end Sys2Proof.Machine
end

section
/-! SUPPORT. The batch that a LAUNCH binds (R315, R316): it changes the batch of its own queue alone, and the generation that it
finds depends on that batch and on the generations alone. -/
namespace Sys2Proof.Machine

/-- From s to t no queue has changed but the batch of queue q. -/
def BatchOnly (s t : State) (q : Nat) : Prop :=
  (∃ b, t.queue q = { s.queue q with batch := b }) ∧ ∀ k, k ≠ q → t.queue k = s.queue k

theorem BatchOnly.of_queues {s t : State} (q : Nat) (same : t.queues = s.queues) : BatchOnly s t q := by
  have read (k : Nat) : t.queue k = s.queue k := by rw [State.queue, same, State.queue]
  exact ⟨⟨(s.queue q).batch, read q⟩, fun k _ => read k⟩

theorem BatchOnly.trans {s t u : State} {q : Nat} (h : BatchOnly s t q) (k : BatchOnly t u q) : BatchOnly s u q := by
  obtain ⟨⟨b, own⟩, others⟩ := h
  obtain ⟨⟨b2, own2⟩, others2⟩ := k
  exact ⟨⟨b2, by rw [own2, own]⟩, fun j hj => (others2 j hj).trans (others j hj)⟩

theorem setBatch_batchOnly (s : State) (q : Nat) (b : Option Batch) :
    BatchOnly s (s.setQueue q { s.queue q with batch := b }) q :=
  ⟨⟨b, by rw [queue_setQueue, if_pos rfl]⟩, fun k hk => by rw [queue_setQueue, if_neg hk]⟩

@[simp] theorem event_queues (s : State) (island code : Nat) (part queue : Option Nat) (data : Nat) :
    (s.event island code part queue data).queues = s.queues := by
  obtain ⟨r, e⟩ := event_eq s island code part queue data
  rw [e]

@[simp] theorem event_wgt (s : State) (island code : Nat) (part queue : Option Nat) (data : Nat) :
    (s.event island code part queue data).wgt = s.wgt := by
  obtain ⟨r, e⟩ := event_eq s island code part queue data
  rw [e]

theorem unbind_queues (s : State) (p gen : Nat) : (s.unbind p gen).queues = s.queues := by
  unfold State.unbind
  split
  · rfl
  · dsimp only
    split
    · rw [event_queues]
      rfl
    · rfl

theorem endBatch_batchOnly (s : State) (q : Nat) : BatchOnly s (s.endBatch q) q := by
  unfold State.endBatch
  split
  · exact .of_queues q rfl
  · exact (setBatch_batchOnly s q none).trans (.of_queues q (unbind_queues ..))

/-- The state in which a LAUNCH of batch id on partition p binds: the batch before it has ended (R315). -/
def State.batchEnded (s : State) (q p id : Nat) : State :=
  match (s.queue q).batch with
  | some b => if (b.id ≠ id ∨ b.part ≠ p) ∧ b.open_ = 0 then s.endBatch q else s
  | none => s

theorem batchEnded_batchOnly (s : State) (q p id : Nat) : BatchOnly s (s.batchEnded q p id) q := by
  unfold State.batchEnded
  split
  · split
    · exact endBatch_batchOnly s q
    · exact .of_queues q rfl
  · exact .of_queues q rfl

/-- The binding itself. -/
def State.bindTo (s : State) (q p : Nat) (f : LaunchF) : Option Nat × State :=
  match (s.queue q).batch with
  | some b =>
    if b.id = f.batch ∧ b.part = p then
      if f.gen = 0xFFFF ∨ f.gen = b.gen then (some b.gen, s.setQueue q { s.queue q with batch := some { b with open_ := b.open_ + 1 } })
      else (none, s)
    else (none, s)
  | none =>
    match s.findGen p f.gen with
    | none => (none, s)
    | some e => (some (s.gen p e).gen, (s.setGen p e { s.gen p e with refs := (s.gen p e).refs + 1 }).setQueue q
        { s.queue q with batch := some ⟨f.batch, p, (s.gen p e).gen, 1⟩ })

theorem bind_eq (s : State) (q p : Nat) (f : LaunchF) : s.bind q p f = (s.batchEnded q p f.batch).bindTo q p f := rfl

theorem bindTo_batchOnly (s : State) (q p : Nat) (f : LaunchF) : BatchOnly s (s.bindTo q p f).2 q := by
  unfold State.bindTo
  split
  · split
    · split
      · exact setBatch_batchOnly s q _
      · exact .of_queues q rfl
    · exact .of_queues q rfl
  · split
    · exact .of_queues q rfl
    · exact setBatch_batchOnly s q _

theorem bind_batchOnly (s : State) (q p : Nat) (f : LaunchF) : BatchOnly s (s.bind q p f).2 q :=
  bind_eq s q p f ▸ (batchEnded_batchOnly s q p f.batch).trans (bindTo_batchOnly ..)

/-! The generation that a batch binds depends on the queue's batch and on the generations alone. -/

/-- s and t have the same generations, and queue q the same batch. -/
structure BindsAlike (s t : State) (q : Nat) : Prop where
  gens : t.wgt.gens = s.wgt.gens
  batch : (t.queue q).batch = (s.queue q).batch

section
variable {s t : State} {q : Nat}

theorem gen_congr (gens : t.wgt.gens = s.wgt.gens) (p k : Nat) : t.gen p k = s.gen p k := by rw [State.gen, gens, State.gen]

theorem entryOf_congr (gens : t.wgt.gens = s.wgt.gens) (p gen : Nat) : t.entryOf p gen = s.entryOf p gen := by
  simp only [State.entryOf, gen_congr gens]

theorem findGen_congr (gens : t.wgt.gens = s.wgt.gens) (p gen : Nat) : t.findGen p gen = s.findGen p gen := by
  simp only [State.findGen, gen_congr gens]

theorem setGen_gens (s : State) (p e : Nat) (g : Gen) : (s.setGen p e g).wgt.gens = Tab.set .free s.wgt.gens (8 * p + e) g := rfl

theorem freeGen_gens (s : State) (p e : Nat) : (s.freeGen p e).wgt.gens = (s.setGen p e .free).wgt.gens := rfl

theorem unbind_gens_congr (gens : t.wgt.gens = s.wgt.gens) (p gen : Nat) :
    (t.unbind p gen).wgt.gens = (s.unbind p gen).wgt.gens := by
  unfold State.unbind
  rw [entryOf_congr gens]
  cases s.entryOf p gen with
  | none => exact gens
  | some e =>
    dsimp only
    rw [gen_congr gens]
    split
    · rw [event_wgt, event_wgt]
      simp only [freeGen_gens, setGen_gens, gens]
    · simp only [setGen_gens, gens]

variable (alike : BindsAlike s t q)
include alike

theorem BindsAlike.endBatch : BindsAlike (s.endBatch q) (t.endBatch q) q := by
  obtain ⟨gens, batch⟩ := alike
  unfold State.endBatch
  rw [batch]
  cases bound : (s.queue q).batch with
  | none => exact ⟨gens, batch⟩
  | some b =>
    have ended (u : State) : (((u.setQueue q { u.queue q with batch := none }).unbind b.part b.gen).queue q).batch = none := by
      rw [State.queue, unbind_queues]
      exact congrArg Queue.batch ((queue_setQueue ..).trans (if_pos rfl))
    exact ⟨unbind_gens_congr (s := s.setQueue q _) (t := t.setQueue q _) gens b.part b.gen, (ended t).trans (ended s).symm⟩

theorem BindsAlike.batchEnded (p id : Nat) : BindsAlike (s.batchEnded q p id) (t.batchEnded q p id) q := by
  unfold State.batchEnded
  rw [alike.batch]
  split
  · split
    · exact alike.endBatch
    · exact alike
  · exact alike

theorem BindsAlike.bindTo_fst (p : Nat) (f : LaunchF) : (t.bindTo q p f).1 = (s.bindTo q p f).1 := by
  obtain ⟨gens, batch⟩ := alike
  unfold State.bindTo
  rw [batch, findGen_congr gens]
  split
  · split
    · split <;> rfl
    · rfl
  · split
    · rfl
    · exact congrArg (some ∘ Gen.gen) (gen_congr gens ..)

theorem BindsAlike.bind_fst (p : Nat) (f : LaunchF) : (t.bind q p f).1 = (s.bind q p f).1 := by
  rw [bind_eq, bind_eq]
  exact (alike.batchEnded p f.batch).bindTo_fst p f

end

end Sys2Proof.Machine
end

section
/-! SUPPORT. The dispatch of a selected command (R325, R409, R503), the writes of SLOT_QMAP and SLOT_EPOCH_CMD (R406, R417); and
the settlement of O34. -/
namespace Sys2Proof.Machine

/-! COMMAND_DISPATCH (R409). -/

/-- Queue x and command y are what queue q of s has once its record bs has become its command. -/
structure TakesUp (s : State) (q : Nat) (bs : List Byte) (x : Queue) (y : Running) : Prop where
  running : x.running = some y
  cmd : y.cmd = recCmd bs
  started : y.started = false
  status : y.status = .ok
  tDisp : y.tDisp = s.now
  owed : y.owed = 0
  fetched : x.fetched = (s.queue q).fetched.tail
  staged : x.staged = false
  seqNext : x.seqNext = some ((recSeq bs + 1) % 2 ^ 32)
  state : x.state = (s.queue q).state
  batch : x.batch = (s.queue q).batch

/-- The lane's counters note a dispatch unless the partition is in Cloche (R413). -/
def State.noteDispatch (s : State) (lane : Nat) (cloche : Bool) : State :=
  if lane < 32 then if cloche then s else s.setSlot lane ((s.slot lane).dispatched s.now) else s

theorem noteDispatch_slots (s : State) (lane : Nat) (cloche : Bool) : ∃ l, s.noteDispatch lane cloche = { s with slots := l } := by
  unfold State.noteDispatch
  split
  · split
    · exact ⟨s.slots, rfl⟩
    · exact ⟨_, rfl⟩
  · exact ⟨s.slots, rfl⟩

theorem take_eq (s : State) (q : Nat) (bs : List Byte) :
    ∃ l x y, s.take q bs = ({ s with slots := l } : State).setQueue q x ∧ TakesUp s q bs x y := by
  unfold State.take
  dsimp only
  generalize noted : (ite (_ < 32) _ _ : State) = u
  obtain ⟨l, slots⟩ : ∃ l, u = ({ s with slots := l } : State) := noted ▸ noteDispatch_slots s _ _
  subst slots
  refine ⟨l, _, ?y, rfl, ?up⟩
  case up => constructor <;> rfl

/-- From u to t the command y of queue q has bound what its LAUNCH names: g is its generation. -/
structure BoundRun (u t : State) (q : Nat) (y : Running) (g : Option Nat) : Prop where
  own : ∃ b, t.queue q = { u.queue q with running := some { y with gen := g }, batch := b }
  others : ∀ k, k ≠ q → t.queue k = u.queue k
  other_command : (∀ f, y.cmd.body ≠ .launch f) → t = u
  launch : ∀ f p, y.cmd.body = .launch f → u.partOfCtx (u.ctxOf q y.cmd.word1) = some p →
    queueAccepts q y.cmd.opcode = true → g = (u.bind q p f).1

theorem bindRun_bound {u : State} {q : Nat} {y : Running} (runs : (u.queue q).running = some y) :
    ∃ g, BoundRun u (u.bindRun q) q y g := by
  have unbound : u.queue q = { u.queue q with running := some { y with gen := y.gen }, batch := (u.queue q).batch } := by
    rw [← runs]
  unfold State.bindRun
  rw [runs]
  dsimp only
  split
  case h_1 f p body part =>
    split
    case isTrue accepted =>
      obtain ⟨⟨b, own⟩, others⟩ := bind_batchOnly u q p f
      have bound : ((u.bind q p f).2.queue q).running = some y := by rw [own, ← runs]
      refine ⟨(u.bind q p f).1, ⟨b, ?_⟩, fun k hk => ?_, fun other => absurd body (other f), fun f2 p2 body2 part2 _ => ?_⟩
      · rw [modRunning_some bound, queue_setQueue, if_pos rfl, own]
      · rw [modRunning_some bound, queue_setQueue, if_neg hk, others k hk]
      · cases body.symm.trans body2
        cases part.symm.trans part2
        rfl
    case isFalse refused =>
      exact ⟨y.gen, ⟨_, unbound⟩, fun _ _ => rfl, fun _ => rfl, fun _ _ _ _ accepted => absurd accepted refused⟩
  case h_2 not_launch =>
    exact ⟨y.gen, ⟨_, unbound⟩, fun _ _ => rfl, fun _ => rfl, fun f p body part _ => absurd part (not_launch f p body)⟩

section
variable {s : State} {q : Nat} {bs : List Byte} {rest : List (List Byte)}

/-- A dispatched record is the command of its queue, every other queue is as it was, and only a LAUNCH changes more than
queues and slots: it binds its batch. -/
theorem take_bindRun (next : (s.queue q).fetched = bs :: rest) :
    let t := (s.take q bs).bindRun q
    ∃ y, (t.queue q).running = some y ∧ y.cmd = recCmd bs ∧ y.started = false ∧ y.status = .ok ∧
      y.tDisp = s.now ∧ y.owed = 0 ∧ (t.queue q).fetched = rest ∧ (t.queue q).staged = false ∧
      (t.queue q).seqNext = some ((recSeq bs + 1) % 2 ^ 32) ∧ (t.queue q).state = (s.queue q).state ∧
      (∀ k, k ≠ q → t.queue k = s.queue k) ∧
      ((∀ f, (recCmd bs).body ≠ .launch f) → t = { s with queues := t.queues, slots := t.slots }) ∧
      (∀ f p, (recCmd bs).body = .launch f → s.headPart q = some p → queueAccepts q (recOpcode bs) = true →
        y.gen = (s.bind q p f).1) := by
  obtain ⟨l, x, y, took, up⟩ := take_eq s q bs
  rw [took]
  generalize made : ({ s with slots := l } : State).setQueue q x = u
  have read (k : Nat) : u.queue k = if k = q then x else s.queue k := made ▸ queue_setQueue ..
  have own_u : u.queue q = x := (read q).trans (if_pos rfl)
  obtain ⟨g, bound⟩ := bindRun_bound (u := u) (q := q) (y := y) (own_u ▸ up.running)
  obtain ⟨b, own⟩ := bound.own
  rw [own_u] at own
  refine ⟨{ y with gen := g }, by rw [own], up.cmd, up.started, up.status, up.tDisp, up.owed, ?_, by rw [own]; exact up.staged,
    by rw [own]; exact up.seqNext, by rw [own]; exact up.state, fun k hk => ?_, fun other => ?_, fun f p body part accepted => ?_⟩
  · rw [own]
    exact up.fetched.trans (by rw [next, List.tail_cons])
  · exact (bound.others k hk).trans ((read k).trans (if_neg hk))
  · rw [bound.other_command (up.cmd.symm ▸ other), ← made]
    rfl
  · have alike : BindsAlike s u q := ⟨made ▸ rfl, own_u ▸ up.batch⟩
    rw [← alike.bind_fst p f]
    refine bound.launch f p (up.cmd.symm ▸ body) ?_ (up.cmd.symm ▸ accepted)
    rw [State.headPart, next] at part
    rw [up.cmd, ← made]
    exact part

/-- The state once the executor has taken record bs, with the error that reading the shed's state for it finds (R503). -/
def State.dispatchWith (s : State) (q : Nat) (bs : List Byte) : Option HubFault → State
  | none => (s.take q bs).bindRun q
  | some (.lost u) => s.hubFound (.lost u)
  | some f => ((s.hubFound f).take q bs).bindRun q

theorem dispatchWith_restored (s : State) (q : Nat) (bs : List Byte) {f : HubFault} (good : ∀ u, f ≠ .lost u) :
    s.dispatchWith q bs (some f) = ((s.hubFound f).take q bs).bindRun q := by
  cases f with
  | lost u => exact absurd rfl (good u)
  | single u => rfl
  | restored u => rfl

theorem exec_commandDispatch (q : Nat) (hub : Option HubFault) (s : State) :
    exec (.commandDispatch q hub) s = execCommandDispatch q hub s := rfl

section
variable (next : (s.queue q).fetched = bs :: rest) (sel : s.selected q = true) (live : s.inReset = false) (serves : s.pwr.ow = .serving)
  (free : ∀ p, s.headPart q = some p → s.dispatchHeld p = false) (room : (s.queue q).inflight.length < 8) (hub : Option HubFault)
include next sel live serves free room

/-- Nothing holds the dispatch of a selected command: its tuning bar and the executor decide. -/
theorem dispatch_eq : exec (.commandDispatch q hub) s =
    if s.tuneBarred q then .next ((s.setQueue q { s.queue q with granted := false }).freeSlot q)
    else if s.accepts q bs then .next (s.dispatchWith q bs hub) else .next s := by
  rw [exec_commandDispatch, execCommandDispatch]
  dsimp only
  split
  case h_1 empty => exact nomatch next.symm.trans empty
  case h_2 bs2 rest2 next2 =>
    cases next.symm.trans next2
    rw [if_neg]
    · cases hub with
      | none => rfl
      | some f => cases f <;> rfl
    · cases head : s.headPart q with
      | none => simp [sel, live, room, serves]
      | some p => simp [sel, live, room, free p head]

theorem dispatch_barred (barred : s.tuneBarred q = true) :
    exec (.commandDispatch q hub) s = .next ((s.setQueue q { s.queue q with granted := false }).freeSlot q) := by
  rw [dispatch_eq next sel live serves free room, if_pos barred]

theorem dispatch_waits (may : s.tuneBarred q = false) (refuses : s.accepts q bs = false) :
    exec (.commandDispatch q hub) s = .next s := by
  rw [dispatch_eq next sel live serves free room, may, refuses]
  rfl

theorem dispatch_takes (may : s.tuneBarred q = false) (accepts : s.accepts q bs = true) :
    exec (.commandDispatch q hub) s = .next (s.dispatchWith q bs hub) := by
  rw [dispatch_eq next sel live serves free room, may, accepts]
  rfl

end
end

/-! A register written. -/

theorem regWrite_mayWrite {s : State} {rq : Requester} {o : Nat} (may : s.mayWrite rq o) (f : State → State) :
    s.regWrite rq o f = f s := by
  obtain ⟨up, unheld, gate⟩ := may
  have kept : s.dropHeld rq = s := by simp [State.dropHeld, unheld]
  rw [regWrite_acts s rq o f up (kept.symm ▸ gate), kept]

/-! SLOT_QMAP and SLOT_EPOCH_CMD (R406, R417). -/

section
variable {s : State} {rq : Requester}

theorem exec_slotQmapWrite (rq : Requester) (q slot : Nat) (s : State) :
    exec (.slotQmapWrite rq q slot) s = execSlotQmapWrite rq q slot s := rfl

section
variable {q slot : Nat} (hq : q < 512) (may : s.mayWrite rq (0x61000 + 8 * q))
include hq may

theorem slotQmapWrite_fits (fits : s.slotFits q slot = true) : exec (.slotQmapWrite rq q slot) s =
    .next { s with qmap := Tab.set .reset s.qmap q { s.qmapOf q with slot := slot } } := by
  rw [exec_slotQmapWrite, execSlotQmapWrite, regWrite_mayWrite may, if_neg (by omega), if_pos fits]

theorem slotQmapWrite_discards (misfits : s.slotFits q slot = false) :
    exec (.slotQmapWrite rq q slot) s = .next (s.discard 0x20 (0x61000 + 8 * q)) := by
  rw [exec_slotQmapWrite, execSlotQmapWrite, regWrite_mayWrite may, if_neg (by omega), misfits]
  rfl

end

/-- The operands of SLOT_EPOCH_CMD as they are kept (Table 14-7). -/
def Front.withEpoch (x : Front) (batch epoch p : Nat) : Front := { x with epochBatch := batch, epochEpoch := epoch, epochPart := p }

/-- A partition after an epoch was raised for a batch: the LAUNCH of that batch takes a newer one. -/
def Part.epochRaised (x : Part) (batch epoch : Nat) : Part :=
  match x.launch with
  | some l =>
    if l.batch ≠ batch then { x with epochResult := 1 }
    else if newer epoch l.epoch then { x with launch := some { l with epoch := epoch }, epochResult := 0 }
    else { x with epochResult := 2 }
  | none => { x with epochResult := 1 }

section
variable {x : Part} {batch epoch : Nat}

theorem epochRaised_newer {l : LaunchRun} (runs : x.launch = some l) (same : l.batch = batch) (is_newer : newer epoch l.epoch = true) :
    x.epochRaised batch epoch = { x with launch := some { l with epoch := epoch }, epochResult := 0 } := by
  simp [Part.epochRaised, runs, same, is_newer]

theorem epochRaised_older {l : LaunchRun} (runs : x.launch = some l) (same : l.batch = batch) (older : newer epoch l.epoch = false) :
    x.epochRaised batch epoch = { x with epochResult := 2 } := by
  simp [Part.epochRaised, runs, same, older]

theorem epochRaised_other (other : ∀ l, x.launch = some l → l.batch ≠ batch) :
    x.epochRaised batch epoch = { x with epochResult := 1 } := by
  unfold Part.epochRaised
  split
  case h_1 l runs => rw [if_pos (other l runs)]
  case h_2 => rfl

end

theorem exec_epochRaise (rq : Requester) (batch epoch part : Nat) (s : State) :
    exec (.epochRaise rq batch epoch part) s = execEpochRaise rq batch epoch part s := rfl

theorem epochRaise_raises (may : s.mayWrite rq 0x62000) (batch epoch part : Nat) : exec (.epochRaise rq batch epoch part) s =
    .next (({ s with front := s.front.withEpoch (batch % 2 ^ 32) (epoch % 2 ^ 16) (part % 8) } : State).setPart (part % 8)
      ((s.part (part % 8)).epochRaised (batch % 2 ^ 32) (epoch % 2 ^ 16))) := by
  rw [exec_epochRaise, execEpochRaise, regWrite_mayWrite may]
  unfold Part.epochRaised
  dsimp only [State.part]
  cases (s.parts.getD (part % 8) .reset).launch with
  | none => rfl
  | some l =>
    dsimp only
    split
    · rfl
    · split
      · rfl
      · rfl

end

/-- Settles O34: SLOT_SELECT and REGION_GRANT by the best of their candidates, the dispatch by what the record names, the
two writes by their conditions. -/
theorem slotsSelectDispatchAndGrant : Obligations.SlotsSelectDispatchAndGrant := by
  unfold Obligations.SlotsSelectDispatchAndGrant
  refine ⟨?select, ?dispatch, ?grant, ?qmap, ?epoch⟩
  case select =>
    intro i s hi _ en free live
    refine ⟨slotSelect_none, fun nonempty => ?_⟩
    obtain ⟨q, member, first, due⟩ := earliest_eligible s i nonempty
    exact ⟨q, member, slotSelect_some hi en free live first, due⟩
  case dispatch =>
    intro q bs rest s next sel live serves free room
    refine ⟨dispatch_barred next sel live serves free room, dispatch_waits next sel live serves free room,
      fun may accepts => ?_⟩
    have takes := dispatch_takes next sel live serves free room (may := may) (accepts := accepts)
    obtain ⟨y, taken⟩ := take_bindRun next
    exact ⟨⟨_, y, takes none, taken⟩, fun u => takes (some (.lost u)), fun h good => by
      rw [takes, dispatchWith_restored s q bs good]⟩
  case grant =>
    intro p s idle unused live has
    refine ⟨fun nobody => regionGrant_waits (grantee_none nobody), fun waiter => ?_⟩
    obtain ⟨q, first, best⟩ := grantee_grants waiter
    exact ⟨q, best.waits, regionGrant_grants idle unused live has first, best.system, best.user⟩
  case qmap =>
    intro rq q slot s hq may
    refine ⟨fun fits => ⟨_, slotQmapWrite_fits hq may fits, rfl, ?_, fun k other => ?_⟩, slotQmapWrite_discards hq may⟩
    · exact (Tab.get_set ..).trans (if_pos rfl)
    · exact Tab.get_set_ne _ _ other
  case epoch =>
    intro rq batch epoch part s may hp p e
    refine ⟨_, epochRaise_raises may batch epoch part, rfl, rfl, fun k other => part_setPart_ne _ _ _ other,
      fun l runs same is_newer => ?_, fun l runs same older => ?_, fun other => ?_⟩
    · exact (part_setPart _ _ _ hp).trans (epochRaised_newer runs same is_newer)
    · exact (part_setPart _ _ _ hp).trans (epochRaised_older runs same older)
    · exact (part_setPart _ _ _ hp).trans (epochRaised_other other)

end Sys2Proof.Machine
end

section
/-! SUPPORT. An update of each region of a list, and what the lookaside caches hold after a walk or a removal (R351, R353,
Table 12-11); and the settlement of O15. -/
namespace Sys2Proof.Machine

/-! Each region of a list updated. -/

/-- What a fold over distinct regions leaves of each, when every step keeps Q and updates the region it is at by g. -/
theorem foldl_region {Q : State → Prop} {f : State → Nat → State} {g : Region → Region} {l : List Nat} {s : State}
    (distinct : l.Nodup) (start : Q s)
    (step : ∀ t, Q t → ∀ r ∈ l, Q (f t r) ∧ ∀ k, (f t r).region k = if k = r then g (t.region k) else t.region k) :
    Q (l.foldl f s) ∧ ∀ k, (l.foldl f s).region k = if k ∈ l then g (s.region k) else s.region k := by
  induction l generalizing s with
  | nil => exact ⟨start, fun k => rfl⟩
  | cons r l ih =>
    obtain ⟨fresh, distinct⟩ := List.nodup_cons.mp distinct
    obtain ⟨next, here⟩ := step s start r List.mem_cons_self
    obtain ⟨last, rest⟩ := ih distinct next (fun t q k hk => step t q k (List.mem_cons_of_mem r hk))
    refine ⟨last, fun k => (rest k).trans ?_⟩
    rw [here]
    by_cases hk : k = r
    · rw [if_neg (hk ▸ fresh), if_pos hk, if_pos (hk ▸ List.mem_cons_self)]
    · simp only [hk, if_false, List.mem_cons, false_or]

theorem regionsOf_nodup (s : State) (p : Nat) : (s.regionsOf p).Nodup := by
  unfold State.regionsOf
  split
  · exact List.nodup_range.filter _
  · exact List.nodup_nil

/-- A number past the regions reads as the reset region. -/
theorem region_reset_of_le {s : State} {r : Nat} (h : s.regions.length ≤ r) : s.region r = .reset := by
  rw [State.region, List.getD_eq_getElem?_getD, List.getElem?_eq_none h, Option.getD_none]

/-- An update that leaves the reset region alone may be read back also where no region is. -/
theorem region_setRegion_update (s : State) (r k : Nat) (g : Region → Region) (idle : g .reset = .reset) :
    (s.setRegion r (g (s.region r))).region k = if k = r then g (s.region k) else s.region k := by
  by_cases hk : k = r
  · subst hk
    rw [if_pos rfl]
    by_cases exists_ : k < s.regions.length
    · rw [region_setRegion _ _ _ _ exists_, if_pos rfl]
    · have past := Nat.le_of_not_lt exists_
      rw [region_reset_of_le past, idle]
      exact region_reset_of_le (by rw [setRegion_regions_length]; exact past)
  · rw [region_setRegion_ne _ _ _ _ hk, if_neg hk]

/-! The walk of a miss. -/

/-- The region once the range that it waited for is in its lookaside cache, which keeps the 256 most recent. -/
def Region.walked (c : CachedRange) (x : Region) : Region :=
  { x with walk := none, rlc := if c ∈ x.rlc then x.rlc else (c :: x.rlc).take 256 }

theorem exec_rlcWalkDone (r va : Nat) (s : State) : exec (.rlcWalkDone r va) s = execRlcWalkDone r va s := rfl

section
variable {s : State} {r va p : Nat} {l : LaunchRun}

/-- A region that waits for a walk exists. -/
theorem sameWalk_lt {k : Nat} (waits : s.sameWalk p l va k = true) : k < s.regions.length := by
  refine Nat.lt_of_not_le fun past => ?_
  simp [State.sameWalk, region_reset_of_le past, Region.reset] at waits

theorem rlcWalkDone_idle (runs : s.regRun r = some (p, l)) (other : (s.region r).walk ≠ some va) :
    exec (.rlcWalkDone r va) s = .next s := by
  rw [exec_rlcWalkDone, execRlcWalkDone, runs]
  exact if_neg other

variable {e : RangeEntry} {base : Nat} (found : s.entryFor (s.regVia p l) va = some (e, base))
  (good : s.walkBad (s.regVia p l) [⟨va, 0, 0, e⟩] = none)
include found good

/-- A walk without an error fills the cache of one region. -/
theorem rlcFill_eq (k : Nat) : ∃ o, s.rlcFill p l va k =
    { s.setRegion k ((s.region k).walked (s.rlcTag p l ⟨va, 0, 0, e⟩)) with obs := o } := by
  unfold State.rlcFill Region.walked
  rw [found]
  dsimp only
  by_cases hit : s.rlcTag p l ⟨va, 0, 0, e⟩ ∈ (s.region k).rlc
  · rw [if_pos (List.contains_iff_mem.mpr hit), if_pos hit]
    exact ⟨s.obs, rfl⟩
  · rw [if_neg (mt List.contains_iff_mem.mp hit), good, if_neg hit]
    obtain ⟨c, counted⟩ := bumpPart_eq (s.setRegion k ((s.region k).walked (s.rlcTag p l ⟨va, 0, 0, e⟩))) p 0x13 1
    rw [Region.walked, if_neg hit] at counted
    exact ⟨_, counted⟩

theorem rlcWalkDone_fills (runs : s.regRun r = some (p, l)) (waits : (s.region r).walk = some va) :
    exec (.rlcWalkDone r va) s =
      .next (((s.regionsOf p).filter (s.sameWalk p l va)).foldl (fun (s : State) q => s.rlcFill p l va q) s) := by
  rw [exec_rlcWalkDone, execRlcWalkDone, runs]
  dsimp only
  rw [if_pos waits, found, Option.bind_some, good]

/-- The caches of all the regions that wait for the walk fill, and nothing changes but regions and counters. -/
theorem foldl_rlcFill {ks : List Nat} (distinct : ks.Nodup) (exist : ∀ k ∈ ks, k < s.regions.length) :
    let t := ks.foldl (fun (s : State) k => s.rlcFill p l va k) s
    (∃ rs o, t = { s with regions := rs, obs := o } ∧ rs.length = s.regions.length) ∧
      ∀ k, t.region k = if k ∈ ks then (s.region k).walked (s.rlcTag p l ⟨va, 0, 0, e⟩) else s.region k := by
  refine foldl_region (Q := fun t => ∃ rs o, t = { s with regions := rs, obs := o } ∧ rs.length = s.regions.length)
    distinct ⟨s.regions, s.obs, rfl, rfl⟩ ?_
  rintro _ ⟨rs, o, rfl, len⟩ k hk
  obtain ⟨o', filled⟩ := rlcFill_eq (s := { s with regions := rs, obs := o }) found good k
  rw [filled]
  refine ⟨⟨_, o', rfl, (setRegion_regions_length ..).trans len⟩, fun j => ?_⟩
  have read := region_setRegion { s with regions := rs, obs := o } k j
    ((State.region { s with regions := rs, obs := o } k).walked (s.rlcTag p l ⟨va, 0, 0, e⟩)) (len ▸ exist k hk)
  by_cases hj : j = k
  · subst hj
    exact read
  · rw [if_neg hj] at read ⊢
    exact read

end

/-- Settles O15: the walk's end folds one fill over the regions that wait for it. -/
theorem walkerFillsTheLookasideCache : Obligations.WalkerFillsTheLookasideCache := by
  unfold Obligations.WalkerFillsTheLookasideCache
  intro r va p l e base s runs
  refine ⟨rlcWalkDone_idle runs, fun waits found good => ?_⟩
  obtain ⟨⟨rs, o, frame, _⟩, filled⟩ := foldl_rlcFill found good
    (ks := (s.regionsOf p).filter (s.sameWalk p l va)) ((regionsOf_nodup s p).filter _)
    (fun k hk => sameWalk_lt (List.mem_filter.mp hk).2)
  refine ⟨_, rlcWalkDone_fills found good runs waits, ?_, fun k => ?_⟩
  · rw [frame]
  · rw [filled]
    simp only [List.mem_filter]
    rfl

end Sys2Proof.Machine
end

section
/-! SUPPORT. Range operations taken in and completed, hot-segment registers, and the background read (R347, R350, R351, R357,
R362); and the settlement of O44. -/
namespace Sys2Proof.Machine

/-! A range operation written with GO (R350). -/

theorem exec_rangeOp {e : (Requester → Nat → Bool → Instr) × Nat}
    (op : e ∈ [(Instr.rtInsert, 0), (.rtRemove, 1), (.rtReplace, 2), (.rtFlush, 3)]) (rq : Requester) (ctx : Nat) (drain : Bool)
    (s : State) : exec (e.1 rq ctx drain) s = .next (s.rangeGo rq ctx e.2 drain) := by
  simp only [List.mem_cons, List.not_mem_nil, or_false] at op
  rcases op with rfl | rfl | rfl | rfl
  all_goals rfl

/-- MMU_RT_CMD holds the fields of an operation. -/
def State.withRangeCmd (s : State) (ctx op : Nat) (drain : Bool) : State :=
  { s with mem := { s.mem with rtCtx := ctx, rtOp := op, rtDrain := drain } }

/-- MMU_RT_STAT shows a refusal, and the number of entries that the table keeps. -/
def State.withRangeResult (s : State) (ctx result : Nat) : State :=
  { s with mem := { s.mem with rtResult := result, rtCount := (s.table ctx).length } }

section
variable {s : State} {rq : Requester} {ctx op : Nat} {drain : Bool} (may : s.mayWrite rq 0x80000)
include may

theorem rangeGo_busy (busy : s.mem.rtBusy.isSome = true) : s.rangeGo rq ctx op drain = s.discard 0x21 0x80000 := by
  rw [State.rangeGo, regWrite_mayWrite may, if_pos busy]

variable (low : ctx < 64) (free : s.mem.rtBusy = none)
include low free

theorem rangeGo_taken (accepted : s.rangeRefusal rq ctx op = 0) : s.rangeGo rq ctx op drain =
    let u := s.withRangeCmd ctx op drain
    { u with mem := { u.mem with rtBusy := some ⟨ctx, op, drain, s.mem.rtData.map BitVec.toNat⟩ } } := by
  rw [State.rangeGo, regWrite_mayWrite may, free, Nat.mod_eq_of_lt low]
  exact if_pos accepted

theorem rangeGo_refused (refused : s.rangeRefusal rq ctx op ≠ 0) : ∃ g, s.rangeGo rq ctx op drain =
    let u := (s.withRangeCmd ctx op drain).withRangeResult ctx (s.rangeRefusal rq ctx op)
    { u with obs := { u.obs with rings := g } } := by
  obtain ⟨g, noted⟩ := event_eq ((s.withRangeCmd ctx op drain).withRangeResult ctx (s.rangeRefusal rq ctx op))
    (islandShed (shedUnitOf 0x80000)) 0x81 none none (s.rangeRefusal rq ctx op + 8 * ctx)
  rw [State.rangeGo, regWrite_mayWrite may, free, Nat.mod_eq_of_lt low]
  exact ⟨g, (if_neg refused).trans noted⟩

end

/-! Its completion (R351). -/

section
variable {o : RangeOp} {t : List RangeEntry}

theorem apply_insert (op : o.op = 0) : o.apply t = insertRange (RangeEntry.ofWords o.data) t := by
  rw [RangeOp.apply, op]; rfl

theorem apply_remove (op : o.op = 1) : o.apply t = t.filter (fun x => x.start != (RangeEntry.ofWords o.data).start) := by
  rw [RangeOp.apply, op]; rfl

theorem apply_replace (op : o.op = 2) : o.apply t =
    insertRange (RangeEntry.ofWords o.data) (t.filter (fun x => x.start != (RangeEntry.ofWords o.data).start)) := by
  rw [RangeOp.apply, op]; rfl

theorem apply_flush (op : o.op = 3) : o.apply t = [] := by
  rw [RangeOp.apply, op]; rfl

end

/-- The region without the lookaside entries that f names. -/
def Region.dropping (f : CachedRange → Bool) (x : Region) : Region := { x with rlc := x.rlc.filter (fun c => !(f c)) }

/-- Entries leave the lookaside caches of the partition's regions, and nothing else changes. -/
theorem dropCached_eq (s : State) (p : Nat) (f : CachedRange → Bool) :
    (∃ rs, s.dropCached p f = { s with regions := rs }) ∧
      ∀ k, (s.dropCached p f).region k = if k ∈ s.regionsOf p then (s.region k).dropping f else s.region k := by
  refine foldl_region (Q := fun t => ∃ rs, t = { s with regions := rs }) (regionsOf_nodup s p) ⟨s.regions, rfl⟩ ?_
  rintro _ ⟨rs, rfl⟩ r _
  exact ⟨⟨_, rfl⟩, fun k => region_setRegion_update _ r k (Region.dropping f) rfl⟩

/-- The operation has changed its context's table, and the next one may be written. -/
def State.rangeDone (s : State) (o : RangeOp) : State :=
  let t := o.apply (s.table o.ctx)
  let u := s.putTable o.ctx t
  { u with mem := { u.mem with rtBusy := none, rtResult := 0, rtCount := t.length } }

theorem table_rangeDone (s : State) (o : RangeOp) : (s.rangeDone o).table o.ctx = o.apply (s.table o.ctx) :=
  (Tab.get_set ..).trans (if_pos rfl)

theorem table_rangeDone_ne (s : State) (o : RangeOp) {c : Nat} (other : c ≠ o.ctx) : (s.rangeDone o).table c = s.table c :=
  Tab.get_set_ne _ _ other

theorem exec_rtOpDone (s : State) : exec .rtOpDone s = execRtOpDone s := rfl

section
variable {s : State} {o : RangeOp} (busy : s.mem.rtBusy = some o)
include busy

theorem rtOpDone_drains (drains : o.drain = true ∧ o.op ≠ 0 ∧ s.accessing o.ctx ((s.partOfCtx o.ctx).getD 8) = true) :
    exec .rtOpDone s = .next s := by
  obtain ⟨drain, op, accessing⟩ := drains
  rw [exec_rtOpDone, execRtOpDone, busy]
  exact if_pos (by simp [drain, op, accessing])

theorem rtOpDone_completes (live : s.inReset = false)
    (drained : o.drain = false ∨ o.op = 0 ∨ s.accessing o.ctx ((s.partOfCtx o.ctx).getD 8) = false) :
    exec .rtOpDone s = .next ((s.rangeDone o).dropCached ((s.partOfCtx o.ctx).getD 8) o.drops) := by
  rw [exec_rtOpDone, execRtOpDone, busy]
  refine if_neg ?_
  rcases drained with h | h | h
  · simp [live, h]
  · simp [live, h]
  · simp [live, h]

end

/-! Hot segments (R357). -/

theorem exec_hotBaseWrite (rq : Requester) (v : Word) (s : State) : exec (.hotBaseWrite rq v) s = execHotBaseWrite rq v s := rfl

theorem exec_hotEpochHalve (s : State) : exec .hotEpochHalve s = execHotEpochHalve s := rfl

/-! The background read (R362). -/

theorem exec_backgroundRead (a : Nat) (found : MemOutcome) (s : State) :
    exec (.backgroundRead a found) s = execBackgroundRead a found s := rfl

/-- An error logged is in the newest entry, which starts at its unit or before it. -/
theorem logError_newest (s : State) (addr tier source : Nat) (part : Option Nat) (ctx seq queue : Nat) :
    ∃ e, (s.logError addr tier source part ctx seq queue).mem.errlog.head? = some e ∧ e.addr ≤ addr ∧ e.source = source ∧
      e.last = s.now := by
  unfold State.logError State.logErrorAt
  obtain ⟨r, noted⟩ := event_eq s (s.errIsland addr tier) 0x80 part none (tier + 8 * ctx)
  rw [noted]
  have newest (u : State) {e : ErrEntry} (head : u.mem.errlog.head? = some e) : (u.irq 0).mem.errlog.head? = some e := by
    obtain ⟨o, h, raised⟩ := irq_eq u 0
    rw [raised]
    exact head
  cases s.mem.errlog with
  | nil => exact ⟨_, newest _ rfl, Nat.le_refl addr, rfl, rfl⟩
  | cons e rest =>
    dsimp only
    split
    case isTrue joins =>
      have source_eq : e.source = source := by
        simp only [ErrEntry.joins, Bool.and_eq_true, beq_iff_eq] at joins
        exact joins.1.1.2
      exact ⟨_, rfl, Nat.min_le_right e.addr addr, source_eq, rfl⟩
    case isFalse => exact ⟨_, newest _ rfl, Nat.le_refl addr, rfl, rfl⟩

section
variable {s : State} {a : Nat}

theorem backgroundRead_good : exec (.backgroundRead a .good) s = .next s := by
  rw [exec_backgroundRead, execBackgroundRead]
  exact ite_self _

theorem backgroundRead_hbm (hbm : mapRow (a / 64 * 64) = .hbm) : exec (.backgroundRead a .corrected) s =
    .next { s with mem := { s.mem with correctedHbm := s.mem.correctedHbm + 1 } } := by
  rw [exec_backgroundRead, execBackgroundRead, hbm]
  rfl

theorem backgroundRead_cellar (cellar : mapRow (a / 64 * 64) = .cellar) : exec (.backgroundRead a .corrected) s =
    .next { s with mem := { s.mem with correctedCel := s.mem.correctedCel + 1 } } := by
  rw [exec_backgroundRead, execBackgroundRead, cellar]
  rfl

/-- The state with one more unit that holds an uncorrectable error. -/
def State.withBad (s : State) (u : Nat) : State :=
  { s with mem := { s.mem with bad := if s.mem.bad.contains u then s.mem.bad else s.mem.bad ++ [u] } }

theorem mem_withBad (s : State) (u : Nat) : u ∈ (s.withBad u).mem.bad := by
  unfold State.withBad
  dsimp only
  split
  case isTrue has => exact List.contains_iff_mem.mp has
  case isFalse => exact List.mem_append_right _ List.mem_cons_self

theorem backgroundRead_uncorrectable (row : mapRow (a / 64 * 64) = .hbm ∨ mapRow (a / 64 * 64) = .cellar) :
    ∃ tier, exec (.backgroundRead a .uncorrectable) s =
      .next ((s.withBad (a / 64)).logError (a / 64 * 64) tier 3 none 0 0 0) := by
  rw [exec_backgroundRead, execBackgroundRead, Nat.mul_div_cancel _ (by decide : 0 < 64)]
  rcases row with row | row
  · rw [row]
    exact ⟨1, rfl⟩
  · rw [row]
    exact ⟨2, rfl⟩

end

/-- Settles O44: an operation by the outcomes of `rangeGo`, its completion by `rangeDone` and `dropCached`, the registers and
the background read by their conditions. -/
theorem rangeOperationsTakeEffect : Obligations.RangeOperationsTakeEffect := by
  unfold Obligations.RangeOperationsTakeEffect
  refine ⟨?go, ?done, ?base, ?halve, ?background⟩
  case go =>
    intro i op hop rq ctx drain s low may m r
    rw [exec_rangeOp hop]
    refine ⟨fun busy => by rw [rangeGo_busy may busy], fun free accepted => by rw [rangeGo_taken may low free accepted]; rfl,
      fun free refused => ?_⟩
    obtain ⟨g, result⟩ := rangeGo_refused (op := op) (drain := drain) may low free refused
    exact ⟨_, rfl, by rw [result]; rfl⟩
  case done =>
    intro o s busy live
    refine ⟨rtOpDone_drains busy, fun drained => ⟨_, rtOpDone_completes busy live drained, ?_⟩⟩
    obtain ⟨⟨rs, frame⟩, dropped⟩ := dropCached_eq (s.rangeDone o) ((s.partOfCtx o.ctx).getD 8) o.drops
    have tables (c : Nat) : State.table ((s.rangeDone o).dropCached ((s.partOfCtx o.ctx).getD 8) o.drops) c =
        (s.rangeDone o).table c := by rw [frame]; rfl
    simp only [tables, table_rangeDone]
    refine ⟨apply_insert, apply_remove, apply_replace, apply_flush, fun c => table_rangeDone_ne s o, ?_, ?_, ?_, fun r member => ?_⟩
    · rw [frame]; rfl
    · rw [frame]; exact fun u bad => (List.mem_filter.mp bad).1
    · rw [frame]; rfl
    · exact (dropped r).trans (if_pos member)
  case base =>
    intro rq v s may
    rw [exec_hotBaseWrite, execHotBaseWrite, regWrite_mayWrite may]
    exact ⟨fun on => congrArg _ (if_pos on), fun off => congrArg _ (if_neg (Bool.not_eq_true _ ▸ off))⟩
  case halve =>
    intro s due
    rw [exec_hotEpochHalve, execHotEpochHalve]
    refine ⟨fun on ended => congrArg _ (if_pos (by simp [on, due, ended])), fun early => congrArg _ (if_neg ?_)⟩
    rcases early with off | early
    · simp [off]
    · simp [due, early]
  case background =>
    intro a s u
    refine ⟨backgroundRead_good, backgroundRead_hbm, backgroundRead_cellar, fun row => ?_⟩
    obtain ⟨tier, read⟩ := backgroundRead_uncorrectable (s := s) row
    have newest := logError_newest (s.withBad (a / 64)) u tier 3 none 0 0 0
    obtain ⟨r, l, k, o, h, logged⟩ := logError_eq (s.withBad (a / 64)) u tier 3 none 0 0 0
    refine ⟨_, read, ?_, ?_, ?_, ?_, ?_, newest⟩
    all_goals rw [logged]
    · exact mem_withBad s (a / 64)
    all_goals rfl

end Sys2Proof.Machine
end

section
/-! SUPPORT. BAR 0 from the host's port: whole register writes, the channel 2 window, the return record, MSI-X, and CXL
configuration space (R528, R561, R574, R576, R580, R586). -/
namespace Sys2Proof.Machine

/-! A whole write of a listed register (R580, R581). -/

section
variable {s : State} {rq : Requester} {o : Nat} {g : Reg}

theorem dropHeld_of_none (unheld : (s.halves rq).held = none) : s.dropHeld rq = s := by
  rw [State.dropHeld, unheld]

theorem dropLatch_of_none (unlatched : (s.halves rq).latch = none) (o : Nat) : s.dropLatch rq o = s := by
  rw [State.dropLatch, unlatched]

/-- A write that may act passes the gate to the register's effect. -/
theorem regStore_whole (may : s.mayWrite rq o) (unlatched : (s.halves rq).latch = none) (aligned : o % 8 = 0) (v : Word) :
    s.regStore rq g o 8 v.toNat = s.regEffect rq o v.toNat true true g := by
  obtain ⟨_, unheld, gate⟩ := may
  have base : o / 8 * 8 = o := Nat.div_mul_cancel (Nat.dvd_of_mod_eq_zero aligned)
  rw [State.regStore, base, dropLatch_of_none unlatched]
  dsimp only
  rw [if_pos ⟨rfl, aligned⟩, dropHeld_of_none unheld, State.regPut, gate, Nat.mod_eq_of_lt v.isLt]

/-- The blocks of BAR 0 that hold no register of the map. -/
theorem regOf_unlisted (o : Nat)
    (block : blockOf o ∈ [Block22.component, .msix, .bdpWin, .genWin, .ringWin, .seqWin, .reserved]) : regOf o = none := by
  unfold regOf
  split
  · rfl
  · simp only [List.mem_cons, List.not_mem_nil, or_false] at block
    rcases block with h | h | h | h | h | h | h
    all_goals rw [h]

/-- A write where the map lists a register goes to that register. -/
theorem busWrite_listed (up : s.portUp rq = true) (listed : regOf o = some g) (aligned : o % 8 = 0) (n v : Nat) :
    s.busWrite rq o n v = s.regStore rq g o n v := by
  have base : o / 8 * 8 = o := Nat.div_mul_cancel (Nat.dvd_of_mod_eq_zero aligned)
  have unlisted := mt (regOf_unlisted o) (by simp [listed])
  rw [State.busWrite, up, base, listed]
  cases block : blockOf o
  case component | msix | bdpWin | genWin | ringWin | seqWin | reserved => exact absurd (by simp [block]) unlisted
  all_goals rfl

theorem exec_registerWrite (rq : Requester) (o n : Nat) (v : Word) (s : State) :
    exec (.registerWrite rq o n v) s = execRegisterWrite rq o n v s := rfl

theorem registerWrite_effect (may : s.mayWrite rq o) (unlatched : (s.halves rq).latch = none) (listed : regOf o = some g)
    (aligned : o % 8 = 0) (v : Word) :
    exec (.registerWrite rq o 8 v) s = .next (s.regEffect rq o v.toNat true true g) := by
  have outside : blockOf o ≠ .bdpWin := fun window => by simp [regOf_unlisted o (by simp [window])] at listed
  rw [exec_registerWrite, execRegisterWrite, if_neg (fun h => outside h.2), busWrite_listed may.1 listed aligned,
    regStore_whole may unlatched aligned]

end

/-! The bulk data port's address registers and the host's window (R561, R562). -/

section
variable {s : State}

theorem setBdp_bdpCh (c : Nat) (x : BdpCh) (hc : c < s.obs.bdp.length) : (s.setBdp c x).bdpCh c = x := by
  simp [State.bdpCh, State.setBdp, State.setObs, hc]

theorem setBdp_bdpCh_ne {c k : Nat} (x : BdpCh) (other : k ≠ c) : (s.setBdp c x).bdpCh k = s.bdpCh k := by
  simp [State.bdpCh, State.setBdp, State.setObs, List.getD_eq_getElem?_getD, Ne.symm other]

theorem exec_bdpAddrWrite (rq : Requester) (c : Nat) (v : Word) (s : State) :
    exec (.bdpAddrWrite rq c v) s = execBdpAddrWrite rq c v s := rfl

theorem bdpAddrWrite_sets {rq : Requester} {c : Nat} {v : Word} (hc : c < 3) (may : s.mayWrite rq (0x140000 + 8 * c))
    (listed : v.toNat / 2 ^ 60 < 5) : exec (.bdpAddrWrite rq c v) s =
      .next (s.setBdp c { s.bdpCh c with space := v.toNat / 2 ^ 60, offset := v.toNat % 2 ^ 48, seen := 0 }) := by
  rw [exec_bdpAddrWrite, execBdpAddrWrite, if_neg (Nat.not_le_of_lt hc), regWrite_mayWrite may, State.setBdpAddr,
    State.unlisted, if_pos (decide_eq_true listed), taken, if_pos (decide_eq_true listed)]

/-- Only accesses of space 0 wait for lines that the host holds. -/
theorem bdpHeld_space {c : Nat} (space : (s.bdpCh c).space ≠ 0) (o n : Nat) (write : Bool) : s.bdpHeld c o n write = [] := by
  unfold State.bdpHeld
  exact if_neg fun h => space h.1

theorem bdpFits_of_windowFits {o n : Nat} (fits : windowFits o n = true) (inside : o + n ≤ 4096) :
    (windowFits o n && bdpFits o n) = true := by
  have some_bytes : 0 < n := by
    simp only [windowFits, Bool.and_eq_true, decide_eq_true_eq] at fits
    omega
  simp [fits, bdpFits, some_bytes, inside]

/-- A write of the staging area through a channel. -/
theorem bdpAccess_stages {c o : Nat} {d : List Byte} (space : (s.bdpCh c).space = 1)
    (served : s.bdpFail true 1 ((s.bdpCh c).offset + o) d.length = none) :
    (s.bdpAccess c o d.length (some d)).2.2.trl.staging = s.trl.staging.store ((s.bdpCh c).offset + o) d := by
  unfold State.bdpAccess
  dsimp only [Option.isSome]
  rw [space, served]
  rfl

/-- A read of the staging area through a channel. -/
theorem bdpAccess_reads {c o n : Nat} (space : (s.bdpCh c).space = 1)
    (served : s.bdpFail false 1 ((s.bdpCh c).offset + o) n = none) :
    s.bdpAccess c o n none = (.ok, s.trl.staging.load ((s.bdpCh c).offset + o) n, s.setBdp c ((s.bdpCh c).track o n)) := by
  unfold State.bdpAccess
  dsimp only [Option.isSome]
  rw [space, served]
  rfl

theorem exec_bdpWindowWrite (o n : Nat) (d : List Byte) (s : State) :
    exec (.bdpWindowAccess o n (some d)) s = .next (s.window2 o d.length (some d)) := rfl

theorem exec_bdpWindowRead (o n : Nat) (s : State) : exec (.bdpWindowAccess o n none) s = .next (s.window2 o n none) := rfl

section
variable {o n : Nat} (up : s.portUp .host = true) (unheld : (s.halves .host).held = none) (fits : windowFits o n = true)
  (inside : o + n ≤ 4096) (space : (s.bdpCh 2).space ≠ 0)
include up unheld fits inside space

theorem window2_writes (live : s.inReset = false) (d : List Byte) :
    s.window2 o n (some d) = (s.bdpAccess 2 o n (some d)).2.2 := by
  rw [State.window2, up, dropHeld_of_none unheld]
  dsimp only
  rw [live, bdpFits_of_windowFits fits inside, bdpHeld_space space]
  rfl

theorem window2_reads :
    s.window2 o n none = (s.bdpAccess 2 o n none).2.2.emit (.windowData (s.bdpAccess 2 o n none).2.1) := by
  rw [State.window2, up, dropHeld_of_none unheld]
  dsimp only
  rw [bdpFits_of_windowFits fits inside, bdpHeld_space space]
  rfl

end

/-! The return record (R574). -/

theorem exec_capture (rq : Requester) (s : State) : exec (.capture rq) s = execCapture rq s := rfl

theorem exec_returnRecordDone (s : State) : exec .returnRecordDone s = execReturnRecordDone s := rfl

theorem returnRecordDone_idle (idle : s.obs.rrBusy = false) : exec .returnRecordDone s = .next s := by
  rw [exec_returnRecordDone, execReturnRecordDone, idle]
  rfl

theorem returnRecordDone_stores (busy : s.obs.rrBusy = true) : ∃ o ns n k, exec .returnRecordDone s =
    .next { s with out := o, obs := { s.obs with
      rrBusy := false, rrDone := true, record := Memory.store [] 0 s.returnRecord, nseq := n, notices := ns, nlost := k } } := by
  rw [exec_returnRecordDone, execReturnRecordDone, if_pos busy]
  generalize Memory.store [] 0 s.returnRecord = record
  obtain ⟨o, ns, k, told⟩ := notify_eq (s.setObs (fun x => { x with rrBusy := false, rrDone := true, record := record }))
    0x0009 none 0xE3000
  rw [told]
  exact ⟨o, ns, _, k, rfl⟩

/-! MSI-X (R586). -/

theorem exec_msixUnmask (v : Nat) (s : State) : exec (.msixUnmask v) s = execMsixUnmask v s := rfl

theorem msixUnmask_unmasks {v : Nat} (hv : v < 2048) (up : s.portUp .host = true) :
    exec (.msixUnmask v) s = .next (s.unmask v) := by
  rw [exec_msixUnmask, execMsixUnmask, if_neg (by simp [up, hv])]

/-- Sending a pending vector changes no entry of the table. -/
theorem sendPending_msix (v : Nat) : (s.sendPending v).host.msix = s.host.msix := by
  unfold State.sendPending
  split
  · rfl
  · rfl

theorem sendPending_sends {v : Nat} (pending : Tab.get false s.host.msixPend v = true) (en : s.host.msixEn = true)
    (open_ : s.host.fmask = false) (unmasked : (Tab.get .reset s.host.msix v).mask = false) (live : s.inReset = false) :
    (s.sendPending v).out = .vector v :: s.out ∧ Tab.get false (s.sendPending v).host.msixPend v = false := by
  rw [State.sendPending, if_pos (by simp [pending, en, open_, unmasked, live])]
  exact ⟨rfl, (Tab.get_set s.host.msixPend v v false).trans (if_pos rfl)⟩

theorem sendPending_none {v : Nat} (idle : Tab.get false s.host.msixPend v = false) : s.sendPending v = s := by
  rw [State.sendPending, idle]
  rfl

theorem setMsix_msix (v : Nat) (x : Msix) : Tab.get .reset (s.setMsix v x).host.msix v = x :=
  (Tab.get_set ..).trans (if_pos rfl)

/-- Vectors that wait are sent, and nothing else changes. -/
theorem flushVectors_eq (s : State) : ∃ m o, s.flushVectors = { s with host := { s.host with msixPend := m }, out := o } := by
  refine List.foldlRecOn (motive := fun (t : State) => ∃ m o, t = { s with host := { s.host with msixPend := m }, out := o }) _ _
    ⟨s.host.msixPend, s.out, rfl⟩ ?_
  rintro _ ⟨m, o, rfl⟩ v _
  dsimp only
  split
  · exact ⟨_, _, rfl⟩
  · exact ⟨m, o, rfl⟩

/-! CXL configuration space (R528, R576). -/

theorem exec_configurationRequest (c : CfgReq) (s : State) :
    exec (.configurationRequest c) s = execConfigurationRequest c s := rfl

section
variable (rails : s.board.rails = true) (up : s.host.perst = false) (c : CfgReq)
include rails up

theorem configurationRequest_retries (early : s.trl.phase < 3) :
    exec (.configurationRequest c) s = .next { s with out := .config none :: s.out } := by
  rw [exec_configurationRequest, execConfigurationRequest, rails, up]
  exact if_pos early

theorem configurationRequest_takes (served : 3 ≤ s.trl.phase) : exec (.configurationRequest c) s = .next (s.configTake c) := by
  rw [exec_configurationRequest, execConfigurationRequest, rails, up]
  exact if_neg (Nat.not_lt_of_le served)

end

theorem configTake_msixControl (en f : Bool) : ∃ m o, s.configTake (.msixControl en f) =
    { s with host := { s.host with msixEn := en, fmask := f, msixPend := m }, out := o } := by
  dsimp only [State.configTake]
  split
  · exact ⟨s.host.msixPend, s.out, rfl⟩
  · obtain ⟨m, o, e⟩ := flushVectors_eq { s with host := { s.host with msixEn := en, fmask := f } }
    exact ⟨m, o, e⟩

end

end Sys2Proof.Machine
end

section
/-! SUPPORT. CXL.mem: what a read and a write of the host leave, and what goes on when it gives up a line (R361, R364 to
R367); and the settlement of O42. -/
namespace Sys2Proof.Machine

theorem exec_cxlMemRead (a n : Nat) (s : State) : exec (.cxlMemRead a n) s = execCxlMemRead a n s := rfl

theorem exec_cxlMemWrite (a : Nat) (d : List Byte) (s : State) : exec (.cxlMemWrite a d) s = execCxlMemWrite a d s := rfl

theorem exec_biSnoopResponse (l : Nat) (s : State) : exec (.biSnoopResponse l) s = execBiSnoopResponse l s := rfl

/-! Accesses outside every exposed span (R368). -/

/-- A refused access draws one open value and leaves an event. -/
theorem cxlRefused_eq (s : State) (a : Nat) :
    ∃ r, s.cxlRefused a = { s with fresh := s.fresh + 1, obs := { s.obs with rings := r } } := by
  obtain ⟨r, noted⟩ := event_eq s.draw.2 (islandShed 0) (s.draw.1.toNat % 256) none none (a % 2 ^ 32)
  exact ⟨r, noted⟩

/-! Reads (R365, R367). -/

/-- A read's lines are in the snoop filter, and its memory is awake. -/
def State.entered (s : State) (a n : Nat) : State :=
  { s.wakeMem with mem := { s.wakeMem.mem with snoop := (s.newLines a n).reverse ++ s.mem.snoop } }

/-- Lines that enter the filter change neither the bytes nor the errors of device memory. -/
theorem entered_reads (s : State) (a n : Nat) : (s.entered a n).readLocal a n = s.readLocal a n ∧
    (s.entered a n).badUnit a n = s.badUnit a n ∧ (s.entered a n).mem.loc = s.mem.loc := by
  obtain ⟨w, woken⟩ := wakeMem_eq s
  rw [State.entered, woken]
  exact ⟨rfl, rfl, rfl⟩

theorem mem_entered {s : State} {a n l : Nat} (touched : l ∈ unitsOf a n) : l ∈ (s.entered a n).mem.snoop := by
  change l ∈ (s.newLines a n).reverse ++ s.mem.snoop
  by_cases known : l ∈ s.mem.snoop
  · exact List.mem_append_right _ known
  · exact List.mem_append_left _ (List.mem_reverse.mpr (List.mem_filter.mpr ⟨touched, by simp [known]⟩))

/-- The answer carries the bytes and the data-error indication; the lines stay in the filter. -/
theorem cxlAnswer_answers (s : State) (a n : Nat) :
    (s.cxlAnswer a n).out.head? = some (.cxlData (s.readLocal a n) (s.badUnit a n).isSome) ∧
      (s.cxlAnswer a n).mem.loc = s.mem.loc ∧ (s.cxlAnswer a n).mem.snoop = (s.entered a n).mem.snoop := by
  obtain ⟨bytes, bad, loc⟩ := entered_reads s a n
  rw [← bytes, ← bad, ← loc]
  unfold State.cxlAnswer State.entered
  dsimp only
  split
  case h_1 u unit =>
    obtain ⟨r, l, k, o, h, logged⟩ := logError_eq (s.entered a n) u (if u < 0x9000000000 then 1 else 2) 2 none 0 0 0
    rw [State.entered] at logged
    rw [logged, unit]
    exact ⟨rfl, rfl, rfl⟩
  case h_2 unit =>
    rw [unit]
    exact ⟨rfl, rfl, rfl⟩

section
variable {s : State} {a n : Nat} (up : s.cxlUp = true) (some_bytes : 0 < n) (decoded : s.decoded a n = true)
include up some_bytes decoded

theorem cxlMemRead_refused (hidden : s.exposed a n = false) :
    exec (.cxlMemRead a n) s = .next ((s.cxlRefused a).emit (.cxlData [] true)) := by
  rw [exec_cxlMemRead, execCxlMemRead, if_neg (by simp [up, decoded, Nat.ne_of_gt some_bytes]),
    if_pos (by simp [hidden])]

variable (exposed : s.exposed a n = true)
include exposed

theorem cxlMemRead_answered (room : s.overLines a n = 0) : exec (.cxlMemRead a n) s = .next (s.cxlAnswer a n) := by
  rw [exec_cxlMemRead, execCxlMemRead, if_neg (by simp [up, decoded, Nat.ne_of_gt some_bytes]),
    if_neg (by simp [exposed]), if_pos room]

theorem cxlMemRead_waits (full : s.overLines a n ≠ 0) : exec (.cxlMemRead a n) s =
    .next (({ s with mem := { s.mem with cxlWait := s.mem.cxlWait ++ [(a, n)] } } : State).makeRoom a n) := by
  rw [exec_cxlMemRead, execCxlMemRead, if_neg (by simp [up, decoded, Nat.ne_of_gt some_bytes]),
    if_neg (by simp [exposed]), if_neg full]

end

/-! Writes (R361, R366). -/

section
variable {s : State} {a : Nat} {d : List Byte} (up : s.cxlUp = true) (some_bytes : d ≠ []) (decoded : s.decoded a d.length = true)
include up some_bytes decoded

theorem cxlMemWrite_refused (hidden : s.exposed a d.length = false) :
    exec (.cxlMemWrite a d) s = .next (s.cxlRefused a) := by
  rw [exec_cxlMemWrite, execCxlMemWrite, if_neg (by simp [up, decoded, some_bytes]), if_pos (by simp [hidden])]

variable (exposed : s.exposed a d.length = true)
include exposed

theorem cxlMemWrite_bad {u : Nat} (bad : s.badPartial a d.length = some u) : exec (.cxlMemWrite a d) s =
    .next (s.wakeMem.logError u (if u < 0x9000000000 then 1 else 2) 2 none 0 0 0) := by
  rw [exec_cxlMemWrite, execCxlMemWrite, if_neg (by simp [up, decoded, some_bytes]), if_neg (by simp [exposed]), bad]

theorem cxlMemWrite_stores (good : s.badPartial a d.length = none) :
    exec (.cxlMemWrite a d) s = .next (s.wakeMem.writeLocal a d) := by
  rw [exec_cxlMemWrite, execCxlMemWrite, if_neg (by simp [up, decoded, some_bytes]), if_neg (by simp [exposed]), good]

end

/-! The host gives up a line (R365). -/

/-- The filter without a line. -/
def State.given (s : State) (l : Nat) : State :=
  { s with mem := { s.mem with snoop := s.mem.snoop.filter (· != l), snooping := s.mem.snooping.filter (· != l) } }

section
variable {s : State} {l : Nat}

theorem biSnoopResponse_unasked (unasked : l ∉ s.mem.snooping) : exec (.biSnoopResponse l) s = .next s := by
  rw [exec_biSnoopResponse, execBiSnoopResponse, if_neg (by simp [unasked])]

theorem biSnoopResponse_goes_on (asked : l ∈ s.mem.snooping) : exec (.biSnoopResponse l) s =
    .next (State.flushReads (s.given l).flushHeld.mem.cxlWait.length (s.given l).flushHeld) := by
  rw [exec_biSnoopResponse, execBiSnoopResponse, if_pos (List.contains_iff_mem.mpr asked)]
  rfl

theorem flushHeld_none (none_held : s.mem.held = []) : s.flushHeld = s := by
  have emptied : ({ s with mem := { s.mem with held := [] } } : State) = s := by rw [← none_held]
  unfold State.flushHeld
  rw [none_held]
  exact emptied

/-- One write that no queue waits for, and whose lines the host no longer holds, is made. -/
theorem flushHeld_one {w : HeldWrite} (held : s.mem.held = [w]) (unowned : w.queue = none)
    (free : s.heldLocal w.addr w.bytes.length = []) (good : s.badPartial w.addr w.bytes.length = none) :
    s.flushHeld = ({ s with mem := { s.mem with held := [] } } : State).writeLocal w.addr w.bytes := by
  have made (t : State) (good : t.badPartial w.addr w.bytes.length = none) : t.heldDone w = t.writeLocal w.addr w.bytes := by
    rw [State.heldDone, unowned, good]
  unfold State.flushHeld
  simp only [held, List.filter_cons, List.filter_nil, free, beq_self_eq_true, bne_self_eq_false, if_true, Bool.false_eq_true,
    if_false]
  exact made _ good

/-- With no read that waits, nothing is left to answer. -/
theorem flushReads_none (none_wait : s.mem.cxlWait = []) : State.flushReads s.mem.cxlWait.length s = s := by
  rw [none_wait]
  rfl

@[simp] theorem writeLocal_cxlWait (a : Nat) (d : List Byte) : (s.writeLocal a d).mem.cxlWait = s.mem.cxlWait := by
  unfold State.writeLocal
  split
  · rfl
  · rfl

end

/-- Settles O42: each access by its own conditions. -/
theorem hostPortReadsAndWrites : Obligations.HostPortReadsAndWrites := by
  unfold Obligations.HostPortReadsAndWrites
  intro s
  refine ⟨?listed, ?wdog, ?address, ?windowWrite, ?windowRead, ?capture, ?record, ?noRecord, ?unmask, ?config, ?read, ?bad,
    ?write, ?hidden, ?given, ?unasked⟩
  case listed => exact fun rq o v g may unlatched listed aligned _ _ _ => registerWrite_effect may unlatched listed aligned v
  case wdog => exact fun rq v may unlatched => registerWrite_effect may unlatched rfl rfl v
  case address =>
    intro rq c v hc has may space
    refine ⟨_, bdpAddrWrite_sets hc may space, rfl, setBdp_bdpCh _ _ has, fun k other => setBdp_bdpCh_ne _ other⟩
  case windowWrite =>
    intro o d up unheld live fits inside space served
    have other : (s.bdpCh 2).space ≠ 0 := by rw [space]; decide
    rw [exec_bdpWindowWrite, window2_writes up unheld fits inside other live]
    exact ⟨_, rfl, bdpAccess_stages space served⟩
  case windowRead =>
    intro o n up unheld fits inside space served
    have other : (s.bdpCh 2).space ≠ 0 := by rw [space]; decide
    rw [exec_bdpWindowRead, window2_reads up unheld fits inside other, bdpAccess_reads space served]
    exact ⟨_, rfl, rfl⟩
  case capture =>
    intro rq may
    rw [exec_capture, execCapture, regWrite_mayWrite may]
    exact ⟨fun idle => congrArg _ (if_neg (by simp [idle])), fun busy => congrArg _ (if_pos busy)⟩
  case record =>
    intro busy
    obtain ⟨o, ns, n, k, done⟩ := returnRecordDone_stores busy
    generalize Memory.store [] 0 s.returnRecord = record at done ⊢
    exact ⟨_, done, rfl, rfl, rfl, rfl⟩
  case noRecord => exact returnRecordDone_idle
  case unmask =>
    intro v hv up
    refine ⟨_, msixUnmask_unmasks hv up, ?_, fun pending en open_ live => ?_, fun idle => ?_⟩
    · rw [State.unmask, sendPending_msix, setMsix_msix]
    · exact sendPending_sends pending en open_ (by rw [setMsix_msix]) live
    · rw [State.unmask, sendPending_none (s := s.setMsix v { Tab.get .reset s.host.msix v with mask := false }) idle]
      rfl
  case config =>
    intro rails up
    refine ⟨fun c => configurationRequest_retries rails up c, fun served => ⟨fun o => ?_, fun b => ?_, fun en f => ?_⟩⟩
    · exact configurationRequest_takes rails up _ served
    · exact configurationRequest_takes rails up _ served
    · obtain ⟨m, o, taken⟩ := configTake_msixControl (s := s) en f
      refine ⟨_, configurationRequest_takes rails up _ served, ?_⟩
      rw [taken]
      exact ⟨rfl, rfl, rfl⟩
  case read =>
    intro a n up some_bytes decoded
    refine ⟨fun exposed room => ?_, fun exposed full => cxlMemRead_waits up some_bytes decoded exposed full, fun hidden => ?_⟩
    · obtain ⟨data, loc, snoop⟩ := cxlAnswer_answers s a n
      exact ⟨_, cxlMemRead_answered up some_bytes decoded exposed room, data, loc, fun l touched => snoop ▸ mem_entered touched⟩
    · obtain ⟨r, refused⟩ := cxlRefused_eq s a
      refine ⟨_, cxlMemRead_refused up some_bytes decoded hidden, rfl, ?_⟩
      rw [refused]
      rfl
  case bad =>
    intro a d u up some_bytes decoded exposed bad
    obtain ⟨w, woken⟩ := wakeMem_eq s
    obtain ⟨r, l, k, o, h, logged⟩ := logError_eq s.wakeMem u (if u < 0x9000000000 then 1 else 2) 2 none 0 0 0
    refine ⟨_, cxlMemWrite_bad up some_bytes decoded exposed bad, ?_⟩
    rw [logged, woken]
    exact ⟨rfl, rfl⟩
  case write =>
    intro a d up some_bytes decoded exposed good device
    obtain ⟨w, woken⟩ := wakeMem_eq s
    refine ⟨_, cxlMemWrite_stores up some_bytes decoded exposed good, ?_⟩
    rw [woken, State.writeLocal, if_neg device]
    exact ⟨rfl, rfl, rfl⟩
  case hidden =>
    intro a d up some_bytes decoded hidden
    obtain ⟨r, refused⟩ := cxlRefused_eq s a
    refine ⟨_, cxlMemWrite_refused up some_bytes decoded hidden, ?_⟩
    rw [refused]
    exact ⟨rfl, rfl⟩
  case given =>
    intro l asked u
    have goes_on := biSnoopResponse_goes_on asked
    refine ⟨goes_on, fun none_held none_wait => ?_, fun w held unowned none_wait free good => ?_⟩
    · rw [goes_on, flushHeld_none (s := s.given l) none_held, flushReads_none (s := s.given l) none_wait]
      rfl
    · rw [goes_on, flushHeld_one (s := s.given l) held unowned free good,
        flushReads_none (by rw [writeLocal_cxlWait]; exact none_wait)]
      rfl
  case unasked => exact fun l => biSnoopResponse_unasked

end Sys2Proof.Machine
end

section
/-! What a command can do to the fuses and the PRIVOPEN modes, from the laws of the commands; a step then only blows fuses
(R539) and opens PRIVOPEN modes behind OPENED (R540). -/
namespace Sys2Proof.Machine

/-- What a command can make of the fuses and the PRIVOPEN modes: the SVN rises, PRIVOPEN modes close, they open behind
OPENED, an owner slot is programmed, or a slot is revoked. -/
inductive TrustMove (a b : Sec) : Prop
  | rises (n : Nat) (priv : b.privopen = a.privopen) (more : a.fuses.svn ≤ n) (fuses : b.fuses = { a.fuses with svn := n })
  | closes (priv : b.privopen = true → a.privopen = true) (fuses : b.fuses = a.fuses)
  | unlocks (fuses : b.fuses = { a.fuses with opened := true, unlocks := min 255 (a.fuses.unlocks + 1) })
  | enrols (slot : Nat) (digest : List Byte) (priv : b.privopen = a.privopen)
      (blank : (a.fuses.owner.getD slot .blank).programmed = false)
      (fuses : b.fuses = { a.fuses with owner := a.fuses.owner.set slot { a.fuses.owner.getD slot .blank with digest := digest } })
  | revokesOwner (slot : Nat) (priv : b.privopen = a.privopen)
      (fuses : b.fuses = { a.fuses with owner := revokeSlot a.fuses.owner slot })
  | revokesVendor (slot : Nat) (priv : b.privopen = a.privopen)
      (fuses : b.fuses = { a.fuses with vendor := revokeSlot a.fuses.vendor slot })

/-- The outcome is a next state with the commands of s waiting, whose fuses and PRIVOPEN modes moved so. -/
def Answers (s : State) (r : Res) : Prop := ∃ t, r = .next t ∧ t.pending = s.pending ∧ TrustMove s.sec t.sec

section
variable {s : State} {r : Res}

theorem keeps_answers : (∃ t, r = .next t ∧ Keeps s t) → Answers s r
  | ⟨t, answer, waiting, fuses, priv⟩ => ⟨t, answer, waiting, .closes (priv ▸ id) fuses⟩

theorem rises_answers : (∃ t, r = .next t ∧ SvnRises s t) → Answers s r
  | ⟨t, answer, waiting, priv, n, more, fuses⟩ => ⟨t, answer, waiting, .rises n priv more fuses⟩

theorem loses_answers : (∃ t, r = .next t ∧ t.pending = s.pending ∧ t.sec.fuses = s.sec.fuses ∧
    (t.sec.privopen = true → s.sec.privopen = true)) → Answers s r
  | ⟨t, answer, waiting, fuses, priv⟩ => ⟨t, answer, waiting, .closes priv fuses⟩

theorem execUnlock_answers (n : Nat) : Answers s (execUnlock n s) := by
  obtain ⟨t, answer, waiting, ⟨-, fuses, priv⟩ | blown⟩ := execUnlock_blows n s
  · exact ⟨t, answer, waiting, .closes (priv ▸ id) fuses⟩
  · exact ⟨t, answer, waiting, .unlocks blown⟩

theorem execEnrol_answers (hd : MgmtHdr) (slot : Nat) (digest : List Byte) : Answers s (execEnrol hd slot digest s) := by
  obtain ⟨t, answer, waiting, priv, same | ⟨blank, fuses⟩⟩ := execEnrol_blows hd slot digest s
  · exact ⟨t, answer, waiting, .closes (priv ▸ id) same⟩
  · exact ⟨t, answer, waiting, .enrols slot digest priv blank fuses⟩

theorem execRevoke_answers (hd : MgmtHdr) (owner : Bool) (slot : Nat) : Answers s (execRevoke hd owner slot s) := by
  obtain ⟨t, answer, waiting, priv, same | fuses | fuses⟩ := execRevoke_blows hd owner slot s
  · exact ⟨t, answer, waiting, .closes (priv ▸ id) same⟩
  · exact ⟨t, answer, waiting, .revokesOwner slot priv fuses⟩
  · exact ⟨t, answer, waiting, .revokesVendor slot priv fuses⟩

end

/-- Every command answers, each by the law of its meaning. -/
theorem exec_answers (s : State) (i : Instr) : Answers s (exec i s) := by
  cases i with
  | nop q => exact keeps_answers (execNop_keeps q s)
  | launch q f => exact keeps_answers (execLaunch_keeps q f s)
  | fenceSignal q f => exact keeps_answers (execFenceSignal_keeps q f s)
  | fenceWait q f => exact keeps_answers (execFenceWait_keeps q f s)
  | copy q f => exact keeps_answers (execCopy_keeps q f s)
  | barrier q f => exact keeps_answers (execBarrier_keeps q f s)
  | kvAppend q f => exact keeps_answers (execKvAppend_keeps q f s)
  | kvFork q f => exact keeps_answers (execKvFork_keeps q f s)
  | kvRelease q f => exact keeps_answers (execKvRelease_keeps q f s)
  | kvPrune q f => exact keeps_answers (execKvPrune_keeps q f s)
  | wgtBuild q f => exact keeps_answers (execWgtBuild_keeps q f s)
  | wgtSwitch q gen => exact keeps_answers (execWgtSwitch_keeps q gen s)
  | wgtRetire q gen => exact keeps_answers (execWgtRetire_keeps q gen s)
  | tapSet q f => exact keeps_answers (execTapSet_keeps q f s)
  | rake q f => exact keeps_answers (execRake_keeps q f s)
  | matMul r f => exact keeps_answers (execMatMul_keeps r f s)
  | loadw r f => exact keeps_answers (execLoadw_keeps r f s)
  | preload r f => exact keeps_answers (execPreload_keeps r f s)
  | bstore r f => exact keeps_answers (execBstore_keeps r f s)
  | bload r f => exact keeps_answers (execBload_keeps r f s)
  | bclear r f => exact keeps_answers (execBclear_keeps r f s)
  | vecAdd r f => exact keeps_answers (execVecAdd_keeps r f s)
  | vecSub r f => exact keeps_answers (execVecSub_keeps r f s)
  | vecMul r f => exact keeps_answers (execVecMul_keeps r f s)
  | vecFma r f => exact keeps_answers (execVecFma_keeps r f s)
  | vecDiv r f => exact keeps_answers (execVecDiv_keeps r f s)
  | vecSqrt r f => exact keeps_answers (execVecSqrt_keeps r f s)
  | vecMin r f => exact keeps_answers (execVecMin_keeps r f s)
  | vecMax r f => exact keeps_answers (execVecMax_keeps r f s)
  | vecAbs r f => exact keeps_answers (execVecAbs_keeps r f s)
  | vecNeg r f => exact keeps_answers (execVecNeg_keeps r f s)
  | vecCvt r f => exact keeps_answers (execVecCvt_keeps r f s)
  | vecRcp r f => exact keeps_answers (execVecRcp_keeps r f s)
  | vecRsq r f => exact keeps_answers (execVecRsq_keeps r f s)
  | vecExp r f => exact keeps_answers (execVecExp_keeps r f s)
  | vecLog r f => exact keeps_answers (execVecLog_keeps r f s)
  | vecSin r f => exact keeps_answers (execVecSin_keeps r f s)
  | vecCos r f => exact keeps_answers (execVecCos_keeps r f s)
  | vecCmp r f => exact keeps_answers (execVecCmp_keeps r f s)
  | vecSel r f => exact keeps_answers (execVecSel_keeps r f s)
  | iscale r f => exact keeps_answers (execIscale_keeps r f s)
  | rsum r f => exact keeps_answers (execRsum_keeps r f s)
  | rmax r f => exact keeps_answers (execRmax_keeps r f s)
  | rmin r f => exact keeps_answers (execRmin_keeps r f s)
  | ramax r f => exact keeps_answers (execRamax_keeps r f s)
  | scan r f => exact keeps_answers (execScan_keeps r f s)
  | sort r f => exact keeps_answers (execSort_keeps r f s)
  | topk r f => exact keeps_answers (execTopk_keeps r f s)
  | gather r f => exact keeps_answers (execGather_keeps r f s)
  | scatter r f => exact keeps_answers (execScatter_keeps r f s)
  | scatterAdd r f => exact keeps_answers (execScatterAdd_keeps r f s)
  | vqnear r f => exact keeps_answers (execVqnear_keeps r f s)
  | movSet r f => exact keeps_answers (execMovSet_keeps r f s)
  | movAdd r f => exact keeps_answers (execMovAdd_keeps r f s)
  | movSub r f => exact keeps_answers (execMovSub_keeps r f s)
  | movMul r f => exact keeps_answers (execMovMul_keeps r f s)
  | movAnd r f => exact keeps_answers (execMovAnd_keeps r f s)
  | movOr r f => exact keeps_answers (execMovOr_keeps r f s)
  | movXor r f => exact keeps_answers (execMovXor_keeps r f s)
  | shl r f => exact keeps_answers (execShl_keeps r f s)
  | shr r f => exact keeps_answers (execShr_keeps r f s)
  | minu r f => exact keeps_answers (execMinu_keeps r f s)
  | maxu r f => exact keeps_answers (execMaxu_keeps r f s)
  | ld r f => exact keeps_answers (execLd_keeps r f s)
  | ld32 r f => exact keeps_answers (execLd32_keeps r f s)
  | st r f => exact keeps_answers (execSt_keeps r f s)
  | spec r f => exact keeps_answers (execSpec_keeps r f s)
  | dmain r f => exact keeps_answers (execDmain_keeps r f s)
  | dmaout r f => exact keeps_answers (execDmaout_keeps r f s)
  | loop r f => exact keeps_answers (execLoop_keeps r f s)
  | waitall r f => exact keeps_answers (execWaitall_keeps r f s)
  | rbar r f => exact keeps_answers (execRbar_keeps r f s)
  | post r f => exact keeps_answers (execPost_keeps r f s)
  | waitge r f => exact keeps_answers (execWaitge_keeps r f s)
  | recv r f => exact keeps_answers (execRecv_keeps r f s)
  | syncWaitEnd r => exact keeps_answers (execSyncWaitEnd_keeps r s)
  | syncTimeout r => exact keeps_answers (execSyncTimeout_keeps r s)
  | append r f => exact keeps_answers (execAppend_keeps r f s)
  | kvRead r f => exact keeps_answers (execKvRead_keeps r f s)
  | score r f => exact keeps_answers (execScore_keeps r f s)
  | len r f => exact keeps_answers (execLen_keeps r f s)
  | place r f => exact keeps_answers (execPlace_keeps r f s)
  | send r f => exact keeps_answers (execSend_keeps r f s)
  | returnSlot r f => exact keeps_answers (execReturnSlot_keeps r f s)
  | returnAcc r f => exact keeps_answers (execReturnAcc_keeps r f s)
  | tap r f => exact keeps_answers (execTap_keeps r f s)
  | instructionRetire r u fault => exact keeps_answers (execInstructionRetire_keeps r u fault s)
  | weightSetReady r b set parity => exact keeps_answers (execWeightSetReady_keeps r b set parity s)
  | weightSetFree r b set => exact keeps_answers (execWeightSetFree_keeps r b set s)
  | cowCopyDone r => exact keeps_answers (execCowCopyDone_keeps r s)
  | sequenceFree n => exact keeps_answers (execSequenceFree_keeps n s)
  | roundPlace p round => exact keeps_answers (execRoundPlace_keeps p round s)
  | roundEntryExpire p round => exact keeps_answers (execRoundEntryExpire_keeps p round s)
  | cancelFilterExpire p batch => exact keeps_answers (execCancelFilterExpire_keeps p batch s)
  | recordLand t => exact keeps_answers (execRecordLand_keeps t s)
  | routeRecordLand t => exact keeps_answers (execRouteRecordLand_keeps t s)
  | heldRecordExpire p => exact keeps_answers (execHeldRecordExpire_keeps p s)
  | doorbell rq q tail stores => exact keeps_answers (execDoorbell_keeps rq q tail stores s)
  | ringFetch q good => exact keeps_answers (execRingFetch_keeps q good s)
  | slotSelect j => exact keeps_answers (execSlotSelect_keeps j s)
  | commandDispatch q hub => exact keeps_answers (execCommandDispatch_keeps q hub s)
  | regionGrant p => exact keeps_answers (execRegionGrant_keeps p s)
  | launchComplete p => exact keeps_answers (execLaunchComplete_keeps p s)
  | copyDone q => exact keeps_answers (execCopyDone_keeps q s)
  | wgtBuildDone q => exact keeps_answers (execWgtBuildDone_keeps q s)
  | completionWriteAck q => exact keeps_answers (execCompletionWriteAck_keeps q s)
  | completionWriteFailed q => exact keeps_answers (execCompletionWriteFailed_keeps q s)
  | fenceWaitTimeout q => exact keeps_answers (execFenceWaitTimeout_keeps q s)
  | feQRing rq q v => exact keeps_answers (execFeQRing_keeps rq q v s)
  | feQCring rq q v => exact keeps_answers (execFeQCring_keeps rq q v s)
  | feQChead rq q v => exact keeps_answers (execFeQChead_keeps rq q v s)
  | queueEnable rq q good => exact keeps_answers (execQueueEnable_keeps rq q good s)
  | queueDisable rq q => exact keeps_answers (execQueueDisable_keeps rq q s)
  | skip rq q => exact keeps_answers (execSkip_keeps rq q s)
  | abort rq q => exact keeps_answers (execAbort_keeps rq q s)
  | resume rq q good => exact keeps_answers (execResume_keeps rq q good s)
  | zero rq q => exact keeps_answers (execZero_keeps rq q s)
  | watchdogExpire q => exact keeps_answers (execWatchdogExpire_keeps q s)
  | fwWatchdogExpire core => exact keeps_answers (execFwWatchdogExpire_keeps core s)
  | cancelStopTimeout r => exact keeps_answers (execCancelStopTimeout_keeps r s)
  | feDevreset rq key => exact keeps_answers (execFeDevreset_keeps rq key s)
  | deviceReset fwGood => exact keeps_answers (execDeviceReset_keeps fwGood s)
  | rtInsert rq ctx drain => exact keeps_answers (execRtInsert_keeps rq ctx drain s)
  | rtRemove rq ctx drain => exact keeps_answers (execRtRemove_keeps rq ctx drain s)
  | rtReplace rq ctx drain => exact keeps_answers (execRtReplace_keeps rq ctx drain s)
  | rtFlush rq ctx drain => exact keeps_answers (execRtFlush_keeps rq ctx drain s)
  | rtOpDone => exact keeps_answers (execRtOpDone_keeps s)
  | rlcWalkDone r va => exact keeps_answers (execRlcWalkDone_keeps r va s)
  | hotBaseWrite rq v => exact keeps_answers (execHotBaseWrite_keeps rq v s)
  | hotEpochHalve => exact keeps_answers (execHotEpochHalve_keeps s)
  | cxlMemRead addr bytes => exact keeps_answers (execCxlMemRead_keeps addr bytes s)
  | cxlMemWrite addr data => exact keeps_answers (execCxlMemWrite_keeps addr data s)
  | biSnoopResponse line => exact keeps_answers (execBiSnoopResponse_keeps line s)
  | backgroundRead addr found => exact keeps_answers (execBackgroundRead_keeps addr found s)
  | remoteTimeout tag => exact keeps_answers (execRemoteTimeout_keeps tag s)
  | epochRaise rq batch epoch part => exact keeps_answers (execEpochRaise_keeps rq batch epoch part s)
  | slotQmapWrite rq q slot => exact keeps_answers (execSlotQmapWrite_keeps rq q slot s)
  | dataFrame port f => exact keeps_answers (execDataFrame_keeps port f s)
  | idleFrame port f => exact keeps_answers (execIdleFrame_keeps port f s)
  | nak port f => exact keeps_answers (execNak_keeps port f s)
  | trainFrame port farmod farport => exact keeps_answers (execTrainFrame_keeps port farmod farport s)
  | ackTimeout port => exact keeps_answers (execAckTimeout_keeps port s)
  | retrainDone port t => exact keeps_answers (execRetrainDone_keeps port t s)
  | linkTrainDone port t => exact keeps_answers (execLinkTrainDone_keeps port t s)
  | laneBad port lane corrected => exact keeps_answers (execLaneBad_keeps port lane corrected s)
  | linkRetrain rq port => exact keeps_answers (execLinkRetrain_keeps rq port s)
  | clrbad rq port => exact keeps_answers (execClrbad_keeps rq port s)
  | linkDisable rq port v => exact keeps_answers (execLinkDisable_keeps rq port v s)
  | cablePresentChange port present active => exact keeps_answers (execCablePresentChange_keeps port present active s)
  | wr port m => exact keeps_answers (execWr_keeps port m s)
  | rd port m => exact keeps_answers (execRd_keeps port m s)
  | wrack port m => exact keeps_answers (execWrack_keeps port m s)
  | rddata port m => exact keeps_answers (execRddata_keeps port m s)
  | hbt port m => exact keeps_answers (execHbt_keeps port m s)
  | hbtAlt port m => exact keeps_answers (execHbtAlt_keeps port m s)
  | hbtSend => exact keeps_answers (execHbtSend_keeps s)
  | twinLost => exact keeps_answers (execTwinLost_keeps s)
  | takeover rq => exact keeps_answers (execTakeover_keeps rq s)
  | takeoverDone => exact keeps_answers (execTakeoverDone_keeps s)
  | rejoin rq => exact keeps_answers (execRejoin_keeps rq s)
  | replOpen port m => exact keeps_answers (execReplOpen_keeps port m s)
  | replPage port m => exact keeps_answers (execReplPage_keeps port m s)
  | replFork port m => exact keeps_answers (execReplFork_keeps port m s)
  | replEvict port m => exact keeps_answers (execReplEvict_keeps port m s)
  | replRelease port m => exact keeps_answers (execReplRelease_keeps port m s)
  | replAck port m => exact keeps_answers (execReplAck_keeps port m s)
  | timeExchange t1 => exact keeps_answers (execTimeExchange_keeps t1 s)
  | treq port m t2 t3 => exact keeps_answers (execTreq_keeps port m t2 t3 s)
  | tresp port m t4 => exact keeps_answers (execTresp_keeps port m t4 s)
  | holdoverTimeout => exact keeps_answers (execHoldoverTimeout_keeps s)
  | arrive port m => exact keeps_answers (execArrive_keeps port m s)
  | release port m => exact keeps_answers (execRelease_keeps port m s)
  | releaseApply plot bid => exact keeps_answers (execReleaseApply_keeps plot bid s)
  | barrierTimeout q => exact keeps_answers (execBarrierTimeout_keeps q s)
  | alignment p => exact keeps_answers (execAlignment_keeps p s)
  | spareColumnMap die region block => exact keeps_answers (execSpareColumnMap_keeps die region block s)
  | powerStep counts => exact keeps_answers (execPowerStep_keeps counts s)
  | telemetryWindow power vin => exact keeps_answers (execTelemetryWindow_keeps power vin s)
  | telemetryLost => exact keeps_answers (execTelemetryLost_keeps s)
  | coefWrite rq k v => exact keeps_answers (execCoefWrite_keeps rq k v s)
  | droopDetect island shortfall => exact keeps_answers (execDroopDetect_keeps island shortfall s)
  | droopPersist island => exact keeps_answers (execDroopPersist_keeps island s)
  | vrAlertAssert => exact keeps_answers (execVrAlertAssert_keeps s)
  | vrAlertRelease => exact keeps_answers (execVrAlertRelease_keeps s)
  | vrHoldExpire => exact keeps_answers (execVrHoldExpire_keeps s)
  | thermalThrottle sensor reading => exact keeps_answers (execThermalThrottle_keeps sensor reading s)
  | thermalCapRise domain readings => exact keeps_answers (execThermalCapRise_keeps domain readings s)
  | thermalTrip sensor reading => exact keeps_answers (execThermalTrip_keeps sensor reading s)
  | thermalTripClear domain readings => exact keeps_answers (execThermalTripClear_keeps domain readings s)
  | analogTrip sensor reading => exact loses_answers (execAnalogTrip_loses sensor reading s)
  | ageingTrim island steps slack => exact keeps_answers (execAgeingTrim_keeps island steps slack s)
  | owEnter rq => exact keeps_answers (execOwEnter_keeps rq s)
  | overwinterReached => exact keeps_answers (execOverwinterReached_keeps s)
  | wake rq => exact keeps_answers (execWake_keeps rq s)
  | wakeComplete => exact keeps_answers (execWakeComplete_keeps s)
  | retentionScrub bad corrected => exact keeps_answers (execRetentionScrub_keeps bad corrected s)
  | selfRefreshReenter => exact keeps_answers (execSelfRefreshReenter_keeps s)
  | repairDecide unit hard soft => exact keeps_answers (execRepairDecide_keeps unit hard soft s)
  | selftestSlice unit pass => exact keeps_answers (execSelftestSlice_keeps unit pass s)
  | dieLinkLaneSpare link lane => exact keeps_answers (execDieLinkLaneSpare_keeps link lane s)
  | dieNetworkRetry die segment attempts => exact keeps_answers (execDieNetworkRetry_keeps die segment attempts s)
  | trellisGo rq => exact keeps_answers (execTrellisGo_keeps rq s)
  | patchCommit lost => exact keeps_answers (execPatchCommit_keeps lost s)
  | powerOn millivolts => exact keeps_answers (execPowerOn_keeps millivolts s)
  | railTimeout step => exact loses_answers (execRailTimeout_loses step s)
  | powerLoss millivolts => exact loses_answers (execPowerLoss_loses millivolts s)
  | sysResetN low nanoseconds => exact loses_answers (execSysResetN_loses low nanoseconds s)
  | perstNAssert => exact keeps_answers (execPerstNAssert_keeps s)
  | perstNRelease => exact keeps_answers (execPerstNRelease_keeps s)
  | tbRefLoss => exact keeps_answers (execTbRefLoss_keeps s)
  | tbRefReturn => exact keeps_answers (execTbRefReturn_keeps s)
  | fwGo rq => exact keeps_answers (execFwGo_keeps rq s)
  | coord h modid usz vsz twin => exact keeps_answers (execCoord_keeps h modid usz vsz twin s)
  | start h time => exact keeps_answers (execStart_keeps h time s)
  | regRead h offset words => exact keeps_answers (execRegRead_keeps h offset words s)
  | regWrite h offset words => exact rises_answers (execRegWrite_rises h offset words s)
  | bdpSet h v => exact keeps_answers (execBdpSet_keeps h v s)
  | bdpWrite h offset data => exact rises_answers (execBdpWrite_rises h offset data s)
  | bdpRead h offset length => exact rises_answers (execBdpRead_rises h offset length s)
  | mgtReset h key => exact keeps_answers (execMgtReset_keeps h key s)
  | mgtWake h => exact keeps_answers (execMgtWake_keeps h s)
  | enrol h slot digest => exact execEnrol_answers h slot digest
  | revoke h owner slot => exact execRevoke_answers h owner slot
  | notifyAck nseq => exact keeps_answers (execNotifyAck_keeps nseq s)
  | notifyResend nseq => exact keeps_answers (execNotifyResend_keeps nseq s)
  | getSensorReading sensor => exact keeps_answers (execGetSensorReading_keeps sensor s)
  | setaddr h v => exact keeps_answers (execSetaddr_keeps h v s)
  | bulkWrite h data => exact rises_answers (execBulkWrite_rises h data s)
  | bulkRead h length => exact rises_answers (execBulkRead_rises h length s)
  | echo h data => exact keeps_answers (execEcho_keeps h data s)
  | bdpWindowAccess offset length data => exact rises_answers (execBdpWindowAccess_rises offset length data s)
  | bdpAddrWrite rq c v => exact keeps_answers (execBdpAddrWrite_keeps rq c v s)
  | capture rq => exact keeps_answers (execCapture_keeps rq s)
  | returnRecordDone => exact keeps_answers (execReturnRecordDone_keeps s)
  | clocheEnter rq p => exact keeps_answers (execClocheEnter_keeps rq p s)
  | scrubDone p => exact keeps_answers (execScrubDone_keeps p s)
  | clocheWipeDone p => exact keeps_answers (execClocheWipeDone_keeps p s)
  | clocheAdmit p session => exact keeps_answers (execClocheAdmit_keeps p session s)
  | admissionLost p ide tsp => exact keeps_answers (execAdmissionLost_keeps p ide tsp s)
  | svncommit rq => exact rises_answers (execSvncommit_rises rq s)
  | unlock bytes => exact execUnlock_answers bytes
  | getVersion => exact keeps_answers (execGetVersion_keeps s)
  | getCapabilities => exact keeps_answers (execGetCapabilities_keeps s)
  | negotiateAlgorithms dhe aead sig hash => exact keeps_answers (execNegotiateAlgorithms_keeps dhe aead sig hash s)
  | getDigests => exact keeps_answers (execGetDigests_keeps s)
  | getCertificate slot offset length => exact keeps_answers (execGetCertificate_keeps slot offset length s)
  | challenge slot nonce => exact keeps_answers (execChallenge_keeps slot nonce s)
  | getMeasurements block nonce => exact keeps_answers (execGetMeasurements_keeps block nonce s)
  | keyExchange doe => exact keeps_answers (execKeyExchange_keeps doe s)
  | finish session verified => exact keeps_answers (execFinish_keeps session verified s)
  | heartbeat session => exact keeps_answers (execHeartbeat_keeps session s)
  | keyUpdate session => exact keeps_answers (execKeyUpdate_keeps session s)
  | endSession session => exact keeps_answers (execEndSession_keeps session s)
  | chunkSend seq last data => exact keeps_answers (execChunkSend_keeps seq last data s)
  | chunkGet seq => exact keeps_answers (execChunkGet_keeps seq s)
  | plotKey session plot kid key => exact keeps_answers (execPlotKey_keeps session plot kid key s)
  | loopbackGo v => exact keeps_answers (execLoopbackGo_keeps v s)
  | loopbackEnd errors bits partner => exact keeps_answers (execLoopbackEnd_keeps errors bits partner s)
  | extest shift => exact keeps_answers (execExtest_keeps shift s)
  | samplePreload shift => exact keeps_answers (execSamplePreload_keeps shift s)
  | idcode => exact keeps_answers (execIdcode_keeps s)
  | lbres => exact keeps_answers (execLbres_keeps s)
  | hbmsel shift => exact keeps_answers (execHbmsel_keeps shift s)
  | hbmwir shift => exact keeps_answers (execHbmwir_keeps shift s)
  | hbmwdr shift => exact keeps_answers (execHbmwdr_keeps shift s)
  | bypass shift => exact keeps_answers (execBypass_keeps shift s)
  | msixUnmask v => exact keeps_answers (execMsixUnmask_keeps v s)
  | registerWrite rq offset width v => exact rises_answers (execRegisterWrite_rises rq offset width v s)
  | firmwareFatal code => exact keeps_answers (execFirmwareFatal_keeps code s)
  | inputOvervoltage millivolts => exact loses_answers (execInputOvervoltage_loses millivolts s)
  | phase0Restart => exact keeps_answers (execPhase0Restart_keeps s)
  | barrierFirstIssue p => exact keeps_answers (execBarrierFirstIssue_keeps p s)
  | rakeDone q => exact keeps_answers (execRakeDone_keeps q s)
  | testLogicReset => exact keeps_answers (execTestLogicReset_keeps s)
  | entdaa address => exact keeps_answers (execEntdaa_keeps address s)
  | configurationRequest c => exact keeps_answers (execConfigurationRequest_keeps c s)

/-- A step moves the trust as its command does; a nanosecond of device time leaves it alone. -/
theorem step_moves_trust {s t : State} (stepped : step s = .next t) : TrustMove s.sec t.sec := by
  unfold step at stepped
  split at stepped
  · cases stepped
    obtain ⟨-, fuses, priv⟩ := idle_keeps s
    exact .closes (priv ▸ id) fuses
  · next c rest _ =>
    obtain ⟨u, answer, -, move⟩ := exec_answers { s with pending := rest } c
    rw [answer] at stepped
    cases stepped
    exact move

/-! The moves only blow fuses. -/

theorem revokeSlot_digests (ks : List KeySlot) (n : Nat) : (revokeSlot ks n).map (·.digest) = ks.map (·.digest) := by
  refine List.ext_getElem (by simp [revokeSlot]) fun k _ inside => ?_
  by_cases same : n = k
  · simp [revokeSlot, same, List.getElem?_eq_getElem (List.length_map _ ▸ inside)]
  · simp [revokeSlot, same]

theorem revokeSlot_digest (ks : List KeySlot) (n k : Nat) : ((revokeSlot ks n).getD k .blank).digest = (ks.getD k .blank).digest := by
  have digests := congrArg (·.getD k KeySlot.blank.digest) (revokeSlot_digests ks n)
  simpa only [List.getD_map] using digests

/-- A slot put in the place of one whose revoked bit it has leaves every slot's revoked bit as it was or set. -/
theorem set_keeps_revoked {ks : List KeySlot} {n k : Nat} {x : KeySlot} (kept : (ks.getD n .blank).revoked = true → x.revoked = true)
    (revoked : (ks.getD k .blank).revoked = true) : ((ks.set n x).getD k .blank).revoked = true := by
  by_cases inside : k < ks.length
  · by_cases same : n = k <;> simp_all
  · simpa [not_lt.mp inside] using revoked

theorem revokeSlot_keeps_revoked (ks : List KeySlot) (n k : Nat) : (ks.getD k .blank).revoked = true →
    ((revokeSlot ks n).getD k .blank).revoked = true :=
  set_keeps_revoked fun _ => rfl

theorem fusesRise_refl (a : Fuses) : fusesRise a a :=
  ⟨le_rfl, rfl, rfl, id, fun bound => ⟨le_rfl, bound⟩, rfl, rfl, fun _ => id, fun _ => id, fun _ _ => rfl⟩

/-- A digest put into a slot that is not programmed leaves every programmed slot's digest as it was. -/
theorem set_keeps_programmed {ks : List KeySlot} {n : Nat} (blank : (ks.getD n .blank).programmed = false) (x : KeySlot) {k : Nat}
    (programmed : (ks.getD k .blank).programmed = true) : (ks.set n x).getD k .blank = ks.getD k .blank := by
  have other : n ≠ k := fun same => Bool.noConfusion (blank.symm.trans (same ▸ programmed))
  simp [List.getD_eq_getElem?_getD, List.getElem?_set_ne other]

theorem fusesRise_of_move {a b : Sec} (move : TrustMove a b) : fusesRise a.fuses b.fuses := by
  cases move with
  | rises n _ more fuses => rw [fuses]; exact { fusesRise_refl a.fuses with left := more }
  | closes _ fuses => rw [fuses]; exact fusesRise_refl _
  | unlocks fuses =>
    rw [fuses]
    exact ⟨le_rfl, rfl, rfl, fun _ => rfl, fun bound => ⟨le_min bound (Nat.le_succ _), Nat.min_le_left ..⟩, rfl, rfl, fun _ => id,
      fun _ => id, fun _ _ => rfl⟩
  | enrols slot digest _ blank fuses =>
    rw [fuses]
    exact ⟨le_rfl, rfl, rfl, id, fun bound => ⟨le_rfl, bound⟩, rfl, List.length_set, fun _ => id, fun k => set_keeps_revoked id,
      fun k programmed => congrArg _ (set_keeps_programmed blank _ programmed)⟩
  | revokesOwner slot _ fuses =>
    rw [fuses]
    exact ⟨le_rfl, rfl, rfl, id, fun bound => ⟨le_rfl, bound⟩, rfl, List.length_set, fun _ => id, revokeSlot_keeps_revoked _ slot,
      fun k _ => revokeSlot_digest _ slot k⟩
  | revokesVendor slot _ fuses =>
    rw [fuses]
    exact ⟨le_rfl, rfl, rfl, id, fun bound => ⟨le_rfl, bound⟩, revokeSlot_digests _ slot, rfl, revokeSlot_keeps_revoked _ slot,
      fun _ => id, fun _ _ => rfl⟩

/-- Private modes open only together with the fuse, and no move takes OPENED back. -/
theorem opened_of_move {a b : Sec} (move : TrustMove a b) (behind : a.privopen = true → a.fuses.opened = true)
    (priv : b.privopen = true) : b.fuses.opened = true := by
  cases move with
  | rises n same _ fuses => rw [fuses]; exact behind (same ▸ priv)
  | closes same fuses => rw [fuses]; exact behind (same priv)
  | unlocks fuses => rw [fuses]
  | enrols _ _ same _ fuses => rw [fuses]; exact behind (same ▸ priv)
  | revokesOwner _ same fuses => rw [fuses]; exact behind (same ▸ priv)
  | revokesVendor _ same fuses => rw [fuses]; exact behind (same ▸ priv)

/-- Settles O58: PRIVOPEN modes open in one step with the fuse OPENED, which no step takes back. -/
theorem stepsKeepPrivateModesBehindTheFuse : Obligations.StepsKeepPrivateModesBehindTheFuse := by
  unfold Obligations.StepsKeepPrivateModesBehindTheFuse
  exact fun s t behind stepped => opened_of_move (step_moves_trust stepped) behind

/-- Settles O59: a step moves the fuses as its command does, and each of these moves only blows fuses. -/
theorem stepsOnlyBlowFuses : Obligations.StepsOnlyBlowFuses := by
  unfold Obligations.StepsOnlyBlowFuses
  exact fun s t stepped => fusesRise_of_move (step_moves_trust stepped)

/-- Settles O56: each command by the law of its meaning. -/
theorem everyCommandAnswersAndLeavesTheQueue : Obligations.EveryCommandAnswersAndLeavesTheQueue := by
  unfold Obligations.EveryCommandAnswersAndLeavesTheQueue
  intro i s
  obtain ⟨t, answer, waiting, -⟩ := exec_answers s i
  exact ⟨t, answer, waiting⟩

/-- Settles O55: by the front of the queue, and by what the rails and the holdover make of a nanosecond. -/
theorem stepTakesTheFrontCommand : Obligations.StepTakesTheFrontCommand := by
  unfold Obligations.StepTakesTheFrontCommand
  refine ⟨fun c rest s front => ?taken, fun s empty => ?_⟩
  case taken => rw [step, front]
  have nanosecond : step s = .next (idle s) := by rw [step, empty]
  rw [nanosecond, idle]
  exact ⟨fun up free => by simp [up, free]; rfl, fun up held => by simp [up, held], fun off => by simp [off]⟩

end Sys2Proof.Machine
end

section
/-! Management requests (R558) and the commands that blow fuses (R535, R538 to R540); and the settlement of O39. -/
namespace Sys2Proof.Machine

section
variable {s : State}

/-! A request that the module hears. -/

theorem mgmtMsg_hears (hears : s.hears) (f : State → State) : s.mgmtMsg f = f s := by
  obtain ⟨up, known⟩ := hears
  obtain ⟨e, endpoint⟩ := Option.isSome_iff_exists.mp known
  simp [State.mgmtMsg, up, endpoint]

theorem mgmtCmd_fits (hears : s.hears) {h : MgmtHdr} {n : Nat} (fits : h.fits n = true) (cmd : Nat) (f : State → State) :
    s.mgmtCmd h cmd n f = f s := by rw [State.mgmtCmd, mgmtMsg_hears hears, if_pos fits]

theorem mgmtCmd_misfits (hears : s.hears) {h : MgmtHdr} {n : Nat} (misfits : h.fits n = false) (cmd : Nat) (f : State → State) :
    s.mgmtCmd h cmd n f = s.mgmtReply cmd h.tag .range [] := by
  rw [State.mgmtCmd, mgmtMsg_hears hears, if_neg (by simp [misfits])]

/-- A request that answers RANGE whether or not it fits answers RANGE. -/
theorem mgmtCmd_range (hears : s.hears) {h : MgmtHdr} {n cmd : Nat} {f : State → State}
    (range : h.fits n = true → f s = s.mgmtReply cmd h.tag .range []) : s.mgmtCmd h cmd n f = s.mgmtReply cmd h.tag .range [] := by
  by_cases fits : h.fits n = true
  · rw [mgmtCmd_fits hears fits, range fits]
  · exact mgmtCmd_misfits hears (Bool.not_eq_true _ ▸ fits) cmd f

/-! SVNCOMMIT and UNLOCK (R535, R540). -/

theorem exec_svncommit (rq : Requester) (s : State) : exec (.svncommit rq) s = execSvncommit rq s := rfl

/-- The vendor keys that may still sign an unlock. -/
def Fuses.unlockKeys (x : Fuses) : List (List Byte) := (x.vendor.filter (fun k => !k.revoked)).map (·.digest)

/-- The container of n bytes in the unlock staging area is accepted. -/
def State.unlockOk (s : State) (n : Nat) : Bool := Config.unlockValid (s.sec.unlockStage.load 0 n) s.sec.fuses.unlockKeys

/-- The fuses of an accepted unlock, with PRIVOPEN modes open. -/
def Sec.unlocked (x : Sec) : Sec :=
  { x with fuses := { x.fuses with opened := true, unlocks := min 255 (x.fuses.unlocks + 1) }, privopen := true }

theorem unlock_refused {n : Nat} (refused : s.unlockOk n = false ∨ ∃ p, p < 8 ∧ s.inCloche p = true) :
    exec (.unlock n) s = .next s := by
  have cond : (!s.board.rails ∨ 2 ^ 20 < n ∨ (List.range 8).any s.inCloche ∨ !(s.unlockOk n)) := by
    obtain bad | ⟨p, hp, shut⟩ := refused
    · exact .inr (.inr (.inr (by simp [bad])))
    · exact .inr (.inr (.inl (List.any_eq_true.mpr ⟨p, List.mem_range.mpr hp, shut⟩)))
  exact if_pos cond

theorem unlock_accepted {n : Nat} (up : s.board.rails = true) (fits : n ≤ 2 ^ 20) (valid : s.unlockOk n = true)
    (off : ∀ p, p < 8 → s.inCloche p = false) :
    exec (.unlock n) s = .next (({ s with sec := s.sec.unlocked } : State).event (islandShed 23) 0x92 none none 0) := by
  have cond : ¬(!s.board.rails ∨ 2 ^ 20 < n ∨ (List.range 8).any s.inCloche ∨ !(s.unlockOk n)) := by
    rintro (down | long | shut | bad)
    · simp [up] at down
    · exact absurd fits (not_le.mpr long)
    · obtain ⟨p, hp, shut⟩ := List.any_eq_true.mp shut
      exact Bool.noConfusion ((off p (List.mem_range.mp hp)).symm.trans shut)
    · simp [valid] at bad
  exact if_neg cond

/-! ENROL and REVOKE (R538). -/

theorem exec_enrol (h : MgmtHdr) (slot : Nat) (d : List Byte) (s : State) : exec (.enrol h slot d) s = execEnrol h slot d s := rfl
theorem exec_revoke (h : MgmtHdr) (owner : Bool) (slot : Nat) (s : State) : exec (.revoke h owner slot) s = execRevoke h owner slot s := rfl

end

/-- Settles O39: each command by its checks, through the port or the management connector that it comes over. -/
theorem fuseCommandsBlowTheirFuses : Obligations.FuseCommandsBlowTheirFuses := by
  unfold Obligations.FuseCommandsBlowTheirFuses
  intro s
  refine ⟨?svn, ?unlock, ?enrol, ?revoke⟩
  case svn =>
    intro rq may
    rw [exec_svncommit, execSvncommit, regWrite_mayWrite may]
    exact ⟨fun early => congrArg _ (if_pos early), fun serving => congrArg _ (if_neg (not_not_intro serving))⟩
  case unlock =>
    refine fun n up fits => ⟨unlock_refused, fun valid off => ?_⟩
    obtain ⟨r, rings⟩ := event_eq ({ s with sec := s.sec.unlocked } : State) (islandShed 23) 0x92 none none 0
    exact ⟨_, unlock_accepted up fits valid off, by rw [rings]; exact ⟨rfl, rfl⟩⟩
  case enrol =>
    intro hears h slot d
    rw [exec_enrol, execEnrol]
    refine ⟨fun bad => congrArg _ (mgmtCmd_range hears fun fits => if_pos ?_), fun ⟨fits, inside, whole⟩ programmed => ?_,
      fun ⟨fits, inside, whole⟩ blank => ?_⟩
    · by_contra good
      exact bad ⟨fits, by omega, by omega⟩
    all_goals
      rw [mgmtCmd_fits hears fits, if_neg (by omega)]
    · rw [if_pos programmed]
    · rw [if_neg (Bool.eq_false_iff.mp blank)]
      rfl
  case revoke =>
    intro hears h owner slot
    rw [exec_revoke, execRevoke]
    refine ⟨fun bad => congrArg _ (mgmtCmd_range hears fun fits => if_pos (not_lt.mp fun inside => bad ⟨fits, inside⟩)),
      fun ⟨fits, inside⟩ none_left => ?_, fun ⟨fits, inside⟩ some_left => ?_⟩
    all_goals
      rw [mgmtCmd_fits hears fits]
      dsimp only
      rw [if_neg (not_le.mpr inside)]
    · exact congrArg _ (if_pos none_left)
    · exact congrArg _ (if_neg some_left)

end Sys2Proof.Machine
end

section
/-! The SPDM responder (R542, R546, R550); and the settlement of O40. -/
namespace Sys2Proof.Machine

section
variable {s : State}

theorem exec_getVersion (s : State) : exec .getVersion s = execGetVersion s := rfl
theorem exec_getCapabilities (s : State) : exec .getCapabilities s = execGetCapabilities s := rfl
theorem exec_negotiateAlgorithms (a b c d : Bool) (s : State) :
    exec (.negotiateAlgorithms a b c d) s = execNegotiateAlgorithms a b c d s := rfl
theorem exec_getDigests (s : State) : exec .getDigests s = execGetDigests s := rfl
theorem exec_chunkGet (n : Nat) (s : State) : exec (.chunkGet n) s = execChunkGet n s := rfl
theorem exec_getCertificate (k o n : Nat) (s : State) : exec (.getCertificate k o n) s = execGetCertificate k o n s := rfl
theorem exec_challenge (k : Nat) (nonce : List Byte) (s : State) : exec (.challenge k nonce) s = execChallenge k nonce s := rfl
theorem exec_getMeasurements (k : Nat) (nonce : List Byte) (s : State) :
    exec (.getMeasurements k nonce) s = execGetMeasurements k nonce s := rfl
theorem exec_keyExchange (doe : Bool) (s : State) : exec (.keyExchange doe) s = execKeyExchange doe s := rfl
theorem exec_finish (n : Nat) (verified : Bool) (s : State) : exec (.finish n verified) s = execFinish n verified s := rfl
theorem exec_heartbeat (n : Nat) (s : State) : exec (.heartbeat n) s = execHeartbeat n s := rfl
theorem exec_keyUpdate (n : Nat) (s : State) : exec (.keyUpdate n) s = execKeyUpdate n s := rfl
theorem exec_endSession (n : Nat) (s : State) : exec (.endSession n) s = execEndSession n s := rfl
theorem exec_chunkSend (k : Nat) (last : Bool) (d : List Byte) (s : State) : exec (.chunkSend k last d) s = execChunkSend k last d s := rfl
theorem exec_plotKey (n plot kid : Nat) (key : List Byte) (s : State) : exec (.plotKey n plot kid key) s = execPlotKey n plot kid key s := rfl

/-! A request at its stage, and one inside its session. -/

theorem spdmAt_served (up : s.spdmUp = true) {stage : Nat} (reached : stage ≤ s.sec.spdm.stage) (f : State → State) :
    s.spdmAt stage f = .next (f s) := by
  rw [State.spdmAt, if_neg (by simp [up]), if_neg (not_lt.mpr reached)]

/-- The session has been established. -/
def Spdm.inside (x : Spdm) (n : Nat) : Bool := x.sessions.any (fun y => y.id == n && y.up)

theorem inSession_served (up : s.spdmUp = true) (reached : 3 ≤ s.sec.spdm.stage) {n : Nat} (inside : s.sec.spdm.inside n = true)
    (f : State → State) : s.inSession n f = .next (f s) := by
  rw [State.inSession, spdmAt_served up reached]
  exact congrArg _ (if_pos inside)

theorem inSession_outside (up : s.spdmUp = true) (reached : 3 ≤ s.sec.spdm.stage) {n : Nat} (outside : s.sec.spdm.inside n = false)
    (f : State → State) : s.inSession n f = .next (s.spdmSay (.error 0x02)) := by
  rw [State.inSession, spdmAt_served up reached]
  exact congrArg _ (if_neg (Bool.eq_false_iff.mp outside))

/-! Responses that fit one message, and those that travel in chunks. -/

theorem fitTo_length (n : Nat) (bs : List Byte) : (fitTo n bs).length = n := by simp [fitTo]

theorem spdmLarge_small {bs : List Byte} (small : bs.length ≤ 4096) (r : SpdmResp) : s.spdmLarge r bs = s.spdmSay r := if_pos small

theorem spdmLarge_chunks {bs : List Byte} (large : 4096 < bs.length) (r : SpdmResp) : s.spdmLarge r bs =
    (s.setSpdm (fun x => { x with chunkOut := some bs, chunkSeq := 0 })).spdmSay (.large bs.length) := if_neg (not_le.mpr large)

/-- What ends with an ML-DSA-87 signature exceeds one message. -/
theorem signed_large (bs sig : List Byte) : 4096 < (bs ++ fitTo 4627 sig).length := by
  rw [List.length_append, fitTo_length]
  omega

theorem drawNonce_draws (s : State) : ∃ own : List Byte, own.length = 32 ∧ s.drawNonce = (own, { s with fresh := s.fresh + 4 }) :=
  ⟨_, by simp only [List.length_append, leBytes_length], rfl⟩

theorem challenge_signs (up : s.spdmUp = true) (reached : 3 ≤ s.sec.spdm.stage) (nonce : List Byte) :
    ∃ own : List Byte, own.length = 32 ∧
      let dig := sha3 (Config.certChain s.sec.akSvn)
      let signed := dig ++ own ++ fitTo 4627 (Config.akSign s.sec.akSvn (sha3 (nonce ++ dig ++ own)))
      exec (.challenge 0 nonce) s = .next ((({ s with fresh := s.fresh + 4 } : State).setSpdm
        (fun x => { x with chunkOut := some signed, chunkSeq := 0 })).spdmSay (.large signed.length)) := by
  obtain ⟨own, length, drawn⟩ := drawNonce_draws s
  refine ⟨own, length, ?_⟩
  rw [exec_challenge, execChallenge, spdmAt_served up reached, if_neg (not_not_intro rfl), drawn]
  exact congrArg _ (spdmLarge_chunks (signed_large ..) _)

theorem getMeasurements_signs (up : s.spdmUp = true) (reached : 3 ≤ s.sec.spdm.stage) {k : Nat} (one : k ≠ 0xFF)
    {nonce b : List Byte} (block : s.measurement k nonce = some b) : ∃ own : List Byte,
      let signed := (leBytes 1 k ++ b) ++ own ++ fitTo 4627 (Config.akSign s.sec.akSvn (sha3 (nonce ++ (leBytes 1 k ++ b) ++ own)))
      exec (.getMeasurements k nonce) s = .next ((({ s with fresh := s.fresh + 4 } : State).setSpdm
        (fun x => { x with chunkOut := some signed, chunkSeq := 0 })).spdmSay (.large signed.length)) := by
  obtain ⟨own, -, drawn⟩ := drawNonce_draws s
  have blocks : [k].filterMap (fun k => (s.measurement k nonce).map (fun b => (k, b))) = [(k, b)] := by simp [block]
  refine ⟨own, ?_⟩
  rw [exec_getMeasurements, execGetMeasurements, spdmAt_served up reached]
  dsimp only
  rw [if_neg one, blocks, if_neg (by simp), drawn]
  dsimp only
  rw [List.flatMap_singleton]
  exact congrArg _ (spdmLarge_chunks (signed_large ..) _)

/-! Admission is lost with its session (R546). -/

theorem cloche_setCloche {p : Nat} (inside : p < s.sec.cloche.length) (c : Cloche) : (s.setCloche p c).cloche p = c := by
  simp [State.setCloche, State.cloche, List.getD_eq_getElem?_getD, inside]

theorem cloche_setCloche_ne {p k : Nat} (other : k ≠ p) (c : Cloche) : (s.setCloche p c).cloche k = s.cloche k := by
  simp [State.setCloche, State.cloche, List.getD_eq_getElem?_getD, List.getElem?_set_ne other.symm]

/-- A partition that is not OFF is one of the module's. -/
theorem cloche_lt {p : Nat} (st : (s.cloche p).st ≠ .off) : p < s.sec.cloche.length := by
  by_contra outside
  exact st (by rw [State.cloche, List.getD_eq_default _ _ (not_lt.mp outside)]; rfl)

/-- The loss of a partition's admission changes its Cloche state, an event ring and the interrupts. -/
theorem loseAdmission_admitted {p : Nat} (admitted : (s.cloche p).st = .admitted) (ide tsp : Bool) : ∃ r o h, s.loseAdmission p ide tsp =
    { s.setCloche p { s.cloche p with st := .locked, ide := ide, tsp := tsp, session := none } with
      obs := { s.obs with rings := r }, out := o, host := h } := by
  obtain ⟨r, rings⟩ := event_eq (s.setCloche p { s.cloche p with st := .locked, ide := ide, tsp := tsp, session := none })
    (islandShed 23) 0x91 none none ClocheSt.locked.code
  obtain ⟨o, h, raised⟩ := irq_eq ((s.setCloche p { s.cloche p with st := .locked, ide := ide, tsp := tsp, session := none }).event
    (islandShed 23) 0x91 none none ClocheSt.locked.code) 7
  refine ⟨r, o, h, ?_⟩
  rw [State.loseAdmission, if_pos admitted]
  dsimp only
  rw [raised, rings]
  rfl

theorem loseAdmission_other {p : Nat} (other : (s.cloche p).st ≠ .admitted) (ide tsp : Bool) : s.loseAdmission p ide tsp = s := if_neg other

end

/-- From s to t admissions have been lost: Cloche states, what is observed and interrupts have changed, and no partition has
been admitted; one that still is reads as it did. -/
structure AdmissionsLost (s t : State) : Prop where
  frame : t = { s with sec := { s.sec with cloche := t.sec.cloche }, obs := t.obs, out := t.out, host := t.host }
  admitted : ∀ p, (t.cloche p).st = .admitted → t.cloche p = s.cloche p

theorem AdmissionsLost.refl (s : State) : AdmissionsLost s s := ⟨rfl, fun _ _ => rfl⟩

theorem AdmissionsLost.trans {s t u : State} (h : AdmissionsLost s t) (k : AdmissionsLost t u) : AdmissionsLost s u where
  frame := by rw [k.frame, h.frame]
  admitted p still := (k.admitted p still).trans (h.admitted p (k.admitted p still ▸ still))

theorem loseAdmission_lost (s : State) (p : Nat) (ide tsp : Bool) :
    AdmissionsLost s (s.loseAdmission p ide tsp) ∧ ((s.loseAdmission p ide tsp).cloche p).st ≠ .admitted := by
  by_cases admitted : (s.cloche p).st = .admitted
  · obtain ⟨r, o, h, lost⟩ := loseAdmission_admitted admitted ide tsp
    have inside : p < s.sec.cloche.length := cloche_lt (by simp [admitted])
    have closed : (s.loseAdmission p ide tsp).cloche p = { s.cloche p with st := .locked, ide := ide, tsp := tsp, session := none } := by
      rw [lost]
      exact cloche_setCloche inside _
    have shut : ((s.loseAdmission p ide tsp).cloche p).st ≠ .admitted := by simp [closed]
    refine ⟨⟨by rw [lost]; rfl, fun k still => ?_⟩, shut⟩
    have other : k ≠ p := fun same => shut (same ▸ still)
    rw [lost]
    exact cloche_setCloche_ne other _
  · rw [loseAdmission_other admitted]
    exact ⟨.refl s, admitted⟩

/-- Every partition that f names has lost its admission. -/
theorem loseAdmissions_lost (s : State) (ide tsp : Bool) (f : Cloche → Bool) :
    AdmissionsLost s (s.loseAdmissions ide tsp f) ∧
      ∀ p, p < 8 → f (s.cloche p) = true → ((s.loseAdmissions ide tsp f).cloche p).st ≠ .admitted := by
  suffices all : ∀ (ps : List Nat) (s : State), let t := ps.foldl (fun (s : State) p => if f (s.cloche p) then s.loseAdmission p ide tsp else s) s
      AdmissionsLost s t ∧ ∀ p ∈ ps, f (s.cloche p) = true → (t.cloche p).st ≠ .admitted by
    obtain ⟨lost, named⟩ := all (List.range 8) s
    exact ⟨lost, fun p hp => named p (List.mem_range.mpr hp)⟩
  intro ps
  induction ps with
  | nil => exact fun s => ⟨.refl s, fun p hp => nomatch hp⟩
  | cons k ps ih =>
    intro s
    have first : let u := if f (s.cloche k) then s.loseAdmission k ide tsp else s
        AdmissionsLost s u ∧ (f (s.cloche k) = true → (u.cloche k).st ≠ .admitted) := by
      dsimp only
      split
      · exact ⟨(loseAdmission_lost s k ide tsp).1, fun _ => (loseAdmission_lost s k ide tsp).2⟩
      · next unnamed => exact ⟨.refl s, fun named => absurd named unnamed⟩
    rw [List.foldl_cons]
    generalize (if f (s.cloche k) then s.loseAdmission k ide tsp else s) = u at first ⊢
    obtain ⟨lost, shut⟩ := first
    obtain ⟨rest, named⟩ := ih u
    refine ⟨lost.trans rest, fun p hp chosen still => ?_⟩
    have before := rest.admitted p still
    have start := lost.admitted p (before ▸ still)
    rcases List.mem_cons.mp hp with rfl | later
    · exact shut chosen (before ▸ still)
    · exact named p later (start ▸ chosen) still

/-- The number that the next part of a large request bears. -/
def Spdm.nextPart (x : Spdm) : Nat := if x.chunkIn.isSome then x.chunkSeq else 0

section
variable {s : State} (up : s.spdmUp = true) (reached : 2 ≤ s.sec.spdm.stage)
include up reached

theorem chunkSend_misplaced {k : Nat} (wrong : k ≠ s.sec.spdm.nextPart) (last : Bool) (d : List Byte) : exec (.chunkSend k last d) s =
    .next ((s.setSpdm (fun x => { x with chunkIn := none, chunkSeq := 0 })).spdmSay (.error 0x01)) := by
  rw [exec_chunkSend, execChunkSend, spdmAt_served up reached]
  exact congrArg _ (if_pos wrong)

theorem chunkSend_collects (d : List Byte) : exec (.chunkSend s.sec.spdm.nextPart false d) s =
    .next ((s.setSpdm (fun x => { x with chunkIn := some (x.chunkIn.getD [] ++ d), chunkSeq := s.sec.spdm.nextPart + 1 })).spdmSay
      .chunkSendAck) := by
  rw [exec_chunkSend, execChunkSend, spdmAt_served up reached]
  change Host.Outcome.next (if s.sec.spdm.nextPart ≠ s.sec.spdm.nextPart then _ else if false = true then _ else _) = _
  rw [if_neg (not_not_intro rfl), if_neg Bool.false_ne_true]
  rfl

theorem chunkGet_gives {bs : List Byte} (waiting : s.sec.spdm.chunkOut = some bs) :
    let last := decide (bs.length ≤ 4096)
    exec (.chunkGet s.sec.spdm.chunkSeq) s = .next ((s.setSpdm (fun x => { x with
      chunkOut := if last then none else some (bs.drop 4096), chunkSeq := if last then 0 else x.chunkSeq + 1 })).spdmSay
        (.chunk s.sec.spdm.chunkSeq last (bs.take 4096))) := by
  rw [exec_chunkGet, execChunkGet, spdmAt_served up reached]
  dsimp only
  rw [waiting]
  exact congrArg _ (if_neg (not_not_intro rfl))

end

/-- The end of a session leaves the rest of the responder alone. -/
theorem endSession_ends (s : State) (n : Nat) :
    (s.endSession n).sec.spdm = { s.sec.spdm with sessions := s.sec.spdm.sessions.filter (fun y => y.id != n) } ∧
      ∀ p, p < 8 → (s.cloche p).session = some n → ((s.endSession n).cloche p).st ≠ .admitted := by
  obtain ⟨lost, shut⟩ := loseAdmissions_lost (s.setSpdm (fun x => { x with sessions := x.sessions.filter (fun y => y.id != n) }))
    false false (fun c => c.session == some n)
  refine ⟨?_, fun p hp held => shut p hp (beq_iff_eq.mpr held)⟩
  rw [State.endSession, lost.frame]
  rfl

/-- Settles O40: each request at its stage, the signed ones by their chunks, and the end of a session by the admissions that
go with it. -/
theorem spdmServesItsRequests : Obligations.SpdmServesItsRequests := by
  unfold Obligations.SpdmServesItsRequests
  intro s up x does inside chain
  have served {stage : Nat} (reached : stage ≤ x.stage) (f : State → State) : s.spdmAt stage f = .next (f s) := spdmAt_served up reached f
  refine ⟨?version, ?capabilities, ?algorithms, ?unsupported, ?digests, ?noChunk, ?certificate, ?challenge, ?measurements, ?exchange,
    ?full, ?finish, ?heartbeat, ?outside, ?update, ?leave, ?send, ?get, ?key⟩
  case version => exact (exec_getVersion s).trans (served (Nat.zero_le _) _)
  case capabilities => exact fun reached => (exec_getCapabilities s).trans (served reached _)
  case algorithms => exact fun reached => (exec_negotiateAlgorithms ..).trans (served reached _)
  case unsupported => exact fun a b c d reached lacking => ((exec_negotiateAlgorithms ..).trans (served reached _)).trans (congrArg _ (if_neg (Bool.eq_false_iff.mp lacking)))
  case digests => exact fun reached => (exec_getDigests s).trans (served reached _)
  case noChunk =>
    intro n reached empty
    refine ((exec_chunkGet n s).trans (served (Nat.le_of_succ_le reached) _)).trans ?_
    dsimp only
    rw [show s.sec.spdm.chunkOut = none from empty]
    rfl
  case certificate =>
    intro o n reached within_chain short
    refine ((exec_getCertificate ..).trans (served reached _)).trans ?_
    dsimp only
    rw [if_neg (by simpa using within_chain), spdmLarge_small (by simp; omega)]
    rfl
  case challenge =>
    intro nonce reached
    obtain ⟨own, length, answer⟩ := challenge_signs up reached nonce
    exact ⟨_, own, _, answer, length, rfl, rfl, rfl, rfl, rfl⟩
  case measurements =>
    intro k nonce b reached one block
    obtain ⟨own, answer⟩ := getMeasurements_signs up reached one block
    exact ⟨_, own, answer, rfl, rfl, rfl⟩
  case exchange => exact fun doe reached room => ((exec_keyExchange ..).trans (served reached _)).trans (congrArg _ (if_neg (not_le.mpr room)))
  case full => exact fun doe reached full => ((exec_keyExchange ..).trans (served reached _)).trans (congrArg _ (if_pos full))
  case finish =>
    intro n reached waiting
    refine ((exec_finish ..).trans (served reached _)).trans ?_
    dsimp only
    rw [if_neg (by simp [show s.sec.spdm.sessions.any (fun y => y.id == n && !y.up) = true from waiting]), if_neg (by simp)]
    rfl
  case heartbeat => exact fun n reached member => (exec_heartbeat ..).trans (inSession_served up reached member _)
  case outside => exact fun n reached stranger => (exec_heartbeat ..).trans (inSession_outside up reached stranger _)
  case update => exact fun n reached member => (exec_keyUpdate ..).trans (inSession_served up reached member _)
  case leave =>
    intro n reached member
    obtain ⟨ended, shut⟩ := endSession_ends s n
    refine ⟨(s.endSession n).spdmSay .endSessionAck, (exec_endSession ..).trans (inSession_served up reached member _), ?_⟩
    generalize s.endSession n = u at ended shut ⊢
    exact ⟨ended, rfl, shut⟩
  case send =>
    intro k last d reached n
    refine ⟨fun wrong => chunkSend_misplaced up reached wrong last d, ?_⟩
    rintro rfl rfl
    exact chunkSend_collects up reached d
  case get =>
    intro bs reached waiting
    refine (chunkGet_gives up reached waiting).trans ?_
    simp only [decide_eq_true_eq]
    rfl
  case key =>
    intro n plot kid key reached member ok
    refine ⟨fun bad => ((exec_plotKey ..).trans (inSession_served up reached member _)).trans (congrArg _ (if_neg bad)), fun good => ?_⟩
    refine ⟨_, ((exec_plotKey ..).trans (inSession_served up reached member _)).trans (congrArg _ (if_pos good)), rfl, rfl, ?_, fun k => ?_⟩
    · exact (Tab.get_set (d := 0) s.sec.kid plot plot kid).trans (if_pos rfl)
    · exact Tab.get_set (d := none) s.sec.keys (2 * plot + kid) k (some key)

end Sys2Proof.Machine
end

section
/-! The Cloche states of a partition (R545, R546, R549, R553): what entering wipes, the scrub, admission and its loss; and the
settlement of O38. -/
namespace Sys2Proof.Machine

/-- What every step of a fold brings about, the fold does, when it may be repeated. -/
theorem foldl_rel {α σ : Type} {R : σ → σ → Prop} (refl : ∀ s, R s s) (trans : ∀ {s t u}, R s t → R t u → R s u) {f : σ → α → σ}
    (step : ∀ s a, R s (f s a)) (l : List α) (s : σ) : R s (l.foldl f s) := by
  induction l generalizing s with
  | nil => exact refl s
  | cons a l ih => exact trans (step s a) (ih _)

/-- From s to t nothing has changed but the key-value unit, the weight unit, the regions and local memory with its tables. -/
def WipesOnly (s t : State) : Prop := t = { s with kv := t.kv, wgt := t.wgt, regions := t.regions, mem := t.mem }

theorem WipesOnly.refl (s : State) : WipesOnly s s := rfl

theorem WipesOnly.trans {s t u : State} (h : WipesOnly s t) (k : WipesOnly t u) : WipesOnly s u := by
  unfold WipesOnly at *
  rw [k, h]

theorem WipesOnly.trl_eq {s t : State} (h : WipesOnly s t) : t.trl = s.trl := by rw [h]
theorem WipesOnly.parts_eq {s t : State} (h : WipesOnly s t) : t.parts = s.parts := by rw [h]

/-- From s to t only regions have changed. -/
def RegionsOnly (s t : State) : Prop := t = { s with regions := t.regions }

theorem RegionsOnly.refl (s : State) : RegionsOnly s s := rfl

theorem RegionsOnly.trans {s t u : State} (h : RegionsOnly s t) (k : RegionsOnly t u) : RegionsOnly s u := by
  unfold RegionsOnly at *
  rw [k, h]

theorem RegionsOnly.wipes {s t : State} (h : RegionsOnly s t) : WipesOnly s t := by
  unfold RegionsOnly WipesOnly at *
  rw [h]

theorem foldl_regionsOnly {α : Type} {f : State → α → State} (step : ∀ s a, RegionsOnly s (f s a)) (l : List α) (s : State) :
    RegionsOnly s (l.foldl f s) := foldl_rel .refl .trans step l s

theorem setRegion_regionsOnly (s : State) (r : Nat) (x : Region) : RegionsOnly s (s.setRegion r x) := rfl

/-! A partition's sequences are freed. -/

theorem dropRuns_regionsOnly (s : State) (p n : Nat) : RegionsOnly s (s.dropRuns p n) :=
  foldl_regionsOnly (fun s r => setRegion_regionsOnly s r _) _ s

/-- Freeing a sequence leaves every other one and the range tables alone. -/
structure FreesSeq (s t : State) (n : Nat) : Prop where
  frame : WipesOnly s t
  wgt : t.wgt = s.wgt
  tables : t.mem.tables = s.mem.tables
  seqs : t.kv.seqs = Tab.set .free s.kv.seqs n .free

/-- From s to t only counts of frames have changed. -/
def RefsOnly (s t : State) : Prop := t = { s with kv := { s.kv with refs := t.kv.refs } }

theorem RefsOnly.refl (s : State) : RefsOnly s s := rfl

theorem RefsOnly.trans {s t u : State} (h : RefsOnly s t) (k : RefsOnly t u) : RefsOnly s u := by
  unfold RefsOnly at *
  rw [k, h]

theorem refDown_refsOnly (s : State) (a n : Nat) : RefsOnly s (s.refDown a n) := rfl

theorem freeSeq_frees (s : State) (n : Nat) : FreesSeq s (s.freeSeq n) n := by
  have counts (rs : List PageRun) (m : Nat) (fs : List Nat) : RefsOnly s (fs.foldl (fun (s : State) f => s.refDown f 1)
      (rs.foldl (fun (s : State) r => if r.st = .evicted then s else s.refDown r.frame (r.count * m)) s)) := by
    refine .trans (foldl_rel .refl .trans (fun s r => ?_) rs s) (foldl_rel .refl .trans (fun s f => refDown_refsOnly s f 1) fs _)
    split
    · exact .refl s
    · exact refDown_refsOnly ..
  unfold State.freeSeq
  dsimp only
  generalize (s.seq n).runFrames ++ (s.seq n).scoreFrame.toList = fs
  have counted := counts (s.seq n).runs (s.seq n).geo.frames fs
  generalize fs.foldl _ _ = u at counted ⊢
  have regions := dropRuns_regionsOnly u (s.seq n).part n
  generalize u.dropRuns (s.seq n).part n = v at regions ⊢
  unfold RefsOnly RegionsOnly at *
  refine ⟨?_, ?_, ?_, ?_⟩
  · show _ = _
    rw [regions, counted]
    rfl
  all_goals
    rw [regions, counted]
    rfl

theorem seq_freed {s t : State} {n : Nat} (frees : FreesSeq s t n) (k : Nat) : t.seq k = if k = n then .free else s.seq k := by
  rw [State.seq, frees.seqs]
  exact Tab.get_set ..

theorem ownsSeq_congr {s t : State} (trl : t.trl = s.trl) (p n : Nat) : t.ownsSeq p n = s.ownsSeq p n := by
  simp [State.ownsSeq, State.partRec, trl]

/-- A sequence that the table does not list is FREE. -/
theorem seq_unlisted {s : State} {n : Nat} (unlisted : n ∉ s.kv.seqs.map (·.1)) : s.seq n = .free := by
  unfold State.seq
  generalize s.kv.seqs = t at unlisted
  induction t with
  | nil => rfl
  | cons e t ih =>
    obtain ⟨other, unlisted⟩ := not_or.mp (fun h => unlisted (List.mem_cons.mpr h))
    exact (if_neg (Ne.symm other)).trans (ih unlisted)

/-- The sequences of a partition are FREE after the wipe; the weight unit and the range tables are as they were. -/
theorem freeSeqs_frees (s : State) (p : Nat) : WipesOnly s (s.freeSeqs p) ∧ (s.freeSeqs p).wgt = s.wgt ∧
    (s.freeSeqs p).mem.tables = s.mem.tables ∧ ∀ n, s.ownsSeq p n = true → (s.freeSeqs p).seq n = .free := by
  suffices all : ∀ (ks : List Nat) (s : State), let t := ks.foldl (fun (s : State) n => if s.ownsSeq p n then s.freeSeq n else s) s
      WipesOnly s t ∧ t.wgt = s.wgt ∧ t.mem.tables = s.mem.tables ∧
        ∀ n, s.ownsSeq p n = true → (n ∈ ks ∨ s.seq n = .free) → t.seq n = .free by
    obtain ⟨frame, wgt, tables, free⟩ := all (s.kv.seqs.map (·.1)) s
    refine ⟨frame, wgt, tables, fun n owned => free n owned ?_⟩
    by_cases listed : n ∈ s.kv.seqs.map (·.1)
    · exact .inl listed
    · exact .inr (seq_unlisted listed)
  intro ks
  induction ks with
  | nil => exact fun s => ⟨.refl s, rfl, rfl, fun n _ free => free.elim (fun h => nomatch h) id⟩
  | cons k ks ih =>
    intro s
    have first : let u := if s.ownsSeq p k then s.freeSeq k else s
        WipesOnly s u ∧ u.wgt = s.wgt ∧ u.mem.tables = s.mem.tables ∧
          ∀ n, s.ownsSeq p n = true → (n = k ∨ s.seq n = .free) → u.seq n = .free := by
      dsimp only
      split
      · have frees := freeSeq_frees s k
        refine ⟨frees.frame, frees.wgt, frees.tables, fun n _ free => ?_⟩
        rw [seq_freed frees]
        exact ite_eq_left_iff.mpr fun other => free.resolve_left other
      · next unowned =>
        exact ⟨.refl s, rfl, rfl, fun n owned free => free.elim (fun same => absurd (same ▸ owned) unowned) id⟩
    rw [List.foldl_cons]
    generalize (if s.ownsSeq p k then s.freeSeq k else s) = u at first ⊢
    obtain ⟨frame, wgt, tables, free⟩ := first
    obtain ⟨frame', wgt', tables', free'⟩ := ih u
    refine ⟨frame.trans frame', wgt'.trans wgt, tables'.trans tables, fun n owned here => ?_⟩
    refine free' n ((ownsSeq_congr frame.trl_eq p n).trans owned) ?_
    rw [List.mem_cons] at here
    obtain (same | later) | before := here
    · exact .inr (free n owned (.inl same))
    · exact .inl later
    · exact .inr (free n owned (.inr before))

/-! Its generations are freed, and its range tables flushed. -/

theorem freeGen_frame (s : State) (p e : Nat) : s.freeGen p e = { s with wgt := (s.freeGen p e).wgt, regions := (s.freeGen p e).regions } := rfl

/-- The generations of a partition are FREE after the wipe, which changes the weight unit and what the regions cache. -/
theorem freeGens_frees (s : State) (p : Nat) :
    s.freeGens p = { s with wgt := (s.freeGens p).wgt, regions := (s.freeGens p).regions } ∧
      ∀ e, e < 8 → ((s.freeGens p).gen p e).st = .free := by
  suffices all : ∀ (es : List Nat) (s : State), (∀ e ∈ es, e < 8) →
      let t := es.foldl (fun (s : State) e => if (s.gen p e).st = .free then s else s.freeGen p e) s
      t = { s with wgt := t.wgt, regions := t.regions } ∧
        ∀ e, e < 8 → (e ∈ es ∨ (s.gen p e).st = .free) → (t.gen p e).st = .free by
    obtain ⟨frame, free⟩ := all (List.range 8) { s with wgt := { s.wgt with builds := s.wgt.builds.filter (fun b => b.part != p) } }
      (fun e he => List.mem_range.mp he)
    unfold State.freeGens
    dsimp only
    generalize (List.range 8).foldl _ _ = t at frame free
    exact ⟨by rw [frame], fun e he => free e he (.inl (List.mem_range.mpr he))⟩
  intro es
  induction es with
  | nil => exact fun s _ => ⟨rfl, fun e _ free => free.elim (fun h => nomatch h) id⟩
  | cons k es ih =>
    intro s small
    have first : let u := if (s.gen p k).st = .free then s else s.freeGen p k
        u = { s with wgt := u.wgt, regions := u.regions } ∧
          ∀ e, e < 8 → (e = k ∨ (s.gen p e).st = .free) → (u.gen p e).st = .free := by
      dsimp only
      split
      · next free => exact ⟨rfl, fun e _ here => here.elim (fun same => same ▸ free) id⟩
      · refine ⟨freeGen_frame s p k, fun e he here => ?_⟩
        rw [gen_freeGen, gen_setGen]
        split
        · rfl
        · next other => exact here.resolve_left fun same => other (same ▸ rfl)
    rw [List.foldl_cons]
    generalize (if (s.gen p k).st = .free then s else s.freeGen p k) = u at first ⊢
    obtain ⟨frame, free⟩ := first
    obtain ⟨frame', free'⟩ := ih u (fun e he => small e (List.mem_cons_of_mem k he))
    refine ⟨by rw [frame', frame], fun e he here => free' e he ?_⟩
    rw [List.mem_cons] at here
    obtain (same | later) | before := here
    · exact .inr (free e he (.inl same))
    · exact .inl later
    · exact .inr (free e he (.inr before))

/-- The range tables of the partition's contexts are empty after the flush, which changes memory's tables and what the
regions cache. -/
theorem flushTables_flushes (s : State) (p : Nat) :
    s.flushTables p = { s with mem := (s.flushTables p).mem, regions := (s.flushTables p).regions } ∧
      (s.flushTables p).mem.tables = Tab.dropWhere (fun c => (s.ctxsOf p).contains c) s.mem.tables := by
  unfold State.flushTables
  dsimp only
  generalize flushed : ({ s with mem := _ } : State) = u
  suffices all : ∀ t, RegionsOnly u t → t = { s with mem := t.mem, regions := t.regions } ∧
      t.mem.tables = Tab.dropWhere (fun c => (s.ctxsOf p).contains c) s.mem.tables by
    refine all _ ?_
    exact foldl_regionsOnly (fun s r => setRegion_regionsOnly s r _) _ u
  intro t regions
  unfold RegionsOnly at regions
  subst flushed
  rw [regions]
  exact ⟨rfl, rfl⟩

theorem unwriteCtx_regionsOnly (s : State) (c : Nat) : RegionsOnly s (s.unwriteCtx c) :=
  foldl_regionsOnly (fun s r => setRegion_regionsOnly s r _) _ s

/-- What the wipe of a partition leaves (R545). -/
structure Wiped (s t : State) (p : Nat) : Prop where
  cloche : t.cloche p = { s.cloche p with
    scrub := true, scrubSpans := s.scrubSet p ++ (s.cloche p).scrubSpans.filter (fun x => !((s.scrubSet p).contains x)) }
  seqs : ∀ n, s.ownsSeq p n = true → t.seq n = .free
  gens : ∀ e, e < 8 → (t.gen p e).st = .free
  fences : (t.part p).fences = []
  tables : ∀ c, s.partOfCtx c = some p → Tab.get [] t.mem.tables c = []
  fuses : t.sec.fuses = s.sec.fuses

theorem mem_ctxsOf {s : State} {p c : Nat} (held : s.partOfCtx c = some p) : c ∈ s.ctxsOf p := by
  have small : c < 64 := by
    unfold State.partOfCtx at held
    split at held
    · next h => simpa using (Bool.and_eq_true_iff.mp h).2
    · exact nomatch held
  exact List.mem_filter.mpr ⟨List.mem_range.mpr small, beq_iff_eq.mpr held⟩

theorem wipePart_wipes (s : State) {p : Nat} (hp : p < s.sec.cloche.length) (part : p < s.parts.length) : Wiped s (s.wipePart p) p := by
  obtain ⟨frame1, wgt1, tables1, seqs1⟩ := freeSeqs_frees s p
  unfold State.wipePart
  dsimp only
  generalize s.freeSeqs p = a at *
  obtain ⟨frame2, gens2⟩ := freeGens_frees a p
  generalize a.freeGens p = b at *
  obtain ⟨frame3, tables3⟩ := flushTables_flushes b p
  generalize b.flushTables p = c at *
  have regions := foldl_regionsOnly unwriteCtx_regionsOnly ((c.setPart p { c.part p with fences := [], fenceBy := [] }).ctxsOf p)
    (c.setPart p { c.part p with fences := [], fenceBy := [] })
  generalize List.foldl _ _ _ = d at regions ⊢
  unfold WipesOnly RegionsOnly at *
  have sec : d.sec = s.sec := by rw [regions, setPart_sec, frame3, frame2, frame1]
  have parts : d.part p = { c.part p with fences := [], fenceBy := [] } := by
    rw [regions]
    exact part_setPart _ _ _ (by rw [frame3, frame2, frame1]; exact part)
  have kv : d.kv = a.kv := by rw [regions, setPart_kv, frame3, frame2]
  have wgt : d.wgt = b.wgt := by rw [regions, setPart_wgt, frame3]
  have mem : d.mem = c.mem := by rw [regions, setPart_mem]
  have trl : b.trl = s.trl := by rw [frame2, frame1]
  have here : d.cloche p = s.cloche p := by rw [State.cloche, sec]; rfl
  refine ⟨?_, fun n owned => ?_, fun e he => ?_, ?_, fun x held => ?_, ?_⟩
  · rw [cloche_setCloche (by rw [sec]; exact hp), here]
  · exact (congrArg (fun k : Kv => Tab.get Seq.free k.seqs n) kv).trans (seqs1 n owned)
  · exact (congrArg (fun w : Wgt => (Tab.get .free w.gens (8 * p + e)).st) wgt).trans (gens2 e he)
  · exact congrArg Part.fences parts
  · have listed : x ∈ b.ctxsOf p := mem_ctxsOf (by rw [State.partOfCtx, State.ctxRec, trl]; exact held)
    rw [setCloche_mem, mem, tables3, Tab.get_dropWhere, if_pos (List.contains_iff_mem.mpr listed)]
  · exact (setCloche_keeps ..).2.1.trans (congrArg Sec.fuses sec)

/-! Changes of state. -/

/-- From s to t the Cloche state of partition p has become c, and only event rings have changed besides. -/
structure ClocheBecomes (s t : State) (p : Nat) (c : Cloche) : Prop where
  here : t.cloche p = c
  other : ∀ k, k ≠ p → t.cloche k = s.cloche k
  frame : t = { s with sec := { s.sec with cloche := t.sec.cloche }, obs := t.obs }

theorem ClocheBecomes.trans {s t u : State} {p : Nat} {c d : Cloche} (h : ClocheBecomes s t p c) (k : ClocheBecomes t u p d) :
    ClocheBecomes s u p d where
  here := k.here
  other n hn := (k.other n hn).trans (h.other n hn)
  frame := by rw [k.frame, h.frame]

theorem ClocheBecomes.length {s t : State} {p : Nat} {c : Cloche} (h : ClocheBecomes s t p c) (live : c.st ≠ .off) :
    p < t.sec.cloche.length := cloche_lt (h.here.symm ▸ live)

section
variable {s : State} {p : Nat}

theorem setCloche_becomes (inside : p < s.sec.cloche.length) (c : Cloche) : ClocheBecomes s (s.setCloche p c) p c :=
  ⟨cloche_setCloche inside c, fun _ other => cloche_setCloche_ne other c, rfl⟩

/-- A change of a partition's Cloche state leaves an event besides. -/
theorem setClocheSt_becomes (inside : p < s.sec.cloche.length) (st : ClocheSt) :
    ClocheBecomes s (s.setClocheSt p st) p { s.cloche p with st := st } := by
  unfold State.setClocheSt
  split
  · next same => exact ⟨by rw [← same], fun _ _ => rfl, rfl⟩
  · obtain ⟨r, rings⟩ := event_eq (s.setCloche p { s.cloche p with st := st }) (islandShed 23) 0x90 none none st.code
    rw [rings]
    exact ⟨cloche_setCloche inside _, fun _ other => cloche_setCloche_ne other _, rfl⟩

theorem exec_clocheEnter (rq : Requester) (p : Nat) (s : State) : exec (.clocheEnter rq p) s = execClocheEnter rq p s := rfl

/-- Partition p may enter Cloche. -/
def State.mayEnter (s : State) (p : Nat) : Prop :=
  (s.partRec p).valid = true ∧ (s.partRec p).clocheOk = true ∧ s.queuesOff p = true ∧ (s.cloche p).st = .off

theorem clocheEnter_refused {rq : Requester} (hp : p < 8) (may : s.mayWrite rq (clocheOff p)) (barred : ¬ s.mayEnter p) :
    exec (.clocheEnter rq p) s = .next (s.discard 0x21 (clocheOff p)) := by
  rw [exec_clocheEnter, execClocheEnter, if_neg (not_le.mpr hp), regWrite_mayWrite may]
  exact congrArg _ (if_neg barred)

theorem clocheEnter_enters {rq : Requester} (hp : p < 8) (may : s.mayWrite rq (clocheOff p)) (ok : s.mayEnter p) :
    exec (.clocheEnter rq p) s = .next ((s.setClocheSt p .entering).wipePart p) := by
  rw [exec_clocheEnter, execClocheEnter, if_neg (not_le.mpr hp), regWrite_mayWrite may]
  exact congrArg _ (if_pos ok)

/-! The scrub (R553). -/

/-- From s to t memory has been zeroed in these spans, and nothing else has changed but its uncorrectable units. -/
structure Zeroed (s t : State) (xs : List (Nat × Nat)) : Prop where
  frame : t = { s with mem := { s.mem with loc := t.mem.loc, bad := t.mem.bad } }
  byte : ∀ a, t.mem.loc.byte a = if ∃ x ∈ xs, x.1 ≤ a ∧ a < x.1 + x.2 then 0 else s.mem.loc.byte a

theorem zeroSpans_zero (xs : List (Nat × Nat)) (s : State) : Zeroed s (xs.foldl (fun (s : State) x => s.zeroSpan x) s) xs := by
  induction xs generalizing s with
  | nil => exact ⟨rfl, fun a => by simp⟩
  | cons x xs ih =>
    obtain ⟨frame, byte⟩ := ih (s.zeroSpan x)
    refine ⟨by rw [List.foldl_cons, frame]; rfl, fun a => ?_⟩
    have first : (s.zeroSpan x).mem.loc.byte a = if x.1 ≤ a ∧ a < x.1 + x.2 then 0 else s.mem.loc.byte a := Memory.byte_clear ..
    rw [List.foldl_cons, byte, first]
    simp only [List.mem_cons, exists_eq_or_imp]
    by_cases here : x.1 ≤ a ∧ a < x.1 + x.2
    · rw [if_pos here, ite_self, if_pos (.inl here)]
    · simp only [here, if_false, false_or]

/-- The Cloche state that the end of a scrub leaves: a teardown's leaves the partition OFF (R549). -/
def Cloche.scrubbed (c : Cloche) : Cloche :=
  { c with scrub := false, scrubSpans := [], teardown := false, st := if c.teardown then .off else c.st }

/-- The state in which the scrub of a partition that had Cloche state c has ended. -/
def State.endScrub (s : State) (p : Nat) (c : Cloche) : State :=
  let u := s.setCloche p { c with scrub := false, scrubSpans := [], teardown := false }
  if c.teardown then u.setClocheSt p .off else u

theorem endScrub_becomes (inside : p < s.sec.cloche.length) (c : Cloche) : ClocheBecomes s (s.endScrub p c) p c.scrubbed := by
  have closed := setCloche_becomes inside { c with scrub := false, scrubSpans := [], teardown := false }
  unfold State.endScrub Cloche.scrubbed
  dsimp only
  split
  · have off := closed.trans (setClocheSt_becomes (by simpa [State.setCloche] using inside) .off)
    rw [closed.here] at off
    exact off
  · exact closed

theorem scrubDone_ends (hp : p < 8) (scrubbing : (s.cloche p).scrub = true) : exec (.scrubDone p) s =
    .next (State.endScrub ((s.cloche p).scrubSpans.foldl (fun (s : State) x => s.zeroSpan x) s) p (s.cloche p)) :=
  if_neg (not_or.mpr ⟨not_le.mpr hp, by simp [scrubbing]⟩)

end

/-- Settles O38: entering by what the wipe leaves, the scrub by its spans, and each other change by its event. -/
theorem clocheMovesThroughItsStates : Obligations.ClocheMovesThroughItsStates := by
  unfold Obligations.ClocheMovesThroughItsStates
  intro p s hp eight
  have inside : p < s.sec.cloche.length := eight.symm ▸ hp
  refine ⟨?enter, ?scrub, ?wiped, ?joins, ?barred, fun ide tsp => ⟨?lost, ?kept⟩⟩
  case enter =>
    intro rq may ok
    refine ⟨fun barred => clocheEnter_refused hp may barred, fun may_enter part => ?_⟩
    obtain ⟨-, -, -, off⟩ := id may_enter
    refine ⟨_, clocheEnter_enters hp may may_enter, ?_⟩
    obtain ⟨entering, -, frame⟩ := setClocheSt_becomes inside .entering
    generalize s.setClocheSt p .entering = u at entering frame ⊢
    have trl : u.trl = s.trl := by rw [frame]
    obtain ⟨cloche, seqs, gens, fences, tables, fuses⟩ := wipePart_wipes u (p := p) (cloche_lt (by simp [entering]))
      (by rw [frame]; exact part)
    rw [entering] at cloche
    refine ⟨congrArg Cloche.st cloche, congrArg Cloche.scrub cloche, fun x hx => ?_, fun n owned => seqs n ?_, gens, fences,
      fun c held => tables c ?_, fuses.trans (by rw [frame])⟩
    · rw [cloche]
      refine List.mem_append_left _ ?_
      rw [State.scrubSet, trl]
      exact hx
    · exact (ownsSeq_congr trl p n).trans owned
    · rw [State.partOfCtx, State.ctxRec, trl]
      exact held
  case scrub =>
    intro scrubbing
    obtain ⟨frame, byte⟩ := zeroSpans_zero (s.cloche p).scrubSpans s
    refine ⟨_, scrubDone_ends hp scrubbing, ?_⟩
    generalize (s.cloche p).scrubSpans.foldl _ _ = u at frame byte ⊢
    obtain ⟨here, other, kept⟩ := endScrub_becomes (s := u) (p := p) (by rw [frame]; exact inside) (s.cloche p)
    generalize u.endScrub p (s.cloche p) = t at here other kept ⊢
    refine ⟨congrArg Cloche.scrub here, congrArg Cloche.st here, fun a => ?_, by rw [kept, frame], by rw [kept, frame],
      by rw [kept, frame], fun k hk => (other k hk).trans (by rw [frame]; rfl)⟩
    rw [kept]
    exact byte a
  case wiped =>
    intro entering clean
    obtain ⟨here, other, frame⟩ := setClocheSt_becomes inside .locked
    refine ⟨_, if_pos ⟨entering, Bool.eq_false_iff.mp clean, hp⟩, here, ?_, other⟩
    generalize s.setClocheSt p .locked = t at frame ⊢
    rw [frame]
  case joins =>
    intro n locked session live up
    have cond : ¬(8 ≤ p ∨ (s.cloche p).st ≠ .locked ∨ !(s.doeSession n) ∨ s.host.perst ∨ !s.board.rails) := by
      simp [hp, locked, session, live, up]
    have keyed := setCloche_becomes inside { s.cloche p with ide := true, tsp := true, session := some n }
    have admitted := keyed.trans (setClocheSt_becomes (keyed.length (by simp [locked])) .admitted)
    rw [keyed.here] at admitted
    obtain ⟨here, other, frame⟩ := admitted
    refine ⟨_, if_neg cond, here, ?_, other⟩
    generalize State.setClocheSt _ p .admitted = t at frame ⊢
    rw [frame]
  case barred =>
    intro n barred
    refine if_pos (.inr ?_)
    obtain st | session | held := barred
    · exact .inl st
    · exact .inr (.inl (by simp [session]))
    · exact .inr (.inr (.inl held))
  case lost =>
    intro admitted
    obtain ⟨r, o, h, lost⟩ := loseAdmission_admitted admitted ide tsp
    refine ⟨_, if_neg (not_le.mpr hp), ?_⟩
    rw [lost]
    exact ⟨cloche_setCloche inside _, rfl, fun k other => cloche_setCloche_ne other _⟩
  case kept =>
    exact fun other => (if_neg (not_le.mpr hp)).trans (congrArg _ (loseAdmission_other other ide tsp))

end Sys2Proof.Machine
end

section
/-! The issue of a TAP (R572), the events of a weight set (Table 03-3, Table 03-9), and the newest event of a ring (R569); and
the settlements of O22 and O10. -/
namespace Sys2Proof.Machine

/-- An event that is not withheld is the newest of its unit's ring. -/
theorem event_newest {s : State} {island : Nat} {part : Option Nat} (told : s.withheld island part = false) (code : Nat)
    (queue : Option Nat) (data : Nat) : ∃ e, (Tab.get .reset (s.event island code part queue data).obs.rings island).entries.head? =
      some e ∧ e.code = code ∧ e.time = s.now := by
  refine ⟨⟨s.now, code, part, queue, data⟩, ?_, rfl, rfl⟩
  rw [event_ring _ _ _ _ _ _ told, Tab.get_modify, if_pos rfl]
  rfl

/-! TAP (R169, R572). -/

section
variable {s : State} {r p : Nat} {l : LaunchRun} {f : TapF}

theorem exec_tap (r : Nat) (f : TapF) (s : State) : exec (.tap r f) s = execTap r f s := rfl

theorem issuing_opnd (s : State) (r a b : Nat) : (s.issuing r).opnd a b = (s.region r).opnd a b := by
  obtain ⟨k, a, u, l, h⟩ := issuing_eq s r; rw [h]; rfl

/-- The area that the tap of partition p writes to, if it is armed and may. -/
def State.tapArea (s : State) (p n : Nat) : Option TapArea := if s.inCloche p then none else Tab.get none (s.part p).taps n

/-- Region r with its tap counted, issued to the engine. -/
def State.tapped (s : State) (r : Nat) (spans : List USpan) (t : Tail) : Region :=
  ({ s.issuing r with taps := (s.issuing r).taps + 1 } : Region).issue [.engine] spans t

theorem advance_taps (x : Region) : x.advance.taps = x.taps := by obtain ⟨pc, loops, regs, h⟩ := advance_eq x; rw [h]

theorem tapped_issued (start : s.mayStart r (.tap f) p l) (spans : List USpan) (t : Tail) :
    (s.tapped r spans t).taps = (s.region r).taps + 1 ∧ sameSram (s.region r) (s.tapped r spans t) ∧
      issuedNow (s.region r) (s.tapped r spans t) [.engine] spans t := by
  obtain ⟨k, a, u, c, h⟩ := issuing_eq s r
  have same : SameIssue (s.region r) { s.issuing r with taps := (s.issuing r).taps + 1 } := by
    rw [h]
    exact ⟨rfl, rfl, rfl, fun _ => rfl, rfl, rfl, rfl, rfl, rfl⟩
  refine ⟨?_, ?_, same.issuedNow (mayStart_stands start) _ spans t⟩
  all_goals
    rw [State.tapped, issue_eq (i := ⟨RBody.mayVary (.tap f), .tap f⟩) (by rw [same.store, same.pc]; exact mayStart_stands start), h]
  · exact advance_taps _
  · exact sameSram_advance fun _ => rfl

theorem tapStats_lengths (rd : Reader) (o : Opnd) (ordered : Bool) :
    (tapStats rd o ordered).1.length = 28 ∧ (tapStats rd o ordered).2.length = 8 := by
  simp only [tapStats, List.length_append, leBytes_length, and_self]

theorem tapBody_length {seq queue r ordinal : Nat} {ordered : Bool} {stats digest : List Byte} (hs : stats.length = 28)
    (hd : digest.length = 8) : (tapBody seq queue r ordered stats digest ordinal).length = 56 := by
  simp only [tapBody, List.length_append, leBytes_length, List.length_replicate, hs, hd]

/-- A TAP with its operand in the carve-out issues, with a record for its area when it has one. -/
theorem tap_issues {o : Opnd} (start : s.mayStart r (.tap f) p l) (opnd : (s.region r).opnd f.desc f.offreg = some o)
    (inside : o.ok (s.regCarve r) true = true) (free : (s.region r).heldBack (bySpan [.engine] (o.spans true false)) = false) :
    ∃ pend, exec (.tap r f) s = .next (s.setRegion r (s.tapped r (bySpan [.engine] (o.spans true false)) { pend := pend })) ∧
      (s.tapArea p f.tapid = none → pend = .none) ∧
      ∀ area, s.tapArea p f.tapid = some area → ∃ body, pend = .tapArea area body ∧ body.length = 56 := by
  have hr := mayStart_lt start
  rw [exec_tap, execTap, runUnit_begun start]
  dsimp only
  rw [region_begun hr, issuing_opnd, opnd]
  dsimp only
  rw [regCarve_begun, if_neg (by simp [inside]), issuing_heldBack, if_neg (by simp [free])]
  have area : (if (s.begun r).inCloche p = true then none else Tab.get none ((s.begun r).part p).taps f.tapid) = s.tapArea p f.tapid := rfl
  rw [area]
  cases s.tapArea p f.tapid with
  | none => exact ⟨.none, congrArg _ (setRegion_begun ..), fun _ => rfl, fun _ h => nomatch h⟩
  | some area =>
    obtain ⟨stats, digest⟩ := tapStats_lengths ((s.issuing r).view (s.regCarve r)) o (s.partRec p).det
    refine ⟨.tapArea area _, congrArg _ (setRegion_begun ..), by simp, fun a same => ?_⟩
    cases same
    exact ⟨_, rfl, tapBody_length stats digest⟩

end

/-- Settles O22: the tap issues with a record exactly when it has an area. -/
theorem tapIssuesWithItsRecord : Obligations.TapIssuesWithItsRecord := by
  unfold Obligations.TapIssuesWithItsRecord
  intro r p l f s o x start opnd inside free
  obtain ⟨pend, answer, unarmed, armed⟩ := tap_issues start opnd inside free
  obtain ⟨taps, sram, issued⟩ := tapped_issued start (bySpan [.engine] (o.spans true false)) { pend := pend }
  refine ⟨_, pend, answer, taps, sram, issued, fun none_told => unarmed ?_, fun area open_ arms => armed area ?_⟩
  · exact ite_eq_left_iff.mpr fun open_ => none_told.resolve_left open_
  · exact (if_neg (by simp [open_])).trans arms

/-! The events of a weight set (Table 03-3, Table 03-9). -/

section
variable {r b i : Nat} {s : State}

theorem exec_weightSetReady (r b i : Nat) (parity : Option RowFault) (s : State) :
    exec (.weightSetReady r b i parity) s = execWeightSetReady r b i parity s := rfl
theorem exec_weightSetFree (r b i : Nat) (s : State) : exec (.weightSetFree r b i) s = execWeightSetFree r b i s := rfl

/-- A block with one of its weight sets replaced. -/
def Block.withSet (z : Block) (i : Nat) (w : WSet) : Block := { z with sets := z.sets.set i w }

theorem set_withSet {z : Block} (hi : i < z.sets.length) (w : WSet) : (z.withSet i w).set i = w := by
  simp [Block.withSet, Block.set, List.getD_eq_getElem?_getD, hi]

theorem set_withSet_ne {z : Block} {j : Nat} (other : j ≠ i) (w : WSet) : (z.withSet i w).set j = z.set j := by
  simp [Block.withSet, Block.set, List.getD_eq_getElem?_getD, List.getElem?_set_ne other.symm]

/-- The check of a row leaves events and fault counts only. -/
theorem rowParity_eq (s : State) (r b i : Nat) (f : RowFault) : ∃ g n, s.rowParity r b i f =
    { s with obs := { s.obs with rings := g }, rel := { s.rel with faults := n } } := by
  unfold State.rowParity
  dsimp only
  obtain ⟨g, rings⟩ := event_eq s (s.blockIsland r b) 0x10 (s.partOfRegion r) none
    ((s.region r).loadIndex b i % 65536 + (16 * f.row + s.physCol r b f.col) % 65536 * 65536)
  rw [rings]
  split
  · exact ⟨g, _, rfl⟩
  · exact ⟨g, s.rel.faults, rfl⟩

theorem rowParity_newest (told : s.withheld (s.blockIsland r b) (s.partOfRegion r) = false) (f : RowFault) :
    ∃ e, (Tab.get .reset (s.rowParity r b i f).obs.rings (s.blockIsland r b)).entries.head? = some e ∧ e.code = 0x10 ∧ e.time = s.now := by
  obtain ⟨e, newest, code, time⟩ := event_newest told 0x10 none
    ((s.region r).loadIndex b i % 65536 + (16 * f.row + s.physCol r b f.col) % 65536 * 65536)
  refine ⟨e, ?_, code, time⟩
  unfold State.rowParity
  dsimp only
  split
  · exact newest
  · exact newest

/-- What a row that failed parity leaves beside the set that it belongs to. -/
def State.parityNoted (s : State) (r b i : Nat) (parity : Option RowFault) : State :=
  match parity with
  | some f => if f.row < 8 ∧ f.col < 8 then s.rowParity r b i f else s
  | none => s

theorem parityNoted_eq (s : State) (r b i : Nat) (parity : Option RowFault) : ∃ g n, s.parityNoted r b i parity =
    { s with obs := { s.obs with rings := g }, rel := { s.rel with faults := n } } := by
  unfold State.parityNoted
  split
  · split
    · exact rowParity_eq ..
    · exact ⟨s.obs.rings, s.rel.faults, rfl⟩
  · exact ⟨s.obs.rings, s.rel.faults, rfl⟩

theorem weightSetReady_readies (hr : r < 16) (hb : b < 6) (hi : i < 4) (loading : (((s.region r).block b).set i).st = .loading)
    (parity : Option RowFault) : exec (.weightSetReady r b i parity) s = .next ((s.setRegion r ((s.region r).setBlock b
      (((s.region r).block b).withSet i { ((s.region r).block b).set i with st := .ready, failed := failedCell parity }))).parityNoted r b i
        parity) := by
  have done (c : Option (Nat × Nat)) : ((s.region r).block b).loadDone i c =
      ((s.region r).block b).withSet i { ((s.region r).block b).set i with st := .ready, failed := c } :=
    if_pos (beq_iff_eq.mpr loading)
  rw [exec_weightSetReady]
  unfold execWeightSetReady
  dsimp only
  rw [if_neg (by simp only [loading, ne_eq, not_true_eq_false, or_false]; omega), done]
  cases parity with
  | none => rfl
  | some f =>
    dsimp only [State.parityNoted]
    split
    · rfl
    · rfl

theorem weightSetFree_frees (hr : r < 16) (hb : b < 6) (hi : i < 4) (retiring : (((s.region r).block b).set i).st = .retiring) :
    exec (.weightSetFree r b i) s = .next (s.setRegion r ((s.region r).setBlock b (((s.region r).block b).withSet i .empty))) := by
  have done : ((s.region r).block b).setFree i = ((s.region r).block b).withSet i .empty := if_pos (beq_iff_eq.mpr retiring)
  rw [exec_weightSetFree, execWeightSetFree]
  rw [if_neg (by simp only [retiring, ne_eq, not_true_eq_false, or_false]; omega), done]

end

/-- Settles O10: one set of one block changes, and a row that failed parity is noted. -/
theorem weightSetEventsChangeOneSet : Obligations.WeightSetEventsChangeOneSet := by
  unfold Obligations.WeightSetEventsChangeOneSet
  intro r b i parity s x hr inside hb block hi set_
  refine ⟨fun loading => ?_, fun retiring => ?_⟩
  · refine ⟨_, (x.block b).withSet i { (x.block b).set i with st := .ready, failed := failedCell parity },
      weightSetReady_readies hr hb hi loading parity, ?_⟩
    generalize done : s.setRegion r _ = u
    obtain ⟨g, n, noted⟩ := parityNoted_eq u r b i parity
    have frame : u = { s with regions := u.regions } := by rw [← done]; rfl
    refine ⟨?_, set_withSet set_ _, fun j other => set_withSet_ne other _, rfl, rfl, fun k other => ?_, ?_, fun none_failed => ?_,
      fun f failed row col told => ?_⟩
    · rw [noted, ← done]
      exact (region_setRegion _ _ _ _ inside).trans (if_pos rfl)
    · rw [noted, ← done]
      exact region_setRegion_ne _ _ _ _ other
    · rw [noted, ← done]
      rfl
    · subst none_failed
      rfl
    · rw [failed]
      have newest := rowParity_newest (s := u) (r := r) (b := b) (i := i) (by rw [← done]; exact told) f
      rw [← done] at newest ⊢
      rw [State.parityNoted]
      dsimp only
      rw [if_pos ⟨row, col⟩]
      exact newest
  · exact ⟨(x.block b).withSet i .empty, weightSetFree_frees hr hb hi retiring, set_withSet set_ _, fun j other => set_withSet_ne other _, rfl, rfl⟩

end Sys2Proof.Machine
end

section
/-! A queue of the front end: what a change of it leaves of the state, and what settling it makes of it (R379, R393, R394,
R407, Table 13-14). -/
namespace Sys2Proof.Machine

/-! A table written twice at one key. -/

theorem Tab.erase_insert {α : Type} (t : Tab α) (k : Nat) (v : α) : Tab.erase (Tab.insert t k v) k = Tab.erase t k := by
  induction t with
  | nil => simp [Tab.insert, Tab.erase]
  | cons e t ih =>
    obtain ⟨j, w⟩ := e
    unfold Tab.erase at ih ⊢
    rw [Tab.insert]
    split
    · next same => simp [same]
    · split
      · simp
      · rw [List.filter_cons, List.filter_cons, ih]

theorem Tab.insert_insert {α : Type} (t : Tab α) (k : Nat) (v w : α) : Tab.insert (Tab.insert t k v) k w = Tab.insert t k w := by
  induction t with
  | nil => simp [Tab.insert]
  | cons e t ih =>
    obtain ⟨j, x⟩ := e
    rw [Tab.insert, Tab.insert]
    split
    · simp [Tab.insert]
    · next other =>
      split
      · simp [Tab.insert]
      · next above => rw [Tab.insert, if_neg other, if_neg above, ih]

theorem Tab.set_set {α : Type} [DecidableEq α] {d v : α} (listed : v ≠ d) (t : Tab α) (k : Nat) (w : α) :
    Tab.set d (Tab.set d t k v) k w = Tab.set d t k w := by
  unfold Tab.set
  rw [if_neg listed]
  split
  · exact Tab.erase_insert t k v
  · exact Tab.insert_insert t k v w

theorem setQueue_setQueue {s : State} {q : Nat} {x : Queue} (listed : x ≠ .reset) (y : Queue) :
    (s.setQueue q x).setQueue q y = s.setQueue q y := by
  unfold State.setQueue
  rw [Tab.set_set listed]

theorem queue_setQueue_self (s : State) (q : Nat) (x : Queue) : (s.setQueue q x).queue q = x := (queue_setQueue ..).trans (if_pos rfl)

theorem queue_setQueue_ne (s : State) {q k : Nat} (other : k ≠ q) (x : Queue) : (s.setQueue q x).queue k = s.queue k :=
  (queue_setQueue ..).trans (if_neg other)

/-! What a change of queue q leaves alone. -/

/-- From s to t queue q has changed, and besides only what is observed, what the module drives, interrupts and the causes of a
device reset. -/
structure QueueStep (s t : State) (q : Nat) : Prop where
  frame : t = { s with queues := t.queues, obs := t.obs, host := t.host, rel := t.rel, out := t.out }
  other : ∀ k, k ≠ q → t.queue k = s.queue k

theorem QueueStep.refl (s : State) (q : Nat) : QueueStep s s q := ⟨rfl, fun _ _ => rfl⟩

theorem QueueStep.trans {s t u : State} {q : Nat} (h : QueueStep s t q) (k : QueueStep t u q) : QueueStep s u q where
  frame := by rw [k.frame, h.frame]
  other n hn := (k.other n hn).trans (h.other n hn)

section
variable {s t : State} {q : Nat} (h : QueueStep s t q)
include h

theorem QueueStep.mem_eq : t.mem = s.mem := by rw [h.frame]
theorem QueueStep.slots_eq : t.slots = s.slots := by rw [h.frame]
theorem QueueStep.wgt_eq : t.wgt = s.wgt := by rw [h.frame]
theorem QueueStep.parts_eq : t.parts = s.parts := by rw [h.frame]

theorem QueueStep.sameBeyond : sameBeyondQueues s t := by
  unfold sameBeyondQueues
  rw [h.frame]

end

section
variable (s : State) (q : Nat)

theorem setQueue_step (x : Queue) : QueueStep s (s.setQueue q x) q := ⟨rfl, fun _ other => queue_setQueue_ne s other x⟩

theorem vector_step (v : Nat) : QueueStep s (s.vector v) q ∧ (s.vector v).queue q = s.queue q := by
  obtain ⟨o, h, e⟩ := vector_eq s v
  rw [e]
  exact ⟨⟨rfl, fun _ _ => rfl⟩, rfl⟩

theorem startReset_step (cause check k seq trig detail : Nat) : QueueStep s (s.startReset cause check k seq trig detail) q ∧
    (s.startReset cause check k seq trig detail).queue q = s.queue q := by
  obtain ⟨h, r, e⟩ := startReset_eq s cause check k seq trig detail
  rw [e]
  exact ⟨⟨rfl, fun _ _ => rfl⟩, rfl⟩

/-! The steps of settling a queue. -/

theorem stage_step : QueueStep s (s.stage q) q ∧ ∃ b, (s.stage q).queue q = { s.queue q with staged := b } := by
  unfold State.stage
  dsimp only
  split
  · split
    · exact ⟨.refl s q, (s.queue q).staged, rfl⟩
    · split
      · exact ⟨setQueue_step .., true, queue_setQueue_self ..⟩
      · obtain ⟨step, same⟩ := startReset_step s q 1 (s.malformed q ‹_›) q (recSeq ‹_›) 0 0
        exact ⟨step, (s.queue q).staged, same⟩
  · exact ⟨.refl s q, (s.queue q).staged, rfl⟩

theorem noteReady_step : QueueStep s (s.noteReady q) q ∧ ∃ t g, (s.noteReady q).queue q = { s.queue q with tReady := t, granted := g } ∧
    (g = true → (s.queue q).granted = true) := by
  unfold State.noteReady
  dsimp only
  split
  · split
    · exact ⟨setQueue_step .., _, (s.queue q).granted, queue_setQueue_self .., id⟩
    · exact ⟨.refl s q, (s.queue q).tReady, (s.queue q).granted, rfl, id⟩
  · exact ⟨setQueue_step .., _, _, queue_setQueue_self .., fun g => (Bool.and_eq_true_iff.mp g).1⟩

/-- A queue that is not ACTIVE has no record that is ready. -/
theorem noteReady_inactive (inactive : (s.queue q).state ≠ .active) :
    s.noteReady q = s.setQueue q { s.queue q with tReady := none, granted := (s.queue q).granted && (s.queue q).running.isSome } :=
  if_neg (by simp [Queue.ready, inactive])

theorem noteIdle_step : QueueStep s (s.noteIdle q) q ∧ ∃ st, (s.noteIdle q).queue q = { s.queue q with state := st } ∧
    (st = (s.queue q).state ∨ (s.queue q).state = .active ∧ (s.queue q).pass = none ∧ st = .idle) := by
  unfold State.noteIdle
  dsimp only
  split
  · next calm => exact ⟨setQueue_step .., .idle, queue_setQueue_self .., .inr ⟨calm.1, calm.2.2.2.1, rfl⟩⟩
  · exact ⟨.refl s q, (s.queue q).state, rfl, .inl rfl⟩

end

/-! Cancelling up to the abort tail (R394). -/

theorem advance_fetch (x : Queue) : ∃ r p, x.advance = { x with rung := r, pass := p } := by
  unfold Queue.advance
  split
  · split
    · exact ⟨_, _, rfl⟩
    · exact ⟨x.rung, x.pass, rfl⟩
  · split
    · exact ⟨x.rung, x.pass, rfl⟩
    · split
      · exact ⟨x.rung, _, rfl⟩
      · exact ⟨_, _, rfl⟩

/-- The fetcher's steps change its pass and the doorbell that it has noted. -/
theorem advance2_fetch (x : Queue) : ∃ r p, x.advance2 = { x with rung := r, pass := p } := by
  obtain ⟨r, p, first⟩ := advance_fetch x
  obtain ⟨r2, p2, second⟩ := advance_fetch x.advance
  exact ⟨r2, p2, by rw [Queue.advance2, second, first]⟩

theorem cancelOne_aborting {x : Queue} (aborting : x.state = .aborting) (bs : List Byte) : ∃ n w, x.cancelOne bs =
    { x with fetched := x.fetched.tail, staged := false, seqNext := n, inflight := x.inflight ++ [w] } := by
  unfold Queue.cancelOne Queue.pushCompletion
  exact ⟨_, _, if_neg (by simp [aborting])⟩

/-- What cancelling makes of queue x. -/
structure Drained (x y : Queue) : Prop where
  same : y = { x with rung := y.rung, pass := y.pass, state := y.state, fetched := y.fetched, staged := y.staged, seqNext := y.seqNext,
                      inflight := y.inflight, abortTail := y.abortTail }
  inflight : ∃ rest, y.inflight = x.inflight ++ rest
  calm : x.state ≠ .aborting → y = x
  ends : x.state = .aborting → y.state = .aborting ∧ y.abortTail = x.abortTail ∨
    y.abortTail = none ∧ (y.state = .idle ∨ y.state = .active)

theorem Drained.refl (x : Queue) : Drained x x := ⟨rfl, ⟨[], by simp⟩, fun _ => rfl, fun h => .inl ⟨h, rfl⟩⟩

theorem drain_drained (fuel : Nat) (x : Queue) : Drained x (x.drain fuel) := by
  induction fuel generalizing x with
  | zero => exact .refl x
  | succ n ih =>
    unfold Queue.drain
    split
    · next t aborting _ =>
      have busy : ¬ x.state ≠ .aborting := not_not_intro aborting
      split
      · exact .refl x
      · split
        · split
          · obtain ⟨r, p, fetch⟩ := advance2_fetch { x with abortTail := none, state := .active }
            rw [fetch]
            exact ⟨rfl, ⟨[], by simp⟩, fun h => absurd h busy, fun _ => .inr ⟨rfl, .inr rfl⟩⟩
          · exact ⟨rfl, ⟨[], by simp⟩, fun h => absurd h busy, fun _ => .inr ⟨rfl, .inl rfl⟩⟩
        · split
          · next bs _ _ =>
            split
            · obtain ⟨k, w, cancelled⟩ := cancelOne_aborting aborting bs
              obtain ⟨same, ⟨rest, inflight⟩, -, ends⟩ := ih (x.cancelOne bs)
              generalize (x.cancelOne bs).drain n = y at *
              rw [cancelled] at same inflight ends
              exact ⟨by rw [same], ⟨w :: rest, by simp [inflight]⟩, fun h => absurd h busy, fun _ => ends aborting⟩
            · exact .refl x
          · exact .refl x
    · exact .refl x

/-! Settling. -/

/-- What settling makes of queue x: only a queue whose abort goes on gets records into completion, and an ACTIVE one may become
IDLE. -/
structure Settled (x y : Queue) : Prop where
  same : y = { x with rung := y.rung, pass := y.pass, state := y.state, fetched := y.fetched, staged := y.staged, seqNext := y.seqNext,
                      tReady := y.tReady, inflight := y.inflight, abortTail := y.abortTail, granted := y.granted }
  inflight : ∃ rest, y.inflight = x.inflight ++ rest
  granted : y.granted = true → x.granted = true
  calm : x.state ≠ .aborting → y = { x with state := y.state, staged := y.staged, tReady := y.tReady, granted := y.granted } ∧
    (y.state = x.state ∨ x.state = .active ∧ x.pass = none ∧ y.state = .idle)
  ends : x.state = .aborting → y.state = .aborting ∧ y.abortTail = x.abortTail ∨
    y.abortTail = none ∧ (y.state = .idle ∨ y.state = .active)

theorem settle_settles (s : State) (q : Nat) : QueueStep s (s.settle q) q ∧ Settled (s.queue q) ((s.settle q).queue q) := by
  have drained := drain_drained 16 (s.queue q)
  unfold State.settle
  generalize (s.queue q).drain 16 = y at drained
  obtain ⟨step1, b, staged⟩ := stage_step (s.setQueue q y) q
  obtain ⟨step2, t, g, ready, granted⟩ := noteReady_step ((s.setQueue q y).stage q) q
  obtain ⟨step3, st, idle, state⟩ := noteIdle_step (((s.setQueue q y).stage q).noteReady q) q
  rw [queue_setQueue_self] at staged
  rw [staged] at ready granted
  rw [ready] at idle state
  refine ⟨(setQueue_step s q y).trans (step1.trans (step2.trans step3)), ?_⟩
  rw [idle]
  obtain ⟨same, inflight, calm, ends⟩ := drained
  refine ⟨by rw [same], inflight, fun h => ?_, fun h => ?_, fun h => ?_⟩
  · have kept := granted h
    rw [same] at kept
    exact kept
  · obtain rfl := calm h
    exact ⟨rfl, state⟩
  · rcases ends h with ⟨aborting, tail⟩ | ⟨done, rest⟩
    · rcases state with same_state | ⟨active, -, -⟩
      · exact .inl ⟨same_state.trans aborting, tail⟩
      · exact nomatch aborting.symm.trans active
    · rcases state with same_state | ⟨-, -, now_idle⟩
      · exact .inr ⟨done, by rw [same_state]; exact rest⟩
      · exact .inr ⟨done, .inl now_idle⟩

end Sys2Proof.Machine
end

section
/-! The completion of a queue's command (R388, R389, R393); and the settlement of O26. -/
namespace Sys2Proof.Machine

/-! Fields of a record. -/

/-- The first field of a record. -/
theorem leAt_here (n v : Nat) (rest : List Byte) : leAt (leBytes n v ++ rest) 0 n = v % 256 ^ n := by
  rw [leAt, List.drop_zero, List.take_append_of_le_length (leBytes_length n v).ge, List.take_of_length_le (leBytes_length n v).le,
    leNat_leBytes]

theorem leAt_last (n v : Nat) : leAt (leBytes n v) 0 n = v % 256 ^ n := by
  simpa using leAt_here n v []

/-- The fields behind the first one. -/
theorem leAt_skip {m o : Nat} (behind : m ≤ o) (n v : Nat) (rest : List Byte) :
    leAt (leBytes m v ++ rest) o n = leAt rest (o - m) n := by
  rw [leAt, leAt, List.drop_append, List.drop_of_length_le (by rw [leBytes_length]; exact behind), List.nil_append, leBytes_length]

section
variable (seq status info ratio energy dropped snap opcode first tend : Nat)

theorem complRecord_length : (complRecord seq status info ratio energy dropped snap opcode first tend).length = 32 := by
  simp only [complRecord, List.length_append, leBytes_length]

/-- What a reader finds in a completion record (Table 13-12). -/
theorem complRecord_fields : let bs := complRecord seq status info ratio energy dropped snap opcode first tend
    leAt bs 0 4 = seq % 2 ^ 32 ∧ leAt bs 4 1 = status % 2 ^ 8 ∧ leAt bs 5 1 = info % 2 ^ 8 ∧ leAt bs 6 2 = ratio % 2 ^ 16 ∧
    leAt bs 8 4 = energy % 2 ^ 32 ∧ leAt bs 20 1 = opcode % 2 ^ 8 ∧ leAt bs 22 2 = first % 2 ^ 16 ∧ leAt bs 24 8 = tend % 2 ^ 64 := by
  simp [complRecord, leAt_skip, leAt_here, leAt_last]

end

/-! The command gives up what it holds. -/

/-- Queue q holds no slot and no block of the codebooks any more; only what is observed has changed besides. -/
structure Released (s t : State) (q : Nat) : Prop where
  frame : t = { s with obs := t.obs, slots := t.slots, wgt := { s.wgt with caches := t.wgt.caches } }
  slots : ∀ u ∈ t.slots, u.sel ≠ some q
  caches : ∀ c ∈ t.wgt.caches, c.queue ≠ q

theorem freeSlot_frees (s : State) (q : Nat) : ∀ u ∈ (s.freeSlot q).slots, u.sel ≠ some q := by
  intro u hu
  obtain ⟨t, -, rfl⟩ := List.mem_map.mp hu
  split
  · simp
  · assumption

/-- The partition in whose context a command acts is in Cloche. -/
def State.cmdShut (s : State) (q : Nat) (x : Running) : Bool :=
  match s.partOfCtx (s.ctxOf q x.cmd.word1) with
  | some p => s.inCloche p
  | none => false

/-- The completion write of queue q's command x that ends at `tend`. -/
structure Completion (s : State) (q : Nat) (x : Running) (tend : Nat) (w : ComplWrite) : Prop where
  irq : w.irq = x.cmd.irq
  state : w.state = (x.status == .state)
  bytes : ∃ info ratio snap, (s.cmdShut q x = true → info = 0 ∧ ratio = 0) ∧ w.bytes = complRecord x.cmd.seq x.status.code info ratio
    (if s.cmdShut q x then min 0xFFFFFFFF (s.energyQ q - x.energy0) / 10000 * 10000 else min 0xFFFFFFFF (s.energyQ q - x.energy0))
    (min 0xFFFFFFFF x.dropped) snap x.cmd.opcode x.first tend

/-- Queue q without its command, and with the command's completion write on its way; a STATE holds an ACTIVE queue (R393). -/
def State.closeCmd (s : State) (q : Nat) (w : ComplWrite) : State :=
  let y := ({ s.queue q with running := none, granted := false } : Queue).pushCompletion w
  let hold := w.state && y.state == .active
  let s := s.setQueue q (if hold then { y with state := .held, staged := false } else { y with fprior := y.fprior.heldBy w.state })
  if hold then s.stateVector q else s

/-- The state in which queue q's command has been counted and has given up what it held. -/
def State.releaseCmd (s : State) (q : Nat) (x : Running) (tend estimate : Nat) : State :=
  let cloche := s.cmdShut q x
  let s := s.snapshot q x cloche tend
  let late := q < 512 && x.cmd.word1 != 2 ^ 64 - 1 && decide (x.cmd.word1 < tend)
  let s := if x.lane < 32 && !cloche
    then s.setSlot x.lane ((s.slot x.lane).count (x.cmd.opcode == 1) (actCycles x.tReady tend) estimate late) else s
  let s := s.freeSlot q
  { s with wgt := { s.wgt with caches := s.wgt.caches.filter (fun c => c.queue != q) } }

/-- The completion write of queue q's command x that ends at `tend`. -/
def State.endRecord (s : State) (q : Nat) (x : Running) (tend estimate : Nat) : ComplWrite :=
  let cloche := s.cmdShut q x
  let used := s.energyQ q - x.energy0
  ⟨complRecord x.cmd.seq x.status.code (if cloche then 0 else 2)
    (if cloche || !(x.cmd.opcode == 1) then 0 else ratioOf (actCycles x.tReady tend) estimate)
    (if cloche then min 0xFFFFFFFF used / 10000 * 10000 else min 0xFFFFFFFF used) (min 0xFFFFFFFF x.dropped)
    (if cloche then 0 else s.obs.snapCnt % 2 ^ 32) x.cmd.opcode x.first tend, x.cmd.irq, x.status == .state⟩

theorem finish_closes {s : State} {q : Nat} {x : Running} (runs : (s.queue q).running = some x) (tend estimate : Nat) :
    s.finish q tend estimate = ((s.releaseCmd q x tend estimate).closeCmd q (s.endRecord q x tend estimate)).settle q := by
  unfold State.finish
  rw [runs]
  rfl

theorem endRecord_completion (s : State) (q : Nat) (x : Running) (tend estimate : Nat) :
    Completion s q x tend (s.endRecord q x tend estimate) :=
  ⟨rfl, rfl, _, _, _, fun shut => by simp [shut], rfl⟩

theorem releaseCmd_releases (s : State) (q : Nat) (x : Running) (tend estimate : Nat) :
    Released s (s.releaseCmd q x tend estimate) q := by
  unfold State.releaseCmd
  dsimp only
  generalize s.cmdShut q x = cloche
  obtain ⟨o, snapped⟩ : ∃ o, s.snapshot q x cloche tend = { s with obs := o } := by
    unfold State.snapshot
    split
    · exact ⟨s.obs, rfl⟩
    · exact ⟨_, rfl⟩
  rw [snapped]
  refine ⟨?_, freeSlot_frees _ q, fun c hc => by simpa using (List.mem_filter.mp hc).2⟩
  split <;> rfl

/-- Any part of a queue but its state and its completion is as it was when the command has been closed. -/
theorem closeCmd_step (s : State) (q : Nat) (w : ComplWrite) : QueueStep s (s.closeCmd q w) q := by
  unfold State.closeCmd
  dsimp only
  split
  · exact (setQueue_step ..).trans (vector_step ..).1
  · exact setQueue_step ..

/-- The queue that closing a command leaves. -/
theorem closeCmd_queue {s : State} {q : Nat} (open_ : (s.queue q).state ≠ .complBlocked) (w : ComplWrite) :
    let y := (s.closeCmd q w).queue q
    y.running = none ∧ y.granted = false ∧ y.inflight = (s.queue q).inflight ++ [w] ∧ y.abortTail = (s.queue q).abortTail ∧
      y.state = if w.state = true ∧ (s.queue q).state = .active then .held else (s.queue q).state := by
  have pushed : ({ s.queue q with running := none, granted := false } : Queue).pushCompletion w =
      { s.queue q with running := none, granted := false, inflight := (s.queue q).inflight ++ [w] } := if_neg open_
  unfold State.closeCmd
  dsimp only
  rw [pushed]
  by_cases holds : w.state = true ∧ (s.queue q).state = .active
  · have hold : (w.state && (s.queue q).state == .active) = true := by simp [holds.1, holds.2]
    rw [if_pos hold, if_pos hold, if_pos holds, State.stateVector, (vector_step _ q _).2, queue_setQueue_self]
    exact ⟨rfl, rfl, rfl, rfl, rfl⟩
  · have goes_on : ¬(w.state && (s.queue q).state == .active) = true := by simpa using holds
    rw [if_neg goes_on, if_neg goes_on, if_neg holds, queue_setQueue_self]
    exact ⟨rfl, rfl, rfl, rfl, rfl⟩

/-! The end of a command. -/

section
variable {s : State} {q : Nat} {x : Running} (runs : (s.queue q).running = some x) (st : Status) (first : Nat)
include runs

/-- The command with its outcome noted. -/
def Running.done (x : Running) (st : Status) (first : Nat) : Running :=
  { x with status := x.status.worst st, first := first, started := true }

/-- The state in which queue q's command has its outcome noted. -/
def State.noted (s : State) (q : Nat) (x : Running) (st : Status) (first : Nat) : State :=
  s.setQueue q { s.queue q with running := some (x.done st first) }

theorem complete_noted : s.complete q st first = (s.noted q x st first).endCmdAt q s.now 0 := by
  rw [State.complete, modRunning_some runs]
  rfl

omit runs in
theorem noted_running : ((s.noted q x st first).queue q).running = some (x.done st first) := by rw [State.noted, queue_setQueue_self]

/-- A command with remote writes that are not answered waits for them. -/
theorem complete_waits (owes : x.owed ≠ 0) : s.complete q st first =
    s.setQueue q { s.queue q with running := some { x.done st first with ending := some s.now } } := by
  have listed : ({ s.queue q with running := some (x.done st first) } : Queue) ≠ .reset := fun h => nomatch congrArg Queue.running h
  rw [complete_noted runs, State.endCmdAt, noted_running]
  dsimp only
  rw [if_neg (show (x.done st first).owed ≠ 0 from owes), State.noted, queue_setQueue_self, setQueue_setQueue listed]

theorem complete_finishes (paid : x.owed = 0) : s.complete q st first = (s.noted q x st first).finish q s.now 0 := by
  rw [complete_noted runs, State.endCmdAt, noted_running]
  exact if_pos paid

/-- A command with nothing to wait for gives up what it holds and sends its completion record (R388, R389, R393). -/
theorem complete_completes (paid : x.owed = 0) (open_ : (s.queue q).state ≠ .complBlocked) :
    let t := s.complete q st first
    sameBeyondQueues s t ∧ (∀ k, k ≠ q → t.queue k = s.queue k) ∧ (∀ u ∈ t.slots, u.sel ≠ some q) ∧ (∀ c ∈ t.wgt.caches, c.queue ≠ q) ∧
      (t.queue q).running = none ∧ (t.queue q).granted = false ∧
      ((s.queue q).state = .active → if x.status.worst st = .state then (t.queue q).state = .held
        else (t.queue q).state = .active ∨ (t.queue q).state = .idle) ∧
      ((s.queue q).state = .aborting → (t.queue q).state = .aborting ∧ (t.queue q).abortTail = (s.queue q).abortTail ∨
        (t.queue q).abortTail = none ∧ ((t.queue q).state = .idle ∨ (t.queue q).state = .active)) ∧
      ∃ w rest, (t.queue q).inflight = (s.queue q).inflight ++ w :: rest ∧ ((s.queue q).state = .aborting ∨ rest = []) ∧
        Completion s q (x.done st first) s.now w := by
  have finished := finish_closes (s := s.noted q x st first) (noted_running st first) s.now 0
  obtain ⟨frame, slots, caches⟩ := releaseCmd_releases (s.noted q x st first) q (x.done st first) s.now 0
  have written := endRecord_completion (s.noted q x st first) q (x.done st first) s.now 0
  generalize (s.noted q x st first).releaseCmd q (x.done st first) s.now 0 = u at *
  generalize (s.noted q x st first).endRecord q (x.done st first) s.now 0 = w at *
  have here : u.queue q = { s.queue q with running := some (x.done st first) } := by
    rw [frame]
    exact queue_setQueue_self ..
  obtain ⟨running, granted, inflight, tail, held⟩ := closeCmd_queue (s := u) (q := q) (by rw [here]; exact open_) w
  have closes := closeCmd_step u q w
  obtain ⟨settles, settled⟩ := settle_settles (u.closeCmd q w) q
  rw [complete_finishes runs st first paid, finished]
  rw [here] at inflight tail held
  generalize u.closeCmd q w = v at *
  generalize v.settle q = t at *
  have step := closes.trans settles
  refine ⟨?_, fun k other => (step.other k other).trans ?_, by rw [step.slots_eq]; exact slots, by rw [step.wgt_eq]; exact caches,
    by rw [settled.same]; exact running, Bool.eq_false_iff.mpr fun g => Bool.eq_false_iff.mp granted (settled.granted g), fun active => ?_,
    fun aborting => ?_, ?_⟩
  · unfold sameBeyondQueues
    rw [step.frame, frame]
    rfl
  · rw [frame]
    exact queue_setQueue_ne _ other _
  · rw [active] at held
    split
    · next carried =>
      have hold : (v.queue q).state = .held := by rw [held, written.state, Running.done, carried]; rfl
      obtain ⟨-, same | ⟨idle, -, -⟩⟩ := settled.calm (by rw [hold]; decide)
      · exact same.trans hold
      · exact nomatch hold.symm.trans idle
    · next other =>
      have goes : (v.queue q).state = .active := by
        rw [held, if_neg fun h => other (by simpa [written.state, Running.done] using h.1)]
      obtain ⟨-, same | ⟨-, -, idle⟩⟩ := settled.calm (by rw [goes]; decide)
      · exact .inl (same.trans goes)
      · exact .inr idle
  · rw [aborting] at held
    have still : (v.queue q).state = .aborting := by rw [held, if_neg (by simp)]
    exact tail ▸ settled.ends still
  · obtain ⟨rest, more⟩ := settled.inflight
    refine ⟨w, rest, by rw [more, inflight, List.append_assoc]; rfl, ?_, written.irq, written.state, written.bytes⟩
    by_cases aborting : (v.queue q).state = .aborting
    · refine .inl ?_
      rw [held] at aborting
      split at aborting
      · exact nomatch aborting
      · exact aborting
    · have same := (settled.calm aborting).1
      rw [same] at more
      exact .inr (by simpa using more)

end

theorem Status.code_lt (st : Status) : st.code < 2 ^ 8 := by cases st <;> decide

/-- What a reader finds in the record of a completed command. -/
theorem Completion.reads {s : State} {q : Nat} {x : Running} {tend : Nat} {w : ComplWrite} (h : Completion s q x tend w) :
    let used := min 0xFFFFFFFF (s.energyQ q - x.energy0)
    w.bytes.length = 32 ∧ leAt w.bytes 0 4 = x.cmd.seq % 2 ^ 32 ∧ leAt w.bytes 4 1 = x.status.code ∧
    leAt w.bytes 20 1 = x.cmd.opcode % 2 ^ 8 ∧ leAt w.bytes 22 2 = x.first % 2 ^ 16 ∧ leAt w.bytes 24 8 = tend % 2 ^ 64 ∧
    leAt w.bytes 8 4 = (if s.cmdShut q x then used / 10000 * 10000 else used) ∧
    (s.cmdShut q x = true → leAt w.bytes 6 2 = 0 ∧ bit (leAt w.bytes 5 1) 1 = false) := by
  obtain ⟨info, ratio, snap, shut, bytes⟩ := h.bytes
  rw [bytes]
  obtain ⟨seq, status, info_at, ratio_at, energy, opcode, first, end_at⟩ := complRecord_fields x.cmd.seq x.status.code info ratio
    (if s.cmdShut q x then min 0xFFFFFFFF (s.energyQ q - x.energy0) / 10000 * 10000 else min 0xFFFFFFFF (s.energyQ q - x.energy0))
    (min 0xFFFFFFFF x.dropped) snap x.cmd.opcode x.first tend
  refine ⟨complRecord_length .., seq, status.trans (Nat.mod_eq_of_lt x.status.code_lt), opcode, first, end_at,
    energy.trans (Nat.mod_eq_of_lt ?_), fun closed => ?_⟩
  · split <;> omega
  · obtain ⟨rfl, rfl⟩ := shut closed
    rw [ratio_at, info_at]
    exact ⟨rfl, by decide⟩

/-- Settles O26: the outcome is noted first; with nothing owed the command is closed and its queue settled, which only adds
records behind the completion write of an abort that goes on. -/
theorem completionRecordTellsTheOutcome : Obligations.CompletionRecordTellsTheOutcome := by
  intro q first x st s runs t last
  refine ⟨fun owes => complete_waits runs st first owes, fun paid open_ => ?_⟩
  obtain ⟨frame, other, slots, caches, running, granted, state, -, w, rest, inflight, alone, written⟩ :=
    complete_completes runs st first paid open_
  obtain ⟨length, seq, status, opcode, first_at, end_at, energy, shut⟩ := written.reads
  refine ⟨frame, other, slots, caches, running, granted, state, w, rest, inflight, alone, written.irq, length, seq, status, opcode,
    first_at, end_at, fun p named => ?_⟩
  have closed : s.cmdShut q (x.done st first) = s.inCloche p := by
    unfold State.cmdShut
    rw [show s.partOfCtx (s.ctxOf q (x.done st first).cmd.word1) = some p from named]
  rw [closed] at energy shut
  refine ⟨fun opened => energy.trans (by rw [opened]; rfl), fun cloche => ?_⟩
  obtain ⟨ratio, info⟩ := shut cloche
  exact ⟨ratio, info, energy.trans (by rw [cloche]; rfl)⟩

end Sys2Proof.Machine
end

section
/-! NOP and the fences (R375, R390, R411); and the settlement of O27. -/
namespace Sys2Proof.Machine

/-! A command that waits outside its slot. -/

/-- A command that waits outside its slot has started, holds no slot, and knows when its wait ends (R411). -/
theorem waitOutside_waits {s : State} {q : Nat} {x : Running} (runs : (s.queue q).running = some x) (timeout : Nat) :
    let t := s.waitOutside q timeout
    t = { s with queues := t.queues, slots := t.slots } ∧ (∀ u ∈ t.slots, u.sel ≠ some q) ∧ (∀ k, k ≠ q → t.queue k = s.queue k) ∧
    t.queue q = { s.queue q with
      running := some { x with started := true, waitUntil := if timeout = 0 then none else some (s.now + timeout * 1000) } } := by
  intro t
  have ends : t = (s.setQueue q { s.queue q with
      running := some { x with started := true, waitUntil := if timeout = 0 then none else some (s.now + timeout * 1000) } }).freeSlot q :=
    congrArg (State.freeSlot · q) (modRunning_some runs _)
  rw [ends]
  exact ⟨rfl, freeSlot_frees _ q, fun k other => queue_setQueue_ne s other _, queue_setQueue_self ..⟩

/-! Fences. -/

/-- From s to u fence f of partition p has come to be v, and besides only its trace is written. -/
structure FenceSet (s : State) (p f : Nat) (v : Option Nat) (u : State) : Prop where
  frame : u = { s with parts := u.parts, sync := u.sync }
  other : ∀ k, k ≠ p → u.part k = s.part k
  part : u.part p = { s.part p with fences := (u.part p).fences, fenceBy := (u.part p).fenceBy }
  fence : ∀ g, (u.part p).fence g = if g = f then v else (s.part p).fence g

/-- A fence set by a FENCE_SIGNAL of queue q. -/
def State.setFence (s : State) (q p f : Nat) (v : Option Nat) : State :=
  (s.setPart p { s.part p with fences := Tab.set none (s.part p).fences f v, fenceBy := Tab.set 0 (s.part p).fenceBy f q }).strace 2 p f 0 q

theorem setFence_sets {s : State} {p : Nat} (here : p < s.parts.length) (q f : Nat) (v : Option Nat) :
    FenceSet s p f v (s.setFence q p f v) := by
  unfold State.setFence
  obtain ⟨t, k, traced⟩ := strace_eq (s.setPart p { s.part p with
    fences := Tab.set none (s.part p).fences f v, fenceBy := Tab.set 0 (s.part p).fenceBy f q }) 2 p f 0 q
  rw [traced]
  have part := part_setPart s p { s.part p with
    fences := Tab.set none (s.part p).fences f v, fenceBy := Tab.set 0 (s.part p).fenceBy f q } here
  refine ⟨rfl, fun k other => part_setPart_ne s p _ other, ?_, fun g => ?_⟩
  · exact part.trans (congrArg (fun y : Part => { s.part p with fences := y.fences, fenceBy := y.fenceBy }) part.symm)
  · exact (congrArg (fun y : Part => y.fence g) part).trans (Tab.get_set ..)

/-- Which queues wait for a fence does not depend on the fences. -/
theorem FenceSet.waiters {s u : State} {p f : Nat} {v : Option Nat} (h : FenceSet s p f v u) (g : Nat) :
    u.fenceWaiters p g = s.fenceWaiters p g := by
  rw [h.frame]
  rfl

theorem exec_fenceSignal (q : Nat) (f : FenceSignalF) (s : State) : exec (.fenceSignal q f) s = execFenceSignal q f s := rfl
theorem exec_fenceWait (q : Nat) (f : FenceWaitF) (s : State) : exec (.fenceWait q f) s = execFenceWait q f s := rfl

section
variable {s : State} {q ctx p : Nat} {x : Running}

section
variable {f : FenceSignalF} (h : s.mayRun q (.fenceSignal f) x ctx p)
include h

theorem fenceSignal_creates (none_yet : (s.part p).fence f.fence = none) (create : f.create = true) :
    exec (.fenceSignal q f) s = .next ((s.setFence q p f.fence (some f.value)).completeOk q .ok) := by
  rw [exec_fenceSignal, execFenceSignal, runCmd_runs h]
  dsimp only
  rw [none_yet]
  exact congrArg _ (if_pos create)

theorem fenceSignal_misfits (bad : ((s.part p).fence f.fence = none ∧ f.create = false) ∨
    (∃ v, (s.part p).fence f.fence = some v ∧ (f.create = true ∨ (f.destroy = false ∧ f.value ≤ v)))) :
    exec (.fenceSignal q f) s = .next (s.completeOk q .state) := by
  rw [exec_fenceSignal, execFenceSignal, runCmd_runs h]
  dsimp only
  rcases bad with ⟨none_yet, keep⟩ | ⟨v, old, create | ⟨keep, low⟩⟩
  · rw [none_yet]
    exact congrArg _ (if_neg (Bool.eq_false_iff.mp keep))
  · rw [old]
    exact congrArg _ (if_pos create)
  · rw [old]
    simp [keep, not_lt.mpr low]

theorem fenceSignal_destroys {v : Nat} (here : p < s.parts.length) (old : (s.part p).fence f.fence = some v) (create : f.create = false)
    (destroy : f.destroy = true) : exec (.fenceSignal q f) s = .next (((s.fenceWaiters p f.fence).foldl
      (fun (z : State) w => z.endFenceWait p f.fence w.1 0 .state) (s.setFence q p f.fence none)).completeOk q .ok) := by
  rw [exec_fenceSignal, execFenceSignal, runCmd_runs h, ← (setFence_sets here q f.fence none).waiters f.fence]
  dsimp only
  rw [old]
  exact congrArg _ ((if_neg (Bool.eq_false_iff.mp create)).trans (if_pos destroy))

theorem fenceSignal_raises {v : Nat} (here : p < s.parts.length) (old : (s.part p).fence f.fence = some v) (create : f.create = false)
    (destroy : f.destroy = false) (low : v < f.value) : exec (.fenceSignal q f) s =
      .next ((((s.fenceWaiters p f.fence).filter (fun w => decide (w.2 ≤ f.value))).foldl
        (fun (z : State) w => z.endFenceWait p f.fence w.1 q .ok) (s.setFence q p f.fence (some f.value))).completeOk q .ok) := by
  rw [exec_fenceSignal, execFenceSignal, runCmd_runs h, ← (setFence_sets here q f.fence (some f.value)).waiters f.fence]
  dsimp only
  rw [old]
  exact congrArg _ ((if_neg (Bool.eq_false_iff.mp create)).trans ((if_neg (Bool.eq_false_iff.mp destroy)).trans (if_pos low)))

end

/-- The end of a wait is traced, and completes the command. -/
theorem endFenceWait_completes (s : State) (p f w by_ : Nat) (st : Status) :
    ∃ u : State, u = { s with sync := u.sync } ∧ s.endFenceWait p f w by_ st = u.completeOk w st := by
  obtain ⟨t, k, traced⟩ := strace_eq s 1 p f by_ w
  exact ⟨_, by rw [traced], rfl⟩

/-- A FENCE_WAIT that need not wait. -/
theorem fenceWait_ends {f : FenceWaitF} {st : Status} {by_ : Nat}
    (ends : exec (.fenceWait q f) s = .next ((s.strace 0 p f.fence 0 q).endFenceWait p f.fence q by_ st)) :
    ∃ u : State, u = { s with sync := u.sync } ∧ exec (.fenceWait q f) s = .next (u.completeOk q st) := by
  obtain ⟨t, k, traced⟩ := strace_eq s 0 p f.fence 0 q
  obtain ⟨u, frame, completes⟩ := endFenceWait_completes (s.strace 0 p f.fence 0 q) p f.fence q by_ st
  refine ⟨u, ?_, ends.trans (congrArg _ completes)⟩
  rw [frame, traced]

section
variable {f : FenceWaitF} (h : s.mayRun q (.fenceWait f) x ctx p)
include h

theorem fenceWait_unknown (none_yet : (s.part p).fence f.fence = none) :
    ∃ u : State, u = { s with sync := u.sync } ∧ exec (.fenceWait q f) s = .next (u.completeOk q .state) :=
  fenceWait_ends (p := p) (by_ := 0) (by
    rw [exec_fenceWait, execFenceWait, runCmd_runs h]
    dsimp only
    rw [none_yet])

theorem fenceWait_reached {v : Nat} (now_at : (s.part p).fence f.fence = some v) (reached : f.value ≤ v) :
    ∃ u : State, u = { s with sync := u.sync } ∧ exec (.fenceWait q f) s = .next (u.completeOk q .ok) := by
  refine fenceWait_ends (p := p) (by_ := Tab.get 0 (s.part p).fenceBy f.fence) ?_
  rw [exec_fenceWait, execFenceWait, runCmd_runs h]
  dsimp only
  rw [now_at]
  exact congrArg _ (if_pos reached)

theorem fenceWait_waits {v : Nat} (now_at : (s.part p).fence f.fence = some v) (short : v < f.value) :
    exec (.fenceWait q f) s = .next ((s.strace 0 p f.fence 0 q).waitOutside q f.timeout) := by
  rw [exec_fenceWait, execFenceWait, runCmd_runs h]
  dsimp only
  rw [now_at]
  exact congrArg _ (if_neg (not_le.mpr short))

end

theorem fenceWaitTimeout_judges {f : FenceWaitF} (runs : (s.queue q).running = some x) (body : x.cmd.body = .fenceWait f)
    (part : s.partOfCtx (s.ctxOf q x.cmd.word1) = some p) : exec (.fenceWaitTimeout q) s =
      .next (if s.waitOver x then s.endFenceWait p f.fence q 0 .timeout else s) := by
  refine (show _ = execFenceWaitTimeout q s from rfl).trans ?_
  simp only [execFenceWaitTimeout, runs, body, part]

end

/-- Settles O27: NOP and each outcome of the fences' commands by the fence that they find. -/
theorem nopAndFencesTakeEffect : Obligations.NopAndFencesTakeEffect := by
  refine ⟨fun q x ctx p s h => (show _ = execNop q s from rfl).trans (runCmd_runs h _), ?signal, ?wait, ?timeout⟩
  case signal =>
    intro q f x ctx p s h here old sets
    have set_sets : ∀ v, sets v (s.setFence q p f.fence v) := fun v =>
      let ⟨frame, other, part, fence⟩ := setFence_sets here q f.fence v
      ⟨frame, other, part, fence⟩
    exact ⟨fun none_yet create => ⟨_, set_sets _, fenceSignal_creates h none_yet create⟩, fenceSignal_misfits h,
      fun v old create destroy => ⟨_, set_sets _, fenceSignal_destroys h here old create destroy⟩,
      fun v old create destroy low => ⟨_, set_sets _, fenceSignal_raises h here old create destroy low⟩⟩
  case wait =>
    intro q f x ctx p s h traced
    refine ⟨fenceWait_unknown h, fun v => fenceWait_reached h, fun v now_at short => ⟨_, fenceWait_waits h now_at short, ?_⟩⟩
    obtain ⟨t, k, trace⟩ := strace_eq s 0 p f.fence 0 q
    obtain ⟨frame, slots, other, queue⟩ := waitOutside_waits (s := s.strace 0 p f.fence 0 q) (q := q) (x := x)
      (by rw [trace]; exact h.1) f.timeout
    refine ⟨?_, slots, fun k other_queue => (other k other_queue).trans (by rw [trace]; rfl), queue.trans (by rw [trace]; rfl)⟩
    rw [frame, trace]
  case timeout =>
    intro q f x p s runs body part
    have judged := fenceWaitTimeout_judges runs body part
    refine ⟨fun due => ?_, fun early => judged.trans (congrArg _ (if_neg (Bool.eq_false_iff.mp early)))⟩
    obtain ⟨u, frame, completes⟩ := endFenceWait_completes s p f.fence q 0 .timeout
    exact ⟨u, frame, judged.trans (congrArg _ ((if_pos due).trans completes))⟩

end Sys2Proof.Machine
end

section
/-! The refutation of O45: a sequence count that is out of its 16 bits is brought back into them by any
frame that arrives. -/
namespace Sys2Proof.Machine

/-! The counterexample to O45. -/

/-- The module at power-on with an UP link as its port 0, whose next sequence is 65,536: more than the 16 bits of FSEQ hold. -/
def wideModule : State := { State.reset with eft := { Eft.reset with links := [{ Link.reset with st := .up, nextFseq := 65536 }] } }

/-- An intact IDLE frame with neither acknowledgement nor credits. -/
def bareIdle : FrameIn := ⟨true, frameBlock 1 0 none [] 0xFF []⟩

theorem bareIdle_idles : bareIdle.kind = 1 := by decide +kernel

/-- An UP link takes the acknowledgement of an intact IDLE frame. -/
theorem idleFrame_takes {port : Nat} {f : FrameIn} {s : State} (listed : port < 18) (up : (s.link port).st = .up) (good : f.good = true)
    (idle : f.kind = 1) : exec (.idleFrame port f) s = .next (s.takeAck port f) := by
  refine (show _ = execIdleFrame port f s from rfl).trans (if_neg ?_)
  simp [up, good, idle, listed]

/-- The link sends nothing, and its next sequence has still changed. -/
theorem wideModule_wraps : ((wideModule.takeAck 0 bareIdle).link 0).nextFseq = 0 := by decide +kernel

/-- Refutes O45: an IDLE frame is to leave all of a link with an empty queue but its replay buffer and credits, for any count
that the link may hold. On a link whose next sequence is 65,536 it makes that sequence 0. -/
theorem not_linksAcceptAcknowledgeAndReplay : ¬ Obligations.LinksAcceptAcknowledgeAndReplay := by
  intro h
  have good : bareIdle.good = true := frameBlock_good ..
  obtain ⟨-, -, -, idle, -⟩ := h 0 bareIdle wideModule (by decide) (by decide) rfl
  obtain ⟨t, taken, -, -, left, -⟩ := idle good bareIdle_idles rfl
  rw [idleFrame_takes (by decide) rfl good bareIdle_idles] at taken
  obtain rfl := Host.Outcome.next.inj taken
  have kept : ((wideModule.takeAck 0 bareIdle).link 0).nextFseq = 65536 := congrArg Link.nextFseq left
  rw [wideModule_wraps] at kept
  omega

end Sys2Proof.Machine
end

section
/-! What sending on the Eften links changes (R426 to R445). -/
namespace Sys2Proof.Machine

theorem link_setLink (s : State) (p : Nat) (x : Link) (k : Nat) :
    (s.setLink p x).link k = if k = p ∧ p < s.eft.links.length then x else s.link k := by
  unfold State.setLink State.link
  simp only [List.getD_eq_getElem?_getD, List.getElem?_set]
  grind

theorem link_setLink_self {s : State} {p : Nat} (here : p < s.eft.links.length) (x : Link) : (s.setLink p x).link p = x := by
  rw [link_setLink, if_pos ⟨rfl, here⟩]

theorem link_setLink_ne (s : State) {p k : Nat} (other : k ≠ p) (x : Link) : (s.setLink p x).link k = s.link k := by
  rw [link_setLink, if_neg fun h => other h.1]

/-- A link written keeps to a relation to what it was when the new value does. -/
theorem setLink_link_rel {R : Link → Link → Prop} (refl : ∀ l, R l l) (s : State) (p : Nat) {x : Link} (h : R (s.link p) x) (k : Nat) :
    R (s.link k) ((s.setLink p x).link k) := by
  rw [link_setLink]
  split
  · next same => exact same.1 ▸ h
  · exact refl _

/-! Slots freed. -/

/-- Link y is x with slots freed in its receiver and returns offered in another order. -/
def Link.FreedTo (x y : Link) : Prop := y = { x with freed := y.freed, changed := y.changed }

theorem Link.FreedTo.refl (x : Link) : x.FreedTo x := rfl

theorem Link.FreedTo.trans {x y z : Link} (h : x.FreedTo y) (k : y.FreedTo z) : x.FreedTo z := by
  rw [Link.FreedTo, k, h]

/-- From s to t slots of receivers have been freed, and frames have gone out. -/
structure Frees (s t : State) : Prop where
  frame : t = { s with eft := { s.eft with links := t.eft.links }, out := t.out }
  link : ∀ k, (s.link k).FreedTo (t.link k)
  out : s.out ⊆ t.out

theorem Frees.refl (s : State) : Frees s s := ⟨rfl, fun _ => rfl, fun _ h => h⟩

theorem Frees.trans {s t u : State} (h : Frees s t) (k : Frees t u) : Frees s u where
  frame := by rw [k.frame, h.frame]
  link n := (h.link n).trans (k.link n)
  out _ h1 := k.out (h.out h1)

theorem setLink_frees (s : State) (p : Nat) {x : Link} (h : (s.link p).FreedTo x) : Frees s (s.setLink p x) :=
  ⟨rfl, setLink_link_rel .refl s p h, fun _ h => h⟩

theorem emit_frees (s : State) (o : Out) : Frees s (s.emit o) := ⟨rfl, fun _ => rfl, fun _ h => List.mem_cons_of_mem _ h⟩

theorem idleFrame_frees (s : State) (port kind : Nat) : Frees s (s.idleFrame port kind) :=
  (setLink_frees s port (x := (s.link port).takeCreds.2) rfl).trans (emit_frees ..)

/-- A frame of the replay buffer goes out with an acknowledgement and credits. -/
theorem sendFrame_sends (s : State) (port : Nat) (f : TxFrame) : Frees s (s.sendFrame port f) ∧
    ∃ a cr, .frame port (frameBlock 0 f.fseq a cr f.first f.slots) ∈ (s.sendFrame port f).out :=
  ⟨(setLink_frees s port (x := (s.link port).takeCreds.2) rfl).trans (emit_frees ..), _, _, List.mem_cons_self ..⟩

theorem freeRx_frees (s : State) (port : Nat) (share : Option Nat) (n : Nat) : Frees s (s.freeRx port share n) := by
  cases share with
  | none => exact .refl s
  | some k =>
    have freed : Frees s (s.setLink port ((s.link port).free k n)) := setLink_frees s port rfl
    dsimp only [State.freeRx]
    split
    · exact freed.trans (foldl_rel .refl .trans (fun s _ => idleFrame_frees s port 1) _ _)
    · exact freed

/-- Every frame that is replayed goes out. -/
theorem replayFrames_sends (port : Nat) (fs : List TxFrame) (s : State) : Frees s (s.replayFrames port fs) ∧
    ∀ f ∈ fs, ∃ a cr, .frame port (frameBlock 0 f.fseq a cr f.first f.slots) ∈ (s.replayFrames port fs).out := by
  induction fs generalizing s with
  | nil => exact ⟨.refl s, fun f hf => by simp at hf⟩
  | cons g fs ih =>
    obtain ⟨frees, a, cr, sent⟩ := sendFrame_sends s port g
    obtain ⟨rest, all⟩ := ih (s.sendFrame port g)
    refine ⟨frees.trans rest, fun f hf => ?_⟩
    rcases List.mem_cons.mp hf with rfl | later
    · exact ⟨a, cr, rest.out sent⟩
    · exact all f later

/-! Messages sent. -/

/-- Link y is x with its queue and what follows from sending changed, and slots freed. -/
def Link.SentTo (x y : Link) : Prop := y = { x with
  nextFseq := y.nextFseq, replay := y.replay, txq := y.txq, sent := y.sent, quota := y.quota, served := y.served, freed := y.freed,
  changed := y.changed }

theorem Link.SentTo.refl (x : Link) : x.SentTo x := rfl

theorem Link.SentTo.trans {x y z : Link} (h : x.SentTo y) (k : y.SentTo z) : x.SentTo z := by
  rw [Link.SentTo, k, h]

theorem Link.FreedTo.sent {x y : Link} (h : x.FreedTo y) : x.SentTo y := by
  rw [Link.SentTo, h]

/-- From s to t messages have been queued and sent on a port. -/
structure Posts (s t : State) (port : Nat) : Prop where
  frame : t = { s with eft := { s.eft with links := t.eft.links, orate := t.eft.orate }, out := t.out }
  here : (s.link port).SentTo (t.link port)
  other : ∀ k, k ≠ port → (s.link k).FreedTo (t.link k)
  out : s.out ⊆ t.out

theorem Posts.refl (s : State) (port : Nat) : Posts s s port := ⟨rfl, rfl, fun _ _ => rfl, fun _ h => h⟩

theorem Posts.trans {s t u : State} {port : Nat} (h : Posts s t port) (k : Posts t u port) : Posts s u port where
  frame := by rw [k.frame, h.frame]
  here := h.here.trans k.here
  other n hn := (h.other n hn).trans (k.other n hn)
  out _ h1 := k.out (h.out h1)

theorem Frees.posts {s t : State} (h : Frees s t) (port : Nat) : Posts s t port where
  frame := by rw [h.frame]
  here := (h.link port).sent
  other k _ := h.link k
  out := h.out

theorem setLink_posts (s : State) (port : Nat) {x : Link} (h : (s.link port).SentTo x) : Posts s (s.setLink port x) port where
  frame := rfl
  here := setLink_link_rel .refl s port h port
  other k hk := by rw [link_setLink_ne s hk]; rfl
  out _ h := h

theorem countRate_posts (s : State) (port : Nat) (t : TxMsg) : Posts s (s.countRate port t) port := by
  unfold State.countRate
  split
  · exact ⟨rfl, rfl, fun _ _ => rfl, fun _ h => h⟩
  · exact .refl s port

theorem takeAll_posts (port fuel : Nat) (ts : List TxMsg) (s : State) : Posts s (State.takeAll port fuel ts s).2 port := by
  induction fuel generalizing ts s with
  | zero => exact .refl s port
  | succ fuel ih =>
    unfold State.takeAll
    dsimp only
    split
    · exact .refl s port
    · split
      · exact .refl s port
      · exact ((setLink_posts s port (by rfl)).trans (countRate_posts ..)).trans (ih ..)

/-- A link that is not UP sends nothing. -/
theorem pump_idle {s : State} {port : Nat} (idle : (s.link port).st ≠ .up) (fuel : Nat) : State.pump port fuel s = s := if_pos idle

theorem pump_posts (port fuel : Nat) (s : State) : Posts s (State.pump port fuel s) port := by
  unfold State.pump
  split
  · exact .refl s port
  · dsimp only
    refine Posts.trans ?sent (Frees.posts (foldl_rel .refl .trans (fun s t => ?freed) _ _) port)
    case sent =>
      exact ((takeAll_posts ..).trans (setLink_posts _ port (by rfl))).trans
        (Frees.posts (foldl_rel .refl .trans (fun s f => (sendFrame_sends s port f).1) _ _) port)
    case freed =>
      split
      · exact freeRx_frees ..
      · exact .refl s

theorem transmit_posts (s : State) (port : Nat) (t : TxMsg) : Posts s (s.transmit port t) port := by
  unfold State.transmit
  exact (setLink_posts s port (by rfl)).trans (pump_posts ..)

/-- A message on a link that is not UP is queued. -/
theorem transmit_idle {s : State} {port : Nat} (idle : (s.link port).st ≠ .up) (t : TxMsg) :
    s.transmit port t = s.setLink port { s.link port with txq := (s.link port).txq ++ [t] } := by
  unfold State.transmit
  refine pump_idle (fun up => idle ?_) _
  rw [link_setLink] at up
  split at up
  · exact up
  · exact up

/-! Messages that this module originates. -/

/-- From s to t messages have been originated: they are on links that are not FAILED, and a link that is not UP keeps its replay
buffer. -/
structure Originates (s t : State) : Prop where
  frame : t = { s with eft := { s.eft with links := t.eft.links, orate := t.eft.orate }, sec := t.sec, obs := t.obs, out := t.out }
  link : ∀ k, (s.link k).SentTo (t.link k)
  failed : ∀ k, (s.link k).st = .failed → (s.link k).FreedTo (t.link k)
  idle : ∀ k, (s.link k).st ≠ .up → (t.link k).replay = (s.link k).replay
  out : s.out ⊆ t.out

theorem Originates.refl (s : State) : Originates s s := ⟨rfl, fun _ => rfl, fun _ _ => rfl, fun _ _ => rfl, fun _ h => h⟩

theorem Link.SentTo.st {x y : Link} (h : x.SentTo y) : y.st = x.st := by rw [h]

theorem Originates.trans {s t u : State} (h : Originates s t) (k : Originates t u) : Originates s u where
  frame := by rw [k.frame, h.frame]
  link n := (h.link n).trans (k.link n)
  failed n hn := (h.failed n hn).trans (k.failed n ((h.link n).st.trans hn))
  idle n hn := (k.idle n (by rw [(h.link n).st]; exact hn)).trans (h.idle n hn)
  out _ h1 := k.out (h.out h1)

/-- A message goes out through a link that is not FAILED (R442). -/
theorem chooseMember_alive {s : State} {ports : List Nat} {m : LinkMsg} {p : Nat} (chosen : s.chooseMember ports m = some p) :
    (s.link p).st ≠ .failed := by
  have alive : ∀ k ∈ ports.filter (fun p => (s.link p).st != .failed), (s.link k).st ≠ .failed := fun k hk => by
    simpa using (List.mem_filter.mp hk).2
  unfold State.chooseMember at chosen
  generalize ports.filter (fun p => (s.link p).st != .failed) = ups at chosen alive
  match ups with
  | [] => simp at chosen
  | p0 :: rest =>
    dsimp only at chosen
    split at chosen
    · obtain rfl := Option.some.inj chosen
      have best : ∀ (l : List Nat) (b : Nat), (∀ k ∈ b :: l, (s.link k).st ≠ .failed) →
          (s.link (l.foldl (fun b p => if s.credits b (subShare m.plot m.cls m.vc) < s.credits p (subShare m.plot m.cls m.vc) then p else b) b)).st
            ≠ .failed := by
        intro l
        induction l with
        | nil => exact fun b h => h b (List.mem_cons_self ..)
        | cons x l ih =>
          refine fun b h => ih _ fun k hk => ?_
          rcases List.mem_cons.mp hk with rfl | later
          · dsimp only
            split
            · exact h x (by simp)
            · exact h b (by simp)
          · exact h k (by simp [later])
      exact best rest p0 alive
    · obtain rfl := Option.some.inj chosen
      refine alive _ ?_
      rw [List.getD_eq_getElem _ _ (Nat.mod_lt _ (by simp))]
      exact List.getElem_mem _

theorem outPort_alive {s : State} {r : RoutingRec} {m m2 : LinkMsg} {a : Option Nat} {p : Nat} (out : s.outPort r m a = .ok (p, m2)) :
    (s.link p).st ≠ .failed := by
  unfold State.outPort at out
  split at out
  · exact nomatch out
  · split at out
    · exact nomatch out
    · dsimp only at out
      split at out
      · exact nomatch out
      · split at out
        · exact nomatch out
        · next chosen =>
          split at out
          · exact nomatch out
          · obtain ⟨rfl, -⟩ := Prod.mk.inj (Except.ok.inj out)
            exact chooseMember_alive chosen

/-- A message sent on a link that is not FAILED. -/
theorem transmit_originates {s : State} {port : Nat} (alive : (s.link port).st ≠ .failed) (t : TxMsg) : Originates s (s.transmit port t) := by
  obtain ⟨frame, here, other, out⟩ := transmit_posts s port t
  refine ⟨by rw [frame], fun k => ?_, fun k failed => other k fun same => alive (same ▸ failed), fun k idle => ?_, out⟩
  · by_cases same : k = port
    · exact same ▸ here
    · exact (other k same).sent
  · by_cases same : k = port
    · subst same
      rw [transmit_idle idle, link_setLink]
      split <;> rfl
    · rw [other k same]

theorem seal_sec {s : State} {r : RoutingRec} {m : LinkMsg} {z : LinkMsg × State} (h : s.seal r m = some z) :
    ∃ c, z.2 = { s with sec := c } := by
  unfold State.seal State.encrypt at h
  split at h
  · dsimp only at h
    split at h
    · cases h
    · cases h
      exact ⟨_, rfl⟩
  · cases h
    exact ⟨s.sec, rfl⟩

theorem sec_originates (s : State) (c : Sec) : Originates s { s with sec := c } :=
  ⟨rfl, fun _ => rfl, fun _ _ => rfl, fun _ _ => rfl, fun _ h => h⟩

theorem originate_originates (s : State) (m : LinkMsg) : Originates s (s.originate m).2 := by
  unfold State.originate
  split
  · exact .refl s
  · split
    · exact .refl s
    · next port m2 out =>
      have alive := outPort_alive out
      split
      · exact .refl s
      · next sealed =>
        obtain ⟨c, keyed⟩ := seal_sec sealed
        dsimp only at keyed ⊢
        rw [keyed]
        have counted : ∀ p code n, Originates s (({ s with sec := c } : State).bumpPart p code n) := fun p code n => by
          obtain ⟨o, bumped⟩ := bumpPart_eq { s with sec := c } p code n
          rw [bumped]
          exact ⟨rfl, fun _ => rfl, fun _ _ => rfl, fun _ _ => rfl, fun _ h => h⟩
        have still : ∀ u, Originates s u → (u.link port).st ≠ .failed := fun u h => by rw [(h.link port).st]; exact alive
        split
        · exact (counted ..).trans (transmit_originates (still _ (counted ..)) _)
        · exact (sec_originates s c).trans (transmit_originates (still _ (sec_originates s c)) _)

end Sys2Proof.Machine
end

section
/-! The states of the links (R422, R425, R431 to R433); and the settlement of O46. -/
namespace Sys2Proof.Machine

/-! Settling a request leaves the links alone. -/

theorem closeCmd_eft (s : State) (q : Nat) (w : ComplWrite) : (s.closeCmd q w).eft = s.eft := by
  rw [(closeCmd_step s q w).frame]

theorem finish_eft (s : State) (q tend estimate : Nat) : (s.finish q tend estimate).eft = s.eft := by
  cases runs : (s.queue q).running with
  | none => rw [State.finish, runs]
  | some x =>
    rw [finish_closes runs, (settle_settles _ q).1.frame]
    dsimp only
    rw [closeCmd_eft, (releaseCmd_releases s q x tend estimate).frame]

theorem modRunning_eft (s : State) (q : Nat) (f : Running → Running) : (s.modRunning q f).eft = s.eft := by
  unfold State.modRunning
  split <;> rfl

theorem writeDone_eft (s : State) (q : Nat) (st : Status) : (s.writeDone q st).eft = s.eft := by
  have noted := modRunning_eft s q (fun y => { y with owed := y.owed - 1, status := y.status.worst st })
  unfold State.writeDone
  dsimp only
  split
  · split
    · split
      · exact (finish_eft ..).trans noted
      · exact noted
    · exact noted
  · exact noted

/-- An answer to a request changes the requests and the data that has arrived. -/
theorem settleOne_eft (s : State) (x : RemoteReq) (st : Status) (data : List Byte) : ∃ r f,
    (s.settleOne x st data).eft = { s.eft with reqs := r, fetched := f } := by
  unfold State.settleOne
  dsimp only
  split
  · exact ⟨_, _, rfl⟩
  · split
    · exact ⟨_, _, rfl⟩
    · exact ⟨_, _, rfl⟩
    · exact ⟨_, _, writeDone_eft ..⟩

theorem settleReq_eft (s : State) (tag : Nat) (st : Status) (data : List Byte) : ∃ r f,
    (s.settleReq tag st data).eft = { s.eft with reqs := r, fetched := f } := by
  unfold State.settleReq
  split
  · exact ⟨_, _, rfl⟩
  · exact settleOne_eft ..

/-! Messages that a link discards. -/

/-- From s to t messages have been answered: a FAILED link keeps its queue, and one that is not UP its replay buffer. -/
structure Discards (s t : State) : Prop where
  link : ∀ k, (s.link k).SentTo (t.link k)
  failed : ∀ k, (s.link k).st = .failed → (s.link k).FreedTo (t.link k)
  idle : ∀ k, (s.link k).st ≠ .up → (t.link k).replay = (s.link k).replay

theorem Discards.of_links {s t : State} (same : t.eft.links = s.eft.links) : Discards s t := by
  have link : ∀ k, t.link k = s.link k := fun k => by rw [State.link, State.link, same]
  exact ⟨fun k => by rw [link k]; rfl, fun k _ => by rw [link k]; rfl, fun k _ => by rw [link k]⟩

theorem Discards.trans {s t u : State} (h : Discards s t) (k : Discards t u) : Discards s u where
  link n := (h.link n).trans (k.link n)
  failed n hn := (h.failed n hn).trans (k.failed n ((h.link n).st.trans hn))
  idle n hn := (k.idle n (by rw [(h.link n).st]; exact hn)).trans (h.idle n hn)

theorem Originates.discards {s t : State} (h : Originates s t) : Discards s t := ⟨h.link, h.failed, h.idle⟩

theorem Frees.discards {s t : State} (h : Frees s t) : Discards s t where
  link k := (h.link k).sent
  failed k _ := h.link k
  idle k _ := by rw [h.link k]

theorem respond_originates (s : State) (m : LinkMsg) (st : Status) (data : List Byte) : Originates s (s.respond m st data) := by
  unfold State.respond
  split
  · exact originate_originates ..
  · exact .refl s

theorem discardMsg_discards (s : State) (m : LinkMsg) : Discards s (s.discardMsg m) := by
  unfold State.discardMsg
  split
  · exact .of_links rfl
  · split
    · obtain ⟨r, f, settled⟩ := settleReq_eft s m.tag .remote []
      exact .of_links (by rw [settled])
    · exact (respond_originates ..).discards

/-- A link discards what it had queued and what was not acknowledged (R432). -/
theorem discardLink_discards {s : State} {port : Nat} (here : port < s.eft.links.length) :
    let t := s.discardLink port
    (s.link port).SentTo (t.link port) ∧ ((s.link port).st = .failed → (t.link port).txq = []) ∧
    ((s.link port).st ≠ .up → (t.link port).replay = []) := by
  have cleared := link_setLink_self here { s.link port with txq := [], replay := [] }
  have freed : Frees (s.setLink port { s.link port with txq := [], replay := [] })
      ((s.link port).txq.foldl (fun (s : State) t => match t.hold with
        | some (rp, k) => s.setLink rp ((s.link rp).free k t.msg.slots)
        | none => s) (s.setLink port { s.link port with txq := [], replay := [] })) := by
    refine foldl_rel .refl .trans (fun s t => ?_) _ _
    split
    · exact setLink_frees _ _ rfl
    · exact .refl s
  have discards : Discards _ (s.discardLink port) := freed.discards.trans (foldl_rel (fun s => .of_links rfl) .trans discardMsg_discards _ _)
  refine ⟨?_, fun failed => ?_, fun idle => ?_⟩
  · have sent := discards.link port
    rw [cleared] at sent
    exact Link.SentTo.trans (y := { s.link port with txq := [], replay := [] }) rfl sent
  · rw [discards.failed port (by rw [cleared]; exact failed), cleared]
  · rw [discards.idle port (by rw [cleared]; exact idle), cleared]

/-! A link's state. -/

/-- From s to t a link's state has been set; a change is in the event rings. -/
theorem setLinkState_sets (s : State) (port : Nat) (st : LinkSt) (cause : LinkCause) : ∃ o,
    s.setLinkState port st cause = { s.setLink port { s.link port with st := st, cause := cause } with obs := o } := by
  unfold State.setLinkState State.linkEvent
  dsimp only
  split
  · exact ⟨s.obs, rfl⟩
  · obtain ⟨r, e⟩ := event_eq (s.setLink port { s.link port with st := st, cause := cause }) (islandShed (1 + port)) 0x50 none none
      (port + 32 * st.code + 256 * cause.code)
    exact ⟨_, e⟩

theorem setLinkState_link {s : State} {port : Nat} (here : port < s.eft.links.length) (st : LinkSt) (cause : LinkCause) :
    (s.setLinkState port st cause).link port = { s.link port with st := st, cause := cause } := by
  obtain ⟨o, e⟩ := setLinkState_sets s port st cause
  rw [e]
  exact link_setLink_self here _

theorem setLinkState_count (s : State) (port : Nat) (st : LinkSt) (cause : LinkCause) :
    (s.setLinkState port st cause).eft.links.length = s.eft.links.length := by
  obtain ⟨o, e⟩ := setLinkState_sets s port st cause
  rw [e]
  simp [State.setLink]

/-- A failed link has its cause, and neither queue nor replay buffer (R432). -/
theorem failLink_fails {s : State} {port : Nat} (here : port < s.eft.links.length) (cause : LinkCause) :
    let t := s.failLink port cause
    (t.link port).st = .failed ∧ (t.link port).cause = cause ∧ (t.link port).txq = [] ∧ (t.link port).replay = [] ∧
    ({ s.link port with st := .failed, cause := cause } : Link).SentTo (t.link port) := by
  have set_link := setLinkState_link here .failed cause
  obtain ⟨sent, queue, replay⟩ := discardLink_discards (s := s.setLinkState port .failed cause) (port := port)
    (by rw [setLinkState_count]; exact here)
  rw [set_link] at sent queue replay
  obtain ⟨o, h, raised⟩ := irq_eq ((s.setLinkState port .failed cause).discardLink port) 2
  have link : (s.failLink port cause).link port = ((s.setLinkState port .failed cause).discardLink port).link port := by
    unfold State.failLink
    dsimp only
    rw [raised]
    split <;> rfl
  dsimp only
  rw [link]
  exact ⟨by rw [sent], by rw [sent], queue rfl, replay (by simp), sent⟩

/-- Only the links' part of the module, what is observed and what it drives. -/
theorem onlyLinks_of_frame {s t : State} (frame : t = { s with
    eft := { s.eft with links := t.eft.links, orate := t.eft.orate }, obs := t.obs, host := t.host, board := t.board, out := t.out }) : onlyLinks s t := by
  unfold onlyLinks
  rw [frame]
  exact ⟨rfl, rfl, rfl, rfl, rfl, rfl, rfl, rfl, rfl, rfl, rfl⟩

theorem onlyLinks_trans {s t u : State} (h : onlyLinks s t) (k : onlyLinks t u) : onlyLinks s u := by
  obtain ⟨h1, h2, h3, h4, h5, h6, h7, h8, h9, h10, h11⟩ := h
  obtain ⟨k1, k2, k3, k4, k5, k6, k7, k8, k9, k10, k11⟩ := k
  exact ⟨k1.trans h1, k2.trans h2, k3.trans h3, k4.trans h4, k5.trans h5, k6.trans h6, k7.trans h7, k8.trans h8, k9.trans h9, k10.trans h10,
    k11.trans h11⟩

/-! A link with an empty queue. -/

theorem pick_empty {s : State} {port : Nat} (empty : (s.link port).txq = []) : s.pick port = none := by
  unfold State.pick
  dsimp only
  rw [empty]
  rfl

/-- An UP link with an empty queue brings its next sequence into 16 bits, and sends nothing. -/
theorem pump_empty {s : State} {port : Nat} (up : (s.link port).st = .up) (empty : (s.link port).txq = []) (fuel : Nat) :
    State.pump port (fuel + 1) s = s.setLink port { s.link port with nextFseq := (s.link port).nextFseq % 65536 } := by
  have none_taken : State.takeAll port (fuel + 1) [] s = ([], s) := by
    rw [State.takeAll, pick_empty empty]
  have no_frames : framesOf [] s.now (s.link port).nextFseq = [] := by simp [framesOf, fillFrames, Filling.empty]
  unfold State.pump
  rw [if_neg (not_not_intro up), none_taken]
  simp only [List.map_nil, no_frames, List.append_nil, List.foldl_nil, List.length_nil, Nat.add_zero]

/-! Retraining. -/

/-- A link goes into RETRAIN with its replay buffer and queue, and this end sends its IDs (R431). -/
structure Retrained (s t : State) (port : Nat) : Prop where
  link : t.link port = { s.link port with
    retrains := min 65535 ((s.link port).retrains + 1), failedRetrains := 0, st := .retrain, cause := .retrain }
  out : t.out.head? = some (.train port s.modid)
  only : onlyLinks s t

theorem retrain_up {s : State} {port : Nat} (here : port < s.eft.links.length) (up : (s.link port).st = .up) :
    Retrained s (s.retrain port) port := by
  have count : port < (s.setLink port { s.link port with
      retrains := min 65535 ((s.link port).retrains + 1), failedRetrains := 0 }).eft.links.length := by simp [State.setLink, here]
  have link := setLinkState_link count .retrain .retrain
  obtain ⟨o, set_state⟩ := setLinkState_sets (s.setLink port { s.link port with
    retrains := min 65535 ((s.link port).retrains + 1), failedRetrains := 0 }) port .retrain .retrain
  unfold State.retrain
  dsimp only
  rw [if_neg (not_not_intro up)]
  refine ⟨?_, ?_, ?_⟩
  · exact link.trans (by rw [link_setLink_self here])
  · rw [set_state]
    rfl
  · rw [set_state]
    exact onlyLinks_of_frame rfl

theorem retrain_else {s : State} {port : Nat} (down : (s.link port).st ≠ .up) : s.retrain port = s := if_pos down

/-! The commands of training. -/

section
variable {port : Nat} {s : State} (listed : port < 18)
include listed

theorem trainFrame_trains (m p : Nat) (trains : (s.link port).st = .training ∨ (s.link port).st = .retrain) :
    exec (.trainFrame port m p) s = .next (if s.trl.loaded && !(s.farOk port m p)
      then (s.setLink port { s.link port with farmod := m, farport := p }).failLink port .cabling
      else s.setLink port { s.link port with farmod := m, farport := p }) := by
  refine (show _ = execTrainFrame port m p s from rfl).trans (if_neg ?_)
  rcases trains with h | h <;> simp [h, listed]

/-- A link that has trained well, before it sends. -/
def Link.fresh (l : Link) : Link := { l with
  failedRetrains := 0, nextFseq := 0, replay := [], sent := [], returned := [], quota := [], served := 0, expected := 0, lastRx := none,
  naked := false, rxBytes := [], freed := [], changed := [] }

/-- A link with what its training found. -/
def Link.trained (l : Link) (x : Training) : Link := { l with farmod := x.farmod, farport := x.farport, good := l.good &&& x.good }

theorem linkTrainDone_judges (x : Training) (trains : (s.link port).st = .training) (loaded : s.trl.loaded = true) :
    exec (.linkTrainDone port x) s =
      let u := s.setLink port ((s.link port).trained x)
      if !(s.farOk port x.farmod x.farport) then .next (u.failLink port .cabling)
      else if (s.link port).reach < x.rtt then .next (u.failLink port .reach)
      else if lanes ((s.link port).good &&& x.good) < 4 ∨ lanes x.goodTx < 4 then .next (u.failLink port .lanes)
      else .next (State.pump port ((u.link port).txq.length + 1) ((u.setLink port (u.link port).fresh).setLinkState port .up .none)) := by
  refine (show _ = execLinkTrainDone port x s from rfl).trans (if_neg ?_)
  simp [trains, loaded, listed]

/-- A link with what its retraining found. -/
def Link.retrained (l : Link) (x : Training) : Link := { l with
  farmod := x.farmod, farport := x.farport, good := if l.clrbad then x.good % 512 else l.good &&& x.good, clrbad := false, failedRetrains := 0 }

theorem retrainDone_judges (x : Training) (retrains : (s.link port).st = .retrain) :
    exec (.retrainDone port (some x)) s =
      let u := s.setLink port ((s.link port).retrained x)
      if !(s.farOk port x.farmod x.farport) then .next (u.failLink port .cabling)
      else if lanes ((s.link port).retrained x).good < 4 ∨ lanes x.goodTx < 4 then .next (u.failLink port .lanes)
      else
        let v := u.setLinkState port .up .none
        let l := v.link port
        .next (State.pump port (l.txq.length + 1)
          ((v.setLink port { l with replay := l.replay.map (fun f => { f with sentAt := v.now }) }).replayFrames port l.replay)) := by
  refine (show _ = execRetrainDone port (some x) s from rfl).trans (if_neg ?_)
  simp [retrains, listed]

theorem retrainDone_again (retrains : (s.link port).st = .retrain) : exec (.retrainDone port none) s =
    if 2 ≤ (s.link port).failedRetrains then .next (s.failLink port .retrain)
    else .next ((s.setLink port { s.link port with
      failedRetrains := (s.link port).failedRetrains + 1, retrains := min 65535 ((s.link port).retrains + 1) }).emit (.train port s.modid)) := by
  refine (show _ = execRetrainDone port none s from rfl).trans (if_neg ?_)
  simp [retrains, listed]

end

/-- The outcome t of a check of training that failed. -/
structure FailedWith (t : State) (port : Nat) (cause : LinkCause) (l : Link) : Prop where
  st : (t.link port).st = .failed
  why : (t.link port).cause = cause
  txq : (t.link port).txq = []
  replay : (t.link port).replay = []
  rest : ({ l with st := .failed, cause := cause } : Link).SentTo (t.link port)

section
variable {port : Nat} {s : State} (here : port < s.eft.links.length)
include here

/-- A link written and failed. -/
theorem setLink_fails (l : Link) (cause : LinkCause) : FailedWith ((s.setLink port l).failLink port cause) port cause l := by
  obtain ⟨st, c, queue, replay, rest⟩ := failLink_fails (s := s.setLink port l) (by simpa [State.setLink] using here) cause
  rw [link_setLink_self here] at rest
  exact ⟨st, c, queue, replay, rest⟩

/-- A link that has trained comes UP with full credits, and sends what it has queued (R422, R439). -/
theorem fresh_sends (l : Link) (fuel : Nat) (u : State) (same : u = s.setLink port l) :
    let t := State.pump port (fuel + 1) ((u.setLink port (u.link port).fresh).setLinkState port .up .none)
    ({ l.fresh with st := .up, cause := .none } : Link).SentTo (t.link port) ∧
    (l.txq = [] → (t.link port).sent = [] ∧ (t.link port).replay = [] ∧ (t.link port).nextFseq = 0) := by
  have was : u.link port = l := same ▸ link_setLink_self here l
  have count : port < u.eft.links.length := by rw [same]; simpa [State.setLink] using here
  have count2 : port < (u.setLink port l.fresh).eft.links.length := by simpa [State.setLink] using count
  have link := setLinkState_link count2 .up .none
  have count3 := setLinkState_count (u.setLink port l.fresh) port .up .none
  rw [link_setLink_self count] at link
  rw [was]
  generalize (u.setLink port l.fresh).setLinkState port .up .none = v at link count3 ⊢
  refine ⟨?_, fun empty => ?_⟩
  · have sent := (pump_posts port (fuel + 1) v).here
    rw [link] at sent
    exact sent
  · have queue : (v.link port).txq = [] := by rw [link]; exact empty
    have up : (v.link port).st = .up := by rw [link]
    rw [pump_empty up queue, link_setLink_self (count3 ▸ count2), link]
    exact ⟨rfl, rfl, rfl⟩

/-- A link that has retrained comes UP and replays what is not acknowledged (R431). -/
theorem retrained_replays (l : Link) :
    let u := s.setLink port l
    let v := u.setLinkState port .up .none
    let w := v.link port
    let t := State.pump port (w.txq.length + 1)
      ((v.setLink port { w with replay := w.replay.map (fun f => { f with sentAt := v.now }) }).replayFrames port w.replay)
    ({ l with st := .up, cause := .none } : Link).SentTo (t.link port) ∧
    ∀ f ∈ l.replay, ∃ a cr, .frame port (frameBlock 0 f.fseq a cr f.first f.slots) ∈ t.out := by
  have count : port < (s.setLink port l).eft.links.length := by simpa [State.setLink] using here
  have link := setLinkState_link count .up .none
  rw [link_setLink_self here] at link
  dsimp only
  generalize (s.setLink port l).setLinkState port .up .none = v at link ⊢
  have replayed := replayFrames_sends port (v.link port).replay
    (v.setLink port { v.link port with replay := (v.link port).replay.map (fun f => { f with sentAt := v.now }) })
  have posts := (setLink_posts v port (x := { v.link port with
    replay := (v.link port).replay.map (fun f => { f with sentAt := v.now }) }) rfl).trans (replayed.1.posts port)
  have pumped := pump_posts port ((v.link port).txq.length + 1) ((v.setLink port { v.link port with
    replay := (v.link port).replay.map (fun f => { f with sentAt := v.now }) }).replayFrames port (v.link port).replay)
  refine ⟨?_, fun f hf => ?_⟩
  · have sent := (posts.trans pumped).here
    rw [link] at sent ⊢
    exact sent
  · obtain ⟨a, cr, sent⟩ := replayed.2 f (by rw [link]; exact hf)
    exact ⟨a, cr, pumped.out sent⟩

/-- DISABLE written with 1: the port is DOWN, and what it had queued is discarded. -/
theorem setDisable_stops (enabled : (s.link port).disable = false) :
    let t := s.setDisable port true
    (t.link port).disable = true ∧ (t.link port).st = .down ∧ (t.link port).cause = .disable ∧ (t.link port).replay = [] := by
  have count : port < (s.setLink port { s.link port with disable := true }).eft.links.length := by simpa [State.setLink] using here
  have link := setLinkState_link count .down .disable
  obtain ⟨sent, -, replay⟩ := discardLink_discards (port := port)
    (s := (s.setLink port { s.link port with disable := true }).setLinkState port .down .disable) (by rw [setLinkState_count]; exact count)
  rw [link, link_setLink_self here] at sent replay
  have stops : s.setDisable port true =
      ((s.setLink port { s.link port with disable := true }).setLinkState port .down .disable).discardLink port := by
    simp [State.setDisable, enabled]
  rw [stops]
  exact ⟨by rw [sent], by rw [sent], by rw [sent], replay (by simp)⟩

/-- Training starts on a port that is DOWN, enabled and cabled, once the module has its coordinates. -/
theorem tryTrain_tries (down : (s.link port).st = .down) (enabled : (s.link port).disable = false) :
    let t := s.tryTrain port
    let starts := s.eft.coord.valid && (s.link port).cable
    onlyLinks s t ∧ (starts = true → t.link port = { s.link port with st := .training, cause := .none } ∧
      t.out.head? = some (.train port s.modid)) ∧ (starts = false → t = s) := by
  have link := setLinkState_link here .training .none
  obtain ⟨o, set_state⟩ := setLinkState_sets s port .training .none
  unfold State.tryTrain
  dsimp only
  by_cases starts : (s.eft.coord.valid && (s.link port).cable) = true
  · rw [if_pos (by simpa [down, enabled] using starts)]
    refine ⟨?_, fun _ => ⟨link, ?_⟩, fun no => ?_⟩
    · rw [set_state]
      exact onlyLinks_of_frame rfl
    · rw [set_state]
      rfl
    · exact absurd (starts.symm.trans no) (by decide)
  · rw [if_neg (by simpa [down, enabled] using starts)]
    exact ⟨onlyLinks_of_frame rfl, fun yes => absurd yes starts, fun _ => rfl⟩

omit here in
theorem tryTrain_else (other : (s.link port).st ≠ .down ∨ s.eft.coord.valid = false ∨ (s.link port).disable = true ∨ (s.link port).cable = false) :
    s.tryTrain port = s := by
  refine if_neg ?_
  rintro ⟨down, valid, enabled, cable⟩
  rcases other with h | h | h | h <;> simp_all

/-- DISABLE written with 0: the port is DOWN and trains when it may. -/
theorem setDisable_frees (disabled : (s.link port).disable = true) :
    let t := s.setDisable port false
    (t.link port).disable = false ∧ (t.link port).cause = .none ∧
    (t.link port).st = (if s.eft.coord.valid && (s.link port).cable then .training else .down) ∧
    (s.eft.coord.valid = true → (s.link port).cable = true → t.out.head? = some (.train port s.modid)) ∧ onlyLinks s t := by
  have count : port < (s.setLink port { s.link port with disable := false }).eft.links.length := by simpa [State.setLink] using here
  have link := setLinkState_link count .down .none
  have count2 := setLinkState_count (s.setLink port { s.link port with disable := false }) port .down .none
  obtain ⟨o, set_state⟩ := setLinkState_sets (s.setLink port { s.link port with disable := false }) port .down .none
  rw [link_setLink_self here] at link
  have frees : s.setDisable port false = ((s.setLink port { s.link port with disable := false }).setLinkState port .down .none).tryTrain port := by
    simp [State.setDisable, disabled]
  have only : onlyLinks s ((s.setLink port { s.link port with disable := false }).setLinkState port .down .none) := by
    rw [set_state]
    exact onlyLinks_of_frame rfl
  have coord : ((s.setLink port { s.link port with disable := false }).setLinkState port .down .none).eft.coord = s.eft.coord := by
    rw [set_state]
    rfl
  rw [frees]
  generalize (s.setLink port { s.link port with disable := false }).setLinkState port .down .none = u at *
  obtain ⟨tries_only, starts, stays⟩ := tryTrain_tries (s := u) (port := port) (count2 ▸ count) (by rw [link]) (by rw [link])
  rw [link, coord] at starts stays
  have modid : u.modid = s.modid := congrArg Coord.modid coord
  dsimp only at starts stays ⊢
  by_cases go : (s.eft.coord.valid && (s.link port).cable) = true
  · obtain ⟨trains, head⟩ := starts go
    rw [trains, if_pos go]
    exact ⟨rfl, rfl, rfl, fun _ _ => modid ▸ head, onlyLinks_trans only tries_only⟩
  · have still := stays (by simpa using go)
    rw [if_neg go, still, link]
    exact ⟨rfl, rfl, rfl, fun valid cable => absurd (by rw [valid, cable]; rfl) go, only⟩

/-- A change of the cable, on a module with power (R593). -/
theorem cable_acts (present active : Bool) :
    let u := s.setLink port { s.link port with cable := present, active := active }
    let t := if !present && (u.link port).st == .training then u.setLinkState port .down .none else u.tryTrain port
    (t.link port).cable = present ∧ (t.link port).active = active ∧ onlyLinks s t ∧
    (t.link port).st = if present = false ∧ (s.link port).st = .training then .down
        else if (s.link port).st = .down ∧ s.eft.coord.valid = true ∧ (s.link port).disable = false ∧ present = true then .training
        else (s.link port).st := by
  have count : port < (s.setLink port { s.link port with cable := present, active := active }).eft.links.length := by
    simpa [State.setLink] using here
  have link := link_setLink_self here { s.link port with cable := present, active := active }
  have only : onlyLinks s (s.setLink port { s.link port with cable := present, active := active }) := onlyLinks_of_frame rfl
  have coord : (s.setLink port { s.link port with cable := present, active := active }).eft.coord = s.eft.coord := rfl
  generalize s.setLink port { s.link port with cable := present, active := active } = u at *
  dsimp only
  by_cases lost : present = false ∧ (s.link port).st = .training
  · obtain ⟨o, set_state⟩ := setLinkState_sets u port .down .none
    have now_down := setLinkState_link count .down .none
    rw [if_pos (by rw [link]; simp [lost.1, lost.2]), if_pos lost, now_down, link]
    refine ⟨rfl, rfl, onlyLinks_trans only ?_, rfl⟩
    rw [set_state]
    exact onlyLinks_of_frame rfl
  · rw [if_neg (by rw [link]; simpa using lost), if_neg lost]
    by_cases tries : (s.link port).st = .down ∧ s.eft.coord.valid = true ∧ (s.link port).disable = false ∧ present = true
    · obtain ⟨down, valid, enabled, cable⟩ := tries
      obtain ⟨tries_only, starts, -⟩ := tryTrain_tries (s := u) (port := port) count (by rw [link]; exact down) (by rw [link]; exact enabled)
      obtain ⟨trains, -⟩ := starts (by rw [coord, valid, link]; exact cable)
      rw [if_pos ⟨down, valid, enabled, cable⟩, trains, link]
      exact ⟨rfl, rfl, onlyLinks_trans only tries_only, rfl⟩
    · have still : u.tryTrain port = u := tryTrain_else (by
        rw [link, coord]
        by_contra all
        simp only [not_or, ne_eq, not_not, Bool.not_eq_false, Bool.not_eq_true] at all
        exact tries ⟨all.1, all.2.1, all.2.2.1, all.2.2.2⟩)
      rw [if_neg tries, still, link]
      exact ⟨rfl, rfl, only, rfl⟩

end

/-- A far end that is not the expected one, or one that is, as the model tests it. -/
theorem not_eq_true_of_false {b : Bool} (h : b = false) : (!b) = true := by rw [h]; rfl

section
variable {port : Nat} {s : State} (listed : port < 18) (here : port < s.eft.links.length)
include listed here

/-- What LINK_TRAIN_DONE leaves, by the far end, the round trip and the lanes that training found. -/
theorem linkTrainDone_ends (x : Training) (trains : (s.link port).st = .training) (loaded : s.trl.loaded = true) :
    ∃ t, exec (.linkTrainDone port x) s = .next t ∧
    let l := s.link port
    let ok := s.farOk port x.farmod x.farport
    let bad := lanes (l.good &&& x.good) < 4 ∨ lanes x.goodTx < 4
    (t.link port).good = l.good &&& x.good ∧ (t.link port).farmod = x.farmod ∧ (t.link port).farport = x.farport ∧
    (ok = false → FailedWith t port .cabling (l.trained x)) ∧ (ok = true → l.reach < x.rtt → FailedWith t port .reach (l.trained x)) ∧
    (ok = true → x.rtt ≤ l.reach → bad → FailedWith t port .lanes (l.trained x)) ∧
    (ok = true → x.rtt ≤ l.reach → ¬ bad → (t.link port).st = .up ∧ (t.link port).cause = .none ∧
      (t.link port).retrains = l.retrains ∧ (t.link port).expected = 0 ∧ (t.link port).returned = [] ∧
      (l.txq = [] → (t.link port).sent = [] ∧ (t.link port).replay = [] ∧ (t.link port).nextFseq = 0)) := by
  rw [linkTrainDone_judges listed x trains loaded]
  have fails := setLink_fails here ((s.link port).trained x)
  have found : ∀ {t : State} {cause : LinkCause}, FailedWith t port cause ((s.link port).trained x) →
      (t.link port).good = (s.link port).good &&& x.good ∧ (t.link port).farmod = x.farmod ∧ (t.link port).farport = x.farport :=
    fun h => ⟨by rw [h.rest]; rfl, by rw [h.rest]; rfl, by rw [h.rest]; rfl⟩
  dsimp only
  cases far : s.farOk port x.farmod x.farport
  · have out := fails .cabling
    obtain ⟨good, farmod, farport⟩ := found out
    exact ⟨_, if_pos rfl, good, farmod, farport, fun _ => out, by simp, by simp, by simp⟩
  · rw [if_neg (by decide)]
    by_cases near : x.rtt ≤ (s.link port).reach
    · rw [if_neg (not_lt.mpr near)]
      by_cases bad : lanes ((s.link port).good &&& x.good) < 4 ∨ lanes x.goodTx < 4
      · have out := fails .lanes
        obtain ⟨good, farmod, farport⟩ := found out
        exact ⟨_, if_pos bad, good, farmod, farport, by simp, fun _ late => absurd near (not_le.mpr late), fun _ _ _ => out,
          fun _ _ fine => absurd bad fine⟩
      · obtain ⟨rest, full⟩ := fresh_sends here ((s.link port).trained x) ((s.setLink port ((s.link port).trained x)).link port).txq.length _ rfl
        refine ⟨_, if_neg bad, ?_⟩
        generalize State.pump port _ _ = t at rest full ⊢
        exact ⟨by rw [rest]; rfl, by rw [rest]; rfl, by rw [rest]; rfl, by simp, fun _ late => absurd near (not_le.mpr late),
          fun _ _ few => absurd few bad, fun _ _ _ => ⟨by rw [rest], by rw [rest], by rw [rest]; rfl, by rw [rest]; rfl, by rw [rest]; rfl, full⟩⟩
    · have out := fails .reach
      obtain ⟨good, farmod, farport⟩ := found out
      exact ⟨_, if_pos (not_le.mp near), good, farmod, farport, by simp, fun _ _ => out, fun _ close => absurd close near,
        fun _ close => absurd close near⟩

/-- What a RETRAIN_DONE that retrained leaves. -/
theorem retrainDone_ends (x : Training) (retrains : (s.link port).st = .retrain) :
    ∃ t, exec (.retrainDone port (some x)) s = .next t ∧
    let l := s.link port
    let ok := s.farOk port x.farmod x.farport
    let good := if l.clrbad then x.good % 512 else l.good &&& x.good
    let bad := lanes good < 4 ∨ lanes x.goodTx < 4
    (t.link port).good = good ∧ (t.link port).clrbad = false ∧ (ok = false → FailedWith t port .cabling (l.retrained x)) ∧
    (ok = true → bad → FailedWith t port .lanes (l.retrained x)) ∧
    (ok = true → ¬ bad → (t.link port).st = .up ∧ (t.link port).cause = .none ∧ (t.link port).retrains = l.retrains ∧
      ∀ f ∈ l.replay, ∃ a cr, .frame port (frameBlock 0 f.fseq a cr f.first f.slots) ∈ t.out) := by
  rw [retrainDone_judges listed x retrains]
  have fails := setLink_fails here ((s.link port).retrained x)
  dsimp only
  cases far : s.farOk port x.farmod x.farport
  · have out := fails .cabling
    exact ⟨_, if_pos rfl, by rw [out.rest]; rfl, by rw [out.rest]; rfl, fun _ => out, by simp, by simp⟩
  · rw [if_neg (by decide)]
    by_cases bad : lanes ((s.link port).retrained x).good < 4 ∨ lanes x.goodTx < 4
    · have out := fails .lanes
      exact ⟨_, if_pos bad, by rw [out.rest]; rfl, by rw [out.rest]; rfl, by simp, fun _ _ => out, fun _ fine => absurd bad fine⟩
    · obtain ⟨rest, frames⟩ := retrained_replays here ((s.link port).retrained x)
      refine ⟨_, if_neg bad, ?_⟩
      generalize State.pump port _ _ = t at rest frames ⊢
      exact ⟨by rw [rest]; rfl, by rw [rest]; rfl, by simp, fun _ few => absurd few bad,
        fun _ _ => ⟨by rw [rest], by rw [rest], by rw [rest]; rfl, frames⟩⟩

/-- A lane goes bad: the link goes on without it, and an UP one retrains (R433). -/
theorem laneBad_retrains {lane : Nat} {n : Option Nat} (known : lane < 9) (good : bit (s.link port).good lane = true)
    (over_ : ∀ k, n = some k → 64 * (s.link port).lthresh < k) : ∃ t, exec (.laneBad port lane n) s = .next t ∧
      (t.link port).good = (s.link port).good - 2 ^ lane ∧
      (t.link port).st = (if (s.link port).st = .up then .retrain else (s.link port).st) ∧ onlyLinks s t := by
  obtain ⟨r, noted⟩ := event_eq (s.setLink port { s.link port with good := (s.link port).good - 2 ^ lane }) (islandShed (1 + port)) 0x51 none none
    (port + 32 * (s.link port).st.code + 256 * (s.link port).cause.code)
  have runs : exec (.laneBad port lane n) s = .next (((s.setLink port { s.link port with
      good := (s.link port).good - 2 ^ lane }).linkEvent port 0x51 (s.link port).st.code (s.link port).cause.code).retrain port) := by
    refine (show _ = execLaneBad port lane n s from rfl).trans (if_neg ?_)
    rintro (h | h | h | h)
    · omega
    · omega
    · simp [good] at h
    · cases n with
      | none => exact nomatch h
      | some k => exact absurd (over_ k rfl) (by simpa using h)
  have link : ((s.setLink port { s.link port with good := (s.link port).good - 2 ^ lane }).linkEvent port 0x51
      (s.link port).st.code (s.link port).cause.code).link port = { s.link port with good := (s.link port).good - 2 ^ lane } := by
    rw [State.linkEvent, noted]
    exact link_setLink_self here _
  have only : onlyLinks s ((s.setLink port { s.link port with good := (s.link port).good - 2 ^ lane }).linkEvent port 0x51
      (s.link port).st.code (s.link port).cause.code) := by
    rw [State.linkEvent, noted]
    exact onlyLinks_of_frame rfl
  have count : port < ((s.setLink port { s.link port with good := (s.link port).good - 2 ^ lane }).linkEvent port 0x51
      (s.link port).st.code (s.link port).cause.code).eft.links.length := by
    rw [State.linkEvent, noted]
    simpa [State.setLink] using here
  refine ⟨_, runs, ?_⟩
  generalize (s.setLink port { s.link port with good := (s.link port).good - 2 ^ lane }).linkEvent port 0x51
    (s.link port).st.code (s.link port).cause.code = u at *
  by_cases up : (s.link port).st = .up
  · obtain ⟨after, -, more⟩ := retrain_up count (by rw [link]; exact up)
    rw [if_pos up, after, link]
    exact ⟨rfl, rfl, onlyLinks_trans only more⟩
  · rw [retrain_else (by rw [link]; exact up), if_neg up, link]
    exact ⟨rfl, rfl, only⟩

end

/-- A loopback on the port ends when DISABLE is written with 0 (R606). -/
theorem endLoopback_ends {s : State} {port : Nat} (loops : s.loopsPort port = true) :
    (s.endLoopback 6).board.lb = none ∧ (s.endLoopback 6).board.lbState = 6 := by
  unfold State.loopsPort at loops
  unfold State.endLoopback
  split at loops
  · next x found =>
    rw [found]
    dsimp only
    split <;> exact ⟨rfl, rfl⟩
  · exact nomatch loops

theorem setDisable_false_board (s : State) (port : Nat) : (s.setDisable port false).board = s.board := by
  have tries : ∀ u : State, (u.tryTrain port).board = u.board := fun u => by
    obtain ⟨o, set_state⟩ := setLinkState_sets u port .training .none
    unfold State.tryTrain
    dsimp only
    split
    · rw [set_state]
      rfl
    · rfl
  unfold State.setDisable
  simp only [Bool.false_eq_true, if_false]
  split
  · obtain ⟨o, set_state⟩ := setLinkState_sets (s.setLink port { s.link port with disable := false }) port .down .none
    rw [tries, set_state]
    rfl
  · rfl

/-- Settles O46: each command by the state of its link, from what setting a state, failing, retraining and sending leave. -/
theorem linksMoveThroughTheirStates : Obligations.LinksMoveThroughTheirStates := by
  intro port s listed here l failed retrained
  have port_ok : ¬ 18 ≤ port := not_le.mpr listed
  have fails : ∀ {t : State} {cause : LinkCause} {x : Link}, FailedWith t port cause x → failed t cause :=
    fun h => ⟨h.st, h.why, h.txq, h.replay⟩
  have retrains : l.st = .up → retrained (s.retrain port) := fun up => by
    obtain ⟨link, out, only⟩ := retrain_up here up
    exact ⟨by rw [link], by rw [link], by rw [link], by rw [link], by rw [link], out, only⟩
  refine ⟨?train, ?trained, ?again, ?third, ?retrained, ?overdue, ?early, ?lane, ?good, ?software, ?cable⟩
  case train =>
    intro m p trains
    have runs := trainFrame_trains listed m p trains
    by_cases bad : (s.trl.loaded && !(s.farOk port m p)) = true
    · rw [if_pos bad] at runs
      have out := setLink_fails here { s.link port with farmod := m, farport := p } .cabling
      refine ⟨_, runs, by rw [out.rest], by rw [out.rest], fun fine => ?_, fun _ _ => fails out⟩
      rcases fine with h | h <;> simp [h] at bad
    · rw [if_neg bad] at runs
      refine ⟨_, runs, by rw [link_setLink_self here], by rw [link_setLink_self here], fun _ => rfl, fun loaded far => ?_⟩
      simp [loaded, far] at bad
  case trained =>
    intro x trains loaded
    obtain ⟨t, runs, good, farmod, farport, cabling, reach, few, up⟩ := linkTrainDone_ends listed here x trains loaded
    exact ⟨t, runs, good, farmod, farport, fun h => fails (cabling h), fun h late => fails (reach h late),
      fun h near bad => fails (few h near bad), up⟩
  case again => exact fun st few => (retrainDone_again listed st).trans (if_neg (not_le.mpr few))
  case third =>
    intro st many
    have out := failLink_fails here .retrain
    exact ⟨_, (retrainDone_again listed st).trans (if_pos many), out.1, out.2.1, out.2.2.1, out.2.2.2.1⟩
  case retrained =>
    intro x st
    obtain ⟨t, runs, good, clrbad, cabling, few, up⟩ := retrainDone_ends listed here x st
    exact ⟨t, runs, good, clrbad, fun h => fails (cabling h), fun h bad => fails (few h bad), up⟩
  case overdue =>
    rintro up ⟨f, queued, late⟩
    exact ⟨_, (show _ = execAckTimeout port s from rfl).trans (if_pos (List.any_eq_true.mpr ⟨f, queued, decide_eq_true late⟩)), retrains up⟩
  case early =>
    intro early
    refine (show _ = execAckTimeout port s from rfl).trans (if_neg fun late => ?_)
    obtain ⟨f, queued, due⟩ := List.any_eq_true.mp late
    exact absurd (of_decide_eq_true due) (not_le.mpr (early f queued))
  case lane => exact fun lane n known good over_ => laneBad_retrains listed here known good over_
  case good =>
    intro lane n fine
    refine (show _ = execLaneBad port lane n s from rfl).trans (if_pos ?_)
    rcases fine with bad | ⟨k, rfl, few⟩
    · exact .inr (.inr (.inl (not_eq_true_of_false bad)))
    · exact .inr (.inr (.inr (not_eq_true_of_false (decide_eq_false (not_lt.mpr few)))))
  case software =>
    intro rq may
    have writes : ∀ f : State → State, s.regWrite rq (linkCtrlOff port) f = f s := fun f => regWrite_mayWrite may f
    have disables : ∀ v, exec (.linkDisable rq port v) s =
        .next ((if !v && s.loopsPort port then s.endLoopback 6 else s).setDisable port v) := fun v =>
      (show _ = execLinkDisable rq port v s from rfl).trans ((if_neg port_ok).trans (congrArg _ (writes _)))
    have retrain_runs : exec (.linkRetrain rq port) s = .next (s.retrain port) :=
      (show _ = execLinkRetrain rq port s from rfl).trans ((if_neg port_ok).trans (congrArg _ (writes _)))
    refine ⟨fun up => ⟨_, retrain_runs, retrains up⟩, fun down => retrain_runs.trans (congrArg _ (retrain_else down)),
      (show _ = execClrbad rq port s from rfl).trans ((if_neg port_ok).trans (congrArg _ (writes _))),
      fun enabled => ⟨_, disables true, setDisable_stops here enabled⟩, fun disabled => (disables true).trans (congrArg _ ?_),
      fun enabled alone => (disables false).trans (congrArg _ ?_), fun disabled alone => ⟨_, disables false, ?_⟩,
      fun loops => ⟨_, disables false, ?_⟩⟩
    · simp [State.setDisable, show (s.link port).disable = true from disabled]
    · simp [State.setDisable, alone, show (s.link port).disable = false from enabled]
    · rw [alone]
      exact setDisable_frees here disabled
    · rw [loops, setDisable_false_board]
      exact endLoopback_ends loops
  case cable =>
    intro present active
    have only : onlyLinks s (s.setLink port { s.link port with cable := present, active := active }) := onlyLinks_of_frame rfl
    have link := link_setLink_self here { s.link port with cable := present, active := active }
    have runs : exec (.cablePresentChange port present active) s = .next (
        let u := s.setLink port { s.link port with cable := present, active := active }
        if s.board.rails then
          (if !present && (u.link port).st == .training then u.setLinkState port .down .none else u.tryTrain port) else u) :=
      (show _ = execCablePresentChange port present active s from rfl).trans (if_neg port_ok)
    refine ⟨_, runs, ?_⟩
    dsimp only
    by_cases rails : s.board.rails = true
    · obtain ⟨c, a, o, st⟩ := cable_acts here present active
      rw [if_pos rails]
      exact ⟨c, a, o, fun off => absurd rails (by rw [off]; decide), fun _ => st⟩
    · rw [if_neg rails, link]
      exact ⟨rfl, rfl, only, fun _ => rfl, fun on => absurd on rails⟩

end Sys2Proof.Machine
end

section
/-! Reads and writes of memory of this module that the host holds no line of (R354 to R358); and the settlement of O28. -/
namespace Sys2Proof.Machine

/-! Counting an access. -/

/-- From s to t an access has been counted: hot segments and their log have changed, what the log raises, and the data that an owner had fetched. -/
structure Counts (s t : State) : Prop where
  frame : t = { s with
    mem := { s.mem with hot := t.mem.hot, hotLost := t.mem.hotLost, hotHead := t.mem.hotHead, host := t.mem.host },
    eft := { s.eft with fetched := t.eft.fetched }, fresh := t.fresh, host := t.host, out := t.out }
  perst : t.host.perst = s.host.perst

theorem Counts.refl (s : State) : Counts s s := ⟨rfl, rfl⟩

theorem Counts.trans {s t u : State} (h : Counts s t) (k : Counts t u) : Counts s u where
  frame := by rw [k.frame, h.frame]
  perst := k.perst.trans h.perst

theorem vector_perst (s : State) (v : Nat) : (s.vector v).host.perst = s.host.perst := by
  unfold State.vector
  split <;> rfl

theorem irq_counts (s : State) (b : Nat) : Counts s (s.irq b) := by
  obtain ⟨o, h, raised⟩ := irq_eq s b
  refine ⟨by rw [raised], ?_⟩
  unfold State.irq
  split
  · rfl
  · exact vector_perst ..

theorem hotLog_counts (s : State) (w : Nat) : Counts s (s.hotLog w) := by
  unfold State.hotLog
  dsimp only
  refine Counts.trans ?_ (irq_counts _ 1)
  split <;> exact ⟨rfl, rfl⟩

theorem draw_counts (s : State) : Counts s s.draw.2 := ⟨rfl, rfl⟩

theorem hotBump_counts (s : State) (ctx : Nat) (e : RangeEntry) (seg n : Nat) (now : Option Nat) : Counts s (s.hotBump ctx e seg n now) := by
  unfold State.hotBump
  dsimp only
  split
  · exact .refl s
  · have counted : Counts s { s with mem := { s.mem with
        hot := Tab.set 0 s.mem.hot (ctx * 262144 + e.cidx + seg) (min 65535 (Tab.get 0 s.mem.hot (ctx * 262144 + e.cidx + seg) + n)) } } :=
      ⟨rfl, rfl⟩
    split
    · split
      · exact counted.trans (hotLog_counts ..)
      · exact (counted.trans (draw_counts _)).trans (hotLog_counts ..)
    · exact counted

theorem hotCount_counts (s : State) (v : Via) (ps : List Piece) : Counts s (s.hotCount v ps) := by
  unfold State.hotCount
  split
  · exact .refl s
  · refine foldl_rel (R := Counts) .refl Counts.trans (fun s x => ?_) _ _
    split
    · exact .refl s
    · exact foldl_rel (R := Counts) .refl Counts.trans (fun s c => hotBump_counts ..) _ _

theorem dropFetched_counts (s : State) (o : ReqOwner) : Counts s (s.dropFetched o) := ⟨rfl, rfl⟩

/-! An access after one that was counted. -/

section
variable {s t : State} (h : Counts s t)
include h

theorem Counts.modid_eq : t.modid = s.modid := by rw [h.frame]; rfl
theorem Counts.remote_eq (x : Piece) : x.remote t = x.remote s := by rw [Piece.remote, h.modid_eq]; rfl
theorem Counts.loc_eq : t.mem.loc = s.mem.loc := by rw [h.frame]
theorem Counts.bad_eq : t.mem.bad = s.mem.bad := by rw [h.frame]
theorem Counts.queues_eq : t.queues = s.queues := by rw [h.frame]
theorem Counts.parts_eq : t.parts = s.parts := by rw [h.frame]

theorem Counts.ctxRec_eq (c : Nat) : t.ctxRec c = s.ctxRec c := by rw [h.frame]; rfl

theorem Counts.inWindow_eq (c va : Nat) : t.inWindow c va = s.inWindow c va := by
  unfold State.inWindow
  rw [h.ctxRec_eq]

theorem Counts.entryFor_eq (v : Via) (va : Nat) : t.entryFor v va = s.entryFor v va := by
  have gen : ∀ p e, t.gen p e = s.gen p e := fun p e => by rw [h.frame]; rfl
  have tables : t.mem.tables = s.mem.tables := by rw [h.frame]
  unfold State.entryFor
  simp only [h.inWindow_eq, h.ctxRec_eq, gen, tables]

theorem Counts.pieces_eq (v : Via) (fuel va n : Nat) : t.pieces v fuel va n = s.pieces v fuel va n := by
  induction fuel generalizing va n with
  | zero => cases n <;> simp only [State.pieces]
  | succ fuel ih =>
    cases n with
    | zero => simp only [State.pieces]
    | succ n => simp only [State.pieces, h.entryFor_eq, ih]

theorem Counts.hostFails_eq (a n : Nat) : t.hostFails a n = s.hostFails a n := by
  rw [State.hostFails, h.perst, h.frame]
  rfl

theorem Counts.accessFail_eq (p : Nat) (k : AccKind) (ps : List Piece) : t.accessFail p k ps = s.accessFail p k ps := by
  have remoteOk : ∀ x, t.remoteOk p x = s.remoteOk p x := fun x => by rw [h.frame]; rfl
  have window : ∀ a n, t.inHostWindow 7 p a n = s.inHostWindow 7 p a n := fun a n => by rw [h.frame]; rfl
  have shut : t.clocheShut p = s.clocheShut p := by rw [h.frame]; rfl
  have scrub : ∀ a n, t.scrubHit a n = s.scrubHit a n := fun a n => by rw [h.frame]; rfl
  unfold State.accessFail
  simp only [h.remote_eq, remoteOk, window, shut, h.hostFails_eq, scrub]

/-- An access translates as before. -/
theorem Counts.translate_eq (v : Via) (k : AccKind) (va n : Nat) : t.translate v k va n = s.translate v k va n := by
  have tables : t.mem.tables = s.mem.tables := by rw [h.frame]
  have bad : ∀ a n, t.badUnit a n = s.badUnit a n := fun a n => by rw [State.badUnit, State.badUnit, h.bad_eq]
  have walk : ∀ ps, t.walkBad v ps = s.walkBad v ps := fun ps => by simp only [State.walkBad, h.inWindow_eq, tables, bad]
  unfold State.translate
  simp only [h.inWindow_eq, walk, h.pieces_eq, h.accessFail_eq]

theorem Counts.heldLines_eq (ps : List Piece) : t.heldLines ps = s.heldLines ps := by
  unfold State.heldLines
  simp only [h.remote_eq]
  rw [h.frame]

theorem Counts.plain {ps : List Piece} (plain : plainPieces s ps) : plainPieces t ps :=
  ⟨(h.heldLines_eq ps).trans plain.1, fun x hx => ⟨(h.remote_eq x).trans (plain.2 x hx).1, (plain.2 x hx).2⟩⟩

end

/-! Plain pieces. -/

/-- Lists of pieces are plain together when each is. -/
theorem plainPieces_append {s : State} {ps qs : List Piece} (h : plainPieces s (ps ++ qs)) : plainPieces s ps ∧ plainPieces s qs := by
  obtain ⟨free, here⟩ := h
  have free_of : ∀ rs : List Piece, (∀ x ∈ rs, x ∈ ps ++ qs) → s.heldLines rs = [] := fun rs sub => by
    refine List.filter_eq_nil_iff.mpr fun l hl held => ?_
    obtain ⟨x, hx, touched⟩ := List.any_eq_true.mp held
    exact List.filter_eq_nil_iff.mp free l hl (List.any_eq_true.mpr ⟨x, sub x hx, touched⟩)
  exact ⟨⟨free_of ps fun x hx => List.mem_append_left _ hx, fun x hx => here x (List.mem_append_left _ hx)⟩,
    free_of qs fun x hx => List.mem_append_right _ hx, fun x hx => here x (List.mem_append_right _ hx)⟩

section
variable {s : State} {ps : List Piece} (plain : plainPieces s ps)
include plain

theorem plainPieces_not_host : ∀ x ∈ ps, mapRow x.loc ≠ .host := fun x hx => by
  rcases (plain.2 x hx).2 with h | h <;> rw [h] <;> decide

theorem remoteParts_plain : s.remoteParts ps = [] := by
  have local_ : ps.filter (fun x => x.remote s) = [] :=
    List.filter_eq_nil_iff.mpr fun x hx => Bool.eq_false_iff.mp (plain.2 x hx).1
  rw [State.remoteParts, local_]
  rfl

/-- A read of plain pieces without errors gives their bytes. -/
theorem readPieces_plain (good : ∀ y ∈ ps, s.badUnit y.loc y.len = none) (o : ReqOwner) (v : Via) (source seq queue : Nat) :
    s.readPieces o v source seq queue ps = (.done (ps.flatMap (fun y => s.mem.loc.load y.loc y.len)), s.hotCount v ps) := by
  have fine : ps.findSome? (fun x => if x.remote s then none else s.badUnit x.loc x.len) = none :=
    List.findSome?_eq_none_iff.mpr fun x hx => by rw [good x hx, ite_self]
  have bytes : ∀ x ∈ ps, (if x.remote s then
      (split8k (x.len / 8192 + 2) x.pa x.len).flatMap (fun y => match s.arrivedAt o y.1 y.2 with
        | some f => f.bytes
        | none => [])
      else s.readLocal x.loc x.len) = s.mem.loc.load x.loc x.len := fun x hx => by
    rw [if_neg (Bool.eq_false_iff.mp (plain.2 x hx).1), State.readLocal, if_neg (plainPieces_not_host plain x hx)]
  unfold State.readPieces
  simp only [remoteParts_plain plain, State.missing, List.filter_nil, List.foldl_nil, List.any_nil, fine]
  rw [if_neg (not_not_intro plain.1)]
  simp only [Bool.false_eq_true, if_false, ne_eq, not_true_eq_false]
  exact congrArg (fun bs => (Got.done bs, s.hotCount v ps)) (List.flatMap_congr bytes)

end

/-- From s to t memory has been written, and the access counted. -/
structure Stores (s t : State) : Prop where
  frame : t = { s with
    mem := t.mem, eft := { s.eft with fetched := t.eft.fetched }, fresh := t.fresh, host := t.host, out := t.out }

theorem Counts.stores {s t : State} (h : Counts s t) : Stores s t := ⟨by rw [h.frame]⟩

theorem Stores.trans {s t u : State} (h : Stores s t) (k : Stores t u) : Stores s u := ⟨by rw [k.frame, h.frame]⟩

/-- The bytes of pieces written one after another, as `State.writePieces` writes them. -/
def writeStep (o : ReqOwner) (plot : Nat) (xc : Bool) (acc : State × Nat × List Byte) (x : Piece) : State × Nat × List Byte :=
  let (s, n, bs) := acc
  if x.remote s then
    let (s, n, _) := (split8k (x.len / 8192 + 2) x.pa x.len).foldl (fun (a : State × Nat × List Byte) y =>
      (a.1.request o plot y.1 xc (some (a.2.2.take y.2)) 0, a.2.1 + 1, a.2.2.drop y.2)) (s, n, bs)
    (s, n, bs.drop x.len)
  else (s.writeLocal x.loc (bs.take x.len), n, bs.drop x.len)

theorem writeStep_local {o : ReqOwner} {plot : Nat} {xc : Bool} {s : State} {x : Piece} (here : x.remote s = false) (n : Nat) (bs : List Byte) :
    writeStep o plot xc (s, n, bs) x = (s.writeLocal x.loc (bs.take x.len), n, bs.drop x.len) :=
  if_neg (Bool.eq_false_iff.mp here)

theorem writeLocal_stores (s : State) {a : Nat} (device : mapRow a ≠ .host) (bs : List Byte) :
    Stores s (s.writeLocal a bs) ∧ (s.writeLocal a bs).mem.loc = s.mem.loc.store a bs ∧ (s.writeLocal a bs).modid = s.modid := by
  rw [State.writeLocal, if_neg device]
  exact ⟨⟨rfl⟩, rfl, rfl⟩

theorem foldl_writeStep_local (o : ReqOwner) (plot : Nat) (xc : Bool) (n : Nat) (ps : List Piece) (s : State) (bs : List Byte)
    (here : ∀ x ∈ ps, x.remote s = false ∧ mapRow x.loc ≠ .host) :
    let t := ps.foldl (writeStep o plot xc) (s, n, bs)
    t.2.1 = n ∧ Stores s t.1 ∧ t.1.mem.loc = storePieces ps bs s.mem.loc := by
  induction ps generalizing s bs with
  | nil => exact ⟨rfl, ⟨rfl⟩, rfl⟩
  | cons x ps ih =>
    obtain ⟨near, device⟩ := here x (List.mem_cons_self ..)
    obtain ⟨first, stored, modid⟩ := writeLocal_stores s device (bs.take x.len)
    rw [List.foldl_cons, writeStep_local near]
    generalize s.writeLocal x.loc (bs.take x.len) = u at first stored modid
    have near_still : ∀ y : Piece, y.remote u = y.remote s := fun y => congrArg (fun m => y.module_ != m) modid
    obtain ⟨count, stores, loc⟩ := ih u (bs.drop x.len) fun y hy => by
      rw [near_still]
      exact here y (List.mem_cons_of_mem _ hy)
    exact ⟨count, first.trans stores, loc.trans (by rw [stored]; rfl)⟩

section
variable {s : State} {ps : List Piece} (plain : plainPieces s ps) (good : ∀ y ∈ ps, s.badPartial y.loc y.len = none)
include plain good

/-- A write of plain pieces stores their bytes at once, and sends nothing. -/
theorem writePieces_plain (o : ReqOwner) (v : Via) (source seq queue : Nat) (xc : Bool) (bs : List Byte) :
    ∃ t, s.writePieces o v source seq queue xc ps bs = (.done 0, t) ∧ Stores s t ∧ t.mem.loc = storePieces ps bs s.mem.loc := by
  have fine : ps.findSome? (fun x => if x.remote s || mapRow x.loc == .host then none else s.badPartial x.loc x.len) = none :=
    List.findSome?_eq_none_iff.mpr fun x hx => by rw [good x hx, ite_self]
  obtain ⟨count, stores, loc⟩ := foldl_writeStep_local o (match s.plotOf v.part with
    | some r => r.plot
    | none => 0) xc 0 ps s bs fun x hx => ⟨(plain.2 x hx).1, plainPieces_not_host plain x hx⟩
  have written : s.writePieces o v source seq queue xc ps bs =
      let t := ps.foldl (writeStep o (match s.plotOf v.part with
        | some r => r.plot
        | none => 0) xc) (s, 0, bs)
      (.done t.2.1, t.1.hotCount v ps) := by
    unfold State.writePieces
    dsimp only
    rw [if_neg (not_not_intro plain.1), fine]
    rfl
  generalize ps.foldl _ (s, 0, bs) = t at count stores loc written
  have counts := hotCount_counts t.1 v ps
  exact ⟨_, written.trans (by dsimp only; rw [count]), stores.trans counts.stores, counts.loc_eq.trans loc⟩

theorem devWrite_plain {v : Via} {va : Nat} {bs : List Byte} (maps : s.translate v .write va bs.length = .ok ps)
    (o : ReqOwner) (source seq queue : Nat) :
    ∃ t, s.devWrite o v source seq queue va bs = (.done 0, t) ∧ Stores s t ∧ t.mem.loc = storePieces ps bs s.mem.loc := by
  have no_window : ps.any (fun x => mapRow x.loc == .recvWin) = false := List.any_eq_false.mpr fun x hx => by
    rcases (plain.2 x hx).2 with h | h <;> rw [h] <;> decide
  obtain ⟨t, written, stores, loc⟩ := writePieces_plain plain good o v source seq queue false bs
  refine ⟨t, ?_, stores, loc⟩
  unfold State.devWrite
  rw [maps]
  exact (if_neg (by rw [no_window]; decide)).trans written

end

/-- What a command is left to wait for after a write. -/
def cmdOwes (q : Nat) : Got Nat × State → Got Unit × State
  | (.done n, s) => (.done (), s.owe q n)
  | (.wait, s) => (.wait, s)
  | (.fail st, s) => (.fail st, s)

theorem cmdWrite_owes (s : State) (q ctx p va : Nat) (bs : List Byte) :
    ∃ seq, s.cmdWrite q ctx p va bs = cmdOwes q (s.devWrite (.cmd q) ⟨ctx, p, none⟩ 1 seq q va bs) := ⟨_, rfl⟩

/-- From s to t memory has been written by queue q's command, which waits for nothing more than before. -/
structure CmdStores (s t : State) : Prop where
  frame : t = { s with
    queues := t.queues, mem := t.mem, eft := { s.eft with fetched := t.eft.fetched }, fresh := t.fresh, host := t.host, out := t.out }
  queues : sameQueues s t

theorem owe_zero (s : State) (q : Nat) : s.owe q 0 = { s with queues := (s.owe q 0).queues } ∧ sameQueues s (s.owe q 0) := by
  unfold State.owe State.modRunning
  split
  · exact ⟨rfl, fun k => rfl⟩
  · next x runs =>
    have same : ({ s.queue q with running := some { x with owed := x.owed + 0 } } : Queue) = s.queue q :=
      congrArg (fun r => ({ s.queue q with running := r } : Queue)) runs.symm
    rw [same]
    refine ⟨rfl, fun k => ?_⟩
    rw [queue_setQueue]
    split
    · next at_q => rw [at_q]
    · rfl

theorem Stores.owes {s t : State} (h : Stores s t) (q : Nat) : CmdStores s (t.owe q 0) := by
  obtain ⟨frame, queues⟩ := owe_zero t q
  have before : ∀ k, t.queue k = s.queue k := fun k => by rw [h.frame]; rfl
  exact ⟨by rw [frame, h.frame], fun k => (queues k).trans (before k)⟩

/-- A write by a command over plain pieces is done at once. -/
theorem cmdWrite_plain {s : State} {ps : List Piece} (plain : plainPieces s ps) (good : ∀ y ∈ ps, s.badPartial y.loc y.len = none)
    {q ctx p va : Nat} {bs : List Byte} (maps : s.translate ⟨ctx, p, none⟩ .write va bs.length = .ok ps) :
    ∃ t, s.cmdWrite q ctx p va bs = (.done (), t) ∧ CmdStores s t ∧ t.mem.loc = storePieces ps bs s.mem.loc := by
  obtain ⟨seq, writes⟩ := cmdWrite_owes s q ctx p va bs
  obtain ⟨t, written, stores, loc⟩ := devWrite_plain plain good maps (.cmd q) 1 seq q
  rw [written] at writes
  refine ⟨_, writes, stores.owes q, ?_⟩
  rw [(owe_zero t q).1]
  exact loc

end Sys2Proof.Machine
end

section
/-! COPY, TAP_SET and RAKE with the events that end them (R385, R570, R571); and the settlement of O28. -/
namespace Sys2Proof.Machine

/-! A read leaves the module's coordinates. -/

theorem originate_coord (s : State) (m : LinkMsg) : (s.originate m).2.eft.coord = s.eft.coord := by
  rw [(originate_originates s m).frame]

theorem request_coord (s : State) (o : ReqOwner) (plot pa : Nat) (xc : Bool) (write : Option (List Byte)) (n : Nat) :
    (s.request o plot pa xc write n).eft.coord = s.eft.coord := by
  unfold State.request
  dsimp only
  split
  · next u sent =>
    have kept : u.eft.coord = s.eft.coord := (congrArg (fun z => z.2.eft.coord) sent).symm.trans (originate_coord _ _)
    exact kept
  · next st u sent =>
    have kept : u.eft.coord = s.eft.coord := (congrArg (fun z => z.2.eft.coord) sent).symm.trans (originate_coord _ _)
    obtain ⟨r, f, settled⟩ := settleOne_eft u ⟨s.eft.nextTag, pa / 2 ^ 48 % 2 ^ 15, s.now, o, if write.isSome then none else some (pa, n)⟩ st []
    exact (congrArg Eft.coord settled).trans kept

theorem foldl_coord {α : Type} {f : State → α → State} (step : ∀ s a, (f s a).eft.coord = s.eft.coord) (l : List α) (s : State) :
    (l.foldl f s).eft.coord = s.eft.coord :=
  foldl_rel (R := fun s t : State => t.eft.coord = s.eft.coord) (fun _ => rfl) (fun h k => k.trans h) step l s

theorem readPieces_coord (s : State) (o : ReqOwner) (v : Via) (source seq queue : Nat) (ps : List Piece) :
    (s.readPieces o v source seq queue ps).2.eft.coord = s.eft.coord := by
  have snoops : ∀ ls, (s.snoopLines ls).eft.coord = s.eft.coord := fun ls => foldl_coord (fun s l => by split <;> rfl) ls s
  have asks : ∀ plot (l : List (Nat × Nat)),
      (l.foldl (fun (s : State) x => s.request o plot x.1 false none x.2) s).eft.coord = s.eft.coord :=
    fun plot l => foldl_coord (fun s x => request_coord ..) l s
  unfold State.readPieces
  dsimp only
  split
  · exact snoops _
  · generalize asked : List.foldl (fun (s : State) (x : Nat × Nat) => s.request o _ x.1 false none x.2) s _ = u
    have kept : u.eft.coord = s.eft.coord := asked ▸ asks ..
    split
    · exact kept
    · split
      · obtain ⟨r, l, k, w, h, logged⟩ := logError_eq u _ _ source (some v.part) v.ctx seq queue
        rw [logged]
        exact kept
      · split
        · exact kept
        · rw [(hotCount_counts ..).frame]
          exact kept

/-! COPY. -/

section
variable {s : State} {q ctx p : Nat} {x : Running} {f : CopyF}

theorem copy_fails {e : Status} (h : s.mayRun q (.copy f) x ctx p) (bad : s.copyPlan ctx p f = .error e) :
    exec (.copy q f) s = .next (s.completeOk q e) := by
  refine (show _ = execCopy q f s from rfl).trans ((runCmd_runs h _).trans (congrArg _ ?_))
  rw [bad]

theorem copy_starts {m : List Piece × List Piece} (h : s.mayRun q (.copy f) x ctx p) (plan : s.copyPlan ctx p f = .ok m) :
    exec (.copy q f) s = .next (s.setQueue q { s.queue q with running := some { x with started := true, moves := some m } }) := by
  refine (show _ = execCopy q f s from rfl).trans ((runCmd_runs h _).trans (congrArg _ ?_))
  dsimp only
  rw [plan]
  exact modRunning_some h.1 _

variable {a b : List Piece} (runs : (s.queue q).running = some x)
include runs

theorem copyDone_moves (body : x.cmd.body = .copy f) (started : x.started = true) (going : x.ending = none)
    (part : s.partOfCtx (s.ctxOf q x.cmd.word1) = some p) (moves : x.moves = some (a, b)) :
    exec (.copyDone q) s = .next (s.copyRun q (s.ctxOf q x.cmd.word1) p f a b) := by
  refine (show _ = execCopyDone q s from rfl).trans ?_
  simp only [execCopyDone, runs, body, part, moves, started, going]
  rfl

/-- A plain copy within this module leaves the bytes of its source at its destination. -/
theorem copyRun_plain (plain_data : f.xc = false) (plain : plainPieces s (a ++ b)) (good_from : ∀ y ∈ a, s.badUnit y.loc y.len = none)
    (good_to : ∀ y ∈ b, s.badPartial y.loc y.len = none) : ∃ u, s.copyRun q ctx p f a b = u.completeOk q .ok ∧ sameQueues s u ∧
      u.regions = s.regions ∧ u.parts = s.parts ∧ u.mem.loc = storePieces b (a.flatMap (fun y => s.mem.loc.load y.loc y.len)) s.mem.loc := by
  obtain ⟨from_, to_⟩ := plainPieces_append plain
  have counts := hotCount_counts s ⟨ctx, p, none⟩ a
  have read := readPieces_plain from_ good_from (.cmd q) ⟨ctx, p, none⟩ 1 x.cmd.seq q
  generalize s.hotCount ⟨ctx, p, none⟩ a = s1 at counts read
  obtain ⟨t, written, stores, loc⟩ := writePieces_plain (counts.plain to_)
    (fun y hy => by rw [State.badPartial, counts.bad_eq]; exact good_to y hy) (.cmd q) ⟨ctx, p, none⟩ 1 x.cmd.seq q f.xc
    (a.flatMap (fun y => s.mem.loc.load y.loc y.len))
  have ends : s.copyRun q ctx p f a b = ((t.owe q 0).dropFetched (.cmd q)).completeOk q .ok := by
    unfold State.copyRun
    rw [runs]
    dsimp only
    rw [read]
    dsimp only
    rw [if_neg (by simp [plain_data]), written]
    rfl
  obtain ⟨frame, queues⟩ := (counts.stores.trans stores).owes q
  have loc_owed : (t.owe q 0).mem.loc = t.mem.loc := by rw [(owe_zero t q).1]
  refine ⟨_, ends, queues, ?_, ?_, ?_⟩
  · show (t.owe q 0).regions = _
    rw [frame]
  · show (t.owe q 0).parts = _
    rw [frame]
  · exact loc_owed.trans (loc.trans (by rw [counts.loc_eq]))

/-- Compressed data into this module, once it has been read. -/
theorem copyRun_expands {bs : List Byte} {u : State} (xc : f.xc = true) (here : ∀ y ∈ b, y.remote s = false)
    (read : s.readPieces (.cmd q) ⟨ctx, p, none⟩ 1 x.cmd.seq q a = (.done bs, u)) : s.copyRun q ctx p f a b = u.copyXc q ctx p f a b bs := by
  have modid : u.modid = s.modid := by
    have kept := readPieces_coord s (.cmd q) ⟨ctx, p, none⟩ 1 x.cmd.seq q a
    rw [read] at kept
    exact congrArg Coord.modid kept
  have here_still : b.all (fun y => !(y.remote u)) = true := List.all_eq_true.mpr fun y hy => by
    rw [Piece.remote, modid]
    exact not_eq_true_of_false (here y hy)
  unfold State.copyRun
  rw [runs]
  dsimp only
  rw [read]
  exact if_pos (by rw [xc, here_still]; rfl)

end

/-! TAP_SET. -/

section
variable {s : State} {q ctx p : Nat} {x : Running} {f : TapSetF} (h : s.mayRun q (.tapSet f) x ctx p) (here : p < s.parts.length)
include h here

theorem tapSet_disarms (disarm : f.disarm = true) :
    ∃ u : State, exec (.tapSet q f) s = .next (u.completeOk q .ok) ∧ u = { s with parts := u.parts } ∧ (∀ k, k ≠ p → u.part k = s.part k) ∧
      ∀ n, Tab.get none (u.part p).taps n = if n = f.tapid then none else Tab.get none (s.part p).taps n := by
  refine ⟨_, (show _ = execTapSet q f s from rfl).trans ((runCmd_runs h _).trans (congrArg _ (if_pos disarm))), rfl,
    fun k other => part_setPart_ne s p _ other, fun n => ?_⟩
  rw [part_setPart _ _ _ here, Tab.get_set]

/-- A tap armed over a plain area that its header gives. -/
theorem tapSet_arms {hd ps zs : List Piece} {cap : Nat} (arm : f.disarm = false)
    (maps_head : s.translate ⟨ctx, p, none⟩ .write f.dest 64 = .ok hd) (plain_head : plainPieces s hd)
    (good_head : ∀ y ∈ hd, s.badUnit y.loc y.len = none) (count : cap = leAt (hd.flatMap (fun y => s.mem.loc.load y.loc y.len)) 0 4)
    (some_ : 0 < cap) (fits : cap ≤ 2 ^ 20) (maps : s.translate ⟨ctx, p, none⟩ .write f.dest (64 + 64 * cap) = .ok ps)
    (no_window : ∀ y ∈ ps, mapRow y.loc ≠ .recvWin) (maps_zero : s.translate ⟨ctx, p, none⟩ .write (f.dest + 4) 8 = .ok zs)
    (plain_zero : plainPieces s zs) (good_zero : ∀ y ∈ zs, s.badPartial y.loc y.len = none) :
    ∃ u, exec (.tapSet q f) s = .next (u.completeOk q .ok) ∧ sameQueues s u ∧ (∀ k, k ≠ p → u.part k = s.part k) ∧
      Tab.get none (u.part p).taps f.tapid = some ⟨cap, ps.map (fun y => (y.pa, y.len))⟩ ∧
      (∀ n, n ≠ f.tapid → Tab.get none (u.part p).taps n = Tab.get none (s.part p).taps n) ∧
      (∀ y ∈ ps.head?, Tab.get (0, 0) (u.part p).tapCnt y.pa = (0, 0)) ∧
      u.mem.loc = storePieces zs (List.replicate 8 0) s.mem.loc := by
  have read := readPieces_plain plain_head good_head (.cmd q) ⟨ctx, p, none⟩ 1 0 q
  have counts := (hotCount_counts s ⟨ctx, p, none⟩ hd).trans (dropFetched_counts _ (.cmd q))
  generalize s.hotCount ⟨ctx, p, none⟩ hd = s0 at read counts
  obtain ⟨u, written, ⟨frame, queues⟩, loc⟩ := cmdWrite_plain (counts.plain plain_zero)
    (fun y hy => by rw [State.badPartial, counts.bad_eq]; exact good_zero y hy) (q := q) (ctx := ctx) (p := p) (va := f.dest + 4)
    (bs := List.replicate 8 0) (by rw [counts.translate_eq, List.length_replicate]; exact maps_zero)
  have parts : u.parts = s.parts := by rw [frame, counts.parts_eq]
  have here_u : p < u.parts.length := parts ▸ here
  have part : ∀ k, u.part k = s.part k := fun k => by rw [State.part, State.part, parts]
  refine ⟨u.setPart p { u.part p with
      taps := Tab.set none (u.part p).taps f.tapid (some ⟨cap, ps.map (fun y => (y.pa, y.len))⟩),
      tapCnt := Tab.set (0, 0) (u.part p).tapCnt ((ps.map (fun y => (y.pa, y.len))).headD (0, 0)).1 (0, 0) }, ?runs, fun k => ?_,
    fun k other => (part_setPart_ne u p _ other).trans (part k), ?armed, fun n other => ?_, fun y hy => ?_, loc.trans (by rw [counts.loc_eq])⟩
  case runs =>
    refine (show _ = execTapSet q f s from rfl).trans ((runCmd_runs h _).trans (congrArg _ ?_))
    dsimp only
    rw [if_neg (Bool.eq_false_iff.mp arm), maps_head]
    dsimp only
    rw [read]
    dsimp only
    rw [← count, if_neg (by omega), counts.translate_eq, maps]
    dsimp only
    rw [if_neg (by simpa using no_window), written]
  case armed =>
    rw [part_setPart _ _ _ here_u, Tab.get_set, if_pos rfl]
  · have queue : (s0.dropFetched (.cmd q)).queue k = s.queue k := by rw [State.queue, counts.queues_eq]; rfl
    exact (queues k).trans queue
  · rw [part_setPart _ _ _ here_u, Tab.get_set, if_neg other, part]
  · rw [part_setPart _ _ _ here_u]
    have head : (ps.map (fun y => (y.pa, y.len))).headD (0, 0) = (y.pa, y.len) := by
      cases ps with
      | nil => simp at hy
      | cons z zs =>
        obtain rfl := Option.some.inj hy
        rfl
    rw [head, Tab.get_set, if_pos rfl]

end

/-! RAKE. -/

section
variable {s : State} {q ctx p : Nat} {x : Running} {f : RakeF}

theorem rake_starts (h : s.mayRun q (.rake f) x ctx p) (free : s.obs.rake = none) : exec (.rake q f) s = .next
    (({ s with obs := { s.obs with rake := some q } } : State).setQueue q { s.queue q with running := some { x with started := true } }) := by
  refine (show _ = execRake q f s from rfl).trans ((runCmd_runs h _).trans (congrArg _ ?_))
  dsimp only
  rw [free]
  exact modRunning_some (s := { s with obs := { s.obs with rake := some q } }) h.1 _

theorem rake_waits {k : Nat} (h : s.mayRun q (.rake f) x ctx p) (busy : s.obs.rake = some k) : exec (.rake q f) s = .next s := by
  refine (show _ = execRake q f s from rfl).trans ((runCmd_runs h _).trans (congrArg _ ?_))
  dsimp only
  rw [busy]

theorem rakeRun_writes {u : State} (written : s.cmdWrite q ctx p f.dest (s.rakeBytes (min 200 (f.bytes / 4096 - 1))) = (.done (), u)) :
    s.rakeRun q ctx p f = ({ u with obs := { u.obs with rake := none } } : State).completeOk q
      (if f.bytes < 823296 then .range else .ok) := by
  rw [State.rakeRun]
  generalize 4096 = block at written ⊢
  generalize 823296 = all
  simp only [written]

theorem rakeDone_writes (runs : (s.queue q).running = some x) (body : x.cmd.body = .rake f) (started : x.started = true)
    (going : x.ending = none) (part : s.partOfCtx (s.ctxOf q x.cmd.word1) = some p) (ours : s.obs.rake = some q) :
    exec (.rakeDone q) s = .next (s.rakeRun q (s.ctxOf q x.cmd.word1) p f) := by
  refine (show _ = execRakeDone q s from rfl).trans ?_
  simp [execRakeDone, runs, body, part, started, going, ours]

end

/-- Settles O28: each command by its checks, with the bytes that plain reads and writes move. -/
theorem copyTapAndRakeTakeEffect : Obligations.CopyTapAndRakeTakeEffect := by
  refine ⟨fun q f x ctx p s h => ⟨fun e => copy_fails h, fun m => copy_starts h⟩, fun q f x p a b s runs body started going part moves => ⟨?_, ?_⟩,
    fun q f x ctx p s h here => tapSet_disarms h here, fun q f x ctx p hd cap ps zs s h here => tapSet_arms h here,
    fun q f x ctx p s h => ⟨fun free => ⟨_, rake_starts h free, rfl, fun k other => queue_setQueue_ne _ other _, queue_setQueue_self ..⟩,
      fun k busy => rake_waits h busy⟩,
    fun q f x p u s runs body started going part ours written =>
      (rakeDone_writes runs body started going part ours).trans (congrArg _ (rakeRun_writes written))⟩
  · intro plain_data plain good_from good_to
    obtain ⟨u, ends, facts⟩ := copyRun_plain (ctx := s.ctxOf q x.cmd.word1) (p := p) runs plain_data plain good_from good_to
    exact ⟨u, (copyDone_moves runs body started going part moves).trans (congrArg _ ends), facts⟩
  · intro bs u xc here read
    exact (copyDone_moves runs body started going part moves).trans (congrArg _ (copyRun_expands runs xc here read))

end Sys2Proof.Machine
end

section
/-! The registers of a queue, its fetcher and its completion writes (R373 to R400); and the settlement of O32. -/
namespace Sys2Proof.Machine

/-! What settling leaves of a queue. -/

section
variable {x y : Queue} (h : Settled x y)
include h

theorem Settled.tail_eq : y.tail = x.tail := by rw [h.same]
theorem Settled.fidx_eq : y.fidx = x.fidx := by rw [h.same]
theorem Settled.head_eq : y.head = x.head := by rw [h.same]
theorem Settled.ctail_eq : y.ctail = x.ctail := by rw [h.same]
theorem Settled.chead_eq : y.chead = x.chead := by rw [h.same]
theorem Settled.phase_eq : y.phase = x.phase := by rw [h.same]
theorem Settled.shadow_eq : y.shadow = x.shadow := by rw [h.same]
theorem Settled.running_eq : y.running = x.running := by rw [h.same]
theorem Settled.enable_eq : y.enable = x.enable := by rw [h.same]

theorem Settled.fetched_eq (calm : x.state ≠ .aborting) : y.fetched = x.fetched := by rw [(h.calm calm).1]
theorem Settled.pass_eq (calm : x.state ≠ .aborting) : y.pass = x.pass := by rw [(h.calm calm).1]
theorem Settled.inflight_eq (calm : x.state ≠ .aborting) : y.inflight = x.inflight := by rw [(h.calm calm).1]
theorem Settled.seqNext_eq (calm : x.state ≠ .aborting) : y.seqNext = x.seqNext := by rw [(h.calm calm).1]
theorem Settled.abortTail_eq (calm : x.state ≠ .aborting) : y.abortTail = x.abortTail := by rw [(h.calm calm).1]

/-- A queue that is neither ACTIVE nor ABORTING keeps its state. -/
theorem Settled.state_eq (calm : x.state ≠ .aborting) (rests : x.state ≠ .active ∨ x.pass ≠ none) : y.state = x.state := by
  rcases (h.calm calm).2 with same | ⟨active, idle, -⟩
  · exact same
  · rcases rests with no | no
    · exact absurd active no
    · exact absurd idle no

theorem Settled.state_active (active : x.state = .active) : y.state = .active ∨ y.state = .idle := by
  rcases (h.calm (by rw [active]; decide)).2 with same | ⟨-, -, idle⟩
  · exact .inl (same.trans active)
  · exact .inr idle

end

/-- A queue written and settled. -/
theorem settle_set (s : State) (q : Nat) (x : Queue) : QueueStep s ((s.setQueue q x).settle q) q ∧
    Settled x (((s.setQueue q x).settle q).queue q) := by
  obtain ⟨step, settled⟩ := settle_settles (s.setQueue q x) q
  rw [queue_setQueue_self] at settled
  exact ⟨(setQueue_step s q x).trans step, settled⟩

/-- A fetcher that is idle starts towards a tail that it has not reached. -/
theorem advance2_starts {x : Queue} (idle : x.pass = none) (short : x.fidx ≠ x.tail) :
    x.advance2 = { x with pass := some x.tail, rung := false } := by
  have first : x.advance = { x with pass := some x.tail, rung := false } := by
    rw [Queue.advance, idle]
    exact if_pos (.inl short)
  rw [Queue.advance2, first]
  exact if_pos short

/-! Registers. -/

section
variable {rq : Requester} {q : Nat} {v : Word} {s : State}

/-- A value whose fields are all listed. -/
theorem put_listed {g : RingReg} {v : Nat} (low : 4 ≤ bits v 5 1) (high : bits v 5 1 ≤ 16) (place : bit v 0 = true → bits v 63 48 = 0) :
    g.put v = (⟨bit v 0, bits v 5 1, v / 4096 * 4096⟩, true) := by
  have size : (decide (4 ≤ bits v 5 1) && decide (bits v 5 1 ≤ 16)) = true := by simp [low, high]
  have here : (!(bit v 0) || bits v 63 48 == 0) = true := by
    cases loc : bit v 0
    · rfl
    · simp [place loc]
  unfold RingReg.put
  simp only [size, here, if_true, Bool.and_self]

theorem feQRing_writes (known : q < 516) (may : s.mayWrite rq (qOff q 0x00)) : exec (.feQRing rq q v) s =
    .next (if (s.queue q).state ≠ .disabled then s.discard 0x21 (qOff q 0x00)
      else if ((s.queue q).ring.put v.toNat).2 then s.setQueue q { s.queue q with ring := ((s.queue q).ring.put v.toNat).1 }
      else (s.setQueue q { s.queue q with ring := ((s.queue q).ring.put v.toNat).1 }).discard 0x20 (qOff q 0x00)) := by
  rw [show exec (.feQRing rq q v) s = execFeQRing rq q v s from rfl, execFeQRing, regWrite_mayWrite may]
  exact congrArg _ (if_neg (not_le.mpr known))

theorem feQCring_writes (known : q < 516) (may : s.mayWrite rq (qOff q 0x08)) : exec (.feQCring rq q v) s =
    .next (if (s.queue q).state ≠ .disabled then s.discard 0x21 (qOff q 0x08)
      else if ((s.queue q).cring.put v.toNat).2 then s.setQueue q { s.queue q with cring := ((s.queue q).cring.put v.toNat).1 }
      else (s.setQueue q { s.queue q with cring := ((s.queue q).cring.put v.toNat).1 }).discard 0x20 (qOff q 0x08)) := by
  rw [show exec (.feQCring rq q v) s = execFeQCring rq q v s from rfl, execFeQCring, regWrite_mayWrite may]
  exact congrArg _ (if_neg (not_le.mpr known))

theorem feQChead_writes (known : q < 516) (may : s.mayWrite rq (qOff q 0x18)) : exec (.feQChead rq q v) s =
    .next (
      let x := s.queue q
      let n := x.cring.size
      let c := v.toNat % 2 ^ 16
      if n ≤ c ∨ (x.ctail + n - x.chead) % n < (c + n - x.chead) % n then s.discard 0x20 (qOff q 0x18)
      else (s.setQueue q { x with chead := c }).settle q) := by
  rw [show exec (.feQChead rq q v) s = execFeQChead rq q v s from rfl, execFeQChead, regWrite_mayWrite may]
  exact congrArg _ (if_neg (not_le.mpr known))

end

/-! DOORBELL. -/

section
variable {rq : Requester} {q tail : Nat} {stores : List Host.Cell} {s : State}

/-- The host's stores are in host memory. -/
theorem hostStores_frame (s : State) (cs : List Host.Cell) :
    s.hostStores cs = { s with mem := { s.mem with host := (s.hostStores cs).mem.host } } :=
  foldl_rel (R := fun s t : State => t = { s with mem := { s.mem with host := t.mem.host } }) (fun _ => rfl)
    (fun h k => by rw [k, h]) (fun _ _ => rfl) cs s

theorem hostStores_mayWrite (may : s.mayWrite rq (qOff q 0x10)) : (s.hostStores stores).mayWrite rq (qOff q 0x10) := by
  rw [hostStores_frame]
  exact may

/-- The state in which a doorbell finds its queue. -/
def State.rung (s : State) : State := if s.pwr.wakedb then s.wakeUp else s

theorem rung_frame (s : State) : s.rung = { s with pwr := s.rung.pwr } := by
  unfold State.rung State.wakeUp
  split
  · split <;> rfl
  · rfl

theorem doorbell_rings (known : q < 516) (may : s.mayWrite rq (qOff q 0x10)) : exec (.doorbell rq q tail stores) s =
    .next (
      let h := s.hostStores stores
      let x := h.queue q
      if x.ring.size ≤ tail then h.discard 0x20 (qOff q 0x10)
      else if x.state = .disabled then h.feEvent 0x30 q
      else match x.state with
        | .idle => (h.rung.setQueue q ({ x with tail := tail, rung := true, state := .active } : Queue).advance2).settle q
        | .active | .held => (h.rung.setQueue q ({ x with tail := tail, rung := true } : Queue).advance2).settle q
        | _ => h.rung.setQueue q { x with tail := tail, rung := true }) := by
  rw [show exec (.doorbell rq q tail stores) s = execDoorbell rq q tail stores s from rfl, execDoorbell,
    regWrite_mayWrite (hostStores_mayWrite may)]
  exact congrArg _ (if_neg (not_le.mpr known))

theorem hostStores_queue (k : Nat) : (s.hostStores stores).queue k = s.queue k := by rw [hostStores_frame]; rfl

theorem rung_queue (k : Nat) : s.rung.queue k = s.queue k := by rw [rung_frame]; rfl

theorem rung_mem : s.rung.mem = s.mem := by rw [rung_frame]

theorem doorbell_starts (known : q < 516) (may : s.mayWrite rq (qOff q 0x10)) (fits : tail < (s.queue q).ring.size)
    (idle : (s.queue q).state = .idle) (still : (s.queue q).pass = none) (short : (s.queue q).fidx ≠ tail) :
    ∃ t, exec (.doorbell rq q tail stores) s = .next t ∧ (t.queue q).tail = tail ∧ (t.queue q).state = .active ∧
      (t.queue q).pass = some tail ∧ (t.queue q).fetched = (s.queue q).fetched ∧ t.mem = (s.hostStores stores).mem ∧
      ∀ k, k ≠ q → t.queue k = s.queue k := by
  obtain ⟨step, settled⟩ := settle_set (s.hostStores stores).rung q
    ({ s.queue q with tail := tail, rung := true, state := .active } : Queue).advance2
  rw [advance2_starts (by exact still) (by exact short)] at step settled
  refine ⟨_, (doorbell_rings known may).trans ?_, settled.tail_eq, settled.state_eq (by simp) (.inr (by simp)), settled.pass_eq (by simp),
    settled.fetched_eq (by simp), step.mem_eq.trans rung_mem, fun k other => (step.other k other).trans ((rung_queue k).trans (hostStores_queue k))⟩
  dsimp only
  rw [hostStores_queue, if_neg (not_le.mpr fits), if_neg (by rw [idle]; decide), idle]
  exact congrArg _ (by rw [advance2_starts (by exact still) (by exact short)])

theorem doorbell_goes_on (known : q < 516) (may : s.mayWrite rq (qOff q 0x10)) (fits : tail < (s.queue q).ring.size)
    (going : (s.queue q).state = .active ∨ (s.queue q).state = .held) :
    ∃ t, exec (.doorbell rq q tail stores) s = .next t ∧ (t.queue q).tail = tail ∧ (t.queue q).fetched = (s.queue q).fetched ∧
      t.mem = (s.hostStores stores).mem ∧ ∀ k, k ≠ q → t.queue k = s.queue k := by
  obtain ⟨step, settled⟩ := settle_set (s.hostStores stores).rung q ({ s.queue q with tail := tail, rung := true } : Queue).advance2
  obtain ⟨r, p, fetch⟩ := advance2_fetch { s.queue q with tail := tail, rung := true }
  have calm : (s.queue q).state ≠ .aborting := by rcases going with h | h <;> rw [h] <;> decide
  refine ⟨_, (doorbell_rings known may).trans ?_, settled.tail_eq.trans (by rw [fetch]),
    (settled.fetched_eq (by rw [fetch]; exact calm)).trans (by rw [fetch]), step.mem_eq.trans rung_mem,
    fun k other => (step.other k other).trans ((rung_queue k).trans (hostStores_queue k))⟩
  dsimp only
  rw [hostStores_queue, if_neg (not_le.mpr fits), if_neg (by rcases going with h | h <;> rw [h] <;> decide)]
  rcases going with h | h <;> rw [h]

theorem doorbell_is_noted (known : q < 516) (may : s.mayWrite rq (qOff q 0x10)) (fits : tail < (s.queue q).ring.size)
    (waits : (s.queue q).state = .complBlocked ∨ (s.queue q).state = .fetchBlocked ∨ (s.queue q).state = .aborting ∨
      (s.queue q).state = .stopped) : exec (.doorbell rq q tail stores) s =
      .next ((s.hostStores stores).rung.setQueue q { s.queue q with tail := tail, rung := true }) := by
  refine (doorbell_rings known may).trans ?_
  dsimp only
  rw [hostStores_queue, if_neg (not_le.mpr fits), if_neg (by rcases waits with h | h | h | h <;> rw [h] <;> decide)]
  rcases waits with h | h | h | h <;> rw [h]

end

/-! The fetcher. -/

section
variable {q : Nat} {good : Bool} {s : State} (out : s.inReset = false)
include out

theorem ringFetch_reads (may : (s.queue q).mayFetch = true) : exec (.ringFetch q good) s =
    let x := s.queue q
    let a := x.ring.base + 64 * x.fidx
    let held := if x.ring.loc then s.heldLocal a 64 else []
    if held ≠ [] then .next (s.snoopLines held)
    else if !good || (x.ring.loc && (s.badUnit a 64).isSome) || !(s.ringOk q x.ring a 64) then .next (s.fetchFailed q)
    else .next ((s.setQueue q ({ x with fetched := x.fetched ++ [s.ringRead x.ring a 64], fidx := (x.fidx + 1) % x.ring.size } : Queue).advance2).settle q) :=
  (show _ = execRingFetch q good s from rfl).trans (if_neg (by simp [out, may]))

end

/-- A queue that has left ACTIVE gives up T_READY and regions granted to its record, and raises its state vector. -/
theorem leaves_active {u : State} {q : Nat} (left : (u.queue q).state ≠ .active) : QueueStep u ((u.noteReady q).stateVector q) q ∧
    ((u.noteReady q).stateVector q).queue q =
      { u.queue q with tReady := none, granted := (u.queue q).granted && (u.queue q).running.isSome } := by
  obtain ⟨raised, kept⟩ := vector_step (u.noteReady q) q (516 + q)
  refine ⟨(noteReady_step u q).1.trans raised, kept.trans ?_⟩
  rw [noteReady_inactive u q left, queue_setQueue_self]

/-- A ring read that failed blocks the queue (R396). -/
theorem fetchFailed_blocks (s : State) (q : Nat) : QueueStep s (s.fetchFailed q) q ∧ (s.fetchFailed q).queue q = { s.queue q with
    state := .fetchBlocked, fprior := (s.queue q).state, tReady := none, granted := (s.queue q).granted && (s.queue q).running.isSome } := by
  have self := queue_setQueue_self s q { s.queue q with state := .fetchBlocked, fprior := (s.queue q).state }
  obtain ⟨step, left⟩ := leaves_active (q := q) (u := s.setQueue q { s.queue q with state := .fetchBlocked, fprior := (s.queue q).state })
    (by rw [self]; simp)
  rw [self] at left
  exact ⟨(setQueue_step ..).trans step, left⟩

/-! Completion writes. -/

/-- A queue whose completion writes are all shadowed (R395). -/
def Queue.shadowed (x : Queue) : Queue := { x with
  shadow := x.shadow ++ x.inflight, inflight := [], prior := x.state.heldBy (x.inflight.any (·.state)), state := .complBlocked }

/-- Every write in flight goes into the shadow, and the queue is COMPLETION_BLOCKED (R395). -/
theorem blockCompletion_blocks {s : State} {q : Nat} (some_ : (s.queue q).inflight ≠ []) : QueueStep s (s.blockCompletion q) q ∧
    (s.blockCompletion q).queue q =
      { (s.queue q).shadowed with tReady := none, granted := (s.queue q).granted && (s.queue q).running.isSome } := by
  have self := queue_setQueue_self s q (s.queue q).shadowed
  obtain ⟨step, left⟩ := leaves_active (q := q) (u := s.setQueue q (s.queue q).shadowed) (by rw [self]; simp [Queue.shadowed])
  have blocks : s.blockCompletion q = ((s.setQueue q (s.queue q).shadowed).noteReady q).stateVector q := if_neg some_
  rw [self] at left
  rw [blocks]
  exact ⟨(setQueue_step ..).trans step, left⟩

/-- A completion record written moves the ring's ends on (R374, R388). -/
structure Written (s t : State) (q : Nat) (w : ComplWrite) : Prop where
  queue : t.queue q = { s.queue q with
    ctail := ((s.queue q).ctail + 1) % (s.queue q).cring.size,
    phase := if ((s.queue q).ctail + 1) % (s.queue q).cring.size = 0 then !(s.queue q).phase else (s.queue q).phase,
    head := ((s.queue q).head + 1) % (s.queue q).ring.size }
  other : ∀ k, k ≠ q → t.queue k = s.queue k
  local_ : (s.queue q).cring.loc = true → t.mem.loc = s.mem.loc.store ((s.queue q).cring.base + 32 * (s.queue q).ctail)
    (w.bytes.set 5 (w.bytes.getD 5 0 ||| (if (s.queue q).phase then 1 else 0))) ∧ t.mem.host = s.mem.host
  host : (s.queue q).cring.loc = false → t.mem.host = s.mem.host.store (((s.queue q).cring.base + 32 * (s.queue q).ctail) % 2 ^ 47)
    (w.bytes.set 5 (w.bytes.getD 5 0 ||| (if (s.queue q).phase then 1 else 0))) ∧ t.mem.loc = s.mem.loc

theorem writeRecord_writes {s : State} {q : Nat} (allowed : s.complOk q = true) (w : ComplWrite) : Written s (s.writeRecord q w) q w := by
  have place : (s.queue q).cring.loc = true → mapRow ((s.queue q).cring.base + 32 * (s.queue q).ctail) ≠ .host := fun loc at_host => by
    unfold State.complOk State.ringOk at allowed
    rw [if_pos loc, at_host] at allowed
    exact nomatch allowed
  have raised : ∀ v : State, (∀ k, (if w.irq then v.vector q else v).queue k = v.queue k) ∧ (if w.irq then v.vector q else v).mem = v.mem :=
    fun v => by
      obtain ⟨o, h, vector⟩ := vector_eq v q
      split
      · rw [vector]
        exact ⟨fun _ => rfl, rfl⟩
      · exact ⟨fun _ => rfl, rfl⟩
  unfold State.writeRecord
  dsimp only
  generalize written : (if (s.queue q).cring.loc = true then _ else _ : State) = u
  obtain ⟨queues, mem⟩ := raised (u.setQueue q { s.queue q with
    ctail := ((s.queue q).ctail + 1) % (s.queue q).cring.size,
    phase := if ((s.queue q).ctail + 1) % (s.queue q).cring.size = 0 then !(s.queue q).phase else (s.queue q).phase,
    head := ((s.queue q).head + 1) % (s.queue q).ring.size })
  have before : ∀ k, u.queue k = s.queue k := fun k => by
    rw [← written]
    split
    · unfold State.writeLocal
      split <;> rfl
    · rfl
  refine ⟨(queues q).trans (queue_setQueue_self ..), fun k other => (queues k).trans ((queue_setQueue_ne _ other _).trans (before k)),
    fun loc => ?_, fun at_host => ?_⟩
  · rw [mem, ← written, if_pos loc, State.writeLocal, if_neg (place loc)]
    exact ⟨rfl, rfl⟩
  · rw [mem, ← written, if_neg (by simp [at_host])]
    exact ⟨rfl, rfl⟩

section
variable {q : Nat} {w : ComplWrite} {rest : List ComplWrite} {s : State} (next : (s.queue q).inflight = w :: rest) (out : s.inReset = false)
  (clear : (if (s.queue q).cring.loc then s.heldLocal ((s.queue q).cring.base + 32 * (s.queue q).ctail) 32 else []) = [])
include next out clear

theorem completionWriteAck_writes : exec (.completionWriteAck q) s = .next (if s.complOk q
    then ((s.setQueue q { s.queue q with inflight := rest }).writeRecord q w).settle q else s.blockCompletion q) := by
  have acks : exec (.completionWriteAck q) s = if !(s.complOk q) then .next (s.blockCompletion q)
      else .next (((s.setQueue q { s.queue q with inflight := rest }).writeRecord q w).settle q) := by
    refine (show _ = execCompletionWriteAck q s from rfl).trans ?_
    unfold execCompletionWriteAck
    simp only [next, clear, out]
    rfl
  rw [acks]
  cases s.complOk q <;> rfl

end

/-- An acknowledged completion write is in its ring, and the ring's ends have moved on. -/
theorem completionWriteAck_moves {q : Nat} {w : ComplWrite} {rest : List ComplWrite} {s : State} (next : (s.queue q).inflight = w :: rest)
    (out : s.inReset = false)
    (clear : (if (s.queue q).cring.loc then s.heldLocal ((s.queue q).cring.base + 32 * (s.queue q).ctail) 32 else []) = [])
    (allowed : s.complOk q = true) (calm : (s.queue q).state ≠ .aborting) :
    let x := s.queue q
    let a := x.cring.base + 32 * x.ctail
    let bs := w.bytes.set 5 (w.bytes.getD 5 0 ||| (if x.phase then 1 else 0))
    ∃ t, exec (.completionWriteAck q) s = .next t ∧ (t.queue q).inflight = rest ∧ (t.queue q).shadow = x.shadow ∧
      (t.queue q).ctail = (x.ctail + 1) % x.cring.size ∧ (t.queue q).head = (x.head + 1) % x.ring.size ∧
      ((t.queue q).phase = if (x.ctail + 1) % x.cring.size = 0 then !x.phase else x.phase) ∧
      (x.cring.loc = true → t.mem.loc = s.mem.loc.store a bs ∧ t.mem.host = s.mem.host) ∧
      (x.cring.loc = false → t.mem.host = s.mem.host.store (a % 2 ^ 47) bs ∧ t.mem.loc = s.mem.loc) ∧
      ∀ k, k ≠ q → t.queue k = s.queue k := by
  have self := queue_setQueue_self s q { s.queue q with inflight := rest }
  have allowed_still : (s.setQueue q { s.queue q with inflight := rest }).complOk q = true := by
    unfold State.complOk at allowed ⊢
    rw [self]
    exact allowed
  obtain ⟨queue, other, local_, host⟩ := writeRecord_writes allowed_still w
  have writes := completionWriteAck_writes next out clear
  rw [if_pos allowed] at writes
  rw [self] at queue local_ host
  generalize (s.setQueue q { s.queue q with inflight := rest }).writeRecord q w = u at queue other local_ host writes
  obtain ⟨step, settled⟩ := settle_settles u q
  rw [queue] at settled
  refine ⟨_, writes, settled.inflight_eq calm, settled.shadow_eq, settled.ctail_eq, settled.head_eq, settled.phase_eq, fun loc => ?_,
    fun at_host => ?_, fun k k_other => (step.other k k_other).trans ((other k k_other).trans (queue_setQueue_ne s k_other _))⟩
  · rw [step.mem_eq]
    exact local_ loc
  · rw [step.mem_eq]
    exact host at_host

/-- A command-ring read that returns puts its record behind those fetched. -/
theorem ringFetch_fetches {q : Nat} {good : Bool} {s : State} (out : s.inReset = false) (may : (s.queue q).mayFetch = true) :
    let x := s.queue q
    let a := x.ring.base + 64 * x.fidx
    let held := if x.ring.loc then s.heldLocal a 64 else []
    let ok := good = true ∧ (x.ring.loc = true → s.badUnit a 64 = none) ∧ s.ringOk q x.ring a 64 = true
    (held ≠ [] → exec (.ringFetch q good) s = .next (s.snoopLines held)) ∧
    (held = [] → ok → x.state ≠ .aborting → ∃ t, exec (.ringFetch q good) s = .next t ∧ (t.queue q).fetched = x.fetched ++ [s.ringRead x.ring a 64] ∧
      (t.queue q).fidx = (x.fidx + 1) % x.ring.size ∧ t.mem = s.mem ∧ (∀ k, k ≠ q → t.queue k = s.queue k) ∧ sameBeyondQueues s t) ∧
    (held = [] → ¬ ok → ∃ t, exec (.ringFetch q good) s = .next t ∧
      t.queue q = { x with state := .fetchBlocked, fprior := x.state, tReady := none, granted := x.granted && x.running.isSome } ∧
      (∀ k, k ≠ q → t.queue k = s.queue k) ∧ sameBeyondQueues s t) := by
  intro x a held ok
  have reads := ringFetch_reads (good := good) out may
  have judged : (!good || (x.ring.loc && (s.badUnit a 64).isSome) || !(s.ringOk q x.ring a 64)) = false ↔ ok := by
    simp only [Bool.or_eq_false_iff, Bool.and_eq_false_imp, Bool.not_eq_false', Option.isSome_eq_false_iff, Option.isNone_iff_eq_none, and_assoc, ok]
  refine ⟨fun waits => reads.trans (if_pos waits), fun clear fine calm => ?_, fun clear bad => ?_⟩
  · obtain ⟨r, p, fetch⟩ := advance2_fetch { x with fetched := x.fetched ++ [s.ringRead x.ring a 64], fidx := (x.fidx + 1) % x.ring.size }
    obtain ⟨step, settled⟩ := settle_set s q
      ({ x with fetched := x.fetched ++ [s.ringRead x.ring a 64], fidx := (x.fidx + 1) % x.ring.size } : Queue).advance2
    refine ⟨_, reads.trans ((if_neg (not_not_intro clear)).trans (if_neg (by rw [judged.mpr fine]; decide))),
      (settled.fetched_eq (by rw [fetch]; exact calm)).trans (by rw [fetch]), settled.fidx_eq.trans (by rw [fetch]), step.mem_eq, step.other,
      step.sameBeyond⟩
  · obtain ⟨step, left⟩ := fetchFailed_blocks s q
    exact ⟨_, reads.trans ((if_neg (not_not_intro clear)).trans (if_pos (Bool.not_eq_false _ ▸ fun no => bad (judged.mp no)))), left, step.other,
      step.sameBeyond⟩

/-- Settles O32: each register and event of a queue by its state, and the ring that it reads or writes. -/
theorem queueRegistersAndRingsMove : Obligations.QueueRegistersAndRingsMove := by
  refine ⟨⟨fun rq q v s known may => ?ring, fun rq q v s known may => ?cring, fun rq q v s known may => ?chead,
    fun rq q tail stores s known may => ?doorbell⟩, fun q good s out may => ringFetch_fetches out may,
    fun q w rest s out next => ?ack, fun q s some_ => ?failed⟩
  case ring =>
    have writes := feQRing_writes (v := v) known may
    refine ⟨fun off low high place => ?_, fun off bad => ?_, fun on => writes.trans (congrArg _ (if_pos on))⟩
    · rw [writes, if_neg (not_not_intro off), put_listed low high place]
      rfl
    · rw [writes, if_neg (not_not_intro off), bad]
      rfl
  case cring =>
    have writes := feQCring_writes (v := v) known may
    refine ⟨fun off low high place => ?_, fun off bad => ?_, fun on => writes.trans (congrArg _ (if_pos on))⟩
    · rw [writes, if_neg (not_not_intro off), put_listed low high place]
      rfl
    · rw [writes, if_neg (not_not_intro off), bad]
      rfl
  case chead =>
    have writes := feQChead_writes (v := v) known may
    refine ⟨fun fits reach => ?_, fun far => writes.trans (congrArg _ (if_pos far))⟩
    obtain ⟨step, settled⟩ := settle_set s q { s.queue q with chead := v.toNat % 2 ^ 16 }
    exact ⟨_, writes.trans (congrArg _ (if_neg (by omega))), settled.chead_eq, settled.ctail_eq, settled.head_eq, step.other, step.sameBeyond⟩
  case doorbell =>
    have rings := doorbell_rings (tail := tail) (stores := stores) known may
    dsimp only at rings
    rw [hostStores_queue] at rings
    exact ⟨fun big => rings.trans (congrArg _ (if_pos big)),
      fun fits off => rings.trans (congrArg _ ((if_neg (not_le.mpr fits)).trans (if_pos off))),
      fun fits idle still short => doorbell_starts known may fits idle still short, fun fits going => doorbell_goes_on known may fits going,
      fun fits waits => doorbell_is_noted known may fits waits⟩
  case ack =>
    intro x a clear
    have writes := completionWriteAck_writes next out clear
    exact ⟨fun refused => writes.trans (congrArg _ (if_neg (Bool.eq_false_iff.mp refused))),
      fun allowed calm => completionWriteAck_moves next out clear allowed calm⟩
  case failed =>
    obtain ⟨step, blocked⟩ := blockCompletion_blocks some_
    exact ⟨_, rfl, by rw [blocked]; rfl, by rw [blocked]; rfl, by rw [blocked]; rfl, by rw [blocked]; rfl, by rw [blocked]; rfl, by rw [blocked]; rfl,
      step.other, step.sameBeyond⟩

end Sys2Proof.Machine
end

section
/-! The actions of FE_Q_CTRL (R392 to R397); and the settlement of O33. -/
namespace Sys2Proof.Machine

/-! A command that goes on running. -/

/-- From s to t the command of queue q, which does not end yet, still runs, and its queue has not changed otherwise. -/
structure StillRuns (q : Nat) (s t : State) : Prop where
  runs : ∀ x, (s.queue q).running = some x → x.ending = none →
    ∃ y, t.queue q = { s.queue q with running := some y } ∧ y.cmd = x.cmd ∧ y.ending = none

section
variable {q : Nat}

theorem StillRuns.of_same {s t : State} (same : t.queue q = s.queue q) : StillRuns q s t :=
  ⟨fun x runs going => ⟨x, by rw [same, ← runs], rfl, going⟩⟩

theorem StillRuns.of_queues {s t : State} (same : t.queues = s.queues) : StillRuns q s t :=
  .of_same (by rw [State.queue, same, State.queue])

theorem StillRuns.trans {s t u : State} (h : StillRuns q s t) (k : StillRuns q t u) : StillRuns q s u := by
  refine ⟨fun x runs going => ?_⟩
  obtain ⟨y, queue, cmd, ending⟩ := h.runs x runs going
  obtain ⟨z, queue2, cmd2, ending2⟩ := k.runs y (by rw [queue]) ending
  exact ⟨z, by rw [queue2, queue], cmd2.trans cmd, ending2⟩

theorem modRunning_stillRuns (s : State) {f : Running → Running} (keeps : ∀ y, (f y).cmd = y.cmd ∧ (f y).ending = y.ending) :
    StillRuns q s (s.modRunning q f) := by
  refine ⟨fun x runs going => ?_⟩
  rw [modRunning_some runs, queue_setQueue_self]
  exact ⟨f x, rfl, (keeps x).1, (keeps x).2.trans going⟩

theorem snoopLines_queues (s : State) (ls : List Nat) : (s.snoopLines ls).queues = s.queues :=
  foldl_rel (R := fun s t : State => t.queues = s.queues) (fun _ => rfl) (fun h k => k.trans h) (fun s l => by dsimp only; split <;> rfl) ls s

theorem logError_queues (s : State) (addr tier source : Nat) (part : Option Nat) (ctx seq queue : Nat) :
    (s.logError addr tier source part ctx seq queue).queues = s.queues := by
  obtain ⟨r, l, k, o, h, logged⟩ := logError_eq s addr tier source part ctx seq queue
  rw [logged]

/-- The answer to a write that the command waits for is noted. -/
theorem writeDone_stillRuns (s : State) (st : Status) : StillRuns q s (s.writeDone q st) := by
  have noted := modRunning_stillRuns (q := q) s (f := fun y => { y with owed := y.owed - 1, status := y.status.worst st }) fun y => ⟨rfl, rfl⟩
  refine ⟨fun x runs going => ?_⟩
  obtain ⟨y, queue, cmd, ending⟩ := noted.runs x runs going
  refine ⟨y, ?_, cmd, ending⟩
  unfold State.writeDone
  dsimp only
  rw [show ((s.modRunning q fun y => { y with owed := y.owed - 1, status := y.status.worst st }).queue q).running = some y by rw [queue]]
  dsimp only
  rw [ending]
  exact queue

theorem originate_queues (s : State) (m : LinkMsg) : (s.originate m).2.queues = s.queues := by
  rw [(originate_originates s m).frame]

/-- A write that the command sends to another module. -/
theorem request_stillRuns (s : State) (plot pa : Nat) (xc : Bool) (bs : List Byte) (n : Nat) :
    StillRuns q s (s.request (.cmd q) plot pa xc (some bs) n) := by
  unfold State.request
  dsimp only
  split
  · next u sent => exact .of_queues ((congrArg (fun z => z.2.queues) sent).symm.trans (originate_queues _ _))
  · next st u sent =>
    have before : StillRuns q s u := .of_queues ((congrArg (fun z => z.2.queues) sent).symm.trans (originate_queues _ _))
    rw [settleOne_cmd rfl _ _ rfl]
    exact before.trans (.trans (t := u.withoutReq _) (.of_queues rfl) (writeDone_stillRuns ..))

theorem writeLocal_queues (s : State) (a : Nat) (bs : List Byte) : (s.writeLocal a bs).queues = s.queues := by
  unfold State.writeLocal
  split <;> rfl

theorem writeStep_stillRuns (plot : Nat) (xc : Bool) (acc : State × Nat × List Byte) (x : Piece) :
    StillRuns q acc.1 (writeStep (.cmd q) plot xc acc x).1 := by
  unfold writeStep
  dsimp only
  split
  · exact foldl_rel (R := fun a b : State × Nat × List Byte => StillRuns q a.1 b.1) (fun _ => .of_same rfl) StillRuns.trans
      (fun a y => request_stillRuns ..) _ (acc.1, acc.2.1, acc.2.2)
  · exact .of_queues (writeLocal_queues ..)

theorem writePieces_stillRuns (s : State) (v : Via) (source seq queue : Nat) (xc : Bool) (ps : List Piece) (bs : List Byte) :
    StillRuns q s (s.writePieces (.cmd q) v source seq queue xc ps bs).2 := by
  have writes : ∀ plot, StillRuns q s (ps.foldl (writeStep (.cmd q) plot xc) (s, 0, bs)).1 := fun plot =>
    foldl_rel (R := fun a b : State × Nat × List Byte => StillRuns q a.1 b.1) (fun _ => .of_same rfl) StillRuns.trans
      (fun a y => writeStep_stillRuns ..) ps (s, 0, bs)
  unfold State.writePieces
  dsimp only
  split
  · exact .of_queues (snoopLines_queues ..)
  · split
    · exact .of_queues (logError_queues ..)
    · exact (writes _).trans (.of_queues (hotCount_counts ..).queues_eq)

theorem logWalk_queues (s : State) (v : Via) (source seq queue va n : Nat) : (s.logWalk v source seq queue va n).queues = s.queues := by
  unfold State.logWalk
  split
  · exact logError_queues ..
  · rfl

theorem devWrite_stillRuns (s : State) (v : Via) (source seq queue va : Nat) (bs : List Byte) :
    StillRuns q s (s.devWrite (.cmd q) v source seq queue va bs).2 := by
  unfold State.devWrite
  split
  · refine .of_queues ?_
    dsimp only
    split
    · exact logWalk_queues ..
    · rfl
  · split
    · exact .of_same rfl
    · exact writePieces_stillRuns ..

theorem cmdWrite_stillRuns (s : State) (ctx p va : Nat) (bs : List Byte) : StillRuns q s (s.cmdWrite q ctx p va bs).2 := by
  obtain ⟨seq, writes⟩ := cmdWrite_owes s q ctx p va bs
  have sent := devWrite_stillRuns (q := q) s ⟨ctx, p, none⟩ 1 seq q va bs
  rw [writes]
  generalize s.devWrite (.cmd q) ⟨ctx, p, none⟩ 1 seq q va bs = z at sent
  obtain ⟨got, u⟩ := z
  cases got with
  | done n => exact sent.trans (modRunning_stillRuns u fun y => ⟨rfl, rfl⟩)
  | wait => exact sent
  | fail st => exact sent

theorem deferWrite_stillRuns (s : State) (a : Nat) (bs : List Byte) : StillRuns q s (s.deferWrite (some q) a bs) := by
  unfold State.deferWrite
  dsimp only
  exact .trans (.of_queues (by exact snoopLines_queues ..)) (modRunning_stillRuns _ fun y => ⟨rfl, rfl⟩)

theorem lastWrite_stillRuns (s : State) (ctx p va : Nat) (b : Byte) : StillRuns q s (s.lastWrite q ctx p va b) := by
  have writes := cmdWrite_stillRuns (q := q) s ctx p va [b]
  unfold State.lastWrite
  split
  · next u found =>
    rw [found] at writes
    exact writes.trans (foldl_rel (R := StillRuns q) (fun _ => .of_same rfl) StillRuns.trans (fun s x => deferWrite_stillRuns ..) _ u)
  · next u found =>
    rw [found] at writes
    exact writes

theorem cancelList_stillRuns (s : State) (ctx p size res base n : Nat) : StillRuns q s (s.cancelList q ctx p size res base n) :=
  foldl_rel (R := StillRuns q) (fun _ => .of_same rfl) StillRuns.trans (fun _ _ => lastWrite_stillRuns ..) _ s

theorem dropBuilds_queues (s : State) : (s.dropBuilds q).queues = s.queues :=
  foldl_rel (R := fun s t : State => t.queues = s.queues) (fun _ => rfl) (fun h k => k.trans h)
    (fun s b => by rw [freeGen_frame]) _ s

theorem cancelLaunch_stillRuns (s : State) (p : Nat) {l : LaunchRun} (ours : l.queue = q) (st : Status) :
    StillRuns q s (s.cancelLaunch p l st) := by
  unfold State.cancelLaunch
  dsimp only
  rw [ours]
  have stops : ∀ (rs : List Nat) (u : State),
      (rs.foldl (fun (s : State) r => (s.setRegion r (s.region r).stop).dropOwner (.region r)) u).queues = u.queues := fun rs u =>
    foldl_keeps_part State.queues (fun (s : State) r => (s.setRegion r (s.region r).stop).dropOwner (.region r)) (fun _ _ => rfl) rs u
  exact .trans (.of_queues (by exact stops ..)) (modRunning_stillRuns _ fun y => ⟨rfl, rfl⟩)

/-! Cancelling the running command. -/

/-- Queue y's abort goes on up to a tail, or has ended. -/
def Queue.Aborts (y : Queue) (tail : Option Nat) : Prop :=
  y.state = .aborting ∧ y.abortTail = tail ∨ y.abortTail = none ∧ (y.state = .idle ∨ y.state = .active)

/-- Nothing runs on queue y but a command that only waits for its writes, or a LAUNCH that stops. -/
def Queue.Cancelled (y : Queue) : Prop := ∀ x, y.running = some x → x.ending.isSome = true ∨ ∃ f, x.cmd.body = .launch f

/-- A command of an aborting queue that completes is gone, or waits for its writes. -/
theorem complete_cancels {s t : State} {x : Running} (h : StillRuns q s t) (runs : (s.queue q).running = some x) (going : x.ending = none)
    (aborting : (s.queue q).state = .aborting) (st : Status) (first : Nat) :
    ((t.complete q st first).queue q).Aborts (s.queue q).abortTail ∧ ((t.complete q st first).queue q).Cancelled := by
  obtain ⟨y, queue, -, ending⟩ := h.runs x runs going
  have runs2 : (t.queue q).running = some y := by rw [queue]
  have aborting2 : (t.queue q).state = .aborting := by rw [queue]; exact aborting
  have tail : (t.queue q).abortTail = (s.queue q).abortTail := by rw [queue]
  by_cases paid : y.owed = 0
  · obtain ⟨-, -, -, -, gone, -, -, aborts, -⟩ := complete_completes runs2 st first paid (by rw [aborting2]; decide)
    refine ⟨tail ▸ aborts aborting2, fun z runs3 => ?_⟩
    rw [gone] at runs3
    exact nomatch runs3
  · rw [complete_waits runs2 st first paid, queue_setQueue_self]
    refine ⟨.inl ⟨aborting2, tail⟩, fun z runs3 => .inl ?_⟩
    obtain rfl := Option.some.inj runs3
    rfl

theorem endFenceWait_cancels {s t : State} {x : Running} (h : StillRuns q s t) (runs : (s.queue q).running = some x) (going : x.ending = none)
    (aborting : (s.queue q).state = .aborting) (p f by_ : Nat) (st : Status) :
    ((t.endFenceWait p f q by_ st).queue q).Aborts (s.queue q).abortTail ∧ ((t.endFenceWait p f q by_ st).queue q).Cancelled := by
  obtain ⟨u, frame, completes⟩ := endFenceWait_completes t p f q by_ st
  rw [completes]
  exact complete_cancels (h.trans (.of_queues (by rw [frame]))) runs going aborting st 0xFFFF

/-- The command that an aborting queue runs is cancelled (R394). -/
theorem cancelRunning_cancels {s : State} (aborting : (s.queue q).state = .aborting) :
    ((s.cancelRunning q).queue q).Aborts (s.queue q).abortTail ∧ ((s.cancelRunning q).queue q).Cancelled := by
  have stays : (s.queue q).Aborts (s.queue q).abortTail := .inl ⟨aborting, rfl⟩
  cases runs : (s.queue q).running with
  | none =>
    have same : s.cancelRunning q = s := by rw [State.cancelRunning, runs]
    rw [same]
    refine ⟨stays, fun z runs2 => ?_⟩
    rw [runs] at runs2
    exact nomatch runs2
  | some x =>
    unfold State.cancelRunning
    rw [runs]
    dsimp only
    split
    · next ends =>
      refine ⟨stays, fun z runs2 => .inl ?_⟩
      obtain rfl := Option.some.inj (runs.symm.trans runs2)
      exact ends
    · next goes_on =>
      have going : x.ending = none := Option.not_isSome_iff_eq_none.mp goes_on
      have dropped : StillRuns q s (s.dropOwner (.cmd q)) := .of_queues rfl
      have ends : ∀ {t : State} (st : Status) (first : Nat), StillRuns q s t →
          ((t.complete q st first).queue q).Aborts (s.queue q).abortTail ∧ ((t.complete q st first).queue q).Cancelled :=
        fun st first h => complete_cancels h runs going aborting st first
      split
      · next f body =>
        split
        · next l _ =>
          split
          · next ours =>
            obtain ⟨y, queue, cmd, -⟩ := (dropped.trans (cancelLaunch_stillRuns _ _ ours.2 .cancelled)).runs x runs going
            rw [queue]
            refine ⟨stays, fun z runs2 => .inr ⟨f, ?_⟩⟩
            obtain rfl := Option.some.inj runs2
            rw [cmd, body]
          · exact ends _ _ (.of_queues rfl)
        · exact ends _ _ (.of_queues rfl)
      · split
        · exact endFenceWait_cancels dropped runs going aborting ..
        · exact ends _ _ dropped
      · exact ends _ _ (.of_queues rfl)
      · exact ends _ _ (dropped.trans (.of_queues (dropBuilds_queues _)))
      · exact ends _ _ (.of_queues rfl)
      · exact ends _ _ (dropped.trans (cancelList_stillRuns ..))
      · exact ends _ _ (dropped.trans (cancelList_stillRuns ..))
      · exact ends _ _ (dropped.trans (cancelList_stillRuns ..))
      · exact ends _ _ dropped

end

/-! ABORT. -/

/-- What follows a cancelled command: an empty queue gives up its slot, and its batch ends unless a LAUNCH still stops. -/
def State.abortEnds (s : State) (q : Nat) : State :=
  let s := if (s.queue q).running.isNone then s.freeSlot q else s
  match (s.queue q).running with
  | some y => if y.ending.isSome then s.endBatch q else match y.cmd.body with
      | .launch _ => s
      | _ => s.endBatch q
  | none => s.endBatch q

/-- Queue x with its abort begun. -/
def Queue.aborted (x : Queue) : Queue :=
  { x with state := .aborting, abortTail := some x.tail, staged := false, granted := x.granted && x.running.isSome }

/-- The abort of queue q from x on. -/
def State.abortFrom (s : State) (q : Nat) (x : Queue) : State :=
  (((s.setQueue q x.aborted.advance2).cancelRunning q).abortEnds q).settle q

theorem endBatch_slots (s : State) (q : Nat) : (s.endBatch q).slots = s.slots := by
  unfold State.endBatch State.unbind
  split
  · rfl
  · split
    · rfl
    · dsimp only
      split
      · rw [State.event]
        split <;> rfl
      · rfl

theorem abortEnds_ends (s : State) (q : Nat) : (∃ b, (s.abortEnds q).queue q = { s.queue q with batch := b }) ∧
    ((s.queue q).running = none → ∀ u ∈ (s.abortEnds q).slots, u.sel ≠ some q) := by
  have freed : ∀ k, (if (s.queue q).running.isNone then s.freeSlot q else s).queue k = s.queue k := fun k => by split <;> rfl
  have slots : (s.queue q).running = none → ∀ u ∈ (if (s.queue q).running.isNone then s.freeSlot q else s).slots, u.sel ≠ some q :=
    fun gone => by
      rw [gone]
      exact freeSlot_frees s q
  unfold State.abortEnds
  dsimp only
  generalize (if (s.queue q).running.isNone then s.freeSlot q else s) = t at freed slots
  have ends : (∃ b, (t.endBatch q).queue q = { s.queue q with batch := b }) ∧
      ((s.queue q).running = none → ∀ u ∈ (t.endBatch q).slots, u.sel ≠ some q) := by
    rw [endBatch_slots, ← freed q]
    exact ⟨(endBatch_batchOnly t q).1, (freed q).symm ▸ slots⟩
  split
  · split
    · exact ends
    · split
      · exact ⟨⟨(s.queue q).batch, freed q⟩, slots⟩
      · exact ends
  · exact ends

theorem Settled.aborts {x y : Queue} (h : Settled x y) {tail : Option Nat} (k : x.Aborts tail) : y.Aborts tail := by
  rcases k with ⟨aborting, rfl⟩ | ⟨done, state⟩
  · exact h.ends aborting
  · have calm : x.state ≠ .aborting := by rcases state with h | h <;> rw [h] <;> decide
    refine .inr ⟨(h.abortTail_eq calm).trans done, ?_⟩
    rcases state with idle | active
    · exact .inl ((h.state_eq calm (.inl (by rw [idle]; decide))).trans idle)
    · exact (h.state_active active).symm

/-- What an abort leaves (R394): the slot of a command that is gone, and the records up to the tail to be cancelled. -/
theorem abortFrom_aborts (s : State) (q : Nat) (x : Queue) : let t := s.abortFrom q x
    ((t.queue q).running = none → ∀ u ∈ t.slots, u.sel ≠ some q) ∧ (t.queue q).Aborts (some x.tail) ∧ (t.queue q).Cancelled := by
  obtain ⟨r, p, fetch⟩ := advance2_fetch x.aborted
  have self : (s.setQueue q x.aborted.advance2).queue q = { x.aborted with rung := r, pass := p } := by rw [queue_setQueue_self, fetch]
  obtain ⟨aborts, cancelled⟩ := cancelRunning_cancels (s := s.setQueue q x.aborted.advance2) (q := q) (by rw [self]; rfl)
  rw [self] at aborts
  unfold State.abortFrom
  generalize (s.setQueue q x.aborted.advance2).cancelRunning q = u at aborts cancelled
  obtain ⟨⟨b, queue⟩, slots⟩ := abortEnds_ends u q
  obtain ⟨step, settled⟩ := settle_settles (u.abortEnds q) q
  rw [queue] at settled
  refine ⟨fun gone => ?_, settled.aborts aborts, fun y runs => cancelled y (settled.running_eq.symm.trans runs)⟩
  rw [step.slots_eq]
  exact slots (settled.running_eq.symm.trans gone)

/-! The shadow. -/

theorem writeShadow_empty {s : State} {q : Nat} (empty : (s.queue q).shadow = []) (n : Nat) : State.writeShadow q n s = s := by
  cases n with
  | zero => rfl
  | succ n =>
    rw [State.writeShadow, empty]

theorem writeShadow_one {s : State} {q : Nat} {w : ComplWrite} (one : (s.queue q).shadow = [w]) (allowed : s.complOk q = true) :
    State.writeShadow q 1 s = (s.setQueue q { s.queue q with shadow := [] }).writeRecord q w := by
  rw [State.writeShadow, one]
  exact if_pos allowed

/-! Blocked queues. -/

/-- A blocked queue that returns to ACTIVE or HELD (R395, R396). -/
theorem unblock_returns {s : State} {q : Nat} {st : QState} (back : st = .active ∨ st = .held) :
    ∃ u, QueueStep s (s.unblock q st) q ∧ Settled u ((s.unblock q st).queue q) ∧
      ∃ r p, u = { s.queue q with state := st, rung := r, pass := p } := by
  have no_fetch : st ≠ .fetchBlocked := by rcases back with rfl | rfl <;> decide
  have not_idle : (if st = .idle ∧ (s.queue q).calls = true then QState.active else st) = st :=
    if_neg fun h => by rcases back with rfl | rfl <;> exact nomatch h.1
  obtain ⟨r, p, fetch⟩ := advance2_fetch { s.queue q with state := st }
  obtain ⟨step, settled⟩ := settle_set s q ({ s.queue q with state := st } : Queue).advance2
  have returns : s.unblock q st = if st = .held then ((s.setQueue q ({ s.queue q with state := st } : Queue).advance2).settle q).stateVector q
      else (s.setQueue q ({ s.queue q with state := st } : Queue).advance2).settle q := by
    unfold State.unblock
    dsimp only
    rw [if_neg no_fetch, not_idle]
  rw [returns]
  refine ⟨_, ?_, ?_, r, p, fetch⟩
  · split
    · exact step.trans (vector_step ..).1
    · exact step
  · split
    · rw [State.stateVector, (vector_step ..).2]
      exact settled
    · exact settled

theorem unblock_fetchBlocked (s : State) (q : Nat) : s.unblock q .fetchBlocked = s.setQueue q { s.queue q with state := .fetchBlocked } := by
  unfold State.unblock
  exact if_pos rfl

/-! The commands. -/

section
variable {rq : Requester} {q : Nat} {s : State} (known : q < 516) (may : s.mayWrite rq (qOff q 0x20))
include known may

theorem abort_goes (going : (s.queue q).state = .idle ∨ (s.queue q).state = .active ∨ (s.queue q).state = .held) :
    exec (.abort rq q) s = .next (s.abortFrom q (s.queue q)) := by
  rw [show exec (.abort rq q) s = execAbort rq q s from rfl, execAbort, regWrite_mayWrite may]
  refine congrArg _ ((if_neg (not_le.mpr known)).trans ?_)
  rcases going with h | h | h <;> rw [h] <;> rfl

theorem abort_restarts (stopped : (s.queue q).state = .stopped) (empty : (s.queue q).shadow = []) :
    exec (.abort rq q) s = .next (s.abortFrom q (s.queue q).restart) := by
  rw [show exec (.abort rq q) s = execAbort rq q s from rfl, execAbort, regWrite_mayWrite may]
  refine congrArg _ ((if_neg (not_le.mpr known)).trans ?_)
  rw [stopped]
  dsimp only
  rw [writeShadow_empty empty, if_pos empty]
  rfl

theorem abort_refuses (other : (s.queue q).state = .disabled ∨ (s.queue q).state = .complBlocked ∨ (s.queue q).state = .fetchBlocked ∨
    (s.queue q).state = .aborting) : exec (.abort rq q) s = .next (s.feEvent 0x31 q) := by
  rw [show exec (.abort rq q) s = execAbort rq q s from rfl, execAbort, regWrite_mayWrite may]
  refine congrArg _ ((if_neg (not_le.mpr known)).trans ?_)
  rcases other with h | h | h | h <;> rw [h]

theorem queueEnable_acts (good : Nat) (allowed : s.enableOk q = true) : exec (.queueEnable rq q good) s = .next (
    match (s.queue q).state with
    | .disabled =>
      let u := State.writeShadow q good s
      let x : Queue := { u.queue q with fidx := (u.queue q).nextIndex, seqNext := none, enable := true }
      if x.shadow = [] then u.setQueue q { x with state := .idle }
      else (u.setQueue q { x with state := .complBlocked, prior := .idle }).stateVector q
    | .stopped =>
      let u := State.writeShadow q good (s.setQueue q (s.queue q).restart)
      let x := u.queue q
      if x.shadow = [] then (u.setQueue q ({ x with state := .active, enable := true } : Queue).advance2).settle q
      else (u.setQueue q { x with state := .complBlocked, prior := .active, enable := true }).stateVector q
    | _ => s.feEvent 0x32 q) := by
  rw [show exec (.queueEnable rq q good) s = execQueueEnable rq q good s from rfl, execQueueEnable, regWrite_mayWrite may]
  exact congrArg _ ((if_neg (not_le.mpr known)).trans (if_neg (by simp [allowed])))

theorem queueEnable_refuses (good : Nat) (refused : s.enableOk q = false ∨ ((s.queue q).state ≠ .disabled ∧ (s.queue q).state ≠ .stopped)) :
    exec (.queueEnable rq q good) s = .next (s.feEvent 0x32 q) := by
  cases allowed : s.enableOk q with
  | false =>
    rw [show exec (.queueEnable rq q good) s = execQueueEnable rq q good s from rfl, execQueueEnable, regWrite_mayWrite may]
    exact congrArg _ ((if_neg (not_le.mpr known)).trans (if_pos (by simp [allowed])))
  | true =>
    obtain ⟨on, running⟩ := refused.resolve_left (by simp [allowed])
    rw [queueEnable_acts known may good allowed]
    generalize (s.queue q).state = st at on running
    cases st <;> simp_all

theorem queueDisable_acts : exec (.queueDisable rq q) s = .next (match (s.queue q).state with
    | .idle | .stopped => s.setQueue q { s.queue q with state := .disabled, enable := false }
    | _ => s.feEvent 0x32 q) := by
  rw [show exec (.queueDisable rq q) s = execQueueDisable rq q s from rfl, execQueueDisable, regWrite_mayWrite may]
  exact congrArg _ (if_neg (not_le.mpr known))

theorem skip_acts : exec (.skip rq q) s = .next (match (s.queue q).state with
    | .held => (s.setQueue q { s.queue q with state := .active }).settle q
    | _ => s.feEvent 0x31 q) := by
  rw [show exec (.skip rq q) s = execSkip rq q s from rfl, execSkip, regWrite_mayWrite may]
  exact congrArg _ (if_neg (not_le.mpr known))

theorem resume_acts (good : Nat) : exec (.resume rq q good) s = .next (match (s.queue q).state with
    | .complBlocked =>
      let u := State.writeShadow q good s
      if (u.queue q).shadow = [] then u.unblock q (s.queue q).prior else u
    | .fetchBlocked => s.unblock q (s.queue q).fprior
    | _ => s.feEvent 0x31 q) := by
  rw [show exec (.resume rq q good) s = execResume rq q good s from rfl, execResume, regWrite_mayWrite may]
  exact congrArg _ (if_neg (not_le.mpr known))

theorem zero_acts : exec (.zero rq q) s = .next (match (s.queue q).state with
    | .disabled => s.setQueue q { s.queue q with
        head := 0, fidx := 0, tail := 0, ctail := 0, phase := true, shadow := [], seqNext := none, rung := false, pass := none,
        fetched := [], staged := false }
    | _ => s.feEvent 0x31 q) := by
  rw [show exec (.zero rq q) s = execZero rq q s from rfl, execZero, regWrite_mayWrite may]
  exact congrArg _ (if_neg (not_le.mpr known))

end

/-! A STOPPED queue that starts again. -/

/-- An ACTIVE queue with nothing to fetch, run or complete becomes IDLE when it settles. -/
theorem settle_rests {s : State} {q : Nat} (active : (s.queue q).state = .active) (alone : (s.queue q).running = none)
    (empty : (s.queue q).fetched = []) (still : (s.queue q).pass = none) (reached : (s.queue q).fidx = (s.queue q).tail)
    (quiet : (s.queue q).rung = false) : ((s.settle q).queue q).state = .idle := by
  have drained := (drain_drained 16 (s.queue q)).calm (by rw [active]; decide)
  unfold State.settle
  rw [drained]
  obtain ⟨-, b, staged⟩ := stage_step (s.setQueue q (s.queue q)) q
  obtain ⟨-, t, g, ready, -⟩ := noteReady_step ((s.setQueue q (s.queue q)).stage q) q
  rw [queue_setQueue_self] at staged
  rw [staged] at ready
  generalize ((s.setQueue q (s.queue q)).stage q).noteReady q = u at ready
  have rests : u.noteIdle q = u.setQueue q { u.queue q with state := .idle } := by
    refine if_pos ?_
    rw [ready]
    exact ⟨active, alone, empty, still, reached, by simp [quiet]⟩
  rw [rests, queue_setQueue_self]

/-- The fetcher of a restarted queue goes from HEAD towards the tail, or rests when it is there. -/
theorem advance2_restarts {x : Queue} (still : x.pass = none) (rung : x.rung = true) :
    x.advance2 = if x.fidx = x.tail then { x with pass := none, rung := false } else { x with pass := some x.tail, rung := false } := by
  have first : x.advance = { x with pass := some x.tail, rung := false } := by
    rw [Queue.advance, still]
    exact if_pos (.inr rung)
  rw [Queue.advance2, first]
  split
  · next here =>
    rw [Queue.advance]
    simp [here]
  · next short => exact if_pos short

section
variable {rq : Requester} {q : Nat} {s : State} (known : q < 516) (may : s.mayWrite rq (qOff q 0x20))
include known may

theorem queueEnable_restarts (good : Nat) (allowed : s.enableOk q = true) (stopped : (s.queue q).state = .stopped)
    (empty : (s.queue q).shadow = []) (alone : (s.queue q).running = none) : let x := s.queue q
    ∃ t, exec (.queueEnable rq q good) s = .next t ∧ ((t.queue q).state = (if x.nextIndex = x.tail then .idle else .active) ∧
      (t.queue q).fidx = x.nextIndex ∧ (t.queue q).fetched = [] ∧ (t.queue q).seqNext = none ∧ (t.queue q).enable = true) ∧
      ∀ k, k ≠ q → t.queue k = s.queue k := by
  have self := queue_setQueue_self s q (s.queue q).restart
  have acts := queueEnable_acts known may good allowed
  rw [stopped] at acts
  dsimp only at acts
  rw [writeShadow_empty (by rw [self]; exact empty), self, if_pos (by exact empty)] at acts
  have fetch := advance2_restarts (x := { (s.queue q).restart with state := .active, enable := true }) rfl rfl
  obtain ⟨step, settled⟩ := settle_set (s.setQueue q (s.queue q).restart) q
    ({ (s.queue q).restart with state := .active, enable := true } : Queue).advance2
  refine ⟨_, acts, ⟨?_, settled.fidx_eq.trans ?_, ?_, ?_, settled.enable_eq.trans ?_⟩, fun k other =>
    (step.other k other).trans (queue_setQueue_ne s other _)⟩
  · by_cases here : (s.queue q).nextIndex = (s.queue q).tail
    · rw [if_pos here]
      rw [if_pos (by exact here)] at fetch
      rw [fetch]
      exact settle_rests (by rw [queue_setQueue_self]) (by rw [queue_setQueue_self]; exact alone) (by rw [queue_setQueue_self]; rfl)
        (by rw [queue_setQueue_self]) (by rw [queue_setQueue_self]; exact here) (by rw [queue_setQueue_self])
    · rw [if_neg (by exact here)] at fetch
      rw [if_neg here, settled.state_eq (by rw [fetch]; simp) (.inr (by rw [fetch]; simp)), fetch]
  · rw [fetch]
    split <;> rfl
  · rw [settled.fetched_eq (by rw [fetch]; split <;> simp), fetch]
    split <;> rfl
  · rw [settled.seqNext_eq (by rw [fetch]; split <;> simp), fetch]
    split <;> rfl
  · rw [fetch]
    split <;> rfl

theorem queueEnable_enables (good : Nat) (allowed : s.enableOk q = true) (off : (s.queue q).state = .disabled) (empty : (s.queue q).shadow = []) :
    exec (.queueEnable rq q good) s = .next (s.setQueue q { s.queue q with
      state := .idle, fidx := (s.queue q).nextIndex, seqNext := none, enable := true }) := by
  have acts := queueEnable_acts known may good allowed
  rw [off] at acts
  dsimp only at acts
  rw [writeShadow_empty empty, if_pos empty] at acts
  exact acts

/-- A queue with a shadow that cannot be written is COMPLETION_BLOCKED when it is enabled. -/
theorem queueEnable_blocks (allowed : s.enableOk q = true) (some_ : (s.queue q).shadow ≠ [])
    (off : (s.queue q).state = .disabled ∨ (s.queue q).state = .stopped) : ∃ t, exec (.queueEnable rq q 0) s = .next t ∧
      ((t.queue q).state = .complBlocked ∧ (t.queue q).shadow = (s.queue q).shadow) ∧ ∀ k, k ≠ q → t.queue k = s.queue k := by
  have acts := queueEnable_acts known may 0 allowed
  have raised : ∀ (u : State) (y : Queue), y.state = .complBlocked → y.shadow = (s.queue q).shadow → (∀ k, k ≠ q → u.queue k = s.queue k) →
      (((u.setQueue q y).stateVector q).queue q).state = .complBlocked ∧
      (((u.setQueue q y).stateVector q).queue q).shadow = (s.queue q).shadow ∧
      ∀ k, k ≠ q → ((u.setQueue q y).stateVector q).queue k = s.queue k := fun u y blocked shadow other => by
    obtain ⟨step, same⟩ := vector_step (u.setQueue q y) q (516 + q)
    rw [State.stateVector, same, queue_setQueue_self]
    exact ⟨blocked, shadow, fun k hk => (step.other k hk).trans ((queue_setQueue_ne u hk y).trans (other k hk))⟩
  rcases off with off | off
  · rw [off] at acts
    dsimp only at acts
    rw [State.writeShadow, if_neg some_] at acts
    obtain ⟨state, shadow, other⟩ := raised s { s.queue q with
      fidx := (s.queue q).nextIndex, seqNext := none, enable := true, state := .complBlocked, prior := .idle } rfl rfl fun _ _ => rfl
    exact ⟨_, acts, ⟨state, shadow⟩, other⟩
  · rw [off] at acts
    dsimp only at acts
    rw [State.writeShadow, queue_setQueue_self, if_neg (by exact some_)] at acts
    obtain ⟨state, shadow, other⟩ := raised (s.setQueue q (s.queue q).restart) { (s.queue q).restart with
      state := .complBlocked, prior := .active, enable := true } rfl rfl fun k hk => queue_setQueue_ne s hk _
    exact ⟨_, acts, ⟨state, shadow⟩, other⟩

theorem abort_aborts (going : (s.queue q).state = .idle ∨ (s.queue q).state = .active ∨ (s.queue q).state = .held ∨
    (s.queue q).state = .stopped ∧ (s.queue q).shadow = []) : ∃ t, exec (.abort rq q) s = .next t ∧
      ((t.queue q).running = none → ∀ u ∈ t.slots, u.sel ≠ some q) ∧ (t.queue q).Aborts (some (s.queue q).tail) ∧ (t.queue q).Cancelled := by
  rcases going with h | h | h | ⟨stopped, empty⟩
  · exact ⟨_, abort_goes known may (.inl h), abortFrom_aborts ..⟩
  · exact ⟨_, abort_goes known may (.inr (.inl h)), abortFrom_aborts ..⟩
  · exact ⟨_, abort_goes known may (.inr (.inr h)), abortFrom_aborts ..⟩
  · exact ⟨_, abort_restarts known may stopped empty, abortFrom_aborts s q (s.queue q).restart⟩

/-- RESUME of a queue that a failed read blocked, or with nothing in its shadow. -/
theorem resume_unblocks (good : Nat) {st : QState} (blocked : (s.queue q).state = .fetchBlocked ∧ (s.queue q).fprior = st ∨
    (s.queue q).state = .complBlocked ∧ (s.queue q).prior = st ∧ (s.queue q).shadow = []) :
    exec (.resume rq q good) s = .next (s.unblock q st) := by
  rw [resume_acts known may good]
  rcases blocked with ⟨state, prior⟩ | ⟨state, prior, empty⟩
  · rw [state, prior]
  · rw [state]
    dsimp only
    rw [writeShadow_empty empty, if_pos empty, prior]

/-- RESUME of a queue with one record in its shadow, which is written. -/
theorem resume_writes {w : ComplWrite} (prior : (s.queue q).prior = .active) (state : (s.queue q).state = .complBlocked)
    (one : (s.queue q).shadow = [w]) (allowed : s.complOk q = true) : ∃ t, exec (.resume rq q 1) s = .next t ∧
      (((t.queue q).state = .active ∨ (t.queue q).state = .idle) ∧ (t.queue q).shadow = [] ∧
        (t.queue q).ctail = ((s.queue q).ctail + 1) % (s.queue q).cring.size ∧
        (t.queue q).head = ((s.queue q).head + 1) % (s.queue q).ring.size) ∧ ∀ k, k ≠ q → t.queue k = s.queue k := by
  have self := queue_setQueue_self s q { s.queue q with shadow := [] }
  have allowed_still : (s.setQueue q { s.queue q with shadow := [] }).complOk q = true := by
    unfold State.complOk at allowed ⊢
    rw [self]
    exact allowed
  obtain ⟨queue, other, -, -⟩ := writeRecord_writes allowed_still w
  have acts := resume_acts known may 1
  rw [state] at acts
  dsimp only at acts
  rw [writeShadow_one one allowed, queue, if_pos (by rw [self]), prior] at acts
  rw [self] at queue
  generalize (s.setQueue q { s.queue q with shadow := [] }).writeRecord q w = u at queue other acts
  obtain ⟨z, step, settled, r, p, from_⟩ := unblock_returns (s := u) (q := q) (.inl rfl)
  rw [queue] at from_
  exact ⟨_, acts, ⟨settled.state_active (by rw [from_]), settled.shadow_eq.trans (by rw [from_]), settled.ctail_eq.trans (by rw [from_]),
    settled.head_eq.trans (by rw [from_])⟩, fun k hk => (step.other k hk).trans ((other k hk).trans (queue_setQueue_ne s hk _))⟩

end

/-- Settles O33: each action by the state of its queue. -/
theorem queueActionsFollowTheStates : Obligations.QueueActionsFollowTheStates := by
  intro rq q s known may x goesTo
  refine ⟨fun good allowed empty => ⟨fun off => queueEnable_enables known may good allowed off empty,
      fun stopped alone => queueEnable_restarts known may good allowed stopped empty alone⟩,
    fun allowed some_ off => queueEnable_blocks known may allowed some_ off, fun good refused => queueEnable_refuses known may good refused,
    fun rests => ?disable, fun busy stopped => ?disable_refused, fun held => ?skip, fun other => ?skip_refused, fun going => ?abort,
    fun other => abort_refuses known may other, fun good blocked => ?resume, fun good state prior empty => ?resume_prior,
    fun w prior state one allowed => resume_writes known may prior state one allowed, fun good compl fetch => ?resume_refused,
    fun off => ?zero, fun on => ?zero_refused⟩
  case disable =>
    rw [queueDisable_acts known may]
    rcases rests with h | h <;> rw [show (s.queue q).state = _ from h]
  case disable_refused =>
    rw [queueDisable_acts known may]
    cases h : (s.queue q).state <;> simp_all [x]
  case skip =>
    obtain ⟨step, settled⟩ := settle_set s q { s.queue q with state := .active }
    refine ⟨_, (skip_acts known may).trans (by rw [show (s.queue q).state = .held from held]), ⟨settled.state_active rfl, settled.head_eq,
      settled.fetched_eq (by simp)⟩, step.other⟩
  case skip_refused =>
    rw [skip_acts known may]
    cases h : (s.queue q).state <;> simp_all [x]
  case abort =>
    obtain ⟨t, runs, slots, aborts, cancelled⟩ := abort_aborts known may going
    exact ⟨t, runs, slots, aborts.imp_right fun h => ⟨h.2, h.1⟩, cancelled⟩
  case resume =>
    obtain ⟨u, step, settled, r, p, from_⟩ := unblock_returns (s := s) (q := q) (.inl rfl)
    exact ⟨_, resume_unblocks known may good blocked, ⟨settled.state_active (by rw [from_]),
      (settled.fetched_eq (by rw [from_]; simp)).trans (by rw [from_]), step.mem_eq⟩, step.other⟩
  case resume_prior =>
    have runs := resume_unblocks known may good (.inr ⟨state, rfl, empty⟩)
    rcases prior with fetch | held
    · rw [show (s.queue q).prior = _ from fetch, unblock_fetchBlocked] at runs
      exact ⟨_, runs, ⟨by rw [queue_setQueue_self]; exact fetch.symm, rfl⟩, fun k hk => queue_setQueue_ne s hk _⟩
    · rw [show (s.queue q).prior = _ from held] at runs
      obtain ⟨u, step, settled, r, p, from_⟩ := unblock_returns (s := s) (q := q) (.inr rfl)
      exact ⟨_, runs, ⟨(settled.state_eq (by rw [from_]; simp) (.inl (by rw [from_]; simp))).trans (by rw [from_]; exact held.symm), step.mem_eq⟩,
        step.other⟩
  case resume_refused =>
    rw [resume_acts known may]
    cases h : (s.queue q).state <;> simp_all [x]
  case zero =>
    refine ⟨_, (zero_acts known may).trans (by rw [show (s.queue q).state = _ from off]), ?_, fun k hk => queue_setQueue_ne s hk _⟩
    rw [queue_setQueue_self]
    exact ⟨off, rfl, rfl, rfl, rfl, rfl, rfl, rfl, rfl, rfl, rfl⟩
  case zero_refused =>
    rw [zero_acts known may]
    cases h : (s.queue q).state <;> simp_all [x]

end Sys2Proof.Machine
end

section
/-! SUPPORT. The twin pair (R446 to R451): what telling the twin's loss or return leaves, and the sequences changed one by one at a
takeover and a rejoining; and the settlement of O48. -/
namespace Sys2Proof.Machine

/-! The twin interrupt, and the notification of a loss or a return. -/

theorem bit_add_two_pow {v b : Nat} (clear : bit v b = false) : bit (v + 2 ^ b) b = true := by
  have := Nat.two_pow_pos b
  simp only [bit, Nat.shiftRight_eq_div_pow, Nat.add_div_right v this, beq_iff_eq, beq_eq_false_iff_ne] at clear ⊢
  omega

theorem vector_irqStat (s : State) (v : Nat) : (s.vector v).host.irqStat = s.host.irqStat := by
  unfold State.vector
  split <;> rfl

/-- A global cause that is raised has its bit set (R587). -/
theorem irq_sets (s : State) (b : Nat) : bit (s.irq b).host.irqStat b = true := by
  unfold State.irq
  split
  · next set => exact set
  · next clear => rw [vector_irqStat]; exact bit_add_two_pow (by simpa using clear)

theorem notify_frame (s : State) (code : Nat) (part : Option Nat) (data : Nat) :
    ∃ o b, s.notify code part data = { s with out := o, obs := b } := by
  obtain ⟨o, ns, k, e⟩ := notify_eq s code part data
  exact ⟨o, _, e⟩

/-- Loss and return are told by an event, the twin interrupt and a notification. -/
theorem tellTwin_tells (s : State) (lost : Bool) : ∃ o h b, s.tellTwin lost = { s with out := o, host := h, obs := b } ∧
    bit h.irqStat 3 = true := by
  unfold State.tellTwin State.linkEvent
  obtain ⟨r, event⟩ := event_eq s (islandShed (1 + s.tPorts.headD 0)) 0x53 none none (s.tPorts.headD 0 + 32 * 0 + 256 * 0)
  have sets := irq_sets { s with obs := { s.obs with rings := r } } 3
  obtain ⟨o, h, raised⟩ := irq_eq { s with obs := { s.obs with rings := r } } 3
  rw [raised] at sets
  obtain ⟨o2, b, told⟩ := notify_frame { s with obs := { s.obs with rings := r }, out := o, host := h } 6 none (boolNat lost)
  rw [event, raised]
  exact ⟨o2, h, b, told, sets⟩

/-- A heartbeat after a loss sets BACK, and tells it the first time. -/
theorem beatBack_back (s : State) : ∃ o h b, s.beatBack = { s with
    eft := { s.eft with twin := { s.eft.twin with back := s.eft.twin.back || s.eft.twin.lost } }, out := o, host := h, obs := b } := by
  unfold State.beatBack
  split
  · next first =>
    obtain ⟨o, h, b, told, -⟩ := tellTwin_tells (s.setTwin (fun t => { t with back := true })) false
    refine ⟨o, h, b, told.trans ?_⟩
    simp [State.setTwin, first.1]
  · next other =>
    refine ⟨s.out, s.host, s.obs, ?_⟩
    have same : (s.eft.twin.back || s.eft.twin.lost) = s.eft.twin.back := by
      cases lost : s.eft.twin.lost <;> cases back : s.eft.twin.back <;> simp_all
    rw [same]

/-! Heartbeats (R446, R448). -/

theorem rxTurn_msg {s : State} {port : Nat} {m : LinkMsg} {x : RxMsg} (turn : s.rxTurn port m = some x) : x.msg = m := by
  unfold State.rxTurn at turn
  dsimp only at turn
  split at turn
  · cases turn
  · next y found =>
    split at turn
    · cases turn
    · obtain rfl := Option.some.inj turn
      simpa using List.find?_some found

section
variable {s : State} {port : Nat} {m : LinkMsg} {x : RxMsg} (turn : s.rxTurn port m = some x) (known : port < 18)
include turn known

theorem hbt_acts (typ : m.typ = 0x20) : exec (.hbt port m) s =
    if (!(s.rxDone port x).isPortT port) = true ∨ m.dst ≠ (s.rxDone port x).modid then .next (s.rxDone port x)
    else .next ((s.rxDone port x).setTwin (fun t => { t.hear x.msg with lastHbt := some (s.rxDone port x).now, altonly := false })).beatBack := by
  rw [show exec (.hbt port m) s = execHbt port m s from rfl, execHbt, if_neg (by simp [typ, known]), turn]

theorem hbtAlt_here (typ : m.typ = 0x21) (here : m.dst = s.modid) : exec (.hbtAlt port m) s =
    .next ((s.rxDone port x).setTwin (fun t => { t.hear x.msg with
      lastAlt := some (s.rxDone port x).now,
      altonly := t.altonly || (s.rxDone port x).tPorts.all (fun p => ((s.rxDone port x).link p).st != .up) })).beatBack := by
  rw [show exec (.hbtAlt port m) s = execHbtAlt port m s from rfl, execHbtAlt, if_neg (by simp [typ, known]), turn]
  exact if_pos here

theorem hbtAlt_on (typ : m.typ = 0x21) (other : m.dst ≠ s.modid) : exec (.hbtAlt port m) s =
    match (if s.isPortT port then s.directPort 3 1 m else s.directPort 0 0 m) with
    | some p => .next ((s.rxTake port x).transmit p ⟨m, none⟩)
    | none => .next (s.rxDone port x) := by
  rw [show exec (.hbtAlt port m) s = execHbtAlt port m s from rfl, execHbtAlt, if_neg (by simp [typ, known]), turn]
  exact if_neg other

end

/-- Freeing a received message leaves every link in its state. -/
theorem rxDone_st (s : State) (port : Nat) (x : RxMsg) (p : Nat) : ((s.rxDone port x).link p).st = (s.link p).st := by
  unfold State.rxDone
  rw [(freeRx_frees (s.rxTake port x) port x.share x.msg.slots).link p]
  change ((s.rxTake port x).link p).st = _
  rw [State.rxTake, link_setLink]
  split
  · next same => rw [same.1]
  · rfl

theorem rxDone_role (s : State) (port : Nat) (x : RxMsg) :
    (s.rxDone port x).modid = s.modid ∧ (s.rxDone port x).isPortT = s.isPortT ∧ (s.rxDone port x).tPorts = s.tPorts := by
  obtain ⟨ls, o, done⟩ := rxDone_eq s port x
  rw [done]
  exact ⟨rfl, rfl, rfl⟩

theorem hbt_acts_by_port {s : State} {port : Nat} {m : LinkMsg} {x : RxMsg} (typ : m.typ = 0x20) (known : port < 18)
    (turn : s.rxTurn port m = some x) : (s.isPortT port = false ∨ m.dst ≠ s.modid → exec (.hbt port m) s = .next (s.rxDone port x)) ∧
    (s.isPortT port = true → m.dst = s.modid → ∃ t, exec (.hbt port m) s = .next t ∧ t.eft.twin = { s.eft.twin with
      lastHbt := some s.now, altonly := false, back := s.eft.twin.back || s.eft.twin.lost, lostSeen := bit m.addr 32,
      mustRejoin := s.eft.twin.mustRejoin || (bit m.addr 32 && !s.eft.twin.lostSeen) } ∧
      t.mem = s.mem ∧ t.kv = s.kv ∧ t.queues = s.queues ∧ t.regions = s.regions) := by
  rw [hbt_acts turn known typ, rxTurn_msg turn]
  obtain ⟨modid, ist, -⟩ := rxDone_role s port x
  rw [modid, ist]
  refine ⟨fun away => if_pos (by simpa using away), fun t here => ⟨_, if_neg (by simp [t, here]), ?_⟩⟩
  obtain ⟨ls, o, done⟩ := rxDone_eq s port x
  rw [done]
  obtain ⟨o2, h, b, back⟩ := beatBack_back (({ s with eft := { s.eft with links := ls }, out := o } : State).setTwin
    (fun t => { t.hear m with lastHbt := some s.now, altonly := false }))
  exact back.symm ▸ ⟨rfl, rfl, rfl, rfl, rfl⟩

theorem hbtAlt_acts_by_module {s : State} {port : Nat} {m : LinkMsg} {x : RxMsg} (typ : m.typ = 0x21) (known : port < 18)
    (turn : s.rxTurn port m = some x) (here : m.dst = s.modid) :
    ∃ t, exec (.hbtAlt port m) s = .next t ∧ t.eft.twin = { s.eft.twin with
      lastAlt := some s.now, altonly := s.eft.twin.altonly || s.tPorts.all (fun p => (s.link p).st != .up),
      back := s.eft.twin.back || s.eft.twin.lost, lostSeen := bit m.addr 32,
      mustRejoin := s.eft.twin.mustRejoin || (bit m.addr 32 && !s.eft.twin.lostSeen) } := by
  refine ⟨_, hbtAlt_here turn known typ here, ?_⟩
  obtain ⟨-, -, tPorts⟩ := rxDone_role s port x
  simp only [rxDone_st]
  rw [tPorts, rxTurn_msg turn]
  generalize s.tPorts.all (fun p => (s.link p).st != .up) = down
  obtain ⟨ls, o, done⟩ := rxDone_eq s port x
  rw [done]
  obtain ⟨o2, h, b, back⟩ := beatBack_back (({ s with eft := { s.eft with links := ls }, out := o } : State).setTwin
    (fun t => { t.hear m with lastAlt := some s.now, altonly := t.altonly || down }))
  exact back.symm ▸ rfl

/-! Loss (R448, R449). -/

theorem beating_of_recent {s : State} {a : Nat} (heard : s.eft.twin.lastHbt = some a ∨ s.eft.twin.lastAlt = some a)
    (now : s.now < a + 20000) : s.beating = true := by
  rcases heard with h | h <;> simp [State.beating, recent, h, now]

theorem not_beating {s : State} (silent : ∀ a, (s.eft.twin.lastHbt = some a ∨ s.eft.twin.lastAlt = some a) → a + 20000 ≤ s.now) :
    s.beating = false := by
  have late : ∀ h : Option Nat, (∀ a, h = some a → a + 20000 ≤ s.now) → recent h s.now = false := by
    rintro (_ | a) old
    · rfl
    · simpa [recent] using old a rfl
  simp [State.beating, late _ fun a h => silent a (.inl h), late _ fun a h => silent a (.inr h)]

theorem twinLost_loses {s : State} (twin : s.eft.coord.twin = true) (silent : s.beating = false) (lost : s.eft.twin.lost = false) :
    ∃ t, exec .twinLost s = .next t ∧ t.eft.twin = { s.eft.twin with
      lost := true, back := false, takeover := if s.eft.twin.auto && s.serving && !s.inReset then some s.now else s.eft.twin.takeover } ∧
      bit t.host.irqStat 3 = true ∧ t = { s with eft := t.eft, obs := t.obs, host := t.host, out := t.out } := by
  let v := s.setTwin (fun t => { t with lost := true, back := false })
  obtain ⟨o, h, b, told, set⟩ := tellTwin_tells v true
  let u : State := { v with out := o, host := h, obs := b }
  have acts : exec .twinLost s = .next (if s.eft.twin.auto && s.serving && !s.inReset then u.beginTakeover else u) := by
    refine (if_neg (by simp [twin, silent, lost])).trans ?_
    rw [told]
    rfl
  refine ⟨_, acts, ?_⟩
  cases s.eft.twin.auto && s.serving && !s.inReset
  · exact ⟨rfl, set, rfl⟩
  · exact ⟨rfl, set, rfl⟩

/-! Sequences changed one by one (R235, R451). -/

theorem Tab.get_of_mem_wf {α : Type} [DecidableEq α] {d : α} {l : Tab α} {lo : Nat} (wf : Tab.wfFrom d lo l = true) {e : Nat × α} (mem : e ∈ l) :
    Tab.get d l e.1 = e.2 ∧ lo ≤ e.1 := by
  induction l generalizing lo with
  | nil => simp at mem
  | cons a l ih =>
    obtain ⟨k, v⟩ := a
    simp only [Tab.wfFrom, Bool.and_eq_true, decide_eq_true_eq] at wf
    obtain ⟨⟨low, -⟩, rest⟩ := wf
    rcases List.mem_cons.mp mem with rfl | later
    · exact ⟨by simp [Tab.get], low⟩
    · obtain ⟨reads, above⟩ := ih rest later
      exact ⟨by simp only [Tab.get]; rw [if_neg (by omega)]; exact reads, by omega⟩

theorem Tab.get_of_not_mem {α : Type} {d : α} {l : Tab α} {n : Nat} (missing : ∀ e ∈ l, e.1 ≠ n) : Tab.get d l n = d := by
  induction l with
  | nil => rfl
  | cons a l ih =>
    simp only [Tab.get]
    rw [if_neg (missing a (by simp))]
    exact ih fun e he => missing e (by simp [he])

/-- A sequence replaced by one with the same run list and scores writes no frame (R212, R216). -/
theorem setSeq_same_lists {s : State} {n : Nat} {x : Seq} (runs : x.runs = (s.seq n).runs) (frames : x.runFrames = (s.seq n).runFrames)
    (scores : x.scores = (s.seq n).scores) (scoreFrame : x.scoreFrame = (s.seq n).scoreFrame) :
    s.setSeq n x = { s with kv := { s.kv with seqs := Tab.set .free s.kv.seqs n x } } := by
  have noRuns : runWrites (s.seq n) x = [] := by
    rw [runWrites, runs, frames, List.filterMap_eq_nil_iff]
    intro i _
    cases f : (s.seq n).runFrames[i / 4096]? with
    | none => rfl
    | some y => cases (s.seq n).runs[i]? <;> simp
  have noScores : scoreWrites (s.seq n) x = [] := by
    unfold scoreWrites
    rw [scores, scoreFrame]
    cases (s.seq n).scoreFrame with
    | none => rfl
    | some f => simp
  rw [State.setSeq, noRuns, noScores]
  simp

/-- Sequence k is x, and a change of it that leaves its run list and its scores alone takes effect: nothing else changes but what
regions hold of run lists. -/
theorem putSeq_same_lists {s : State} {p n : Nat} {x : Seq} (runs : x.runs = (s.seq n).runs) (frames : x.runFrames = (s.seq n).runFrames)
    (scores : x.scores = (s.seq n).scores) (scoreFrame : x.scoreFrame = (s.seq n).scoreFrame) :
    ∃ rs, s.putSeq p n x = { s with regions := rs, kv := { s.kv with seqs := Tab.set .free s.kv.seqs n x } } := by
  have dropped : s.dropRuns p n = { s with regions := (s.dropRuns p n).regions } := dropRuns_regionsOnly s p n
  refine ⟨(s.dropRuns p n).regions, ?_⟩
  rw [State.putSeq, dropped]
  exact setSeq_same_lists runs frames scores scoreFrame

/-- A walk of the sequence table whose step replaces the sequence it stands at by g of it, where c holds. -/
theorem foldl_seqs {R : State → Prop} {c : Seq → Prop} [DecidablePred c] {g : Seq → Seq} {f : State → Nat × Seq → State}
    (step : ∀ s k, R s → R (f s (k, s.seq k)) ∧ ∀ n, (f s (k, s.seq k)).seq n = if n = k ∧ c (s.seq k) then g (s.seq k) else s.seq n)
    (l : List (Nat × Seq)) (lo : Nat) (wf : Tab.wfFrom Seq.free lo l = true) (s : State) (at_ : ∀ e ∈ l, s.seq e.1 = e.2) (start : R s) :
    R (l.foldl f s) ∧ ∀ n, (l.foldl f s).seq n = if (∃ e ∈ l, e.1 = n) ∧ c (s.seq n) then g (s.seq n) else s.seq n := by
  induction l generalizing s lo with
  | nil => exact ⟨start, fun n => by simp⟩
  | cons e l ih =>
    obtain ⟨k, x⟩ := e
    obtain rfl : s.seq k = x := at_ (k, x) (by simp)
    simp only [Tab.wfFrom, Bool.and_eq_true, decide_eq_true_eq] at wf
    obtain ⟨-, rest⟩ := wf
    obtain ⟨kept, seqs⟩ := step s k start
    have later : ∀ e ∈ l, e.1 ≠ k := fun e he => by have := (Tab.get_of_mem_wf rest he).2; omega
    obtain ⟨kept, changed⟩ := ih (k + 1) rest (f s (k, s.seq k)) (fun e he => by
      rw [seqs, if_neg fun h => later e he h.1]
      exact at_ e (by simp [he])) kept
    refine ⟨kept, fun n => (changed n).trans ?_⟩
    rw [seqs]
    by_cases same : n = k
    · subst same
      have gone : ¬ ∃ e ∈ l, e.1 = n := fun ⟨e, he, eq⟩ => later e he eq
      simp [gone]
    · have there : (∃ e ∈ (k, s.seq k) :: l, e.1 = n) ↔ ∃ e ∈ l, e.1 = n := by simp [Ne.symm same]
      simp only [if_neg fun h : n = k ∧ c (s.seq k) => same h.1, there]

/-- The same walk of the whole table: every sequence for which c holds becomes g of it. -/
theorem foldl_kvSeqs {R : State → Prop} {c : Seq → Prop} [DecidablePred c] {g : Seq → Seq} {f : State → Nat × Seq → State}
    (step : ∀ s k, R s → R (f s (k, s.seq k)) ∧ ∀ n, (f s (k, s.seq k)).seq n = if n = k ∧ c (s.seq k) then g (s.seq k) else s.seq n)
    (free : ¬ c .free) (s : State) (start : R s) (wf : Tab.wf Seq.free s.kv.seqs = true) :
    R (s.kv.seqs.foldl f s) ∧ ∀ n, (s.kv.seqs.foldl f s).seq n = if c (s.seq n) then g (s.seq n) else s.seq n := by
  obtain ⟨kept, seqs⟩ := foldl_seqs step s.kv.seqs 0 wf s (fun e he => (Tab.get_of_mem_wf wf he).1) start
  refine ⟨kept, fun n => (seqs n).trans ?_⟩
  by_cases there : ∃ e ∈ s.kv.seqs, e.1 = n
  · simp [there]
  · have isFree : s.seq n = .free := Tab.get_of_not_mem fun e he eq => there ⟨e, he, eq⟩
    simp [there, isFree, free]

theorem seq_set (s : State) (rs : List Region) (k : Nat) (x : Seq) (n : Nat) :
    ({ s with regions := rs, kv := { s.kv with seqs := Tab.set .free s.kv.seqs k x } } : State).seq n = if n = k then x else s.seq n := by
  unfold State.seq
  dsimp only
  rw [Tab.get_set]

/-- A takeover makes the mirrored sequences LIVE (R235). -/
theorem liven_livens (s : State) (wf : Tab.wf Seq.free s.kv.seqs = true) : s.liven = { s with kv := s.liven.kv, regions := s.liven.regions } ∧
    ∀ n, s.liven.seq n = if (s.seq n).st = .mirror ∧ s.sharedPart (s.seq n).part = true
      then { s.seq n with st := .live, length := (s.seq n).replpos } else s.seq n := by
  refine foldl_kvSeqs (R := fun t => t = { s with kv := t.kv, regions := t.regions })
    (c := fun x => x.st = .mirror ∧ s.sharedPart x.part = true) (g := fun x => { x with st := .live, length := x.replpos })
    (fun t k frame => ?_) (by simp [Seq.free]) s rfl wf
  have shared : t.sharedPart = s.sharedPart := by rw [frame]; rfl
  dsimp only
  rw [shared]
  split
  · next holds =>
    obtain ⟨rs, put⟩ := putSeq_same_lists (s := t) (p := (t.seq k).part) (n := k)
      (x := { t.seq k with st := .live, length := (t.seq k).replpos }) rfl rfl rfl rfl
    rw [put]
    exact ⟨by rw [frame], fun n => (seq_set t rs k _ n).trans (if_congr (and_iff_left holds) rfl rfl).symm⟩
  · next other => exact ⟨frame, fun n => by rw [if_neg fun h => other h.2]⟩

/-- What a rejoining keeps beside the sequences: messages have gone out. -/
def Reopens (s t : State) : Prop := t.mem = s.mem ∧ t.eft.twin = s.eft.twin

theorem sendOpen_originates (s : State) (p n : Nat) (x : Seq) : Originates s (s.sendOpen p n x) := by
  unfold State.sendOpen State.sendTwin
  split
  · exact .refl s
  · exact originate_originates ..

/-- A rejoining opens replication again from POS0 (R451). -/
theorem reopen_reopens (s : State) (wf : Tab.wf Seq.free s.kv.seqs = true) : Reopens s s.reopen ∧
    ∀ n, s.reopen.seq n = if (s.seq n).st = .live ∧ (s.seq n).geo.repl = true then { s.seq n with replpos := (s.seq n).pos0 } else s.seq n := by
  refine foldl_kvSeqs (R := Reopens s) (c := fun x => x.st = .live ∧ x.geo.repl = true) (g := fun x => { x with replpos := x.pos0 })
    (fun t k kept => ?_) (by simp [Seq.free]) s ⟨rfl, rfl⟩ wf
  dsimp only
  split
  · next holds =>
    obtain ⟨rs, put⟩ := putSeq_same_lists (s := t) (p := (t.seq k).part) (n := k) (x := { t.seq k with replpos := (t.seq k).pos0 }) rfl rfl rfl rfl
    have sent := (sendOpen_originates (t.putSeq (t.seq k).part k { t.seq k with replpos := (t.seq k).pos0 }) (t.seq k).part k
      { t.seq k with replpos := (t.seq k).pos0 }).frame
    rw [sent, put]
    exact ⟨kept, fun n => (seq_set t rs k _ n).trans (if_congr (and_iff_left holds) rfl rfl).symm⟩
  · next other => exact ⟨kept, fun n => by rw [if_neg fun h => other h.2]⟩

/-! The writes of EFT_TWIN_CTRL (Table 15-14). -/

section
variable {rq : Requester} {s : State} (may : s.mayWrite rq 0xC0018)
include may

theorem takeover_acts : exec (.takeover rq) s =
    .next (if s.eft.twin.lost = true ∧ (!s.eft.twin.taken) = true then s.beginTakeover else s.discard 0x21 0xC0018) := by
  rw [show exec (.takeover rq) s = execTakeover rq s from rfl, execTakeover, regWrite_mayWrite may]

theorem rejoin_acts : exec (.rejoin rq) s = .next (if s.beating = true then
    (s.setTwin (fun t => { t with lost := false, taken := false, replbrk := false, mustRejoin := false })).reopen
    else s.discard 0x21 0xC0018) := by
  rw [show exec (.rejoin rq) s = execRejoin rq s from rfl, execRejoin, regWrite_mayWrite may]

end

/-- Settles O48: each event of the twin pair by what it needs. -/
theorem twinsBeatAreLostAndReturn : Obligations.TwinsBeatAreLostAndReturn := by
  refine ⟨fun port m x s typ known turn => hbt_acts_by_port typ known turn,
    fun port m x s typ known turn => ⟨hbtAlt_acts_by_module typ known turn, fun other => ?alt⟩,
    fun s twin => ⟨fun runs due => ⟨_, rfl, ?send⟩, fun waits => ?wait, fun a heard now => ?heard, fun silent lost => ?lost⟩,
    fun rq s may => ⟨fun lost taken => ?takeover, fun other => ?refused, fun silent => ?silent, fun beats wf => ?rejoin⟩,
    fun s => ⟨fun none_ => ?nothing, fun some_ wf => ?taken⟩⟩
  case alt =>
    have acts := hbtAlt_on turn known typ other
    exact ⟨fun p out => acts.trans (by rw [out]), fun out => acts.trans (by rw [out])⟩
  case send => exact if_neg (by simp [twin, runs]; omega)
  case wait => exact if_pos (by simpa [twin] using waits)
  case heard => exact if_pos (by simp [beating_of_recent heard now])
  case lost => exact twinLost_loses twin (not_beating silent) lost
  case takeover =>
    rw [takeover_acts may, if_pos ⟨lost, by simp [taken]⟩]
    rfl
  case refused => rw [takeover_acts may, if_neg (by rcases other with h | h <;> simp [h])]
  case silent => rw [rejoin_acts may, if_neg (by simp [silent])]
  case rejoin =>
    obtain ⟨⟨mem, same⟩, seqs⟩ := reopen_reopens (s.setTwin (fun t => { t with
      lost := false, taken := false, replbrk := false, mustRejoin := false })) wf
    exact ⟨_, by rw [rejoin_acts may, if_pos beats], same, mem, seqs⟩
  case nothing =>
    rw [show exec .takeoverDone s = execTakeoverDone s from rfl, execTakeoverDone, none_]
  case taken =>
    obtain ⟨at_, begun⟩ := Option.isSome_iff_exists.mp some_
    obtain ⟨frame, seqs⟩ := liven_livens s wf
    have same : s.liven.eft = s.eft ∧ s.liven.mem = s.mem := by rw [frame]; exact ⟨rfl, rfl⟩
    refine ⟨s.liven.setTwin (fun t => { t with taken := true, takeover := none }), ?_, by rw [State.setTwin, same.1], same.2, seqs⟩
    rw [show exec .takeoverDone s = execTakeoverDone s from rfl, execTakeoverDone, begun]

end Sys2Proof.Machine
end

section
/-! SUPPORT. Power levels (R478 to R481): what bringing groups to their levels leaves, and that it brings every group there that no
running command holds. -/
namespace Sys2Proof.Machine

/-! Partitions and regions, one replaced. -/

theorem setPart_part_rel {R : Part → Part → Prop} (refl : ∀ x, R x x) (s : State) (p : Nat) {x : Part} (h : R (s.part p) x) (k : Nat) :
    R (s.part k) ((s.setPart p x).part k) := by
  by_cases same : k = p
  · subst same
    by_cases here : k < s.parts.length
    · rw [part_setPart s k x here]
      exact h
    · rw [State.setPart, List.set_eq_of_length_le (Nat.le_of_not_lt here)]
      exact refl _
  · rw [part_setPart_ne s p x same]
    exact refl _

theorem setRegion_region_rel {R : Region → Region → Prop} (refl : ∀ x, R x x) (s : State) (r : Nat) {x : Region} (h : R (s.region r) x) (k : Nat) :
    R (s.region k) ((s.setRegion r x).region k) := by
  by_cases same : k = r
  · subst same
    by_cases here : k < s.regions.length
    · rw [region_setRegion s k k x here, if_pos rfl]
      exact h
    · rw [State.setRegion, List.set_eq_of_length_le (Nat.le_of_not_lt here)]
      exact refl _
  · rw [region_setRegion_ne s r k x same]
    exact refl _

/-- A region whose cycles have been counted further. -/
def Region.Counted (x y : Region) : Prop := y = { x with clkAt := y.clkAt, clkUnits := y.clkUnits }

theorem Region.Counted.refl (x : Region) : x.Counted x := rfl

theorem Region.Counted.trans {x y z : Region} (h : x.Counted y) (k : y.Counted z) : x.Counted z := by
  rw [Region.Counted, k, h]

/-- A partition whose alignment has changed; its command runs as before. -/
structure Part.Realigned (x y : Part) : Prop where
  frame : y = { x with launch := y.launch, needAlign := y.needAlign }
  runs : y.launch.isSome = x.launch.isSome

theorem Part.Realigned.refl (x : Part) : x.Realigned x := ⟨rfl, rfl⟩

theorem Part.Realigned.trans {x y z : Part} (h : x.Realigned y) (k : y.Realigned z) : x.Realigned z :=
  ⟨by rw [k.frame, h.frame], k.runs.trans h.runs⟩

/-- From s to t levels have changed, and with them what a change of level does: cycles counted at the old clock, and alignment
lost. -/
structure Relevels (s t : State) : Prop where
  frame : t = { s with
    regions := t.regions, parts := t.parts, pwr := { s.pwr with level := t.pwr.level },
    sync := { s.sync with trace := t.sync.trace, count := t.sync.count } }
  part : ∀ p, (s.part p).Realigned (t.part p)
  region : ∀ r, (s.region r).Counted (t.region r)
  groups : t.pwr.level.length = s.pwr.level.length
  partCount : t.parts.length = s.parts.length
  regionCount : t.regions.length = s.regions.length

theorem Relevels.refl (s : State) : Relevels s s := ⟨rfl, fun _ => .refl _, fun _ => .refl _, rfl, rfl, rfl⟩

theorem Relevels.trans {s t u : State} (h : Relevels s t) (k : Relevels t u) : Relevels s u where
  frame := by rw [k.frame, h.frame]
  part p := (h.part p).trans (k.part p)
  region r := (h.region r).trans (k.region r)
  groups := k.groups.trans h.groups
  partCount := k.partCount.trans h.partCount
  regionCount := k.regionCount.trans h.regionCount

theorem countClock_relevels (s : State) (r n : Nat) :
    Relevels s (s.setRegion r ((s.region r).countClock s.now (s.regionClock n))) :=
  ⟨rfl, fun _ => .refl _, setRegion_region_rel (R := Region.Counted) .refl s r rfl, rfl, rfl, List.length_set ..⟩

theorem countClocks_relevels (s : State) (n : Nat) : Relevels s (s.countClocks n) := by
  unfold State.countClocks
  split
  · exact foldl_rel .refl .trans (fun s r => countClock_relevels s r n) _ _
  · exact .refl s

theorem setPart_relevels (s : State) (p : Nat) {x : Part} (h : (s.part p).Realigned x) : Relevels s (s.setPart p x) :=
  ⟨rfl, setPart_part_rel .refl s p h, fun _ => .refl _, rfl, List.length_set .., rfl⟩

theorem loseAlign_relevels (s : State) (p : Nat) : Relevels s (s.loseAlign p) := setPart_relevels s p ⟨rfl, rfl⟩

theorem strace_relevels (s : State) (kind part id who queue : Nat) : Relevels s (s.strace kind part id who queue) := by
  obtain ⟨t, k, traced⟩ := strace_eq s kind part id who queue
  rw [traced]
  exact ⟨rfl, fun _ => .refl _, fun _ => .refl _, rfl, rfl, rfl⟩

/-- What a change of level of partition n does to its alignment (R472, R481). -/
def State.lostAlignment (s : State) (n : Nat) : State :=
  match (s.part n).launch with
  | some l =>
    let s := if l.aligned then s.strace 9 n 0 0 l.queue else s
    (s.setPart n { s.part n with launch := some { l with aligned := false } }).loseAlign n
  | none => s.loseAlign n

theorem lostAlignment_relevels (s : State) (n : Nat) : Relevels s (s.lostAlignment n) ∧ (s.lostAlignment n).pwr = s.pwr := by
  unfold State.lostAlignment
  split
  · next l runs =>
    have traced : ∀ u : State, (u.part n).launch = some l →
        Relevels u ((u.setPart n { u.part n with launch := some { l with aligned := false } }).loseAlign n) := fun u same =>
      (setPart_relevels u n ⟨rfl, by rw [same]; rfl⟩).trans (loseAlign_relevels ..)
    dsimp only
    split
    · obtain ⟨t, k, e⟩ := strace_eq s 9 n 0 0 l.queue
      exact ⟨(strace_relevels ..).trans (traced _ (by rw [e]; exact runs)), by rw [e]; rfl⟩
    · exact ⟨traced s runs, rfl⟩
  · exact ⟨loseAlign_relevels .., rfl⟩

theorem setLevel_relevels (s : State) (n l : Nat) : Relevels s { s with pwr := { s.pwr with level := s.pwr.level.set n l } } :=
  ⟨rfl, fun _ => .refl _, fun _ => .refl _, List.length_set .., rfl, rfl⟩

/-- Group n with its level set to its target, the cycles at the old clock counted. -/
def State.levelSet (s : State) (n : Nat) : State :=
  let u := s.countClocks n
  { u with pwr := { u.pwr with level := u.pwr.level.set n (s.levelTarget n) } }

theorem levelSet_relevels (s : State) (n : Nat) : Relevels s (s.levelSet n) := (countClocks_relevels s n).trans (setLevel_relevels ..)

theorem countClocks_pwr (s : State) (n : Nat) : (s.countClocks n).pwr = s.pwr := by
  unfold State.countClocks
  split
  · exact foldl_rel (R := fun s t : State => t.pwr = s.pwr) (fun _ => rfl) (fun h k => k.trans h) (fun s r => (rfl : (s.setRegion r _).pwr = _)) _ _
  · rfl

/-- Group n is at the level that it is to have, unless a command of its aligned partition holds it (R481). -/
def State.levelFits (s : State) (n : Nat) : Prop := s.level n = s.levelTarget n ∨ (s.detRuns n = true ∧ s.forced n = false)

/-- A group is left where it fits, or its level is set. -/
theorem refreshLevel_cases (s : State) (n : Nat) : s.refreshLevel n = s ∧ s.levelFits n ∨ s.refreshLevel n = s.levelSet n ∨
    s.refreshLevel n = (s.levelSet n).lostAlignment n := by
  unfold State.refreshLevel
  dsimp only
  split
  · next there => exact .inl ⟨rfl, .inl there⟩
  · split
    · next held => exact .inl ⟨rfl, .inr (by simpa using held)⟩
    · split
      · exact .inr (.inr rfl)
      · exact .inr (.inl rfl)

theorem refreshLevel_relevels (s : State) (n : Nat) : Relevels s (s.refreshLevel n) := by
  rcases refreshLevel_cases s n with ⟨same, -⟩ | set | set
  · rw [same]
    exact .refl s
  · rw [set]
    exact levelSet_relevels s n
  · rw [set]
    exact (levelSet_relevels s n).trans (lostAlignment_relevels ..).1

theorem refreshLevels_relevels (s : State) : Relevels s s.refreshLevels := foldl_rel .refl .trans refreshLevel_relevels _ _

/-! What a change of levels leaves of the caps and of what holds a group. -/

section
variable {s t : State} (h : Relevels s t)
include h

theorem Relevels.partRec_eq : t.partRec = s.partRec := by rw [h.frame]; rfl
theorem Relevels.forced_eq : t.forced = s.forced := by rw [h.frame]; rfl
theorem Relevels.queues_eq : t.queues = s.queues := by rw [h.frame]
theorem Relevels.mem_eq : t.mem = s.mem := by rw [h.frame]
theorem Relevels.kv_eq : t.kv = s.kv := by rw [h.frame]
theorem Relevels.trl_eq : t.trl = s.trl := by rw [h.frame]

theorem Relevels.paceCap_eq (p : Nat) : (t.part p).paceCap = (s.part p).paceCap := by rw [(h.part p).frame]

theorem Relevels.target_eq (n : Nat) : t.levelTarget n = s.levelTarget n := by
  have cap : t.groupCap n = s.groupCap n := by
    unfold State.groupCap
    rw [h.paceCap_eq, h.frame]
    rfl
  unfold State.levelTarget
  rw [h.forced_eq, cap, h.frame]
  rfl

theorem Relevels.detRuns_eq (n : Nat) : t.detRuns n = s.detRuns n := by
  unfold State.detRuns State.partRuns
  rw [(h.part n).runs, h.frame]
  rfl

end

/-! The level in effect after it. -/

theorem Relevels.fits {s t : State} {n : Nat} (h : Relevels s t) (level : t.level n = s.level n) (fits : s.levelFits n) : t.levelFits n := by
  unfold State.levelFits at *
  rw [level, h.target_eq, h.detRuns_eq, h.forced_eq]
  exact fits

/-- A group's level is left as it is, or set to its target. -/
theorem refreshLevel_pwr (s : State) (n : Nat) : s.refreshLevel n = s ∧ s.levelFits n ∨
    (s.refreshLevel n).pwr = { s.pwr with level := s.pwr.level.set n (s.levelTarget n) } := by
  rcases refreshLevel_cases s n with left | set | set
  · exact .inl left
  · exact .inr (by rw [set, State.levelSet, countClocks_pwr])
  · exact .inr (by rw [set, (lostAlignment_relevels ..).2, State.levelSet, countClocks_pwr])

theorem refreshLevel_other (s : State) {n k : Nat} (other : k ≠ n) : (s.refreshLevel n).level k = s.level k := by
  rcases refreshLevel_pwr s n with ⟨same, -⟩ | set
  · rw [same]
  · rw [State.level, set]
    simp [State.level, Ne.symm other]

theorem refreshLevel_fits (s : State) {n : Nat} (here : n < s.pwr.level.length) : (s.refreshLevel n).levelFits n := by
  rcases refreshLevel_pwr s n with ⟨same, fits⟩ | set
  · rw [same]
    exact fits
  · left
    rw [(refreshLevel_relevels s n).target_eq, State.level, set]
    simp [here]

theorem refreshLevel_keepsFit (s : State) (n : Nat) {k : Nat} (fits : s.levelFits k) (here : k < s.pwr.level.length) :
    (s.refreshLevel n).levelFits k := by
  by_cases same : k = n
  · exact same ▸ refreshLevel_fits s here
  · exact (refreshLevel_relevels s n).fits (refreshLevel_other s same) fits

theorem foldl_refreshLevel_fits (ns : List Nat) (s : State) {k : Nat} (here : k < s.pwr.level.length) (due : k ∈ ns ∨ s.levelFits k) :
    (ns.foldl (fun (s : State) n => s.refreshLevel n) s).levelFits k := by
  induction ns generalizing s with
  | nil => exact due.resolve_left List.not_mem_nil
  | cons n ns ih =>
    refine ih _ (by rw [(refreshLevel_relevels s n).groups]; exact here) ?_
    rcases due with mem | fits
    · rcases List.mem_cons.mp mem with rfl | later
      · exact .inr (refreshLevel_fits s here)
      · exact .inl later
    · exact .inr (refreshLevel_keepsFit s n fits here)

/-- Every group is brought to its level (R478, R481). -/
theorem refreshLevels_fit (s : State) : levelsFit s.refreshLevels := fun n known here =>
  foldl_refreshLevel_fits _ s (by rw [← (refreshLevels_relevels s).groups]; exact here) (.inl (List.mem_range.mpr known))

/-- A group that is forced is at level 0. -/
theorem refreshLevels_forced {s : State} {n : Nat} (known : n < 11) (groups : s.pwr.level.length = 11) (forced : s.forced n = true) :
    s.refreshLevels.level n = 0 := by
  have changes := refreshLevels_relevels s
  rcases refreshLevels_fit s n known (by rw [changes.groups, groups]; exact known) with level | ⟨-, unforced⟩
  · rw [level, changes.target_eq, State.levelTarget, forced]
    rfl
  · rw [changes.forced_eq, forced] at unforced
    cases unforced

/-- What leaves the levels, their caps and the running commands as they are keeps every group that fits. -/
theorem levelsFit_of_same {s t : State} (fit : levelsFit s) (pwr : t.pwr = s.pwr) (target : t.levelTarget = s.levelTarget)
    (runs : t.detRuns = s.detRuns) (forced : t.forced = s.forced) : levelsFit t := by
  intro n known here
  rw [State.level, target, runs, forced, pwr]
  exact fit n known (pwr ▸ here)

/-- The restore ramp (R489). -/
structure Ramps (s t : State) : Prop where
  frame : t = { s with
    regions := t.regions, parts := t.parts, pwr := { s.pwr with mgr := t.pwr.mgr, lastRise := s.now, lowSince := none, level := t.pwr.level },
    sync := { s.sync with trace := t.sync.trace, count := t.sync.count } }
  part : ∀ p, (s.part p).Realigned (t.part p)
  region : ∀ r, (s.region r).Counted (t.region r)
  partCount : t.parts.length = s.parts.length
  fit : levelsFit t

theorem ramp_ramps (s : State) : Ramps s s.ramp := by
  unfold State.ramp
  dsimp only
  generalize (List.range 11).map (fun n => min (s.rampEnd 15 0) (s.groupCap n)) = mgr
  have levels := refreshLevels_relevels { s with pwr := { s.pwr with mgr := mgr, lastRise := s.now, lowSince := none } }
  exact ⟨by rw [levels.frame], levels.part, levels.region, levels.partCount, refreshLevels_fit _⟩

end Sys2Proof.Machine
end

section
/-! SUPPORT. Device time (R453 to R456, R470, Table 16-1): what a change of the time state and an alignment leave; and the settlement of
O50. -/
namespace Sys2Proof.Machine

/-! The time state. -/

/-- A change of the time state is traced and told. -/
theorem setTimeState_sets (s : State) (st : TimeSt) : ∃ y b, s.setTimeState st = { s with time := { s.time with st := st }, sync := y, obs := b } ∧
    (s.time.st ≠ st → ∃ e rest, y.trace = e :: rest ∧ e.kind = 7 ∧ e.id = st.code) := by
  unfold State.setTimeState
  split
  · next same => exact ⟨s.sync, s.obs, by rw [← same], fun other => absurd same other⟩
  · obtain ⟨r, told⟩ := event_eq ({ s with time := { s.time with st := st } }.pushTrace ⟨s.now, 7, 0, false, st.code, 0, 0, 0, 0⟩)
      (islandShed 20) 0xB0 none none st.code
    exact ⟨_, _, told, fun _ => ⟨_, _, List.take_succ_cons, rfl, rfl⟩⟩

/-! Alignment (R470) and the module's serving (Table 19-17). -/

theorem align_aligns (s : State) (p : Nat) : ∃ y, s.align p = { s.setPart p { s.part p with needAlign := false } with sync := y } ∧
    (s.inCloche p = false → ∃ e rest, y.trace = e :: rest ∧ e.kind = 8 ∧ e.part = p ∧ e.time = s.now) := by
  unfold State.align State.strace State.straceEntry
  split
  · next cloche => exact ⟨s.sync, rfl, fun off => by rw [show s.inCloche p = true from cloche] at off; cases off⟩
  · exact ⟨_, rfl, fun _ => ⟨_, _, List.take_succ_cons, rfl, rfl, rfl⟩⟩

theorem alignment_aligns {s : State} {p : Nat} (known : p < 8) (here : p < s.parts.length) (valid : (s.partRec p).valid = true)
    (det : (s.partRec p).det = true) (due : (s.part p).needAlign = true) (idle : s.partRuns p = false) (up : s.inReset = false) :
    ∃ t, exec (.alignment p) s = .next t ∧ t.part p = { s.part p with needAlign := false } ∧ (∀ k, k ≠ p → t.part k = s.part k) ∧
      t = { s with parts := t.parts, sync := t.sync } ∧
      (s.inCloche p = false → ∃ e rest, t.sync.trace = e :: rest ∧ e.kind = 8 ∧ e.part = p ∧ e.time = s.now) := by
  obtain ⟨y, aligned, traced⟩ := align_aligns s p
  refine ⟨s.align p, if_neg (by simp [valid, det, due, idle, up, known]), ?_⟩
  rw [aligned]
  exact ⟨part_setPart s p _ here, fun k other => part_setPart_ne s p _ other, rfl, traced⟩

/-- What the last phases of start-up leave as it is. -/
structure KeepsData (s t : State) : Prop where
  mem : t.mem = s.mem
  queues : t.queues = s.queues
  kv : t.kv = s.kv
  time : t.time = s.time

theorem KeepsData.refl (s : State) : KeepsData s s := ⟨rfl, rfl, rfl, rfl⟩

theorem KeepsData.trans {s t u : State} (h : KeepsData s t) (k : KeepsData t u) : KeepsData s u :=
  ⟨k.mem.trans h.mem, k.queues.trans h.queues, k.kv.trans h.kv, k.time.trans h.time⟩

theorem align_keepsData (s : State) (p : Nat) : KeepsData s (s.align p) := by
  obtain ⟨y, aligned, -⟩ := align_aligns s p
  rw [aligned]
  exact ⟨rfl, rfl, rfl, rfl⟩

theorem beginServing_serves (s : State) : KeepsData s s.beginServing ∧ s.beginServing.trl = { s.trl with phase := 9 } := by
  unfold State.beginServing
  dsimp only
  obtain ⟨frame, -⟩ := ramp_ramps { s with trl := { s.trl with phase := 8 } }
  generalize State.ramp _ = u at frame
  have ramped : KeepsData s u ∧ u.trl = { s.trl with phase := 8 } := by
    rw [frame]
    exact ⟨⟨rfl, rfl, rfl, rfl⟩, rfl⟩
  have aligned : ∀ ps : List Nat, KeepsData u (ps.foldl (fun (s : State) p => s.align p) u) ∧
      (ps.foldl (fun (s : State) p => s.align p) u).trl = u.trl := fun ps =>
    foldl_rel (R := fun s t => KeepsData s t ∧ t.trl = s.trl) (fun s => ⟨.refl s, rfl⟩) (fun h k => ⟨h.1.trans k.1, k.2.trans h.2⟩)
      (fun s p => ⟨align_keepsData s p, by obtain ⟨y, aligned, -⟩ := align_aligns s p; rw [aligned]; rfl⟩) ps u
  obtain ⟨kept, trl⟩ := aligned ((List.range 8).filter (fun p => (u.partRec p).valid && (u.partRec p).det))
  obtain ⟨mem, queues, kv, time⟩ := ramped.1.trans kept
  exact ⟨⟨mem, queues, kv, time⟩, by rw [trl, ramped.2]⟩

/-- A module that is LOCKED begins to serve if it waited for that (Table 19-17). -/
theorem nowLocked_locks (s : State) : s.nowLocked.mem = s.mem ∧ s.nowLocked.queues = s.queues ∧ s.nowLocked.kv = s.kv ∧
    s.nowLocked.time = { s.time with st := .locked } ∧ s.nowLocked.trl.phase = if s.trl.phase = 7 then 9 else s.trl.phase := by
  unfold State.nowLocked
  obtain ⟨y, b, set, -⟩ := setTimeState_sets s .locked
  rw [set]
  dsimp only
  split
  · obtain ⟨kept, trl⟩ := beginServing_serves { s with time := { s.time with st := .locked }, sync := y, obs := b }
    exact ⟨kept.mem, kept.queues, kept.kv, kept.time, by rw [trl]⟩
  · exact ⟨rfl, rfl, rfl, rfl, rfl⟩

/-! Answers of the parent (R455, Table 16-1). -/

/-- An offset within 1 ns. -/
def nearOffset (off : Int) : Prop := -64 ≤ off ∧ off ≤ 64

theorem nearOffset_iff (off : Int) : (decide (-stampNs ≤ off) && decide (off ≤ stampNs)) = true ↔ nearOffset off := by
  rw [Bool.and_eq_true, decide_eq_true_iff, decide_eq_true_iff]
  exact Iff.rfl

/-- What an answer with an offset makes of the state, by the time state before. -/
structure TimeMoves (s t : State) (off : Int) : Prop where
  offset : t.time.offset = sat16 off
  ended : t.time.t1 = none
  mem : t.mem = s.mem
  queues : t.queues = s.queues
  kv : t.kv = s.kv
  free : s.time.st = .free → t.time.st = .locking ∧ t.time.now = stepCount s.now off
  locking : s.time.st = .locking → t.time.now = s.now ∧ t.time.lastResp = s.now ∧
    (¬ nearOffset off → t.time.st = .locking ∧ t.time.good = 0) ∧
    (nearOffset off → s.time.good < 15 → t.time.st = .locking ∧ t.time.good = s.time.good + 1) ∧
    (nearOffset off → 15 ≤ s.time.good → t.time.st = .locked ∧ t.trl.phase = if s.trl.phase = 7 then 9 else s.trl.phase)
  locked : s.time.st = .locked → t.time = { s.time with offset := sat16 off, t1 := none, lastResp := s.now }
  holdover : s.time.st = .holdover → t.time.st = .locking ∧
    (-64000 ≤ off → off ≤ 64000 → t.time.now = s.now ∧ t.time.hold = s.time.hold) ∧
    (64000 < off → t.time.now = stepCount s.now off) ∧ (off < -64000 → t.time.now = s.now ∧ t.time.hold = (-off / 64).toNat)

section
variable {s : State} (off : Int)

theorem timeAnswer_free (free : s.time.st = .free) : TimeMoves s (s.timeAnswer off) off := by
  have others : ∀ st, st ≠ .free → s.time.st ≠ st := fun st other h => other (h.symm.trans free)
  have moves : ∀ (x : TimeSync) n, x.offset = sat16 off → x.t1 = none → x.now = stepCount s.now off →
      TimeMoves s (({ s with time := x, fresh := n } : State).setTimeState .locking) off := fun x n offset ended now => by
    obtain ⟨y, b, set, -⟩ := setTimeState_sets { s with time := x, fresh := n } .locking
    exact set.symm ▸ ⟨offset, ended, rfl, rfl, rfl, fun _ => ⟨rfl, now⟩, fun h => absurd h (others _ (by decide)),
      fun h => absurd h (others _ (by decide)), fun h => absurd h (others _ (by decide))⟩
  unfold State.timeAnswer
  simp only [free, draw_eq]
  exact moves _ _ rfl rfl rfl

theorem timeAnswer_locked (locked : s.time.st = .locked) : TimeMoves s (s.timeAnswer off) off := by
  unfold State.timeAnswer
  simp only [locked]
  refine ⟨rfl, rfl, rfl, rfl, rfl, fun h => ?_, fun h => ?_, fun _ => by simp only [← locked], fun h => ?_⟩ <;> rw [locked] at h <;> cases h

theorem timeAnswer_locking (locking : s.time.st = .locking) : TimeMoves s (s.timeAnswer off) off := by
  unfold State.timeAnswer
  have near := nearOffset_iff off
  simp only [locking]
  generalize (decide (-stampNs ≤ off) && decide (off ≤ stampNs)) = isNear at near
  have others : ∀ st, st ≠ .locking → s.time.st ≠ st := fun st other h => other (h.symm.trans locking)
  have locks : ∀ x : TimeSync, nearOffset off → 15 ≤ s.time.good → x.offset = sat16 off → x.t1 = none → x.now = s.now → x.lastResp = s.now →
      TimeMoves s ({ s with time := x } : State).nowLocked off := fun x here many offset ended now resp => by
    obtain ⟨mem, queues, kv, time, phase⟩ := nowLocked_locks { s with time := x }
    exact ⟨by rw [time]; exact offset, by rw [time]; exact ended, mem, queues, kv, fun h => absurd h (others _ (by decide)),
      fun _ => ⟨by rw [time]; exact now, by rw [time]; exact resp, fun h => absurd here h, fun _ few => by omega, fun _ _ => ⟨by rw [time], phase⟩⟩,
      fun h => absurd h (others _ (by decide)), fun h => absurd h (others _ (by decide))⟩
  split
  · next far =>
    have far : ¬ nearOffset off := fun h => by simp [near.mpr h] at far
    exact ⟨rfl, rfl, rfl, rfl, rfl, fun h => absurd h (others _ (by decide)), fun _ => ⟨rfl, rfl, fun _ => ⟨rfl, rfl⟩, fun h => absurd h far,
      fun h => absurd h far⟩, fun h => absurd h (others _ (by decide)), fun h => absurd h (others _ (by decide))⟩
  · next here =>
    have here : nearOffset off := near.mp (by simpa using here)
    split
    · next few =>
      exact ⟨rfl, rfl, rfl, rfl, rfl, fun h => absurd h (others _ (by decide)), fun _ => ⟨rfl, rfl, fun h => absurd here h,
        fun _ _ => ⟨rfl, rfl⟩, fun _ many => absurd few (by omega)⟩, fun h => absurd h (others _ (by decide)),
        fun h => absurd h (others _ (by decide))⟩
    · next many =>
      exact locks _ here (by omega) rfl rfl rfl rfl

theorem timeAnswer_holdover (holdover : s.time.st = .holdover) : TimeMoves s (s.timeAnswer off) off := by
  have others : ∀ st, st ≠ .holdover → s.time.st ≠ st := fun st other h => other (h.symm.trans holdover)
  unfold State.timeAnswer
  simp only [holdover]
  have answers : ∀ x : TimeSync, x.offset = sat16 off → x.t1 = none →
      ((-64000 ≤ off → off ≤ 64000 → x.now = s.now ∧ x.hold = s.time.hold) ∧
        (64000 < off → x.now = stepCount s.now off) ∧ (off < -64000 → x.now = s.now ∧ x.hold = (-off / 64).toNat)) →
      TimeMoves s (({ s with time := x } : State).setTimeState .locking) off := fun x offset ended moved => by
    obtain ⟨y, b, set, -⟩ := setTimeState_sets { s with time := x } .locking
    exact set.symm ▸ ⟨offset, ended, rfl, rfl, rfl, fun h => absurd h (others _ (by decide)), fun h => absurd h (others _ (by decide)),
      fun h => absurd h (others _ (by decide)), fun _ => ⟨rfl, moved⟩⟩
  have thousand : (-1000 : Int) * stampNs = -64000 ∧ (1000 : Int) * stampNs = 64000 := by decide
  rw [thousand.1, thousand.2]
  split
  · exact answers _ rfl rfl ⟨fun _ _ => ⟨rfl, rfl⟩, fun _ => by omega, fun _ => by omega⟩
  · split
    · exact answers _ rfl rfl ⟨fun _ _ => by omega, fun _ => rfl, fun _ => by omega⟩
    · exact answers _ rfl rfl ⟨fun _ _ => by omega, fun _ => by omega, fun _ => ⟨rfl, rfl⟩⟩

theorem timeAnswer_answers : TimeMoves s (s.timeAnswer off) off := by
  cases st : s.time.st with
  | free => exact timeAnswer_free off st
  | locking => exact timeAnswer_locking off st
  | locked => exact timeAnswer_locked off st
  | holdover => exact timeAnswer_holdover off st

end

/-! The exchange (R455). -/

section
variable {s : State} {port : Nat} {m : LinkMsg} {x : RxMsg} (known : port < 18) (turn : s.rxTurn port m = some x)
include known turn

theorem treq_acts (typ : m.typ = 0x10) (t2 t3 : Nat) : exec (.treq port m t2 t3) s = .next (if (s.rxDone port x).time.st = .locked then
    (s.rxDone port x).transmit port ⟨(s.rxDone port x).timeMsg 0x11 m.src m.addr t2 (leBytes 8 t3), none⟩ else s.rxDone port x) := by
  rw [show exec (.treq port m t2 t3) s = execTreq port m t2 t3 s from rfl, execTreq, if_neg (by simp [typ, known]), turn]

theorem tresp_acts (typ : m.typ = 0x11) {t1 : Nat} (asked : s.time.t1 = some t1) (t4 : Nat) : exec (.tresp port m t4) s =
    if s.isRoot = true ∨ port ≠ s.parentPort ∨ m.addr ≠ s.time.xchg then .next (s.rxDone port x)
    else .next ((s.rxDone port x).timeAnswer (timeOffset t1 m.aux (leAt m.data 0 8) t4)) := by
  rw [show exec (.tresp port m t4) s = execTresp port m t4 s from rfl, execTresp, if_neg (by simp [typ, known]), turn]
  obtain ⟨ls, o, done⟩ := rxDone_eq s port x
  dsimp only
  rw [done]
  dsimp only
  rw [asked]
  rfl

end

/-- A message that is done with leaves device time as it is. -/
theorem rxDone_time (s : State) (port : Nat) (x : RxMsg) : (s.rxDone port x).time = s.time ∧ (s.rxDone port x).mem = s.mem ∧
    (s.rxDone port x).queues = s.queues ∧ (s.rxDone port x).kv = s.kv ∧ (s.rxDone port x).trl = s.trl ∧
    (s.rxDone port x).modid = s.modid := by
  obtain ⟨ls, o, done⟩ := rxDone_eq s port x
  rw [done]
  exact ⟨rfl, rfl, rfl, rfl, rfl, rfl⟩

/-- Settles O50: each event of device time by the time state it finds. -/
theorem timeIsExchangedAndHeld : Obligations.TimeIsExchangedAndHeld := by
  refine ⟨fun t1 s loaded child up due => ?asks, fun t1 s waits => ?waits, fun port m x t2 t3 s typ known turn => ?treq,
    fun port m x t1 t4 s typ known turn asked => ?tresp, fun s => ⟨fun locked child late => ?holdover, fun other => ?holds⟩,
    fun p s known here valid det due idle up => alignment_aligns known here valid det due idle up, fun p s other => ?unaligned⟩
  case asks =>
    refine if_neg ?_
    cases last : s.time.lastReq with
    | none => simp [loaded, child, up]
    | some a => simp [loaded, child, up, due a last]
  case waits =>
    refine if_pos ?_
    rcases waits with h | h | h | ⟨a, h, soon⟩
    · simp [h]
    · simp [h]
    · simp [h]
    · simp [h, Nat.not_le.mpr soon]
  case treq =>
    rw [treq_acts known turn typ, (rxDone_time s port x).1]
    refine ⟨fun locked => ?_, fun other => by rw [if_neg other]⟩
    rw [if_pos locked]
    have same : (s.rxDone port x).timeMsg = s.timeMsg := by
      unfold State.timeMsg
      rw [(rxDone_time s port x).2.2.2.2.2]
    rw [same]
  case tresp =>
    rw [tresp_acts known turn typ asked]
    refine ⟨fun stray => if_pos stray, fun child parent number => ⟨_, if_neg (by simp [child, parent, number]), ?_⟩⟩
    obtain ⟨offset, ended, mem, queues, kv, free, locking, locked, holdover⟩ :=
      timeAnswer_answers (s := s.rxDone port x) (timeOffset t1 m.aux (leAt m.data 0 8) t4)
    obtain ⟨time, mem2, queues2, kv2, trl, -⟩ := rxDone_time s port x
    simp only [State.now, time, trl] at free locking locked holdover
    exact ⟨offset, ended, mem.trans mem2, queues.trans queues2, kv.trans kv2, free, locking, locked, holdover⟩
  case holdover =>
    obtain ⟨y, b, set, traced⟩ := setTimeState_sets s .holdover
    refine ⟨_, (if_pos (by simp [locked, child, late])), ?_⟩
    rw [set]
    exact ⟨rfl, traced (by rw [locked]; decide)⟩
  case holds =>
    refine if_neg fun ⟨locked, child, late⟩ => ?_
    rcases other with h | h | h
    · exact h locked
    · simp [h] at child
    · omega
  case unaligned =>
    refine if_pos ?_
    rcases other with h | h | h <;> simp [h]

end Sys2Proof.Machine
end

section
/-! SUPPORT. Droop, VR_ALERT_N, thermal control, ageing trims and overwintering (R482, R490 to R498); and the settlement of O53. -/
namespace Sys2Proof.Machine

/-! What is told: events, interrupts and notifications. -/

/-- From s to t something has been told, and nothing else has changed. -/
structure Tells (s t : State) : Prop where
  frame : t = { s with out := t.out, host := t.host, obs := t.obs }

theorem Tells.refl (s : State) : Tells s s := ⟨rfl⟩

theorem Tells.trans {s t u : State} (h : Tells s t) (k : Tells t u) : Tells s u := ⟨by rw [k.frame, h.frame]⟩

theorem event_tells (s : State) (island code : Nat) (part queue : Option Nat) (data : Nat) : Tells s (s.event island code part queue data) := by
  obtain ⟨r, told⟩ := event_eq s island code part queue data
  exact ⟨by rw [told]⟩

theorem pwrEvent_tells (s : State) (code level : Nat) : Tells s (s.pwrEvent code level) := event_tells ..

theorem irq_tells (s : State) (b : Nat) : Tells s (s.irq b) := by
  obtain ⟨o, h, raised⟩ := irq_eq s b
  exact ⟨by rw [raised]⟩

theorem notify_tells (s : State) (code : Nat) (part : Option Nat) (data : Nat) : Tells s (s.notify code part data) := by
  obtain ⟨o, b, told⟩ := notify_frame s code part data
  exact ⟨by rw [told]⟩

theorem notify_host (s : State) (code : Nat) (part : Option Nat) (data : Nat) : (s.notify code part data).host = s.host := by
  obtain ⟨o, b, told⟩ := notify_frame s code part data
  rw [told]

section
variable {s t : State} (h : Tells s t)
include h

theorem Tells.pwr_eq : t.pwr = s.pwr := by rw [h.frame]
theorem Tells.level_eq : t.level = s.level := by rw [h.frame]; rfl

theorem Tells.fit (fit : levelsFit s) : levelsFit t := by
  rw [h.frame]
  exact levelsFit_of_same fit rfl rfl rfl rfl

end

/-- Levels brought where they belong, and what is told of it. -/
theorem relevelled {u t : State} (tells : Tells u.refreshLevels t) : t.pwr = { u.pwr with level := t.pwr.level } ∧ levelsFit t := by
  refine ⟨?_, tells.fit (refreshLevels_fit u)⟩
  rw [tells.pwr_eq, (refreshLevels_relevels u).frame]

/-! Droop (R482). -/

/-- The stretch of a region-control island's cycle. -/
def State.slowed (s : State) (island lost : Nat) : State :=
  match s.regionOfIsland island with
  | some r => s.setRegion r { s.region r with clkLost := (s.region r).clkLost + lost }
  | none => s

/-- A droop counted among the events of the command that runs on an island (Table 21-8). -/
def State.droopCounted (s : State) (island : Nat) : State :=
  match s.partOfIsland island with
  | some p => if island / 2 ^ 12 = 0 then s.bumpPart p 0x12 1 else s
  | none => s

theorem slowed_slows (s : State) (island lost : Nat) : s.slowed island lost = { s with regions := (s.slowed island lost).regions } ∧
    ∀ r, r < s.regions.length → (s.slowed island lost).region r = if s.regionOfIsland island = some r
      then { s.region r with clkLost := (s.region r).clkLost + lost } else s.region r := by
  unfold State.slowed
  cases s.regionOfIsland island with
  | none => exact ⟨rfl, fun r _ => rfl⟩
  | some k =>
    refine ⟨rfl, fun r here => ?_⟩
    by_cases same : r = k
    · subst same
      rw [region_setRegion s r r _ here, if_pos rfl, if_pos rfl]
    · rw [region_setRegion_ne s k r _ same, if_neg fun h => same (Option.some.inj h).symm]

theorem droopCounted_counts (s : State) (island : Nat) : ∃ b, s.droopCounted island = { s with obs := b } := by
  unfold State.droopCounted
  split
  · next p _ =>
    split
    · obtain ⟨c, counted⟩ := bumpPart_eq s p 0x12 1
      exact ⟨_, counted⟩
    · exact ⟨s.obs, rfl⟩
  · exact ⟨s.obs, rfl⟩

theorem droopDetect_stretches {island mv : Nat} {s : State} (short : 15 < mv) : ∃ t, exec (.droopDetect island mv) s = .next t ∧
    t = { s with pwr := { s.pwr with stretched := t.pwr.stretched }, obs := t.obs, regions := t.regions } ∧
    (∀ r, r < s.regions.length → t.region r = if s.regionOfIsland island = some r
      then { s.region r with clkLost := (s.region r).clkLost + (if 45 < mv then 8000 else if 30 < mv then 4000 else 2000) } else s.region r) ∧
    ∀ k, Tab.get 0 t.pwr.stretched k = Tab.get 0 s.pwr.stretched k + (if k = island then 1 else 0) := by
  have acts : exec (.droopDetect island mv) s =
      .next (((s.setPwr (fun w => { w with stretched := Tab.modify 0 w.stretched island (· + 1) })).slowed island (stretchOf mv)).droopCounted island) :=
    if_neg (Nat.not_le.mpr short)
  have stretch : stretchOf mv = if 45 < mv then 8000 else if 30 < mv then 4000 else 2000 := by simp only [stretchOf, if_pos short]
  rw [← stretch]
  obtain ⟨frame, slow⟩ := slowed_slows (s.setPwr (fun w => { w with stretched := Tab.modify 0 w.stretched island (· + 1) })) island (stretchOf mv)
  obtain ⟨b, counted⟩ := droopCounted_counts
    ((s.setPwr (fun w => { w with stretched := Tab.modify 0 w.stretched island (· + 1) })).slowed island (stretchOf mv)) island
  rw [counted] at acts
  generalize State.slowed _ island (stretchOf mv) = u at acts frame slow
  have counts : u.pwr.stretched = Tab.modify 0 s.pwr.stretched island (· + 1) := by rw [frame]; rfl
  refine ⟨_, acts, by rw [frame]; rfl, slow, fun k => ?_⟩
  dsimp only
  rw [counts, Tab.get_modify]
  split
  · next same => rw [same]
  · rfl

/-! VR_ALERT_N (R490). -/

/-- Levels that start again from 0. -/
theorem zero_mgr (w : Pwr) (n : Nat) : (w.zero (fun _ => true)).mgr.getD n 0 = 0 := by
  change ((List.range 11).map (fun n => if true then 0 else w.mgr.getD n 0)).getD n 0 = 0
  rw [List.getD_eq_getElem?_getD, List.getElem?_map]
  cases (List.range 11)[n]? <;> rfl

theorem vrAlertAssert_alerts {s : State} (up : s.board.rails = true) (off : s.pwr.vra = false) (groups : s.pwr.level.length = 11) :
    ∃ t, exec .vrAlertAssert s = .next t ∧ t.pwr.vra = true ∧ t.pwr.vrHold = false ∧ t.pwr.vrcount = min 255 (s.pwr.vrcount + 1) ∧
      (∀ n, n < 11 → t.level n = 0 ∧ t.pwr.mgr.getD n 0 = 0) ∧ bit t.host.irqStat 4 = true := by
  refine ⟨_, if_neg (by simp [up, off]), ?_⟩
  generalize alerted : s.setPwr _ = u
  have tells : Tells u.refreshLevels (((u.refreshLevels.pwrEvent 0x60 0).irq 4).notify 0x0004 none u.pwr.vrcount) :=
    (pwrEvent_tells ..).trans ((irq_tells ..).trans (notify_tells ..))
  obtain ⟨pwr, -⟩ := relevelled tells
  rw [notify_host, tells.level_eq, pwr]
  subst alerted
  exact ⟨rfl, rfl, rfl, fun n known => ⟨refreshLevels_forced known groups rfl, zero_mgr _ n⟩, irq_sets ..⟩

theorem vrHoldExpire_expires {s : State} {a : Nat} (released : s.pwr.vrRelease = some a) (held : s.pwr.vrHold = true) (late : a + 100000 ≤ s.now) :
    ∃ t, exec .vrHoldExpire s = .next t ∧ t.pwr.vrHold = false ∧ levelsFit t := by
  refine ⟨(s.setPwr (fun w => { w with vrHold := false, vrRelease := none })).refreshLevels, ?_, ?_, refreshLevels_fit _⟩
  · rw [show exec .vrHoldExpire s = execVrHoldExpire s from rfl, execVrHoldExpire, released]
    exact if_pos ⟨held, late⟩
  · rw [(refreshLevels_relevels _).frame]
    rfl

/-! Sensors (R491, R492). -/

theorem sensorDomain_lt (i : Nat) : sensorDomain i < 3 := by
  unfold sensorDomain
  split
  · decide
  · split
    · decide
    · split
      · decide
      · split <;> decide

/-- A reading taken: what a stack's reading does beside. -/
theorem stackHeat_heats (s : State) (i v : Nat) : ∃ a b, (s.setSensor i v).stackHeat i v =
    { s with pwr := { s.pwr with sensors := s.pwr.sensors.set i v, refresh2x := a, halved := b } } ∧
    (72 ≤ i → i < 84 → a = s.pwr.refresh2x.set (i - 72) (decide (85 < v)) ∧ b = s.pwr.halved.set (i - 72) (decide (95 < v))) := by
  unfold State.stackHeat
  split
  · exact ⟨_, _, rfl, fun _ _ => ⟨rfl, rfl⟩⟩
  · next other => exact ⟨s.pwr.refresh2x, s.pwr.halved, rfl, fun low high => absurd ⟨low, high⟩ other⟩

theorem setReadings_reads (s : State) (domain : Nat) (rs : List Nat) :
    s.setReadings domain rs = { s with pwr := { s.pwr with sensors := (s.setReadings domain rs).pwr.sensors } } :=
  foldl_rel (R := fun s t : State => t = { s with pwr := { s.pwr with sensors := t.pwr.sensors } }) (fun _ => rfl) (fun h k => by rw [k, h])
    (fun _ _ => rfl) _ _

theorem thermalThrottle_acts {sensor reading : Nat} {s : State} (known : sensor < 84) (up : s.board.rails = true) :
    let d := sensorDomain sensor
    let cap := s.pwr.therm.getD d 15
    ∃ t, exec (.thermalThrottle sensor reading) s = .next t ∧ t.pwr.sensors = s.pwr.sensors.set sensor reading ∧
      (sensor < 72 → s.pwr.throttle < reading → cap ≠ 0 → s.pwr.thermAt.getD d 0 + 100000 ≤ s.now →
        t.pwr.therm = s.pwr.therm.set d (cap - 1) ∧ t.pwr.thermAt = s.pwr.thermAt.set d s.now ∧ levelsFit t) ∧
      ((72 ≤ sensor ∨ reading ≤ s.pwr.throttle ∨ cap = 0 ∨ s.now < s.pwr.thermAt.getD d 0 + 100000) → t.pwr.therm = s.pwr.therm ∧ t.pwr.level = s.pwr.level) ∧
      (72 ≤ sensor → t.pwr.refresh2x = s.pwr.refresh2x.set (sensor - 72) (decide (85 < reading)) ∧
        t.pwr.halved = s.pwr.halved.set (sensor - 72) (decide (95 < reading))) := by
  intro d cap
  have acts : exec (.thermalThrottle sensor reading) s = _ := if_neg (by simp [known, up])
  obtain ⟨a, b, heated, stack⟩ := stackHeat_heats s sensor reading
  rw [heated] at acts
  by_cases idle : 72 ≤ sensor ∨ reading ≤ s.pwr.throttle ∨ cap = 0 ∨ s.now < s.pwr.thermAt.getD d 0 + 100000
  · exact ⟨_, acts.trans (if_pos idle), rfl, fun low hot some_ late => by omega, fun _ => ⟨rfl, rfl⟩, fun high => stack high known⟩
  · refine ⟨_, acts.trans (if_neg idle), ?_⟩
    obtain ⟨pwr, fit⟩ := relevelled (pwrEvent_tells (State.refreshLevels _) 0x63 (cap - 1))
    refine ⟨by rw [pwr]; rfl, fun _ _ _ _ => ⟨by rw [pwr]; rfl, by rw [pwr]; rfl, fit⟩, fun h => absurd h idle, fun high => absurd (.inl high) idle⟩

/-- Every stack of a domain is at or below 95 °C. -/
theorem stacksCool_iff (u : State) (domain : Nat) :
    (List.range 84).all (fun i => i < 72 || sensorDomain i != domain || decide (u.pwr.sensors.getD i 0 ≤ 95)) = true ↔
      ∀ i, i < 84 → 72 ≤ i → sensorDomain i = domain → u.pwr.sensors.getD i 0 ≤ 95 := by
  simp only [List.all_eq_true, List.mem_range, Bool.or_eq_true, decide_eq_true_eq, bne_iff_ne]
  refine forall₂_congr fun i _ => ⟨fun h high here => ?_, fun h => ?_⟩
  · rcases h with (low | other) | cold
    · omega
    · exact absurd here other
    · exact cold
  · rcases Nat.lt_or_ge i 72 with low | high
    · exact .inl (.inl low)
    · by_cases here : sensorDomain i = domain
      · exact .inr (h high here)
      · exact .inl (.inr here)

section
variable {domain : Nat} {rs : List Nat} {s u : State} (known : domain < 3) (up : s.board.rails = true) (read : s.setReadings domain rs = u)
include known up read

theorem thermalCapRise_acts : exec (.thermalCapRise domain rs) s =
    if 15 ≤ u.pwr.therm.getD domain 15 ∨ (!u.coolTo domain (u.pwr.throttle - 5)) = true ∨ u.now < u.pwr.thermAt.getD domain 0 + 1000000 then .next u
    else .next (((u.setPwr (fun w => { w with
      therm := w.therm.set domain (u.pwr.therm.getD domain 15 + 1), thermAt := w.thermAt.set domain u.now })).refreshLevels).pwrEvent 0x63
        (u.pwr.therm.getD domain 15 + 1)) := by
  subst read
  exact if_neg (by simp [known, up])

theorem thermalTripClear_acts : exec (.thermalTripClear domain rs) s =
    if (!(u.pwr.tripped.getD domain false)) = true ∨ (!u.coolTo domain (u.pwr.trip - 10)) = true ∨
      (!(List.range 84).all (fun i => i < 72 || sensorDomain i != domain || decide (u.pwr.sensors.getD i 0 ≤ 95))) = true then .next u
    else .next ((u.setPwr (fun w => { w with tripped := w.tripped.set domain false })).refreshLevels) := by
  subst read
  exact if_neg (by simp [known, up])

/-- A cool domain's cap rises (R491). -/
theorem thermalCapRise_judges : let cap := s.pwr.therm.getD domain 15
    let rises := cap < 15 ∧ u.coolTo domain (s.pwr.throttle - 5) = true ∧ s.pwr.thermAt.getD domain 0 + 1000000 ≤ s.now
    (¬ rises → exec (.thermalCapRise domain rs) s = .next u) ∧
    (rises → ∃ t, exec (.thermalCapRise domain rs) s = .next t ∧ t.pwr.sensors = u.pwr.sensors ∧
      t.pwr.therm = s.pwr.therm.set domain (cap + 1) ∧ t.pwr.thermAt = s.pwr.thermAt.set domain s.now ∧ levelsFit t) := by
  intro cap rises
  have acts := thermalCapRise_acts known up read
  have frame := read ▸ setReadings_reads s domain rs
  have same : u.pwr.therm = s.pwr.therm ∧ u.pwr.thermAt = s.pwr.thermAt ∧ u.pwr.throttle = s.pwr.throttle ∧ u.now = s.now := by
    rw [frame]; exact ⟨rfl, rfl, rfl, rfl⟩
  obtain ⟨therm, thermAt, throttle, now⟩ := same
  rw [therm, thermAt, throttle, now] at acts
  refine ⟨fun not_ => acts.trans (if_pos ?_), fun ⟨low, cool, late⟩ => ⟨_, acts.trans (if_neg ?_), ?_⟩⟩
  · by_contra h
    refine not_ ⟨by omega, ?_, by omega⟩
    by_contra warm
    exact h (.inr (.inl (by simpa using warm)))
  · rintro (h | h | h)
    · omega
    · simp [cool] at h
    · omega
  · obtain ⟨pwr, fit⟩ := relevelled (pwrEvent_tells (State.refreshLevels _) 0x63 (cap + 1))
    exact ⟨by rw [pwr]; rfl, by rw [pwr]; exact congrArg (List.set · domain (cap + 1)) therm,
      by rw [pwr]; exact congrArg (List.set · domain s.now) thermAt, fit⟩

/-- A domain that has cooled down is tripped no longer (R491). -/
theorem thermalTripClear_judges : let cool := s.pwr.tripped.getD domain false = true ∧ u.coolTo domain (s.pwr.trip - 10) = true ∧
      ∀ i, i < 84 → 72 ≤ i → sensorDomain i = domain → u.pwr.sensors.getD i 0 ≤ 95
    (¬ cool → exec (.thermalTripClear domain rs) s = .next u) ∧
    (cool → ∃ t, exec (.thermalTripClear domain rs) s = .next t ∧ t.pwr.sensors = u.pwr.sensors ∧
      t.pwr.tripped = s.pwr.tripped.set domain false ∧ levelsFit t) := by
  intro cool
  have acts := thermalTripClear_acts known up read
  have frame := read ▸ setReadings_reads s domain rs
  have same : u.pwr.tripped = s.pwr.tripped ∧ u.pwr.trip = s.pwr.trip := by rw [frame]; exact ⟨rfl, rfl⟩
  obtain ⟨tripped, trip⟩ := same
  rw [tripped, trip] at acts
  have cooledIff := stacksCool_iff u domain
  refine ⟨fun not_ => acts.trans (if_pos ?_), fun holds => ?_⟩
  · by_contra h
    simp only [not_or, Bool.not_eq_true', Bool.not_eq_false] at h
    exact not_ ⟨h.1, h.2.1, cooledIff.mp h.2.2⟩
  obtain ⟨hot, cooled, stack⟩ := holds
  refine ⟨_, acts.trans (if_neg ?_), ?_⟩
  · rintro (h | h | h)
    · rw [hot] at h
      cases h
    · simp [cooled] at h
    · simp only [cooledIff.mpr stack] at h
      cases h
  · obtain ⟨pwr, fit⟩ := relevelled (u := u.setPwr (fun w => { w with tripped := w.tripped.set domain false })) (.refl _)
    exact ⟨by rw [pwr]; rfl, by rw [pwr]; exact congrArg (List.set · domain false) tripped, fit⟩

end

theorem forced_of_tripped {s : State} {n d : Nat} (mem : d ∈ s.domainsOf n) (tripped : s.pwr.tripped.getD d false = true) : s.forced n = true := by
  have any : (s.domainsOf n).any (fun d => s.pwr.tripped.getD d false) = true := List.any_eq_true.mpr ⟨d, mem, tripped⟩
  unfold State.forced
  rw [any]
  simp

/-- A sensor above its trip takes its domain to level 0 (R491, R492). -/
theorem thermalTrip_acts {sensor reading : Nat} {s : State} (known : sensor < 84) (up : s.board.rails = true) :
    let d := sensorDomain sensor
    let trip := if sensor < 72 then s.pwr.trip else 105
    ∃ t, exec (.thermalTrip sensor reading) s = .next t ∧ t.pwr.sensors = s.pwr.sensors.set sensor reading ∧
      ((reading ≤ trip ∨ s.pwr.tripped.getD d false = true) → t.pwr.tripped = s.pwr.tripped ∧ t.pwr.level = s.pwr.level) ∧
      (trip < reading → s.pwr.tripped = [false, false, false] → s.pwr.level.length = 11 →
        t.pwr.tripped = [false, false, false].set d true ∧ levelsFit t ∧ ∀ n, n < 11 → d ∈ s.domainsOf n → t.level n = 0) := by
  intro d trip
  have acts : exec (.thermalTrip sensor reading) s = _ := if_neg (by simp [known, up])
  obtain ⟨a, b, heated, -⟩ := stackHeat_heats s sensor reading
  rw [heated] at acts
  by_cases idle : reading ≤ trip ∨ s.pwr.tripped.getD d false = true
  · exact ⟨_, acts.trans (if_pos idle), rfl, fun _ => ⟨rfl, rfl⟩, fun hot none_ _ => idle.elim (fun h => by omega) fun h => by
      rw [none_] at h
      exact absurd h (by match d with | 0 | 1 | 2 | _ + 3 => simp)⟩
  · refine ⟨_, acts.trans (if_neg idle), ?_⟩
    dsimp only
    generalize tripped : State.setPwr (State.setPwr _ _) _ = u
    have tells : Tells u.refreshLevels ((u.refreshLevels.pwrEvent 0x63 0).notify 0x0005 none (u.refreshLevels.hottest % 256)) :=
      (pwrEvent_tells ..).trans (notify_tells ..)
    obtain ⟨pwr, fit⟩ := relevelled tells
    rw [tells.level_eq, pwr]
    subst tripped
    refine ⟨rfl, fun h => absurd h idle, fun _ none_ groups => ⟨congrArg (List.set · d true) none_, fit, fun n known mem => ?_⟩⟩
    have set : ∀ d, d < 3 → (([false, false, false] : List Bool).set d true).getD d false = true := by decide
    exact refreshLevels_forced known groups (forced_of_tripped (d := d) mem ((congrArg (fun l : List Bool => (l.set d true).getD d false) none_).trans
      (set d (sensorDomain_lt sensor))))

/-! Overwintering (R497, R498). -/

theorem forced_of_overwintering {s : State} (off : s.pwr.ow = .overwintering) (n : Nat) : s.forced n = true := by
  unfold State.forced
  rw [off]
  simp

theorem overwinterReached_reaches {s : State} (entering : s.pwr.ow = .entering) (idle : ∀ q, (s.queue q).running = none)
    (groups : s.pwr.level.length = 11) : ∃ t, exec .overwinterReached s = .next t ∧ t.pwr.ow = .overwintering ∧
      t.mem = { s.mem with selfRefresh := true, wokenUntil := none } ∧ (∀ n, n < 11 → t.level n = 0) ∧ t.queues = s.queues ∧ t.kv = s.kv ∧
      ∀ r, r < s.regions.length → t.region r = { s.region r with
        rlc := [], plans := [], walk := none, clkAt := (t.region r).clkAt, clkUnits := (t.region r).clkUnits } := by
  refine ⟨_, if_neg (by simp [entering, idle]), ?_⟩
  dsimp only
  generalize reached : ({ s.setPwr _ with mem := _, regions := _ } : State) = u
  have levels := refreshLevels_relevels u
  have pwr : u.refreshLevels.pwr.ow = u.pwr.ow := by rw [levels.frame]
  have regions := levels.region
  rw [pwr, levels.mem_eq, levels.queues_eq, levels.kv_eq]
  subst reached
  refine ⟨rfl, rfl, fun n known => refreshLevels_forced known groups (forced_of_overwintering rfl n), rfl, rfl, fun r here => ?_⟩
  · rw [regions r]
    simp [State.region, State.setPwr, here]

/-- Partitions that lose their alignment, one after the other. -/
theorem foldl_loseAlign (ps : List Nat) (s : State) :
    let t := ps.foldl (fun (s : State) p => if (s.partRec p).valid ∧ (s.partRec p).det then s.loseAlign p else s) s
    Relevels s t ∧ t.pwr = s.pwr ∧ ∀ p, p < s.parts.length → (p ∈ ps ∧ (s.partRec p).valid = true ∧ (s.partRec p).det = true) ∨
      (s.part p).needAlign = true → (t.part p).needAlign = true := by
  induction ps generalizing s with
  | nil => exact ⟨.refl s, rfl, fun p _ h => h.resolve_left fun h => List.not_mem_nil h.1⟩
  | cons k ps ih =>
    have step : ∃ u, (if (s.partRec k).valid ∧ (s.partRec k).det then s.loseAlign k else s) = u ∧ Relevels s u ∧ u.pwr = s.pwr ∧
        ∀ p, p < s.parts.length → (p = k ∧ (s.partRec p).valid = true ∧ (s.partRec p).det = true) ∨ (s.part p).needAlign = true →
          (u.part p).needAlign = true := by
      refine ⟨_, rfl, ?_⟩
      split
      · refine ⟨loseAlign_relevels s k, rfl, fun p here due => ?_⟩
        by_cases same : p = k
        · rw [same, State.loseAlign, part_setPart s k _ (same ▸ here)]
        · rw [State.loseAlign, part_setPart_ne s k _ same]
          exact due.resolve_left fun h => same h.1
      · next other => exact ⟨.refl s, rfl, fun p _ due => due.resolve_left fun h => other (h.1 ▸ h.2)⟩
    obtain ⟨u, stepped, changes, pwr, lost⟩ := step
    obtain ⟨later, pwr2, rest⟩ := ih u
    rw [List.foldl_cons, stepped]
    refine ⟨changes.trans later, pwr2.trans pwr, fun p here due => rest p (by rw [changes.partCount]; exact here) ?_⟩
    rw [changes.partRec_eq]
    rcases due with ⟨mem, due⟩ | due
    · rcases List.mem_cons.mp mem with here_ | later
      · exact .inr (lost p here (.inl ⟨here_, due⟩))
      · exact .inl ⟨later, due⟩
    · exact .inr (lost p here (.inr due))

/-- The restore ramp, after which every deterministic partition is to be aligned. -/
theorem ramp_loseAllAlign (s : State) : s.ramp.loseAllAlign.pwr.ow = s.pwr.ow ∧ s.ramp.loseAllAlign.mem = s.mem ∧ levelsFit s.ramp.loseAllAlign ∧
    ∀ p, p < 8 → p < s.parts.length → (s.partRec p).valid = true → (s.partRec p).det = true → (s.ramp.loseAllAlign.part p).needAlign = true := by
  obtain ⟨frame, -, -, partCount, fit⟩ := ramp_ramps s
  generalize s.ramp = v at *
  obtain ⟨ow, mem, partRec⟩ : v.pwr.ow = s.pwr.ow ∧ v.mem = s.mem ∧ v.partRec = s.partRec := by rw [frame]; exact ⟨rfl, rfl, rfl⟩
  have lost := foldl_loseAlign (List.range 8) v
  rw [State.loseAllAlign]
  generalize List.foldl _ v (List.range 8) = t at lost
  obtain ⟨changes, pwr, lost⟩ := lost
  refine ⟨(congrArg Pwr.ow pwr).trans ow, changes.mem_eq.trans mem, fun n known here => ?_, fun p known here valid det => ?_⟩
  · exact changes.fits (by rw [State.level, State.level, pwr]) (fit n known (by rw [← changes.groups]; exact here))
  · exact lost p (by rw [partCount]; exact here) (.inl ⟨List.mem_range.mpr known, by rw [partRec]; exact ⟨valid, det⟩⟩)

theorem wakeComplete_wakes {s : State} (waking : s.pwr.ow = .waking) : ∃ t, exec .wakeComplete s = .next t ∧ t.pwr.ow = .serving ∧
    t.mem = { s.mem with selfRefresh := false, wokenUntil := none } ∧ levelsFit t ∧
    ∀ p, p < 8 → p < s.parts.length → (s.partRec p).valid = true → (s.partRec p).det = true → (t.part p).needAlign = true := by
  have acts : exec .wakeComplete s = _ := if_neg (not_not.mpr waking)
  dsimp only [State.setPwr] at acts
  exact ⟨_, acts, ramp_loseAllAlign _⟩

/-! The retention scrub (R498). -/

/-- The newest entry of the log is of the tier of the error that was logged. -/
theorem logError_tier {s : State} {addr tier source : Nat} {part : Option Nat} {ctx seq queue : Nat} {e : ErrEntry}
    (newest : (s.logError addr tier source part ctx seq queue).mem.errlog.head? = some e) : e.tier = tier := by
  have raised (u : State) : (u.irq 0).mem = u.mem := by
    obtain ⟨o, h, raised⟩ := irq_eq u 0
    rw [raised]
  unfold State.logError State.logErrorAt at newest
  dsimp only at newest
  split at newest
  · split at newest
    · next joins =>
      obtain rfl := Option.some.inj newest
      simp only [ErrEntry.joins, Bool.and_eq_true, beq_iff_eq] at joins
      exact joins.1.2
    · rw [raised] at newest
      obtain rfl := Option.some.inj newest
      rfl
  · rw [raised] at newest
    obtain rfl := Option.some.inj newest
    rfl

theorem retentionScrub_scrubs {s : State} (off : s.pwr.ow = .overwintering) (bs : List (Nat × Nat)) (n : Nat) :
    exec (.retentionScrub bs n) s = .next (bs.foldl (fun (s : State) b => s.logError b.1 b.2 3 none 0 0 0) s) := if_neg (not_not.mpr off)

theorem retentionScrub_nil (s : State) (n : Nat) : exec (.retentionScrub [] n) s = .next s := ite_self _

theorem retentionScrub_cons {s : State} (off : s.pwr.ow = .overwintering) (b : Nat × Nat) (bs : List (Nat × Nat)) (n : Nat) :
    ∃ u, exec (.retentionScrub [b] n) s = .next u ∧ exec (.retentionScrub (b :: bs) n) s = exec (.retentionScrub bs n) u := by
  refine ⟨_, retentionScrub_scrubs off [b] n, ?_⟩
  rw [retentionScrub_scrubs off, retentionScrub_scrubs]
  · rfl
  · obtain ⟨r, l, k, o, h, logged⟩ := logError_eq s b.1 b.2 3 none 0 0 0
    rw [List.foldl_cons, logged]
    exact off

theorem retentionScrub_logs {s : State} (off : s.pwr.ow = .overwintering) (a tier n : Nat) :
    ∃ t, exec (.retentionScrub [(a, tier)] n) s = .next t ∧
      t = { s with mem := { s.mem with errlog := t.mem.errlog, errLost := t.mem.errLost }, obs := t.obs, host := t.host, out := t.out } ∧
      ∃ e, t.mem.errlog.head? = some e ∧ e.addr ≤ a ∧ e.source = 3 ∧ e.tier = tier ∧ e.last = s.now := by
  refine ⟨_, retentionScrub_scrubs off _ n, ?_, ?_⟩
  · obtain ⟨r, l, k, o, h, logged⟩ := logError_eq s a tier 3 none 0 0 0
    change s.logError a tier 3 none 0 0 0 = _
    dsimp only [List.foldl]
    rw [logged]
  · obtain ⟨e, newest, addr, source, last⟩ := logError_newest s a tier 3 none 0 0 0
    exact ⟨e, newest, addr, source, logError_tier newest, last⟩

/-! The writes of PWR_OW_CTRL (Table 17-16). -/

section
variable {rq : Requester} {s : State} (may : s.mayWrite rq 0xE0018)
include may

theorem owEnter_acts : exec (.owEnter rq) s =
    .next (if s.pwr.ow = .serving then s.setPwr (fun w => { w with ow := .entering }) else s.discard 0x21 0xE0018) := by
  rw [show exec (.owEnter rq) s = execOwEnter rq s from rfl, execOwEnter, owOff, regWrite_mayWrite may]

theorem wake_wakes (asleep : s.pwr.ow = .entering ∨ s.pwr.ow = .overwintering) :
    exec (.wake rq) s = .next { s with pwr := { s.pwr with ow := .waking } } := by
  rw [show exec (.wake rq) s = execWake rq s from rfl, execWake, owOff, regWrite_mayWrite may]
  rcases asleep with h | h <;> simp only [h, State.wakeUp]

theorem wake_refuses (awake : s.pwr.ow = .serving ∨ s.pwr.ow = .waking) : exec (.wake rq) s = .next (s.discard 0x21 0xE0018) := by
  rw [show exec (.wake rq) s = execWake rq s from rfl, execWake, owOff, regWrite_mayWrite may]
  rcases awake with h | h <;> simp only [h]

end

/-- Settles O53: each event of power, heat and overwintering by what it finds. -/
theorem alertsHeatAndOverwinteringAct : Obligations.AlertsHeatAndOverwinteringAct := by
  refine ⟨fun island mv s => ⟨fun small => if_pos small, droopDetect_stretches⟩, fun island s => ?persist,
    fun s => ⟨vrAlertAssert_alerts, fun alert => ⟨if_pos (.inr alert), if_pos alert⟩, fun off => if_neg (by simp [off]),
      fun a released held => ⟨fun soon => ?hold, vrHoldExpire_expires released held⟩⟩,
    fun sensor reading s => thermalThrottle_acts, fun domain rs s known up => ?cool, fun sensor reading s => thermalTrip_acts,
    fun island n slack s up => ?trim, fun rq s may => ⟨fun serving => ?enter, fun other => ?noEnter, wake_wakes may, wake_refuses may⟩,
    fun s => ⟨overwinterReached_reaches, fun waits => ?waits, wakeComplete_wakes, fun other => if_pos other, retentionScrub_nil s,
      fun b bs n off => retentionScrub_cons off b bs n, fun a tier n off => retentionScrub_logs off a tier n, fun a woken refreshes => ?refresh⟩⟩
  case persist =>
    obtain ⟨d, acts⟩ : ∃ d, exec (.droopPersist island) s =
      .next (s.event (if island / 2 ^ 12 = 1 then island + 2 ^ 12 else island) 0x62 none none d) := ⟨_, rfl⟩
    obtain ⟨r, told⟩ := event_eq s (if island / 2 ^ 12 = 1 then island + 2 ^ 12 else island) 0x62 none none d
    exact ⟨_, acts, by rw [told], fun open_ => event_newest open_ ..⟩
  case hold =>
    rw [show exec .vrHoldExpire s = execVrHoldExpire s from rfl, execVrHoldExpire, released]
    exact if_neg fun h => by omega
  case cool =>
    intro u cap rises cool
    obtain ⟨rise, raised⟩ := thermalCapRise_judges known up (rfl : s.setReadings domain rs = u)
    obtain ⟨stay, clears⟩ := thermalTripClear_judges known up (rfl : s.setReadings domain rs = u)
    exact ⟨setReadings_reads s domain rs, rise, raised, stay, clears⟩
  case trim =>
    exact ⟨fun more most => if_neg (by simp [up]; omega), fun other => if_pos (other.elim .inl fun h => .inr (.inl h))⟩
  case enter =>
    rw [owEnter_acts may, if_pos serving]
    rfl
  case noEnter => rw [owEnter_acts may, if_neg other]
  case waits =>
    refine if_pos (waits.imp_right fun ⟨q, known, runs⟩ => ?_)
    exact List.any_eq_true.mpr ⟨q, List.mem_range.mpr known, runs⟩
  case refresh =>
    rw [show exec .selfRefreshReenter s = execSelfRefreshReenter s from rfl, execSelfRefreshReenter, woken]
    exact ⟨fun due => if_pos ⟨refreshes, due⟩, fun soon => if_neg fun h => by omega⟩

end Sys2Proof.Machine
end

section
/-! SUPPORT. Barriers (R460 to R467): generations of a barrier, arrivals joined and passed on, releases applied; and the settlement of
O51. -/
namespace Sys2Proof.Machine

/-! The generations of a barrier. -/

theorem genOf_gen (b : Bar) (k : Nat) : (b.genOf k).gen = k := by
  unfold Bar.genOf
  cases found : b.gens.find? (fun g => g.gen == k) with
  | none => rfl
  | some g => simpa using List.find?_some found

theorem genOf_of_find {b : Bar} {k : Nat} {g : BarGen} (found : b.gens.find? (fun y => y.gen == k) = some g) : b.genOf k = g := by
  rw [Bar.genOf, found]
  rfl

theorem genOf_putGen (b : Bar) (g : BarGen) : (b.putGen g).genOf g.gen = g := by
  have gone : (b.gens.filter (fun x => x.gen != g.gen)).find? (fun y => y.gen == g.gen) = none :=
    List.find?_eq_none.mpr fun x mem => by simpa using (List.mem_filter.mp mem).2
  apply genOf_of_find
  rw [Bar.putGen, List.find?_append, gone]
  simp

theorem dropGen_drops (b : Bar) (k : Nat) : ∀ y ∈ (b.dropGen k).gens, y.gen ≠ k := fun y mem => by
  simpa using (List.mem_filter.mp mem).2

theorem bar_setBar (s : State) (key : Nat) (b : Bar) (j : Nat) : (s.setBar key b).bar j = if j = key then b else s.bar j := by
  unfold State.bar State.setBar
  dsimp only
  rw [Tab.get_set]

theorem bar_setBar_self (s : State) (key : Nat) (b : Bar) : (s.setBar key b).bar key = b := (bar_setBar ..).trans (if_pos rfl)

theorem bar_setBar_ne (s : State) {key j : Nat} (b : Bar) (other : j ≠ key) : (s.setBar key b).bar j = s.bar j :=
  (bar_setBar ..).trans (if_neg other)

/-! Arrivals (R462). -/

/-- Generation g with n more members counted in. -/
def BarGen.Joined (g y : BarGen) (n : Nat) : Prop :=
  y = { g with members := g.members + n, earliest := y.earliest, latest := y.latest, last := y.last, level := y.level }

theorem join_joins (g : BarGen) (n lo hi last level : Nat) (newer : Bool) : g.Joined (g.join n lo hi last level newer) n := by
  unfold BarGen.join BarGen.Joined
  split
  · next none_ => rw [none_, Nat.zero_add]
  · rfl

theorem joinGen_joins {s : State} {g : BarGen} {n lo hi last level : Nat} {z : BarGen × State} (arrived : s.joinGen g n lo hi last level = z) :
    ∃ m, z.2 = { s with fresh := m } ∧ g.Joined z.1 n := by
  subst arrived
  unfold State.joinGen
  split
  · exact ⟨_, rfl, join_joins ..⟩
  · exact ⟨s.fresh, rfl, join_joins ..⟩

/-- RELEASE messages to the children leave the barriers and the queues as they are. -/
theorem sendRelease_originates (s : State) (r : RoutingRec) (bid : Nat) (g : BarGen) (rel : Rel) : Originates s (s.sendRelease r bid g rel) :=
  foldl_rel .refl .trans (fun s _ => originate_originates s _) _ _

/-- From s to t generation g of a barrier has been put, and what follows from its being complete. -/
structure PassesOn (s t : State) (r : RoutingRec) (bid : Nat) (g y : BarGen) : Prop where
  put : t.bar (barKey r.plot bid) = (s.bar (barKey r.plot bid)).putGen y
  other : ∀ j, j ≠ barKey r.plot bid → t.bar j = s.bar j
  same : y = { g with sent := y.sent, rel := y.rel }
  queues : t.queues = s.queues
  slots : t.slots = s.slots
  complete : g.own = true → g.sent = false → g.members = r.barSize → y.sent = true ∧
    (r.barRoot = true → ∃ rel, y.rel = some rel ∧ rel.rt = s.now + r.barLead * 1000 ∧ rel.strag = y.last)

theorem rootRelease_releases (s : State) (r : RoutingRec) (g : BarGen) : ∃ rel m, s.rootRelease r g = (rel, { s with fresh := m }) ∧
    rel.rt = s.now + r.barLead * 1000 ∧ rel.strag = g.last := by
  unfold State.rootRelease
  dsimp only
  split
  · exact ⟨_, s.fresh, rfl, rfl, rfl⟩
  · exact ⟨_, _, rfl, rfl, rfl⟩

/-- A generation put, and messages sent of it. -/
theorem passesOn_of_put {s t : State} {r : RoutingRec} {bid : Nat} {g y : BarGen} (m : Nat)
    (sent : Originates (({ s with fresh := m } : State).setBar (barKey r.plot bid) ((s.bar (barKey r.plot bid)).putGen y)) t)
    (same : y = { g with sent := y.sent, rel := y.rel })
    (complete : g.own = true → g.sent = false → g.members = r.barSize → y.sent = true ∧
      (r.barRoot = true → ∃ rel, y.rel = some rel ∧ rel.rt = s.now + r.barLead * 1000 ∧ rel.strag = y.last)) : PassesOn s t r bid g y where
  put := by
    rw [sent.frame]
    exact bar_setBar_self ({ s with fresh := m } : State) _ _
  other j hj := by
    rw [sent.frame]
    exact bar_setBar_ne ({ s with fresh := m } : State) _ hj
  same := same
  queues := by rw [sent.frame]; rfl
  slots := by rw [sent.frame]; rfl
  complete := complete

theorem passOn_passes (s : State) (r : RoutingRec) (bid : Nat) (g : BarGen) : ∃ y, PassesOn s (s.passOn r bid g) r bid g y := by
  unfold State.passOn
  dsimp only
  split
  · next short =>
    exact ⟨g, passesOn_of_put s.fresh (.refl _) rfl fun own sent members => by simp [own, sent, members] at short⟩
  · split
    · obtain ⟨rel, m, released, rt, strag⟩ := rootRelease_releases s r g
      rw [released]
      exact ⟨_, passesOn_of_put m (sendRelease_originates ..) rfl fun _ _ _ => ⟨rfl, fun _ => ⟨rel, rfl, rt, strag⟩⟩⟩
    · next child =>
      exact ⟨_, passesOn_of_put s.fresh (originate_originates ..) rfl fun _ _ _ => ⟨rfl, fun root => absurd root child⟩⟩

/-! BARRIER (R460, R462). -/

/-- This module has arrived at the next generation, and its BARRIER waits outside its slot. -/
structure Arrived (s t : State) (q : Nat) (r : RoutingRec) (x : Running) (f : BarrierF) (k : Nat) (old g : BarGen) : Prop where
  next : (t.bar (barKey r.plot f.bid)).next = k
  gen : (t.bar (barKey r.plot f.bid)).genOf k = g
  own : g.own = true
  queue : g.queue = some q
  members : g.members = old.members + 1
  kids : g.kids = old.kids
  complete : old.members + 1 = r.barSize → old.sent = false → g.sent = true ∧
    (r.barRoot = true → ∃ rel, g.rel = some rel ∧ rel.rt = s.now + r.barLead * 1000 ∧ rel.strag = g.last)
  other : ∀ j, j ≠ barKey r.plot f.bid → t.bar j = s.bar j
  queues : ∀ j, j ≠ q → t.queue j = s.queue j
  slots : ∀ u ∈ t.slots, u.sel ≠ some q
  waits : t.queue q = { s.queue q with
    running := some { x with started := true, waitUntil := if f.timeout = 0 then none else some (s.now + f.timeout * 1000) } }

section
variable {q : Nat} {f : BarrierF} {x : Running} {ctx p : Nat} {s : State} (may : s.mayRun q (.barrier f) x ctx p)
include may

theorem barrier_denied (none_ : s.plotOf p = none) : exec (.barrier q f) s = .next (s.completeOk q .denied) := by
  rw [show exec (.barrier q f) s = execBarrier q f s from rfl, execBarrier, runCmd_runs may]
  dsimp only
  rw [none_]

theorem barrier_arrives {r : RoutingRec} (plotted : s.plotOf p = some r) : ∃ t, exec (.barrier q f) s = .next t ∧
    ∃ g, Arrived s t q r x f (((s.bar (barKey r.plot f.bid)).next + 1) % 2 ^ 32)
      ((s.bar (barKey r.plot f.bid)).genOf (((s.bar (barKey r.plot f.bid)).next + 1) % 2 ^ 32)) g := by
  have acts : exec (.barrier q f) s = _ := (show _ = execBarrier q f s from rfl).trans (by rw [execBarrier, runCmd_runs may])
  dsimp only at acts
  rw [plotted] at acts
  obtain ⟨tr, n, traced⟩ := strace_eq s 3 p f.bid 0 q
  rw [traced] at acts
  obtain ⟨waited, slots, others, queue⟩ := waitOutside_waits
    (s := { s with sync := { s.sync with trace := tr, count := n } }) (q := q) (x := x) may.1 f.timeout
  dsimp only at acts
  generalize State.waitOutside _ q f.timeout = w at acts waited slots others queue
  obtain ⟨bars, now⟩ : w.bar = s.bar ∧ w.now = s.now := by rw [waited]; exact ⟨rfl, rfl⟩
  generalize arrived : State.joinGen _ _ 1 _ _ _ _ = z at acts
  obtain ⟨m, fresh, joined⟩ := joinGen_joins arrived
  rw [bar_setBar_self] at joined
  obtain ⟨y, put, other, same, passed, kept, complete⟩ := passOn_passes z.2 r f.bid { z.1 with own := true, queue := some q }
  have bar : z.2.bar (barKey r.plot f.bid) = { s.bar (barKey r.plot f.bid) with next := ((s.bar (barKey r.plot f.bid)).next + 1) % 2 ^ 32 } := by
    rw [fresh]
    exact bar_setBar_self ..
  have gen : y.gen = ((s.bar (barKey r.plot f.bid)).next + 1) % 2 ^ 32 := by
    rw [same, joined]
    exact genOf_gen ..
  have now' : z.2.now = s.now := by rw [fresh]; exact now
  have queues : z.2.queues = w.queues ∧ z.2.slots = w.slots := by rw [fresh]; exact ⟨rfl, rfl⟩
  have listed : State.queue (z.2.passOn r f.bid { z.1 with own := true, queue := some q }) = w.queue := by
    unfold State.queue
    rw [passed, queues.1]
  refine ⟨_, acts, y, ?_, ?_, by rw [same], by rw [same], by rw [same, joined]; rfl, by rw [same, joined]; rfl, fun all unsent => ?_, fun j hj => ?_,
    fun j hj => ?_, ?_, ?_⟩
  · rw [put, bar]
    rfl
  · rw [put, ← gen]
    exact genOf_putGen ..
  · rw [now'] at complete
    exact complete rfl (by rw [joined]; exact unsent) (by rw [joined]; exact all)
  · rw [other j hj, fresh]
    exact (bar_setBar_ne _ _ hj).trans (congrFun bars j)
  · rw [listed]
    exact others j hj
  · rw [kept, queues.2]
    exact slots
  · rw [listed]
    exact queue

end

/-! ARRIVE (R462). -/

/-- A message that is done with leaves the barriers and the queues as they are. -/
theorem rxDone_sync (s : State) (port : Nat) (x : RxMsg) : (s.rxDone port x).bar = s.bar ∧ (s.rxDone port x).queues = s.queues := by
  obtain ⟨ls, o, done⟩ := rxDone_eq s port x
  rw [done]
  exact ⟨rfl, rfl⟩

/-! A release applied (R464, R468, R469). -/

/-- From s to t what is written of a release: traces, events, notifications and the pace cap. -/
structure Notes (s t : State) : Prop where
  queues : t.queues = s.queues
  bars : t.sync.bars = s.sync.bars

theorem Notes.refl (s : State) : Notes s s := ⟨rfl, rfl⟩

theorem Notes.trans {s t u : State} (h : Notes s t) (k : Notes t u) : Notes s u := ⟨k.queues.trans h.queues, k.bars.trans h.bars⟩

theorem Tells.notes {s t : State} (h : Tells s t) : Notes s t := by
  rw [h.frame]
  exact ⟨rfl, rfl⟩

theorem straceEntry_notes (s : State) (e : STrace) : Notes s (s.straceEntry e) := by
  obtain ⟨t, k, traced⟩ := straceEntry_eq s e
  rw [traced]
  exact ⟨rfl, rfl⟩

theorem Relevels.notes {s t : State} (h : Relevels s t) : Notes s t := by
  rw [h.frame]
  exact ⟨rfl, rfl⟩

theorem nameStraggler_notes (s : State) (r : RoutingRec) (p bid q skew : Nat) (rel : Rel) : Notes s (s.nameStraggler r p bid q skew rel) := by
  unfold State.nameStraggler
  split
  · exact .refl s
  · dsimp only
    split
    · exact (straceEntry_notes ..).trans ((event_tells ..).notes.trans (notify_tells ..).notes)
    · exact (straceEntry_notes ..).trans (event_tells ..).notes

theorem setPace_notes (s : State) (r : RoutingRec) (p bid pace : Nat) : Notes s (s.setPace r p bid pace) := by
  unfold State.setPace
  split
  · exact .refl s
  · exact (⟨rfl, rfl⟩ : Notes s (s.setPart p { s.part p with paceCap := pace })).trans ((refreshLevels_relevels _).notes.trans
      ((straceEntry_notes ..).trans ((event_tells ..).notes.trans (notify_tells ..).notes)))

theorem closeCmd_running (s : State) (q : Nat) (w : ComplWrite) : ((s.closeCmd q w).queue q).running = none := by
  have pushed : (({ s.queue q with running := none, granted := false } : Queue).pushCompletion w).running = none := by
    unfold Queue.pushCompletion
    split <;> rfl
  unfold State.closeCmd
  dsimp only
  generalize Queue.pushCompletion _ w = y at pushed ⊢
  split
  · rw [State.stateVector, (vector_step _ q _).2, queue_setQueue_self]
    exact pushed
  · rw [queue_setQueue_self]
    exact pushed

/-- A command that has its outcome ends, or waits for its last remote writes (R389). -/
theorem endCmdAt_ends (s : State) (q tend estimate : Nat) : (s.endCmdAt q tend estimate).sync = s.sync ∧
    (∀ k, k ≠ q → (s.endCmdAt q tend estimate).queue k = s.queue k) ∧ ∀ y, (s.queue q).running = some y →
      (y.owed = 0 → ((s.endCmdAt q tend estimate).queue q).running = none) ∧
      (y.owed ≠ 0 → ((s.endCmdAt q tend estimate).queue q).running = some { y with ending := some tend }) := by
  unfold State.endCmdAt
  split
  · next idle => exact ⟨rfl, fun _ _ => rfl, fun y runs => by rw [idle] at runs; cases runs⟩
  · next x runs =>
    split
    · next paid =>
      rw [finish_closes runs]
      obtain ⟨frame, -, -⟩ := releaseCmd_releases s q x tend estimate
      generalize s.releaseCmd q x tend estimate = u at frame ⊢
      generalize s.endRecord q x tend estimate = w
      have closes := closeCmd_step u q w
      obtain ⟨settles, settled⟩ := settle_settles (u.closeCmd q w) q
      have none_ := closeCmd_running u q w
      have step := closes.trans settles
      generalize (u.closeCmd q w).settle q = t at *
      refine ⟨by rw [step.frame, frame], fun k hk => (step.other k hk).trans (by rw [frame]; rfl), fun y again =>
        ⟨fun _ => by rw [settled.same]; exact none_, fun owes => ?_⟩⟩
      obtain rfl := Option.some.inj (runs.symm.trans again)
      exact absurd paid owes
    · next owes =>
      refine ⟨rfl, fun k hk => queue_setQueue_ne s hk _, fun y again => ?_⟩
      obtain rfl := Option.some.inj (runs.symm.trans again)
      exact ⟨fun paid => absurd paid owes, fun _ => by rw [queue_setQueue_self]⟩

/-- From s to t generation g has been dropped from its barrier, and its waiting BARRIER ended at the release's time. -/
structure Applied (s t : State) (key : Nat) (g : BarGen) (rt : Nat) : Prop where
  drop : t.bar key = (s.bar key).dropGen g.gen
  other : ∀ j, j ≠ key → t.bar j = s.bar j
  queues : ∀ j, g.queue ≠ some j → t.queue j = s.queue j
  ends : ∀ j y, g.queue = some j → (s.queue j).running = some y → (y.owed = 0 → (t.queue j).running = none) ∧
    (y.owed ≠ 0 → (t.queue j).running = some { y with first := 0xFFFF, ending := some rt })

/-- The BARRIER of queue q ended at a release's time. -/
theorem endAtRelease_ends (s : State) (q p rt : Nat) : let t := ((s.modRunning q (fun y => { y with first := 0xFFFF })).endCmdAt q rt 0).markRelease p q rt
    t.sync = s.sync ∧ (∀ k, k ≠ q → t.queue k = s.queue k) ∧ ∀ y, (s.queue q).running = some y →
      (y.owed = 0 → (t.queue q).running = none) ∧ (y.owed ≠ 0 → (t.queue q).running = some { y with first := 0xFFFF, ending := some rt }) := by
  intro t
  obtain ⟨sync, others, ends⟩ := endCmdAt_ends (s.modRunning q (fun y => { y with first := 0xFFFF })) q rt 0
  have marked : t = State.markRelease _ p q rt := rfl
  generalize State.endCmdAt _ q rt 0 = u at sync others ends marked
  have marks : t.sync = u.sync ∧ (∀ k, k ≠ q → t.queue k = u.queue k) ∧ (t.queue q).running = (u.queue q).running := by
    rw [marked]
    exact ⟨rfl, fun k hk => queue_setQueue_ne u hk _, by rw [State.markRelease, queue_setQueue_self]⟩
  obtain ⟨sync2, others2, running⟩ := marks
  have notedFirst : (s.modRunning q (fun y => { y with first := 0xFFFF })).sync = s.sync ∧
      ∀ k, k ≠ q → (s.modRunning q (fun y => { y with first := 0xFFFF })).queue k = s.queue k := by
    unfold State.modRunning
    split
    · exact ⟨rfl, fun _ _ => rfl⟩
    · exact ⟨rfl, fun k hk => queue_setQueue_ne s hk _⟩
  refine ⟨sync2.trans (sync.trans notedFirst.1), fun k hk => (others2 k hk).trans ((others k hk).trans (notedFirst.2 k hk)), fun y runs => ?_⟩
  rw [running]
  exact ends { y with first := 0xFFFF } (by rw [modRunning_some runs, queue_setQueue_self])

theorem applyRelease_applies (s : State) (r : RoutingRec) (bid : Nat) (g : BarGen) (rel : Rel) :
    Applied s (s.applyRelease r bid g rel) (barKey r.plot bid) g rel.rt := by
  unfold State.applyRelease
  dsimp only
  generalize drawn : (if r.barRoot = true then ((BitVec.ofNat 64 ((g.latest - g.earliest) / 1000) : Word), s) else s.draw) = z
  have same : z.2.queues = s.queues ∧ z.2.sync = s.sync := by
    rw [← drawn]
    split
    · exact ⟨rfl, rfl⟩
    · exact ⟨rfl, rfl⟩
  generalize min 262143 (if r.barRoot = true then z.1.toNat else z.1.toNat % 2 ^ 18) = skew
  generalize noted : State.setPace _ r r.part bid rel.pace = u
  have notes : Notes (z.2.setBar (barKey r.plot bid) ((z.2.bar (barKey r.plot bid)).dropGen g.gen)) u :=
    noted ▸ (straceEntry_notes ..).trans ((nameStraggler_notes ..).trans (setPace_notes ..))
  have listed : u.queue = s.queue := by
    unfold State.queue
    rw [notes.queues, ← same.1]
    rfl
  have bars : u.bar = (s.setBar (barKey r.plot bid) ((s.bar (barKey r.plot bid)).dropGen g.gen)).bar := by
    unfold State.bar
    rw [notes.bars]
    unfold State.setBar State.bar
    rw [same.2]
  have dropped : u.bar (barKey r.plot bid) = (s.bar (barKey r.plot bid)).dropGen g.gen ∧ ∀ j, j ≠ barKey r.plot bid → u.bar j = s.bar j := by
    rw [bars]
    exact ⟨bar_setBar_self .., fun j hj => bar_setBar_ne s _ hj⟩
  cases waits : g.queue with
  | none => exact ⟨dropped.1, dropped.2, fun j _ => congrFun listed j, fun j y here => by rw [waits] at here; cases here⟩
  | some q =>
    obtain ⟨sync, others, ends⟩ := endAtRelease_ends u q r.part rel.rt
    have kept : State.bar (((u.modRunning q (fun y => { y with first := 0xFFFF })).endCmdAt q rel.rt 0).markRelease r.part q rel.rt) = u.bar := by
      unfold State.bar
      rw [sync]
    refine ⟨kept ▸ dropped.1, kept ▸ dropped.2, fun j other => ?_, fun j y here runs => ?_⟩
    · exact (others j fun same => other (same ▸ waits)).trans (congrFun listed j)
    · obtain rfl : q = j := Option.some.inj (waits.symm.trans here)
      exact ends y (by rw [listed]; exact runs)

/-- The release that a RELEASE message brings. -/
def LinkMsg.releaseAt (m : LinkMsg) (now : Nat) : Rel :=
  ⟨m.aux, bits m.addr 52 38, bit m.addr 53, bits m.addr 57 54, decide (m.aux < now)⟩

/-- A generation with its release put, and the release sent on to the children. -/
def State.forwarded (s : State) (r : RoutingRec) (bid : Nat) (g : BarGen) (rel : Rel) : State :=
  (s.setBar (barKey r.plot bid) ((s.bar (barKey r.plot bid)).putGen g)).sendRelease r bid g rel

theorem forwarded_puts (s : State) (r : RoutingRec) (bid : Nat) (g : BarGen) (rel : Rel) :
    (s.forwarded r bid g rel).bar (barKey r.plot bid) = (s.bar (barKey r.plot bid)).putGen g ∧
    (∀ j, j ≠ barKey r.plot bid → (s.forwarded r bid g rel).bar j = s.bar j) ∧ (s.forwarded r bid g rel).queues = s.queues := by
  have sent := (sendRelease_originates (s.setBar (barKey r.plot bid) ((s.bar (barKey r.plot bid)).putGen g)) r bid g rel).frame
  unfold State.forwarded
  rw [sent]
  exact ⟨bar_setBar_self .., fun j hj => bar_setBar_ne s _ hj, rfl⟩

section
variable {s : State} {port : Nat} {m m2 : LinkMsg} {x : RxMsg} {r : RoutingRec} (delivered : deliveredAs s port m x m2 r)
include delivered

theorem arrive_again (typ : m.typ = 0x12) (twice : m2.src ∈ ((s.bar (barKey r.plot (bits m2.addr 37 32))).genOf (m2.addr % 2 ^ 32)).kids) :
    exec (.arrive port m) s = .next (s.rxDone port x) :=
  (show _ = execArrive port m s from rfl).trans (onArrival_done typ delivered (if_pos (List.contains_iff_mem.mpr twice)))

theorem arrive_arrives (typ : m.typ = 0x12) (first : m2.src ∉ ((s.bar (barKey r.plot (bits m2.addr 37 32))).genOf (m2.addr % 2 ^ 32)).kids) :
    ∃ t, exec (.arrive port m) s = .next t ∧
      let key := barKey r.plot (bits m2.addr 37 32)
      let old := (s.bar key).genOf (m2.addr % 2 ^ 32)
      let g := (t.bar key).genOf (m2.addr % 2 ^ 32)
      g.members = old.members + m2.aux % 2 ^ 32 ∧ g.kids = old.kids ++ [m2.src] ∧ g.own = old.own ∧ g.queue = old.queue ∧
      (t.bar key).next = (s.bar key).next ∧ ∀ j, j ≠ key → t.bar j = s.bar j := by
  generalize arrived : s.joinGen ((s.bar (barKey r.plot (bits m2.addr 37 32))).genOf (m2.addr % 2 ^ 32)) (m2.aux % 2 ^ 32) (leAt m2.data 0 8)
    (leAt m2.data 8 8) (bits m2.addr 52 38) (bits m2.addr 56 53) = z
  obtain ⟨n, fresh, joined⟩ := joinGen_joins arrived
  have acts : exec (.arrive port m) s =
      .next ((z.2.passOn r (bits m2.addr 37 32) { z.1 with kids := z.1.kids ++ [m2.src] }).rxDone port x) := by
    refine (show _ = execArrive port m s from rfl).trans (onArrival_done typ delivered ?_)
    refine (if_neg fun h => first (List.contains_iff_mem.mp h)).trans ?_
    rw [arrived]
  obtain ⟨y, put, other, same, -⟩ := passOn_passes z.2 r (bits m2.addr 37 32) { z.1 with kids := z.1.kids ++ [m2.src] }
  have bars : z.2.bar = s.bar := by rw [fresh]; rfl
  rw [bars] at put other
  have gen : y.gen = m2.addr % 2 ^ 32 := by
    rw [same, joined]
    exact genOf_gen ..
  refine ⟨_, acts, ?_⟩
  dsimp only
  rw [(rxDone_sync ..).1, put, show Bar.genOf _ (m2.addr % 2 ^ 32) = y from gen ▸ genOf_putGen ..]
  refine ⟨by rw [same, joined], by rw [same, joined], by rw [same, joined], by rw [same, joined], rfl, other⟩

/-! RELEASE (R463, R464). -/

theorem release_acts (typ : m.typ = 0x13) : exec (.release port m) s = .next (State.rxDone
    (match (s.bar (barKey r.plot (bits m2.addr 37 32))).gens.find? (fun g => g.gen == m2.addr % 2 ^ 32) with
      | none => s
      | some g =>
        if (!g.sent) = true ∨ g.rel.isSome = true ∨ r.barRoot = true then s
        else
          let rel := m2.releaseAt s.now
          let u := s.forwarded r (bits m2.addr 37 32) { g with rel := some rel } rel
          if rel.late then u.applyRelease r (bits m2.addr 37 32) { g with rel := some rel } rel else u) port x) := by
  refine (show _ = execRelease port m s from rfl).trans (onArrival_done typ delivered ?_)
  cases found : (s.bar (barKey r.plot (bits m2.addr 37 32))).gens.find? (fun g => g.gen == m2.addr % 2 ^ 32) with
  | none => simp only [found]
  | some g =>
    simp only [found]
    split <;> rfl

end

section
variable {s : State} {port : Nat} {m m2 : LinkMsg} {x : RxMsg} {r : RoutingRec} (delivered : deliveredAs s port m x m2 r)
include delivered

theorem release_ignored (typ : m.typ = 0x13) (ignored : (∀ g ∈ (s.bar (barKey r.plot (bits m2.addr 37 32))).gens, g.gen = m2.addr % 2 ^ 32 →
    g.sent = false ∨ g.rel.isSome = true) ∨ r.barRoot = true) : exec (.release port m) s = .next (s.rxDone port x) := by
  rw [release_acts delivered typ]
  split
  · rfl
  · next g found =>
    refine congrArg (fun s => Host.Outcome.next (State.rxDone s port x)) (if_pos ?_)
    rcases ignored with idle | root
    · rcases idle g (List.mem_of_find?_eq_some found) (by simpa using List.find?_some found) with h | h
      · simp [h]
      · exact .inr (.inl h)
    · exact .inr (.inr root)

theorem release_releases (typ : m.typ = 0x13) {g : BarGen}
    (found : (s.bar (barKey r.plot (bits m2.addr 37 32))).gens.find? (fun y => y.gen == m2.addr % 2 ^ 32) = some g) (sent : g.sent = true)
    (first : g.rel = none) (child : r.barRoot = false) :
    let key := barKey r.plot (bits m2.addr 37 32)
    let k := m2.addr % 2 ^ 32
    ∃ t, exec (.release port m) s = .next t ∧ (∀ j, j ≠ key → t.bar j = s.bar j) ∧ (t.bar key).next = (s.bar key).next ∧
        (s.now ≤ m2.aux → (t.bar key).genOf k = { g with rel := some ⟨m2.aux, bits m2.addr 52 38, bit m2.addr 53, bits m2.addr 57 54, false⟩ } ∧
          t.queues = s.queues) ∧
        (m2.aux < s.now → ∀ y ∈ (t.bar key).gens, y.gen ≠ k) := by
  intro key k
  have acts := release_acts delivered typ
  rw [found] at acts
  dsimp only at acts
  rw [if_neg (by simp [sent, first, child])] at acts
  have gen : g.gen = m2.addr % 2 ^ 32 := by simpa using List.find?_some found
  obtain ⟨put, other, queues⟩ := forwarded_puts s r (bits m2.addr 37 32) { g with rel := some (m2.releaseAt s.now) } (m2.releaseAt s.now)
  refine ⟨_, acts, ?_⟩
  rw [(rxDone_sync ..).1, (rxDone_sync ..).2]
  by_cases late : m2.aux < s.now
  · rw [if_pos (show (m2.releaseAt s.now).late = true from decide_eq_true late)]
    obtain ⟨drop, rest, -⟩ := applyRelease_applies (s.forwarded r (bits m2.addr 37 32) { g with rel := some (m2.releaseAt s.now) }
      (m2.releaseAt s.now)) r (bits m2.addr 37 32) { g with rel := some (m2.releaseAt s.now) } (m2.releaseAt s.now)
    refine ⟨fun j hj => (rest j hj).trans (other j hj), by rw [drop, put]; rfl, fun early => absurd late (Nat.not_lt.mpr early), fun _ => ?_⟩
    rw [drop]
    exact fun y mem same => dropGen_drops _ g.gen y mem (same.trans gen.symm)
  · rw [if_neg (show ¬(m2.releaseAt s.now).late = true from fun h => late (of_decide_eq_true h))]
    refine ⟨other, by rw [put]; rfl, fun _ => ⟨?_, queues⟩, fun h => absurd h late⟩
    rw [put]
    have rel : m2.releaseAt s.now = ⟨m2.aux, bits m2.addr 52 38, bit m2.addr 53, bits m2.addr 57 54, false⟩ := by
      rw [LinkMsg.releaseAt, decide_eq_false late]
    rw [rel]
    rw [show k = g.gen from gen.symm]
    exact genOf_putGen _ { g with rel := some ⟨m2.aux, bits m2.addr 52 38, bit m2.addr 53, bits m2.addr 57 54, false⟩ }

end

/-! RELEASE_APPLY (R464) and BARRIER_TIMEOUT (R467). -/

/-- Generation g's release is due. -/
def BarGen.due (g : BarGen) (now : Nat) : Bool :=
  match g.rel with
  | some rel => decide (rel.rt ≤ now)
  | none => false

/-- Generation g with its release when that is due. -/
def BarGen.dueRel (g : BarGen) (now : Nat) : Option (BarGen × Rel) :=
  match g.rel with
  | some rel => if rel.rt ≤ now then some (g, rel) else none
  | none => none

/-- The first generation whose release is due, with it. -/
theorem findSome_due (now : Nat) (gs : List BarGen) : gs.findSome? (fun g => g.dueRel now) = (gs.filter (fun g => g.due now)).head?.bind (fun g => g.rel.map (fun rel => (g, rel))) := by
  induction gs with
  | nil => rfl
  | cons g gs ih =>
    rw [List.findSome?_cons, List.filter_cons, ih]
    cases known : g.rel with
    | none => simp [BarGen.due, BarGen.dueRel, known]
    | some rel => by_cases due : rel.rt ≤ now <;> simp [BarGen.due, BarGen.dueRel, known, due]

section
variable {s : State} {plot bid : Nat} {r : RoutingRec} (routed : s.routeOf plot = some r)
include routed

theorem routeOf_plot : r.plot = plot := by
  have found := List.find?_some routed
  simp only [Bool.and_eq_true, beq_iff_eq] at found
  exact found.1

theorem releaseApply_acts : exec (.releaseApply plot bid) s =
    match (s.bar (barKey plot bid)).gens.findSome? (fun g => g.dueRel s.now) with
    | some (g, rel) => .next (s.applyRelease r bid g rel)
    | none => .next s := by
  rw [show exec (.releaseApply plot bid) s = execReleaseApply plot bid s from rfl, execReleaseApply, routed]
  rfl

theorem releaseApply_waits (none_ : (s.bar (barKey plot bid)).gens.filter (fun g => g.due s.now) = []) : exec (.releaseApply plot bid) s = .next s := by
  rw [releaseApply_acts routed, findSome_due, none_]
  rfl

theorem releaseApply_applies {g : BarGen} {rest : List BarGen} {rel : Rel}
    (first : (s.bar (barKey plot bid)).gens.filter (fun g => g.due s.now) = g :: rest) (known : g.rel = some rel) :
    exec (.releaseApply plot bid) s = .next (s.applyRelease r bid g rel) := by
  rw [releaseApply_acts routed, findSome_due, first, List.head?_cons, Option.bind_some, known]
  rfl

end

theorem get_map_values {α : Type} (d : α) (f : α → α) (same : f d = d) (t : Tab α) (k : Nat) :
    Tab.get d (t.map (fun e => (e.1, f e.2))) k = f (Tab.get d t k) := by
  induction t with
  | nil => exact same.symm
  | cons e t ih =>
    simp only [List.map_cons, Tab.get]
    split
    · rfl
    · exact ih

theorem detach_detaches (x : Bar) (q : Nat) : ∀ g ∈ (x.detach q).gens, g.queue ≠ some q := by
  intro g mem
  obtain ⟨y, -, rfl⟩ := List.mem_map.mp mem
  split
  · exact fun h => nomatch h
  · next other => exact other

theorem barrierTimeout_acts {s : State} {q : Nat} {x : Running} {f : BarrierF} (runs : (s.queue q).running = some x) (body : x.cmd.body = .barrier f) :
    exec (.barrierTimeout q) s = .next (if s.waitOver x then
      ({ s with sync := { s.sync with bars := s.sync.bars.map (fun e => (e.1, e.2.detach q)) } } : State).completeOk q .timeout else s) := by
  rw [show exec (.barrierTimeout q) s = execBarrierTimeout q s from rfl, execBarrierTimeout, runs]
  dsimp only
  rw [body]

/-! BARRIER_FIRST_ISSUE (R466). -/

/-- Region r makes its first issue at a time, unless it has made it. -/
def State.firstIssueAt (t : Nat) (s : State) (r : Nat) : State :=
  match (s.region r).firstIssue with
  | some _ => s
  | none => s.setRegion r { s.region r with firstIssue := some t }

theorem firstIssueAt_issues (t : Nat) (s : State) (r : Nat) : s.firstIssueAt t r = { s with regions := (s.firstIssueAt t r).regions } ∧
    (s.firstIssueAt t r).regions.length = s.regions.length ∧ ∀ k, k < s.regions.length → (s.firstIssueAt t r).region k =
      if k = r then { s.region k with firstIssue := some ((s.region k).firstIssue.getD t) } else s.region k := by
  unfold State.firstIssueAt
  cases issued : (s.region r).firstIssue with
  | some a =>
    refine ⟨rfl, rfl, fun k _ => ?_⟩
    dsimp only
    split
    · next same => rw [same, issued, Option.getD_some, ← issued]
    · rfl
  | none =>
    refine ⟨rfl, List.length_set .., fun k here => ?_⟩
    by_cases same : k = r
    · subst same
      rw [region_setRegion s k k _ here, if_pos rfl, if_pos rfl, issued, Option.getD_none]
    · rw [region_setRegion_ne s r k _ same, if_neg same]

theorem foldl_firstIssueAt (t : Nat) (rs : List Nat) (once : rs.Nodup) (s : State) :
    rs.foldl (fun s r => s.firstIssueAt t r) s = { s with regions := (rs.foldl (fun s r => s.firstIssueAt t r) s).regions } ∧
    ∀ k, k < s.regions.length → (rs.foldl (fun s r => s.firstIssueAt t r) s).region k =
      if k ∈ rs then { s.region k with firstIssue := some ((s.region k).firstIssue.getD t) } else s.region k := by
  induction rs generalizing s with
  | nil => exact ⟨rfl, fun k _ => by simp⟩
  | cons r rs ih =>
    obtain ⟨new, once⟩ := List.nodup_cons.mp once
    obtain ⟨frame, count, here⟩ := firstIssueAt_issues t s r
    obtain ⟨frames, rest⟩ := ih once (s.firstIssueAt t r)
    refine ⟨by rw [List.foldl_cons, frames, frame], fun k known => ?_⟩
    rw [List.foldl_cons, rest k (by rw [count]; exact known), here k known]
    by_cases same : k = r
    · subst same
      simp [new]
    · simp [same]

section
variable {s : State} {p : Nat} {l : LaunchRun} (known : p < 8) (runs : (s.part p).launch = some l)
include known runs

theorem barrierFirstIssue_acts : exec (.barrierFirstIssue p) s = if l.notBefore = 0 ∨ s.now < l.notBefore then .next s
    else .next ((s.regionsOf p).foldl (fun s r => s.firstIssueAt l.notBefore r) s) := by
  rw [show exec (.barrierFirstIssue p) s = execBarrierFirstIssue p s from rfl, execBarrierFirstIssue, if_neg (Nat.not_le.mpr known), runs]
  rfl

end

/-- Settles O51: each event of a barrier by the generation it finds. -/
theorem barriersGatherAndRelease : Obligations.BarriersGatherAndRelease := by
  refine ⟨fun q f x ctx p s may => ⟨fun none_ => barrier_denied may none_, fun r plotted => ?arrives⟩,
    fun port m x m2 r s typ delivered => ⟨arrive_again delivered typ, arrive_arrives delivered typ⟩,
    fun port m x m2 r s typ delivered => ⟨release_ignored delivered typ, fun g found sent first child =>
      release_releases delivered typ found sent first child⟩,
    fun plot bid r s routed => ?apply, fun q x f s runs body => ⟨fun over_ => ?timeout, fun waits => ?waits⟩,
    fun p l s known runs => ⟨fun early => ?early, fun held due => ?issue⟩⟩
  case arrives =>
    obtain ⟨t, acts, g, arrived⟩ := barrier_arrives may plotted
    refine ⟨t, acts, ?_⟩
    dsimp only
    rw [arrived.gen]
    exact ⟨arrived.next, arrived.own, arrived.queue, arrived.members, arrived.kids, arrived.complete, arrived.other, arrived.queues,
      arrived.slots, arrived.waits⟩
  case apply =>
    intro due
    refine ⟨releaseApply_waits routed, fun g rest rel first known => ⟨_, releaseApply_applies routed first known, ?_⟩⟩
    obtain ⟨drop, other, queues, ends⟩ := applyRelease_applies s r bid g rel
    rw [routeOf_plot routed] at drop
    exact ⟨by rw [drop]; exact dropGen_drops _ _, queues, fun j y here runs => (ends j y here runs).1, fun j y here runs => (ends j y here runs).2⟩
  case timeout =>
    refine ⟨{ s with sync := { s.sync with bars := s.sync.bars.map (fun e => (e.1, e.2.detach q)) } }, rfl, fun j => ?_,
      (barrierTimeout_acts runs body).trans (by rw [if_pos over_])⟩
    have detached : Tab.get .reset (s.sync.bars.map (fun e => (e.1, e.2.detach q))) j = (s.bar j).detach q :=
      get_map_values Bar.reset (fun b => b.detach q) rfl s.sync.bars j
    rw [State.bar, detached]
    exact detach_detaches _ q
  case waits => rw [barrierTimeout_acts runs body, if_neg (by rw [waits]; decide)]
  case early => rw [barrierFirstIssue_acts known runs, if_pos early]
  case issue =>
    obtain ⟨frame, issued⟩ := foldl_firstIssueAt l.notBefore (s.regionsOf p) (regionsOf_nodup s p) s
    exact ⟨_, (barrierFirstIssue_acts known runs).trans (if_neg (by omega)), frame, issued⟩

end Sys2Proof.Machine
end

section
/-! SUPPORT. Messages of the management controller and frames of the bulk lane (R558 to R564), one lemma for each; and the settlement of
O41. -/
namespace Sys2Proof.Machine

/-! Register, reset and wake messages (Table 21-1). -/

section
variable {s : State} (hears : s.hears) {h : MgmtHdr}
include hears

theorem regRead_reads {o n : Nat} (fits : h.fits 9 = true) (some_ : 0 < n) (most : n ≤ 32) : exec (.regRead h o n) s =
    .next ((State.readWords o n s).2.mgmtReply 0x03 h.tag .ok (State.readWords o n s).1) := by
  rw [show exec (.regRead h o n) s = execRegRead h o n s from rfl, execRegRead, mgmtCmd_fits hears fits]
  exact congrArg _ (if_neg (by omega))

theorem regRead_range {o n : Nat} (bad : h.fits 9 = false ∨ n = 0 ∨ 32 < n) : exec (.regRead h o n) s = .next (s.mgmtReply 0x03 h.tag .range []) := by
  rw [show exec (.regRead h o n) s = execRegRead h o n s from rfl, execRegRead]
  refine congrArg _ (mgmtCmd_range hears fun fits => if_pos (bad.resolve_left ?_))
  rw [fits]
  decide

theorem regWrite_writes {o : Nat} {ws : List Word} (fits : h.fits (9 + 8 * ws.length) = true) (some_ : ws ≠ []) (most : ws.length ≤ 32) :
    exec (.regWrite h o ws) s = .next ((State.writeWords o ws s).mgmtReply 0x04 h.tag .ok []) := by
  rw [show exec (.regWrite h o ws) s = execRegWrite h o ws s from rfl, execRegWrite, mgmtCmd_fits hears fits]
  have := List.length_pos_iff.mpr some_
  exact congrArg _ (if_neg (by omega))

theorem regWrite_range {o : Nat} {ws : List Word} (bad : h.fits (9 + 8 * ws.length) = false ∨ ws = [] ∨ 32 < ws.length) :
    exec (.regWrite h o ws) s = .next (s.mgmtReply 0x04 h.tag .range []) := by
  rw [show exec (.regWrite h o ws) s = execRegWrite h o ws s from rfl, execRegWrite]
  refine congrArg _ (mgmtCmd_range hears fun fits => if_pos ?_)
  rcases bad with misfit | none_ | many
  · rw [fits] at misfit
    cases misfit
  · exact .inl (by rw [none_]; rfl)
  · exact .inr many

theorem mgtReset_resets (fits : h.fits 2 = true) (up : s.inReset = false) : ∃ t, exec (.mgtReset h 0xA5C3) s = .next t ∧ t.inReset = true ∧
    t.rel.resets.cause = 3 ∧ t.rel.resets.trig = 4 ∧ t.out = .mgmt 0x08 h.tag 0 [] :: s.out := by
  have acts : exec (.mgtReset h 0xA5C3) s = .next ((s.mgmtReply 0x08 h.tag .ok []).trigger 4 0) := by
    rw [show exec (.mgtReset h 0xA5C3) s = execMgtReset h 0xA5C3 s from rfl, execMgtReset, mgmtCmd_fits hears fits]
    exact congrArg _ (if_pos rfl)
  refine ⟨_, acts, startReset_busy .., ?_⟩
  have begins : ((s.mgmtReply 0x08 h.tag .ok []).trigger 4 0) = _ := if_neg (show ¬s.inReset = true by rw [up]; decide)
  rw [begins]
  exact ⟨rfl, rfl, rfl⟩

theorem mgtReset_range {k : Nat} (bad : h.fits 2 = false ∨ k ≠ 0xA5C3) : exec (.mgtReset h k) s = .next (s.mgmtReply 0x08 h.tag .range []) := by
  rw [show exec (.mgtReset h k) s = execMgtReset h k s from rfl, execMgtReset]
  exact congrArg _ (mgmtCmd_range hears fun fits => if_neg (bad.resolve_left (by rw [fits]; decide)))

theorem mgtWake_wakes (fits : h.fits 0 = true) (asleep : s.pwr.ow = .entering ∨ s.pwr.ow = .overwintering) : ∃ t, exec (.mgtWake h) s = .next t ∧
    t.pwr = { s.pwr with ow := .waking } ∧ t.out = .mgmt 0x09 h.tag 0 [] :: s.out := by
  have woken : s.wakeUp = { s with pwr := { s.pwr with ow := .waking } } := by
    unfold State.wakeUp
    rcases asleep with h | h <;> rw [h]
  refine ⟨s.wakeUp.mgmtReply 0x09 h.tag .ok [], ?_, by rw [woken]; rfl, by rw [woken]; rfl⟩
  rw [show exec (.mgtWake h) s = execMgtWake h s from rfl, execMgtWake, mgmtCmd_fits hears fits]
  rcases asleep with h | h <;> simp only [h]

theorem mgtWake_refuses (fits : h.fits 0 = true) (notEntering : s.pwr.ow ≠ .entering) (awake : s.pwr.ow ≠ .overwintering) :
    exec (.mgtWake h) s = .next (s.mgmtReply 0x09 h.tag .state []) := by
  rw [show exec (.mgtWake h) s = execMgtWake h s from rfl, execMgtWake, mgmtCmd_fits hears fits]
  cases ow : s.pwr.ow with
  | entering => exact absurd ow notEntering
  | overwintering => exact absurd ow awake
  | serving => rfl
  | waking => rfl

theorem mgtWake_range (misfits : h.fits 0 = false) : exec (.mgtWake h) s = .next (s.mgmtReply 0x09 h.tag .range []) :=
  (show _ = execMgtWake h s from rfl).trans (congrArg _ (mgmtCmd_misfits hears misfits 0x09 _))

end

/-! The address of a channel (R561). -/

theorem setBdpAddr_sets {s : State} {c : Nat} {v : Word} (listed : v.toNat / 2 ^ 60 < 5) (here : c < s.obs.bdp.length) :
    ∃ b, s.setBdpAddr c v = { s with obs := b } ∧
      (s.setBdpAddr c v).bdpCh c = { s.bdpCh c with space := v.toNat / 2 ^ 60, offset := v.toNat % 2 ^ 48, seen := 0 } := by
  have sets : s.setBdpAddr c v = s.setBdp c { s.bdpCh c with space := v.toNat / 2 ^ 60, offset := v.toNat % 2 ^ 48, seen := 0 } := by
    rw [State.setBdpAddr, State.unlisted, if_pos (decide_eq_true listed), taken, if_pos (decide_eq_true listed)]
  exact ⟨_, sets, by rw [sets, setBdp_bdpCh c _ here]⟩

/-! Notifications (R559). -/

theorem sendNotice_notifies {s : State} (known : s.obs.endpoint.isSome = true) (n : Notice) :
    .notify n.nseq n.code n.part n.time n.data ∈ (s.sendNotice n).out := by
  obtain ⟨e, endpoint⟩ := Option.isSome_iff_exists.mp known
  unfold State.sendNotice
  cases s.obs.i3c <;> simp [endpoint, State.emit]

section
variable {s : State} {n : Nat} {x : Notice} (known : s.obs.endpoint.isSome = true) (found : s.obs.notices.find? (fun y => y.nseq == n) = some x)
include known found

theorem notifyResend_acts : exec (.notifyResend n) s =
    if s.now < x.sentAt + 1000000 then .next s
    else if 8 ≤ x.tries then .next (s.setObs (fun o => { o with
      notices := o.notices.filter (fun y => y.nseq != n), nlost := (o.nlost + 1) % 2 ^ 32 }))
    else .next ((s.setObs (fun o => { o with
      notices := o.notices.map (fun y => if y.nseq = n then { x with tries := x.tries + 1, sentAt := s.now } else y) })).sendNotice
        { x with tries := x.tries + 1, sentAt := s.now }) := by
  obtain ⟨e, endpoint⟩ := Option.isSome_iff_exists.mp known
  rw [show exec (.notifyResend n) s = execNotifyResend n s from rfl, execNotifyResend, endpoint, found]

theorem notifyResend_again (due : x.sentAt + 1000000 ≤ s.now) (few : x.tries < 8) : ∃ t, exec (.notifyResend n) s = .next t ∧
    t = { s with obs := t.obs, out := t.out } ∧ .notify x.nseq x.code x.part x.time x.data ∈ t.out ∧
      t.obs.notices = s.obs.notices.map (fun y => if y.nseq = n then { x with tries := x.tries + 1, sentAt := s.now } else y) := by
  refine ⟨_, (notifyResend_acts known found).trans ((if_neg (Nat.not_lt.mpr due)).trans (if_neg (Nat.not_le.mpr few))), ?_⟩
  generalize renewed : s.setObs _ = u
  have endpoint : u.obs.endpoint.isSome = true := by rw [← renewed]; exact known
  have sent := sendNotice_notifies endpoint { x with tries := x.tries + 1, sentAt := s.now }
  obtain ⟨o, e⟩ := sendNotice_eq u { x with tries := x.tries + 1, sentAt := s.now }
  rw [e] at sent ⊢
  subst renewed
  exact ⟨rfl, sent, rfl⟩

end

/-! The bulk lane (R564). -/

theorem bulkFrame_damaged {s : State} {h : BulkHdr} (up : s.board.rails = true) (bad : h.crcOk = false) (op : Nat) (f : State → State) :
    s.bulkFrame op h f = { s with out := .bulk op h.tag Status.data.code [] :: s.out } := by
  simp [State.bulkFrame, up, bad, State.emit]

theorem bulkFrame_good {s : State} {h : BulkHdr} (up : s.board.rails = true) (good : h.crcOk = true) (op : Nat) (f : State → State) :
    s.bulkFrame op h f = f s := by simp [State.bulkFrame, up, good]

/-! Accesses of a space (R561, R562). -/

/-- What a channel's refused access leaves, with any status but DATA. -/
theorem bdpAccess_refused {s : State} {c o n : Nat} {data : Option (List Byte)} {st : Status} (notData : st ≠ .data)
    (fails : s.bdpFail data.isSome (s.bdpCh c).space ((s.bdpCh c).offset + o) n = some st) :
    s.bdpAccess c o n data = (st, leBytes n 0, s.setBdp c (((s.bdpCh c).refuse st o).track o n)) := by
  unfold State.bdpAccess
  dsimp only
  rw [fails]
  exact congrArg (fun s => (st, leBytes n 0, s)) (if_neg notData)

theorem bdpAccess_stored {s : State} {c o : Nat} {d : List Byte} (space : (s.bdpCh c).space = 1)
    (served : s.bdpFail true (s.bdpCh c).space ((s.bdpCh c).offset + o) d.length = none) :
    s.bdpAccess c o d.length (some d) = (.ok, [], (s.setBdp c ((s.bdpCh c).track o d.length)).bdpPut c 1 ((s.bdpCh c).offset + o) d) := by
  unfold State.bdpAccess
  dsimp only [Option.isSome]
  rw [served, space]

theorem bdpHeld_refused {s : State} {c o n : Nat} {write : Bool} {st : Status}
    (fails : s.bdpFail write (s.bdpCh c).space ((s.bdpCh c).offset + o) n = some st) : s.bdpHeld c o n write = [] := by
  unfold State.bdpHeld
  exact if_neg fun h => by rw [fails] at h; exact nomatch h.2.2

theorem bdpFits_inside {o n : Nat} (some_ : 0 < n) (inside : o + n ≤ 4096) : bdpFits o n = true := by simp [bdpFits, some_, inside]

/-- An instruction that writes d at window offset o of channel c, and the answer that a status gets. -/
structure WritesWindow (s : State) (c o : Nat) (d : List Byte) (i : Instr) (answer : Nat → Option Out) : Prop where
  acts : s.bdpHeld c o d.length true = [] → ∃ t, exec i s = .next t ∧ t.out.head? = answer (s.bdpAccess c o d.length (some d)).1.code ∧
    t = { (s.bdpAccess c o d.length (some d)).2.2 with out := t.out }

theorem bdpWrite_writes {s : State} (hears : s.hears) {o : Nat} {d : List Byte} (fits : bdpFits o d.length = true) (tag : Nat) :
    WritesWindow s 1 o d (.bdpWrite ⟨tag, 0, 4 + d.length⟩ o d) (fun st => some (.mgmt 0x06 tag st [])) := by
  refine ⟨fun free => ⟨(s.bdpAccess 1 o d.length (some d)).2.2.mgmtReply 0x06 tag (s.bdpAccess 1 o d.length (some d)).1 [], ?_, rfl, rfl⟩⟩
  rw [show ∀ h, exec (.bdpWrite h o d) s = execBdpWrite h o d s from fun _ => rfl, execBdpWrite, mgmtCmd_fits hears (by simp [MgmtHdr.fits])]
  dsimp only
  rw [if_neg (by simp [fits]), if_neg (not_not.mpr free)]

theorem bulkWrite_writes {s : State} (up : s.board.rails = true) {o : Nat} {d : List Byte} (fits : bdpFits o d.length = true) (tag : Nat) :
    WritesWindow s 0 o d (.bulkWrite ⟨true, tag, o⟩ d) (fun st => some (.bulk 2 tag st [])) := by
  refine ⟨fun free => ⟨(s.bdpAccess 0 o d.length (some d)).2.2.emit (.bulk 2 tag (s.bdpAccess 0 o d.length (some d)).1.code []), ?_, rfl, rfl⟩⟩
  rw [show ∀ h, exec (.bulkWrite h d) s = execBulkWrite h d s from fun _ => rfl, execBulkWrite, bulkFrame_good up rfl]
  dsimp only
  rw [if_neg (by simp [fits]), if_neg (not_not.mpr free)]

/-- An instruction that reads n bytes at window offset o of channel c, and the answer that a status and bytes get. -/
structure ReadsWindow (s : State) (c o n : Nat) (i : Instr) (answer : Nat → List Byte → Option Out) : Prop where
  acts : s.bdpHeld c o n false = [] → ∃ t, exec i s = .next t ∧
    t.out.head? = answer (s.bdpAccess c o n none).1.code (s.bdpAccess c o n none).2.1 ∧ t = { (s.bdpAccess c o n none).2.2 with out := t.out }

theorem bdpRead_reads {s : State} (hears : s.hears) {o n : Nat} (fits : bdpFits o n = true) (tag : Nat) :
    ReadsWindow s 1 o n (.bdpRead ⟨tag, 0, 4⟩ o n) (fun st bs => some (.mgmt 0x07 tag st bs)) := by
  refine ⟨fun free => ⟨(s.bdpAccess 1 o n none).2.2.mgmtReply 0x07 tag (s.bdpAccess 1 o n none).1 (s.bdpAccess 1 o n none).2.1, ?_, rfl, rfl⟩⟩
  rw [show ∀ h, exec (.bdpRead h o n) s = execBdpRead h o n s from fun _ => rfl, execBdpRead, mgmtCmd_fits hears rfl]
  dsimp only
  rw [if_neg (by simp [fits]), if_neg (not_not.mpr free)]

theorem bulkRead_reads {s : State} (up : s.board.rails = true) {o n : Nat} (fits : bdpFits o n = true) (tag : Nat) :
    ReadsWindow s 0 o n (.bulkRead ⟨true, tag, o⟩ n) (fun st bs => some (.bulk 3 tag st bs)) := by
  refine ⟨fun free => ⟨(s.bdpAccess 0 o n none).2.2.emit (.bulk 3 tag (s.bdpAccess 0 o n none).1.code (s.bdpAccess 0 o n none).2.1), ?_, rfl, rfl⟩⟩
  rw [show ∀ h, exec (.bulkRead h n) s = execBulkRead h n s from fun _ => rfl, execBulkRead, bulkFrame_good up rfl]
  dsimp only
  rw [if_neg (by simp [fits]), if_neg (not_not.mpr free)]

/-- Settles O41: each message by its header and its payload. -/
theorem managementMessagesAct : Obligations.ManagementMessagesAct := by
  refine ⟨fun s hears h => ⟨fun o n fits some_ most => regRead_reads hears fits some_ most, fun o n bad => regRead_range hears bad,
      fun o ws fits some_ most => regWrite_writes hears fits some_ most, fun o ws bad => regWrite_range hears bad,
      fun v fits listed here => ?set, fun misfits v => ?setRange, mgtReset_resets hears, fun k bad => mgtReset_range hears bad,
      mgtWake_wakes hears, mgtWake_refuses hears, mgtWake_range hears, fun n => congrArg _ (mgmtMsg_hears hears _),
      fun n => congrArg _ (mgmtMsg_hears hears _)⟩,
    fun s n x known found => ⟨fun early => (notifyResend_acts known found).trans (if_pos early), fun due many =>
      (notifyResend_acts known found).trans ((if_neg (Nat.not_lt.mpr due)).trans (if_pos many)), notifyResend_again known found⟩,
    fun s a up none_ low => if_neg (by simp [up, none_, low]),
    fun s h up bad d v n => ⟨congrArg _ (bulkFrame_damaged up bad 4 _), congrArg _ (bulkFrame_damaged up bad 1 _),
      congrArg _ (bulkFrame_damaged up bad 2 _), congrArg _ (bulkFrame_damaged up bad 3 _)⟩,
    fun s h up good => ⟨fun d short => ?echo, fun v listed here => ?address⟩, fun s c i answers kind o d some_ inside => ?write,
    fun s c i answers kind o n some_ inside => ?read⟩
  case set =>
    obtain ⟨b, frame, channel⟩ := setBdpAddr_sets listed here
    refine ⟨(s.setBdpAddr 1 v).mgmtReply 0x05 h.tag .ok [], congrArg _ (mgmtCmd_fits hears fits 0x05 _), channel, ?_⟩
    rw [frame]
    exact ⟨rfl, rfl⟩
  case setRange => exact congrArg _ (mgmtCmd_misfits hears misfits 0x05 _)
  case echo =>
    refine congrArg _ ((bulkFrame_good up good 4 _).trans ?_)
    exact if_neg (Nat.not_lt.mpr short)
  case address =>
    obtain ⟨b, frame, channel⟩ := setBdpAddr_sets listed here
    refine ⟨(s.setBdpAddr 0 v).emit (.bulk 1 h.tag Status.ok.code []), congrArg _ (bulkFrame_good up good 1 _), channel, ?_⟩
    rw [frame]
    exact ⟨rfl, rfl⟩
  case write =>
    have fits : bdpFits o d.length = true := bdpFits_inside (List.length_pos_iff.mpr some_) inside
    obtain ⟨acts⟩ : WritesWindow s c o d (i o d) answers := by
      rcases kind with ⟨tag, rfl, hears, rfl, rfl⟩ | ⟨tag, rfl, up, rfl, rfl⟩
      · exact bdpWrite_writes hears fits tag
      · exact bulkWrite_writes up fits tag
    refine ⟨fun st fails notData => ?_, fun served space => ?_⟩
    · obtain ⟨t, runs, answer, frame⟩ := acts (bdpHeld_refused fails)
      rw [bdpAccess_refused notData fails] at answer frame
      exact ⟨t, runs, by rw [frame]; rfl, answer⟩
    · obtain ⟨t, runs, answer, frame⟩ := acts (bdpHeld_space (by rw [space]; decide) ..)
      rw [bdpAccess_stored space served] at answer frame
      exact ⟨t, runs, by rw [frame]; rfl, answer, by rw [frame]; rfl, by rw [frame]; rfl⟩
  case read =>
    have fits : bdpFits o n = true := bdpFits_inside some_ inside
    obtain ⟨acts⟩ : ReadsWindow s c o n (i o n) answers := by
      rcases kind with ⟨tag, rfl, hears, rfl, rfl⟩ | ⟨tag, rfl, up, rfl, rfl⟩
      · exact bdpRead_reads hears fits tag
      · exact bulkRead_reads up fits tag
    refine ⟨fun st fails notData => ?_, fun served space => ?_⟩
    · obtain ⟨t, runs, answer, frame⟩ := acts (bdpHeld_refused fails)
      rw [bdpAccess_refused notData fails] at answer frame
      exact ⟨t, runs, by rw [frame]; rfl, answer⟩
    · obtain ⟨t, runs, answer, frame⟩ := acts (bdpHeld_space (by rw [space]; decide) ..)
      rw [bdpAccess_reads space (by rw [← space]; exact served)] at answer frame
      exact ⟨t, runs, by rw [frame]; rfl, answer⟩

end Sys2Proof.Machine
end

section
/-! SUPPORT. Repair and self-test (R502 to R509, R515): decisions, their telling and their taking effect; and the settlement of O54. -/
namespace Sys2Proof.Machine

/-! What is told of a repair. -/

theorem Tells.rel_eq {s t : State} (h : Tells s t) : t.rel = s.rel := by rw [h.frame]

/-- A repair is told by its interrupt, a notification and an event. -/
theorem tellRepair_tells (s : State) (data code unit : Nat) :
    Tells s (((s.irq 5).notify 0x0007 none data).repairEvent code unit) ∧
      bit (((s.irq 5).notify 0x0007 none data).repairEvent code unit).host.irqStat 5 = true := by
  refine ⟨(irq_tells ..).trans ((notify_tells ..).trans (event_tells ..)), ?_⟩
  obtain ⟨r, told⟩ := event_eq ((s.irq 5).notify 0x0007 none data) (islandShed 25) code none none (unit % 2 ^ 32)
  rw [State.repairEvent, told]
  dsimp only
  rw [notify_host]
  exact irq_sets s 5

/-- The repair record when a repair of a unit has been applied (R506). -/
def Rel18.repaired (r : Rel18) (unit : Nat) : Rel18 :=
  { r with
    applied := min 0xFFFF (r.applied + 1),
    pending := r.pending.map (fun e => if e.unit = unit ∧ e.st ≠ 3 then { e with st := 1 } else e) }

theorem repaired_repairs (s : State) (unit : Nat) : ∃ o h b, s.repaired unit = { s with rel := s.rel.repaired unit, out := o, host := h, obs := b } ∧
    bit h.irqStat 5 = true := by
  obtain ⟨tells, set⟩ := tellRepair_tells (s.setRel (fun r => r.repaired unit)) (unit % 2 ^ 32) 0x71 unit
  exact ⟨_, _, _, tells.frame, set⟩

/-! Decisions (R504, R507). -/

/-- From s to t a decision about a unit has been recorded, with a spare or without one. -/
structure Decides (s t : State) (unit count : Nat) (spare : Bool) : Prop where
  frame : t = { s with rel := t.rel, obs := t.obs, host := t.host, out := t.out }
  exhaust : t.rel.exhaust = (s.rel.exhaust || !spare)
  interrupt : spare = false → bit t.host.irqStat 5 = true
  listed : s.rel.pending.length < 256 →
    t.rel.pending = s.rel.pending ++ [⟨s.now, unit / 2 ^ 28, if spare then 0 else 3, count % 65536, unit⟩]
  full : 256 ≤ s.rel.pending.length → t.rel.pending = s.rel.pending ∧ t.rel.full = true

theorem recordRepair_records (s : State) (kind st count unit : Nat) : ∃ listed full, s.recordRepair kind st count unit =
    { s with rel := { s.rel with pending := listed, full := full } } ∧
    (s.rel.pending.length < 256 → listed = s.rel.pending ++ [⟨s.now, kind, st, count % 65536, unit⟩]) ∧
    (256 ≤ s.rel.pending.length → listed = s.rel.pending ∧ full = true) := by
  unfold State.recordRepair State.setRel
  dsimp only
  split
  · next many => exact ⟨s.rel.pending, true, rfl, fun few => absurd many (Nat.not_le.mpr few), fun _ => ⟨rfl, rfl⟩⟩
  · next few => exact ⟨_, s.rel.full, rfl, fun _ => rfl, fun many => absurd many few⟩

theorem decideRepair_decides (s : State) (unit count : Nat) : Decides s (s.decideRepair unit count) unit count (s.spareLeft unit) := by
  unfold State.decideRepair
  generalize s.spareLeft unit = spare
  obtain ⟨waiting, over_, recorded, listed, full⟩ := recordRepair_records s (unit / 2 ^ 28) (if spare then 0 else 3) count unit
  dsimp only
  rw [recorded]
  generalize listing : ({ s.rel with pending := waiting, full := over_ } : Rel18) = r
  obtain ⟨exhaust, pending, filled⟩ : r.exhaust = s.rel.exhaust ∧ r.pending = waiting ∧ r.full = over_ := by rw [← listing]; exact ⟨rfl, rfl, rfl⟩
  have told : Tells { s with rel := r } (State.repairEvent { s with rel := r } 0x70 unit) := event_tells ..
  generalize State.repairEvent _ 0x70 unit = u at told ⊢
  cases spare with
  | true =>
    refine ⟨by rw [if_pos rfl, told.frame], ?_, fun h => absurd h (by decide), fun few => ?_, fun many => ?_⟩ <;> rw [if_pos rfl, told.rel_eq]
    · rw [exhaust, Bool.not_true, Bool.or_false]
    · exact pending.trans (listed few)
    · exact ⟨pending.trans (full many).1, filled.trans (full many).2⟩
  | false =>
    obtain ⟨tells, set⟩ := tellRepair_tells (u.setRel (fun r => { r with exhaust := true })) (unit % 2 ^ 32 + 2 ^ 32) 0x72 unit
    have ends : u.noSpare unit = _ := tells.frame
    have rel : (u.noSpare unit).rel = { u.rel with exhaust := true } := by rw [ends]; rfl
    refine ⟨by rw [if_neg (by decide), ends, State.setRel, told.frame], ?_, fun _ => set, fun few => ?_, fun many => ?_⟩ <;>
      rw [if_neg (by decide), rel, told.rel_eq]
    · rw [Bool.not_false, Bool.or_true]
    · exact pending.trans (listed few)
    · exact ⟨pending.trans (full many).1, filled.trans (full many).2⟩

theorem qualifies_iff (s : State) (unit hard soft : Nat) : s.qualifies unit hard soft = true ↔ repairDue s unit hard soft := by
  unfold repairDue
  split
  · exact Iff.rfl
  · exact Iff.rfl
  · exact Iff.rfl
  · next kind =>
    rw [State.qualifies, kind]
    simp
  · next kind =>
    rw [State.qualifies, kind]
    simp
  · next kind =>
    rw [State.qualifies, kind]
    simp
  · next kind =>
    rw [State.qualifies, kind]
    simp
  · have unlisted : s.qualifies unit hard soft = false := by
      unfold State.qualifies
      split <;> simp_all
    simp [unlisted]

/-- A unit about which no decision waits. -/
theorem decided_iff (s : State) (unit : Nat) : s.decided unit = true ↔ ∃ e ∈ s.rel.pending, e.unit = unit ∧ e.st ≠ 1 := by
  simp [State.decided]

section
variable {s : State} {unit hard soft : Nat} (fw : s.sec.fwok = true) (due : repairDue s unit hard soft)
  (open_ : ∀ e ∈ s.rel.pending, e.unit = unit → e.st = 1)
include fw due open_

theorem repairDecide_acts : exec (.repairDecide unit hard soft) s =
    match (if unit / 2 ^ 28 = 1 then s.rel.waitingColumn unit else none) with
    | some e => .next ((s.setRel (fun r => { r with pending := r.pending.filter (fun x => x != e) })).decideRepair (blockOfUnit unit)
        (e.count + s.faultCount unit hard soft))
    | none => .next (s.decideRepair (s.decisionUnit unit) (s.faultCount unit hard soft)) := by
  refine (show _ = execRepairDecide unit hard soft s from rfl).trans (if_neg ?_)
  have undecided : ¬s.decided unit = true := fun h => by
    obtain ⟨e, mem, same, other⟩ := (decided_iff s unit).mp h
    exact other (open_ e mem same)
  simp [fw, (qualifies_iff s unit hard soft).mpr due, undecided]

theorem repairDecide_decides (alone : unit / 2 ^ 28 ≠ 1 ∨ s.rel.waitingColumn unit = none) : ∃ t, exec (.repairDecide unit hard soft) s = .next t ∧
    Decides s t (s.decisionUnit unit) (s.faultCount unit hard soft) (s.spareLeft (s.decisionUnit unit)) := by
  refine ⟨_, (repairDecide_acts fw due open_).trans ?_, decideRepair_decides ..⟩
  have none_ : (if unit / 2 ^ 28 = 1 then s.rel.waitingColumn unit else none) = none := by
    split
    · next kind => exact alone.resolve_left fun other => other kind
    · rfl
  rw [none_]

theorem repairDecide_joins {e : PendRepair} (column : unit / 2 ^ 28 = 1) (waits : s.rel.waitingColumn unit = some e) :
    exec (.repairDecide unit hard soft) s =
      .next (({ s with rel := { s.rel with pending := s.rel.pending.filter (fun x => x != e) } } : State).decideRepair (blockOfUnit unit)
        (e.count + s.faultCount unit hard soft)) := by
  rw [repairDecide_acts fw due open_, if_pos column, waits]
  rfl

end

/-! A column mapping that takes effect (R108). -/

/-- The block's partition runs a LAUNCH. -/
def State.blockRuns (s : State) (die region : Nat) : Bool :=
  match (s.logicalRegion die region).bind s.partOfRegion with
  | some p => (s.part p).launch.isSome
  | none => false

theorem blockRuns_iff (s : State) (die region : Nat) : s.blockRuns die region = true ↔
    ∃ r p, s.logicalRegion die region = some r ∧ s.partOfRegion r = some p ∧ (s.part p).launch.isSome = true := by
  unfold State.blockRuns
  cases s.logicalRegion die region with
  | none => simp
  | some r => cases served : s.partOfRegion r <;> simp [served]

theorem mapped_iff (s : State) (unit : Nat) : s.trl.st.entries.any (fun x => x.action == 0 && x.unit / 2 ^ 20 == unit / 2 ^ 20) = true ↔
    ∃ y ∈ s.trl.st.entries, y.action = 0 ∧ y.unit / 2 ^ 20 = unit / 2 ^ 20 := by simp

section
variable {s : State} {die region block : Nat} {e : PendRepair}

theorem spareColumnMap_none (none_ : s.rel.pending.find? (fun e => e.kind == 1 && e.st == 0 && e.unit / 2 ^ 20 ==
    unitColumn die region block 0 / 2 ^ 20) = none) : exec (.spareColumnMap die region block) s = .next s := by
  rw [show exec (.spareColumnMap die region block) s = execSpareColumnMap die region block s from rfl, execSpareColumnMap, none_]

variable (found : s.rel.pending.find? (fun e => e.kind == 1 && e.st == 0 && e.unit / 2 ^ 20 == unitColumn die region block 0 / 2 ^ 20) = some e)
include found

theorem spareColumnMap_acts : exec (.spareColumnMap die region block) s =
    if s.blockRuns die region = true ∨ s.trl.st.entries.any (fun x => x.action == 0 && x.unit / 2 ^ 20 == e.unit / 2 ^ 20) = true ∨
      8 ≤ bits e.unit 19 16 then .next s
    else .next ((State.repaired { s with trl := { s.trl with st := { s.trl.st with entries := s.trl.st.entries ++ [RepairEntry.mk e.unit 0] } } }
      e.unit).newRepair) := by
  rw [show exec (.spareColumnMap die region block) s = execSpareColumnMap die region block s from rfl, execSpareColumnMap, found]
  rfl

theorem spareColumnMap_maps (idle : s.blockRuns die region = false) (unmapped : ¬∃ y ∈ s.trl.st.entries, y.action = 0 ∧
    y.unit / 2 ^ 20 = e.unit / 2 ^ 20) (low : bits e.unit 19 16 < 8) : ∃ t, exec (.spareColumnMap die region block) s = .next t ∧
      t.trl.st.entries = s.trl.st.entries ++ [⟨e.unit, 0⟩] ∧ t.rel = s.rel.repaired e.unit ∧ bit t.host.irqStat 5 = true ∧ t.regions = s.regions ∧
      t.mem = s.mem := by
  refine ⟨_, (spareColumnMap_acts found).trans (if_neg ?_), ?_⟩
  · rintro (runs | mapped | high)
    · rw [idle] at runs
      cases runs
    · exact unmapped ((mapped_iff s e.unit).mp mapped)
    · omega
  · obtain ⟨o, h, b, repaired, set⟩ := repaired_repairs { s with
      trl := { s.trl with st := { s.trl.st with entries := s.trl.st.entries ++ [RepairEntry.mk e.unit 0] } } } e.unit
    rw [repaired]
    exact ⟨rfl, rfl, set, rfl, rfl⟩

end

/-! Self-test (R505, R509). -/

/-- What a slice counts of itself. -/
def Rel18.sliced (r : Rel18) (unit : Nat) (pass : Bool) : Rel18 :=
  { r with
    slices := (r.slices + 1) % 2 ^ 32, fails := if pass then r.fails else min 0xFFFF (r.fails + 1),
    last := if pass then r.last else unit / 2 ^ 16 % 2 ^ 16 }

/-- A slice in a unit that serves changes a block's banks, the counts of faults, and the partition's alignment. -/
structure Slices (s t : State) (r : Nat) : Prop where
  frame : t = { s with regions := t.regions, rel := { s.rel with faults := t.rel.faults }, parts := t.parts, fresh := t.fresh }
  other : ∀ k, k ≠ r → t.region k = s.region k
  sram : (t.region r).sram = (s.region r).sram
  parts : ∀ p, s.partOfRegion r = some p → p < s.parts.length → (s.partRec p).det = true → (t.part p).needAlign = true

theorem sliceUses_uses (s : State) (unit r : Nat) : ∃ rs m, s.sliceUses unit r = { s with regions := rs, fresh := m } ∧
    (∀ k, k ≠ r → (s.sliceUses unit r).region k = s.region k) ∧ ((s.sliceUses unit r).region r).sram = (s.region r).sram := by
  unfold State.sliceUses
  split
  · refine ⟨_, _, rfl, fun k other => region_setRegion_ne _ _ _ _ other, ?_⟩
    rw [draw_eq]
    refine setRegion_region_rel (R := fun x y : Region => y.sram = x.sram) (fun _ => rfl) { s with fresh := s.fresh + 1 } r ?_ r
    rfl
  · exact ⟨s.regions, s.fresh, rfl, fun _ _ => rfl, rfl⟩

/-- A slice's end in a unit that serves. -/
def State.slicedIn (s : State) (unit r : Nat) (pass : Bool) : State :=
  let s := s.sliceUses unit r
  let s := if pass then (if unit / 2 ^ 28 = 2 then s.transient unit else s) else s.sliceFails unit
  match s.partOfRegion r with
  | some p => if (s.partRec p).det then s.loseAlign p else s
  | none => s

theorem slicedIn_slices (s : State) (unit r : Nat) (pass : Bool) : Slices s (s.slicedIn unit r pass) r := by
  unfold State.slicedIn
  dsimp only
  obtain ⟨rs, m, uses, other, sram⟩ := sliceUses_uses s unit r
  generalize s.sliceUses unit r = u at *
  obtain ⟨f, counted⟩ : ∃ f, (if pass = true then (if unit / 2 ^ 28 = 2 then u.transient unit else u) else u.sliceFails unit) =
      { u with rel := { u.rel with faults := f } } := by
    split
    · split
      · exact ⟨_, rfl⟩
      · exact ⟨u.rel.faults, rfl⟩
    · exact ⟨_, rfl⟩
  rw [counted]
  have served : ∀ p, State.partOfRegion { u with rel := { u.rel with faults := f } } p = s.partOfRegion p := by rw [uses]; exact fun _ => rfl
  rw [served]
  have rec_ : ∀ p, State.partRec { u with rel := { u.rel with faults := f } } p = s.partRec p := by rw [uses]; exact fun _ => rfl
  cases known : s.partOfRegion r with
  | none => exact ⟨by rw [uses], other, sram, fun p h => by rw [known] at h; cases h⟩
  | some p =>
    dsimp only
    rw [rec_]
    split
    · refine ⟨by rw [uses]; rfl, other, sram, fun k h here _ => ?_⟩
      obtain rfl := Option.some.inj (known.symm.trans h)
      rw [State.loseAlign, part_setPart _ _ _ (by rw [uses]; exact here)]
    · next loose =>
      refine ⟨by rw [uses], other, sram, fun k h _ det => ?_⟩
      obtain rfl := Option.some.inj (known.symm.trans h)
      exact absurd det loose

section
variable {s : State} {unit : Nat} {pass : Bool} (fw : s.sec.fwok = true) (up : s.inReset = false)
include fw up

theorem selftestSlice_early (early : s.trl.loaded = false) : exec (.selftestSlice unit pass) s =
    .next (if pass = true ∨ s.rel.failedUnits.contains unit = true then s
      else { s with rel := { s.rel with failedUnits := s.rel.failedUnits ++ [unit] } }) := by
  refine (show _ = execSelftestSlice unit pass s from rfl).trans ((if_neg (by simp [fw, up])).trans ?_)
  exact if_pos (by simp [early])

theorem selftestSlice_off (loaded : s.trl.loaded = true) (off : s.rel.stEn = false ∨ s.sliceOk unit = false) :
    exec (.selftestSlice unit pass) s = .next s := by
  refine (show _ = execSelftestSlice unit pass s from rfl).trans ((if_neg (by simp [fw, up])).trans ((if_neg (by simp [loaded])).trans ?_))
  exact if_pos (by simpa using off)

theorem selftestSlice_ends (loaded : s.trl.loaded = true) (on : s.rel.stEn = true) (ok : s.sliceOk unit = true) :
    exec (.selftestSlice unit pass) s = .next (match s.servesAs unit with
      | some r => State.slicedIn { s with rel := s.rel.sliced unit pass } unit r pass
      | none => if pass then { s with rel := s.rel.sliced unit pass }
        else State.recordRepair { s with rel := s.rel.sliced unit pass } (unit / 2 ^ 28) 3 1 unit) := by
  refine (show _ = execSelftestSlice unit pass s from rfl).trans ((if_neg (by simp [fw, up])).trans ((if_neg (by simp [loaded])).trans ?_))
  exact (if_neg (by simp [on, ok])).trans rfl

end

/-! Lanes between the dies and the die network (Table 18-1). -/

theorem trigger_triggers (s : State) (trig detail : Nat) : ∃ h r, s.trigger trig detail = { s with host := h, rel := { s.rel with resets := r } } ∧
    r.busy = true ∧ r.trig = trig ∧ r.detail = detail % 4096 := by
  obtain ⟨h, r, begun⟩ := trigger_eq s trig detail
  have busy : (s.trigger trig detail).rel.resets.busy = true := startReset_busy ..
  have named : (s.trigger trig detail).rel.resets.trig = trig ∧ (s.trigger trig detail).rel.resets.detail = detail % 4096 := by
    unfold State.trigger State.startReset
    dsimp only
    split
    · exact ⟨rfl, rfl⟩
    · exact ⟨rfl, rfl⟩
  rw [begun] at busy named
  exact ⟨h, r, begun, busy, named⟩

section
variable {s : State} (up : s.board.rails = true)
include up

theorem dieLinkLaneSpare_acts {link : Nat} (known : link < 3) (lane : Nat) : exec (.dieLinkLaneSpare link lane) s =
    .next (if Config.dieSpares link < Tab.get 0 s.rel.dieBad link + 1 then
        State.trigger { s with rel := { s.rel with dieBad := Tab.set 0 s.rel.dieBad link (Tab.get 0 s.rel.dieBad link + 1) } } 6
          ((if link = 2 then 1 else 0) * 2 ^ 8 + link)
      else (State.recordRepair { s with rel := { s.rel with dieBad := Tab.set 0 s.rel.dieBad link (Tab.get 0 s.rel.dieBad link + 1) } } 8 0 1
        (8 * 2 ^ 28 + link * 2 ^ 26 + lane % 2 ^ 26)).repaired (8 * 2 ^ 28 + link * 2 ^ 26 + lane % 2 ^ 26)) :=
  (show _ = execDieLinkLaneSpare link lane s from rfl).trans (if_neg (by simp [up]; omega))

theorem dieNetworkRetry_acts {die segment : Nat} (known : die < 2) (part : segment < 9) (attempts : Nat) :
    exec (.dieNetworkRetry die segment attempts) s = .next (if 8 ≤ attempts then
        ((s.setRel (fun r => { r with retries := Tab.modify 0 r.retries (die * 16 + segment) (· + 1) })).countFault
          (9 * 2 ^ 28 + die * 2 ^ 27 + segment)).trigger 6 (die * 2 ^ 8 + segment)
      else (s.setRel (fun r => { r with retries := Tab.modify 0 r.retries (die * 16 + segment) (· + 1) })).countFault
        (9 * 2 ^ 28 + die * 2 ^ 27 + segment)) :=
  (show _ = execDieNetworkRetry die segment attempts s from rfl).trans (if_neg (by simp [up]; omega))

end

theorem getLast?_map_append_singleton {α : Type} (f : α → α) (l : List α) (a : α) : ((l ++ [a]).map f).getLast? = some (f a) := by simp

/-- Settles O54: each event of repair by what its unit's counts and lists hold. -/
theorem repairsAreDecidedAndApplied : Obligations.RepairsAreDecidedAndApplied := by
  refine ⟨fun unit hard soft s fw due open_ => ?decides, fun unit hard soft s waits => ?undecided, fun die region block s => ?column,
    fun unit pass s fw up => ⟨fun early => ?early, fun loaded => ⟨selftestSlice_off fw up loaded, fun on ok => ?slice⟩⟩,
    fun link lane s known up => ?lane, fun die segment attempts s known part up => ?network⟩
  case decides =>
    refine ⟨fun alone => ?_, fun e column waits => ?_⟩
    · obtain ⟨t, acts, frame, exhaust, interrupt, listed, full⟩ := repairDecide_decides fw due open_ alone
      exact ⟨t, acts, frame, exhaust, interrupt, listed, full⟩
    · obtain ⟨frame, exhaust, interrupt, listed, full⟩ := decideRepair_decides
        { s with rel := { s.rel with pending := s.rel.pending.filter (fun x => x != e) } } (blockOfUnit unit) (e.count + s.faultCount unit hard soft)
      exact ⟨_, repairDecide_joins fw due open_ column waits, frame, exhaust, interrupt, listed, full⟩
  case undecided =>
    refine if_pos ?_
    rcases waits with h | h | h
    · simp [h]
    · exact .inr (.inl (by simpa using fun q => h ((qualifies_iff ..).mp q)))
    · exact .inr (.inr ((decided_iff s unit).mpr h))
  case column =>
    intro base found
    refine ⟨spareColumnMap_none, fun e known => ?_⟩
    intro busy mapped
    refine ⟨fun held => ?_, fun idle unmapped low => ?_⟩
    · refine (spareColumnMap_acts known).trans (if_pos ?_)
      exact held.imp (blockRuns_iff s die region).mpr (Or.imp_left (mapped_iff s e.unit).mpr)
    · obtain ⟨t, acts, entries, rel, set, regions, mem⟩ := spareColumnMap_maps known
        (Bool.eq_false_iff.mpr fun runs => idle ((blockRuns_iff s die region).mp runs)) unmapped low
      exact ⟨t, acts, entries, by rw [rel]; rfl, by rw [rel]; rfl, set, regions, mem⟩
  case early =>
    rw [selftestSlice_early fw up early]
    refine ⟨fun known => by rw [if_pos (known.imp_right List.contains_iff_mem.mpr)], fun fails new => ?_⟩
    rw [if_neg]
    rintro (h | h)
    · rw [fails] at h
      cases h
    · exact new (List.contains_iff_mem.mp h)
  case slice =>
    have acts := selftestSlice_ends (pass := pass) fw up loaded on ok
    cases serves : s.servesAs unit with
    | none =>
      rw [serves] at acts
      refine ⟨_, acts, ?_⟩
      dsimp only
      have none_ : ∀ {r : Nat}, ¬(none = some r) := fun h => nomatch h
      cases pass with
      | true => exact ⟨rfl, rfl, rfl, rfl, rfl, fun _ => ⟨rfl, fun h => absurd h (by decide)⟩, fun r h => absurd h none_, fun r p h => absurd h none_⟩
      | false =>
        obtain ⟨waiting, over_, recorded, listed, -⟩ := recordRepair_records { s with rel := s.rel.sliced unit false } (unit / 2 ^ 28) 3 1 unit
        rw [if_neg (by decide), recorded]
        exact ⟨rfl, rfl, rfl, rfl, rfl, fun _ => ⟨rfl, fun _ few => listed few⟩, fun r h => absurd h none_, fun r p h => absurd h none_⟩
    | some r =>
      rw [serves] at acts
      obtain ⟨frame, other, sram, parts⟩ := slicedIn_slices { s with rel := s.rel.sliced unit pass } unit r pass
      refine ⟨_, acts, ?_⟩
      dsimp only
      generalize State.slicedIn _ unit r pass = t at *
      refine ⟨by rw [frame]; rfl, by rw [frame]; rfl, by rw [frame]; rfl, by rw [frame], by rw [frame], fun h => absurd h (by simp), fun k same => ?_,
        fun k p same here known det => ?_⟩
      · obtain rfl := Option.some.inj same
        exact ⟨other, sram, by rw [frame]; rfl⟩
      · obtain rfl := Option.some.inj same
        exact parts p here known det
  case lane =>
    have acts := dieLinkLaneSpare_acts up known lane
    by_cases beyond : Config.dieSpares link < Tab.get 0 s.rel.dieBad link + 1
    · rw [if_pos beyond] at acts
      refine ⟨_, acts, ?_⟩
      obtain ⟨h, r, begun, busy, trig, detail⟩ := trigger_triggers
        { s with rel := { s.rel with dieBad := Tab.set 0 s.rel.dieBad link (Tab.get 0 s.rel.dieBad link + 1) } } 6
        ((if link = 2 then 1 else 0) * 2 ^ 8 + link)
      rw [begun]
      have fits : ((if link = 2 then 1 else 0) * 2 ^ 8 + link) % 4096 = (if link = 2 then 1 else 0) * 2 ^ 8 + link := by split <;> omega
      exact ⟨by simp, fun k other => by simp [other], fun _ => ⟨busy, trig, detail.trans fits, rfl⟩, fun few => absurd beyond (Nat.not_lt.mpr few)⟩
    · rw [if_neg beyond] at acts
      refine ⟨_, acts, ?_⟩
      obtain ⟨waiting, over_, recorded, listed, -⟩ := recordRepair_records
        { s with rel := { s.rel with dieBad := Tab.set 0 s.rel.dieBad link (Tab.get 0 s.rel.dieBad link + 1) } } 8 0 1
        (8 * 2 ^ 28 + link * 2 ^ 26 + lane % 2 ^ 26)
      rw [recorded]
      obtain ⟨o, h, b, repaired, set⟩ := repaired_repairs { s with rel := { s.rel with
        dieBad := Tab.set 0 s.rel.dieBad link (Tab.get 0 s.rel.dieBad link + 1), pending := waiting, full := over_ } }
        (8 * 2 ^ 28 + link * 2 ^ 26 + lane % 2 ^ 26)
      rw [repaired]
      refine ⟨by simp [Rel18.repaired], fun k other => by simp [Rel18.repaired, other], fun many => absurd many beyond,
        fun _ => ⟨rfl, rfl, set, fun few => ?_⟩⟩
      refine ⟨⟨s.now, 8, 1, 1, 8 * 2 ^ 28 + link * 2 ^ 26 + lane % 2 ^ 26⟩, ?_, rfl, rfl, rfl⟩
      dsimp only [Rel18.repaired]
      rw [listed few]
      exact (getLast?_map_append_singleton ..).trans (congrArg some (if_pos ⟨rfl, show (0 : Nat) ≠ 3 by decide⟩))
  case network =>
    have acts := dieNetworkRetry_acts up known part attempts
    refine ⟨_, acts, ?_⟩
    generalize counted : (s.setRel (fun r => { r with retries := Tab.modify 0 r.retries (die * 16 + segment) (· + 1) })).countFault
      (9 * 2 ^ 28 + die * 2 ^ 27 + segment) = u
    have retried : ∀ k, Tab.get 0 u.rel.retries k = Tab.get 0 s.rel.retries k + (if k = die * 16 + segment then 1 else 0) := fun k => by
      rw [← counted, show ∀ v : State, ∀ n, (v.countFault n).rel.retries = v.rel.retries from fun _ _ => rfl]
      dsimp only [State.setRel]
      rw [Tab.get_modify]
      split
      · next same => rw [same]
      · rfl
    obtain ⟨mem, resets⟩ : u.mem = s.mem ∧ u.rel.resets = s.rel.resets := by rw [← counted]; exact ⟨rfl, rfl⟩
    by_cases many : 8 ≤ attempts
    · obtain ⟨h, r, begun, busy, trig, detail⟩ := trigger_triggers u 6 (die * 2 ^ 8 + segment)
      rw [if_pos many, begun]
      exact ⟨retried, mem, fun _ => ⟨busy, trig, detail.trans (by omega)⟩, fun few => absurd many (Nat.not_le.mpr few)⟩
    · rw [if_neg many]
      exact ⟨retried, mem, fun h => absurd h many, fun _ => resets⟩

end Sys2Proof.Machine
end

section
/-! SUPPORT. The test access port and the loopbacks (R602 to R606); and the settlement of O43. -/
namespace Sys2Proof.Machine

/-! Scans of the test access port (R602, R603): with the rails up, each command's effect. -/

/-- With no stack selected, or after the load, a scan of a stack's register is one of the bypass register. -/
theorem hbmScan_bypassed {s : State} (code : Nat) (isWir : Bool) (n : Nat) (off : s.board.hbmsel = none ∨ s.trl.loaded = true) :
    s.hbmScan code isWir n = s.bypassScan code n := by
  unfold State.hbmScan
  cases chosen : s.board.hbmsel with
  | none => rfl
  | some k => exact if_pos (off.resolve_left (by simp [chosen]))

section
variable {s : State} (up : s.board.rails = true)
include up

theorem rails_guard (r : Res) : (if !s.board.rails then .next s else r) = r := if_neg (by simp [up])

theorem execHbmsel_early {n : Nat} (early : s.trl.loaded = false) : exec (.hbmsel n) s = .next { s with
    board := { s.board with ir := 0x20, driven := 0, hbmsel := if n % 16 < 12 then some (n % 16) else none },
    out := .tdo (s.board.hbmsel.getD 0) :: s.out } := by
  refine (show _ = execHbmsel n s from rfl).trans ((rails_guard up _).trans ((if_neg (by simp [early])).trans ?_))
  cases s.board.hbmsel <;> rfl

theorem execHbmwir_bypassed {n : Nat} (off : s.board.hbmsel = none ∨ s.trl.loaded = true) : exec (.hbmwir n) s =
    .next { s with board := { s.board with ir := 0x21, driven := 0 }, out := .tdo (2 * n) :: s.out } :=
  (show _ = execHbmwir n s from rfl).trans ((rails_guard up _).trans (by rw [hbmScan_bypassed _ _ _ off]; rfl))

theorem execHbmwdr_bypassed {n : Nat} (off : s.board.hbmsel = none ∨ s.trl.loaded = true) : exec (.hbmwdr n) s =
    .next { s with board := { s.board with ir := 0x22, driven := 0 }, out := .tdo (2 * n) :: s.out } :=
  (show _ = execHbmwdr n s from rfl).trans ((rails_guard up _).trans (by rw [hbmScan_bypassed _ _ _ off]; rfl))

theorem execHbmwir_scans {n k : Nat} (early : s.trl.loaded = false) (chosen : s.board.hbmsel = some k) : exec (.hbmwir n) s =
    .next { s with
      board := { s.board with ir := 0x21, driven := 0, wir := Tab.set 0 s.board.wir k n },
      out := .tdo (Config.hbmShift k true (Tab.get 0 s.board.wir k)) :: s.out } := by
  refine (show _ = execHbmwir n s from rfl).trans ((rails_guard up _).trans ?_)
  rw [State.hbmScan, chosen]
  exact congrArg _ (if_neg (by simp [early]))

theorem execHbmwdr_scans {n k : Nat} (early : s.trl.loaded = false) (chosen : s.board.hbmsel = some k) : exec (.hbmwdr n) s =
    .next { s with
      board := { s.board with ir := 0x22, driven := 0, wdr := Tab.set 0 s.board.wdr k n },
      out := .tdo (Config.hbmShift k false (Tab.get 0 s.board.wdr k)) :: s.out } := by
  refine (show _ = execHbmwdr n s from rfl).trans ((rails_guard up _).trans ?_)
  rw [State.hbmScan, chosen]
  exact congrArg _ (if_neg (by simp [early]))

end

/-! Loopbacks (R604 to R606). -/

/-- Bytes put at addresses that all satisfy a test leave the others. -/
theorem foldl_put_byte (test : Nat → Bool) (f : Nat → Byte) {a : Nat} (out_ : test a = false) (cells : List Host.Cell)
    (inside : ∀ c ∈ cells, test c.1 = true) (m : Memory) : (cells.foldl (fun (m : Memory) c => m.put c.1 (f c.1)) m).byte a = m.byte a := by
  induction cells generalizing m with
  | nil => rfl
  | cons c cells ih =>
    rw [List.foldl_cons, ih fun c mem => inside c (List.mem_cons_of_mem _ mem)]
    refine Tab.get_set_ne _ _ fun same => ?_
    rw [same, inside c List.mem_cons_self] at out_
    cases out_

/-- The overwriting of an array puts bytes of that array alone. -/
theorem overwriteArray_byte (s : State) (iface unit : Nat) {a : Nat} (out_ : loopHolds iface unit a = false) :
    (s.overwriteArray iface unit).mem.loc.byte a = s.mem.loc.byte a :=
  foldl_put_byte (loopHolds iface unit) (fun a => Config.loopByte (Config.freeValue s.fresh) a) out_ _ (fun _ mem => (List.mem_filter.mp mem).2) _

/-- What a loopback that starts on an interface's unit changes besides the board (Table 23-12). -/
def State.loopStarts (s : State) (iface unit depth : Nat) : State :=
  if iface = 0 then
    let l := s.link unit
    s.setLink unit { l with st := .loopback, prior := l.st, priorCause := l.cause }
  else if depth = 2 ∧ 3 ≤ iface then s.overwriteArray iface unit
  else s

/-- From s to t a loopback of these parameters has taken its unit: a port or an array. -/
structure LoopStarts (s t : State) (iface unit depth : Nat) : Prop where
  frame : t = { s with eft := t.eft, mem := { s.mem with loc := t.mem.loc, bad := t.mem.bad }, fresh := t.fresh }
  spared : ¬(depth = 2 ∧ 3 ≤ iface) → t.mem = s.mem ∧ t.fresh = s.fresh
  byte : ∀ a, loopHolds iface unit a = false → t.mem.loc.byte a = s.mem.loc.byte a
  eft : iface ≠ 0 → t.eft = s.eft
  port : iface = 0 → unit < s.eft.links.length → (t.link unit).st = .loopback ∧ (t.link unit).prior = (s.link unit).st

theorem loopStarts_starts (s : State) (iface unit depth : Nat) : LoopStarts s (s.loopStarts iface unit depth) iface unit depth := by
  unfold State.loopStarts
  split
  · next port =>
    refine ⟨rfl, fun _ => ⟨rfl, rfl⟩, fun _ _ => rfl, fun other => absurd port other, fun _ here => ?_⟩
    dsimp only
    rw [link_setLink_self here]
    exact ⟨rfl, rfl⟩
  · next other =>
    split
    · next array =>
      exact ⟨rfl, fun spared => absurd array spared, fun a out_ => overwriteArray_byte s iface unit out_, fun _ => rfl, fun port => absurd port other⟩
    · exact ⟨rfl, fun _ => ⟨rfl, rfl⟩, fun _ _ => rfl, fun _ => rfl, fun port => absurd port other⟩

section
variable (v : Word) {s : State} (up : s.board.rails = true)

/-- LOOPBACK_GO has loaded its register. -/
def State.loopLoaded (s : State) (v : Word) : State :=
  { s with board := { s.board with ir := 0x10, driven := 0, lbcfg := v.toNat % 2 ^ 36 }, out := .tdo s.board.lbcfg :: s.out }

include up

theorem loopbackGo_acts : exec (.loopbackGo v) s =
    if !(bit v.toNat 36) ∨ s.board.lb.isSome then .next (s.loopLoaded v)
    else
      let r := s.loopRefusal (bits v.toNat 3 0) (bits v.toNat 11 4) (bits v.toNat 13 12) (bits v.toNat 35 16)
      if r ≠ 0 then .next ((s.loopLoaded v).setBoard (fun b => { b with lbState := r }))
      else .next (((s.loopLoaded v).setBoard (fun b => { b with
        lb := some ⟨bits v.toNat 3 0, bits v.toNat 11 4, bits v.toNat 13 12, s.now, bits v.toNat 35 16⟩,
        lbState := 1, lbErrors := 0, lbBits := 0 })).loopStarts (bits v.toNat 3 0) (bits v.toNat 11 4) (bits v.toNat 13 12)) :=
  (show _ = execLoopbackGo v s from rfl).trans (rails_guard up _)

end

/-- A loopback that is over leaves its counts and its port as it was. -/
theorem loopbackEnd_acts {s : State} {x : Loopback} (errors count : Nat) (partner : Bool) (runs : s.board.lb = some x)
    (due : s.now ≥ x.started + 1000 * x.dur) : exec (.loopbackEnd errors count partner) s =
      .next ((s.setBoard (fun b => { b with lbErrors := min 65535 errors, lbBits := count % 2 ^ 45 })).endLoopback
        (if x.iface = 0 ∧ x.depth = 3 ∧ ¬partner then 5 else if min 65535 errors = 0 ∧ count % 2 ^ 45 ≠ 0 then 2 else 3)) := by
  rw [show exec (.loopbackEnd errors count partner) s = execLoopbackEnd errors count partner s from rfl, execLoopbackEnd, runs]
  exact if_neg (Nat.not_lt.mpr due)

/-- The end of the loopback that runs, with its port's earlier state back (R606). -/
theorem endLoopback_restores {s : State} {x : Loopback} (runs : s.board.lb = some x) (st : Nat) :
    (s.endLoopback st).board = { s.board with lb := none, lbState := st } ∧
    s.endLoopback st = { s with board := (s.endLoopback st).board, eft := (s.endLoopback st).eft } ∧
    (x.iface ≠ 0 → (s.endLoopback st).eft = s.eft) ∧
    (x.iface = 0 → x.unit < s.eft.links.length → ((s.endLoopback st).link x.unit).st = (s.link x.unit).prior ∧
      ((s.endLoopback st).link x.unit).cause = (s.link x.unit).priorCause) := by
  unfold State.endLoopback
  rw [runs]
  dsimp only
  split
  · next port =>
    refine ⟨rfl, rfl, fun other => absurd port other, fun _ here => ?_⟩
    rw [link_setLink_self (by exact here)]
    exact ⟨rfl, rfl⟩
  · next other => exact ⟨rfl, rfl, fun _ => rfl, fun port => absurd port other⟩

/-- Settles O43: each scan by its command's guard, and each loopback by its precondition. -/
theorem testPortScansAndLoopbacks : Obligations.TestPortScansAndLoopbacks := by
  refine ⟨fun s up => ?scans, fun v s up => ?go, fun errors count partner x s runs due => ?ends⟩
  case scans =>
    have early_extest : ∀ n, s.trl.loaded = false → exec (.extest n) s = _ := fun n early =>
      (show _ = execExtest n s from rfl).trans ((rails_guard up _).trans (if_neg (by simp [early])))
    have late : ∀ n, s.trl.loaded = true → exec (.extest n) s = .next (s.bypassScan 0x00 n) ∧ exec (.hbmsel n) s = .next (s.bypassScan 0x20 n) :=
      fun n loaded => ⟨(show _ = execExtest n s from rfl).trans ((rails_guard up _).trans (if_pos loaded)),
        (show _ = execHbmsel n s from rfl).trans ((rails_guard up _).trans (if_pos loaded))⟩
    exact ⟨rails_guard up _, fun n => rails_guard up _, fun n => rails_guard up _, early_extest,
      fun n loaded => ⟨(late n loaded).1, (late n loaded).2, execHbmwir_bypassed up (.inr loaded), execHbmwdr_bypassed up (.inr loaded)⟩,
      rails_guard up _, fun n early => execHbmsel_early up early,
      fun n free => ⟨execHbmwir_bypassed up (.inl free), execHbmwdr_bypassed up (.inl free)⟩,
      fun n k early chosen => ⟨execHbmwir_scans up early chosen, execHbmwdr_scans up early chosen⟩, rails_guard up _⟩
  case go =>
    have acts := loopbackGo_acts v up
    intro n b r o array
    refine ⟨fun idle => acts.trans (if_pos (idle.imp_left fun h => by simp [show bit v.toNat 36 = false from h])), fun go free refused => ?_, fun go free allowed here => ?_⟩
    · exact acts.trans ((if_neg (by simp [show bit v.toNat 36 = true from go, free])).trans (if_pos refused))
    · have started := acts.trans ((if_neg (by simp [show bit v.toNat 36 = true from go, free])).trans (if_neg (by simpa using allowed)))
      obtain ⟨frame, spared, byte, eft, port⟩ := loopStarts_starts ((s.loopLoaded v).setBoard (fun b => { b with
        lb := some ⟨bits v.toNat 3 0, bits v.toNat 11 4, bits v.toNat 13 12, s.now, bits v.toNat 35 16⟩,
        lbState := 1, lbErrors := 0, lbBits := 0 })) (bits v.toNat 3 0) (bits v.toNat 11 4) (bits v.toNat 13 12)
      refine ⟨_, started, ?_⟩
      generalize State.loopStarts _ _ _ _ = t at *
      exact ⟨by rw [frame]; rfl, by rw [frame]; rfl, spared, byte, eft, fun zero => port zero here⟩
  case ends =>
    obtain ⟨board, frame, eft, port⟩ := endLoopback_restores
      (s := s.setBoard (fun b => { b with lbErrors := min 65535 errors, lbBits := count % 2 ^ 45 })) (x := x) runs
      (if x.iface = 0 ∧ x.depth = 3 ∧ ¬partner then 5 else if min 65535 errors = 0 ∧ count % 2 ^ 45 ≠ 0 then 2 else 3)
    refine ⟨_, loopbackEnd_acts errors count partner runs due, ?_⟩
    generalize State.endLoopback _ _ = t at *
    have none_ : min 65535 errors = 0 ↔ errors = 0 := by omega
    refine ⟨?_, frame, eft, port⟩
    rw [board]
    simp [State.setBoard, none_]

end Sys2Proof.Machine
end

section
/-! SUPPORT. The rails, the inputs that raise and drop them, and PERST_N (R595 to R599); and the settlement of O36. -/
namespace Sys2Proof.Machine

/-! Rails up (R595). -/

theorem powerUp_rises (s : State) : s.powerUp.board = { s.board with rails := true } ∧ s.powerUp.trl = { s.trl with phase := 2 } := by
  unfold State.powerUp
  dsimp only
  split
  · obtain ⟨o, b, told⟩ := notify_frame
      { s with board := { s.board with rails := true }, trl := { s.trl with phase := 2 }, fresh := s.fresh + 1 } 0x0005 none
      ((Config.freeValue s.fresh).toNat % 256)
    rw [draw_eq, told]
    exact ⟨rfl, rfl⟩
  · exact ⟨rfl, rfl⟩

/-- A state whose rails rise as soon as nothing keeps them off. -/
def State.mayPowerUp (s : State) : State := if s.board.mayRise then s.powerUp else s

theorem mayPowerUp_board (s : State) : s.mayPowerUp.board = { s.board with rails := s.board.rails || s.board.mayRise } := by
  unfold State.mayPowerUp
  cases may : s.board.mayRise with
  | true => exact (powerUp_rises s).1.trans (by rw [Bool.or_true])
  | false => rw [Bool.or_false]; rfl

theorem mayPowerUp_rises {s : State} (may : s.board.mayRise = true) : s.mayPowerUp.board.rails = true ∧ s.mayPowerUp.trl.phase = 2 := by
  obtain ⟨board, trl⟩ := powerUp_rises s
  rw [State.mayPowerUp, if_pos may, board, trl]
  exact ⟨rfl, rfl⟩

/-! Rails off (R596). -/

/-- A loss of power, and what the board and the power manager remember of its cause beside it. -/
theorem powerOff_loses (s : State) (b : Board) (off : b.rails = false) (w : Pwr) :
    lostPower s { s.powerOff with board := b, pwr := w } :=
  ⟨off, rfl, rfl, rfl, rfl, rfl, rfl, rfl, rfl, rfl, rfl⟩

/-! Interrupts and the CXL port (R587, R598). -/

/-- From h to k the port has changed only the interrupts that are due. -/
def HostPort.SamePort (h k : HostPort) : Prop := k = { h with irqStat := k.irqStat, msixPend := k.msixPend }

theorem HostPort.SamePort.trans {h k l : HostPort} (first_ : h.SamePort k) (then_ : k.SamePort l) : h.SamePort l := by
  rw [SamePort, then_, first_]

theorem vector_samePort (s : State) (v : Nat) : s.host.SamePort (s.vector v).host := by
  unfold State.vector
  split <;> rfl

theorem irq_samePort (s : State) (b : Nat) : s.host.SamePort (s.irq b).host := by
  unfold State.irq
  split
  · rfl
  · exact .trans (k := { s.host with irqStat := s.host.irqStat + 2 ^ b }) rfl
      (vector_samePort { s with host := { s.host with irqStat := s.host.irqStat + 2 ^ b } } _)

theorem loseAdmission_samePort (s : State) (p : Nat) (ide tsp : Bool) : s.host.SamePort (s.loseAdmission p ide tsp).host := by
  unfold State.loseAdmission
  split
  · obtain ⟨r, rings⟩ := event_eq (s.setCloche p { s.cloche p with st := .locked, ide := ide, tsp := tsp, session := none })
      (islandShed 23) 0x91 none none ClocheSt.locked.code
    dsimp only
    rw [rings]
    exact irq_samePort _ 7
  · rfl

theorem loseAdmissions_samePort (s : State) (ide tsp : Bool) (f : Cloche → Bool) : s.host.SamePort (s.loseAdmissions ide tsp f).host := by
  refine foldl_rel (R := fun s t : State => s.host.SamePort t.host) (fun _ => rfl) (fun h k => h.trans k) (fun s p => ?_) _ s
  split
  · exact loseAdmission_samePort ..
  · rfl

/-- Settles O36: each input by the guard that it meets, a loss of power by what powerOff leaves. -/
theorem powerInputsRaiseAndDropTheRails : Obligations.PowerInputsRaiseAndDropTheRails := by
  refine fun s => ⟨fun mv off high => ?on, fun n up early => ?rail, fun once may => ?again, fun mv low in_ => ?loss, fun mv high in_ => ?overvoltage,
    fun n c known hot up => ?trip, fun ns long high => ?reset, fun ns short => ?pulse, fun ns low => ?release, fun high => ?perst, rfl, rfl, rfl⟩
  case on =>
    refine ⟨_, (show _ = execPowerOn mv s from rfl).trans (if_neg (by simp [off]; omega)), ?_⟩
    change (State.mayPowerUp _).board.input = true ∧ _
    rw [mayPowerUp_board]
    refine ⟨rfl, fun rails held crit reset => ?_⟩
    exact mayPowerUp_rises (by simp [Board.mayRise, rails, held, crit, reset])
  case rail =>
    refine ⟨_, (show _ = execRailTimeout n s from rfl).trans (if_neg (by simp [up]; omega)), powerOff_loses _ _ rfl _, rfl, ?_⟩
    exact congrArg (s.board.heldOff || ·) (decide_eq_decide.mpr (show 2 ≤ s.board.railFails + 1 ↔ 1 ≤ s.board.railFails by omega))
  case again =>
    obtain ⟨board, trl⟩ := powerUp_rises s
    exact ⟨_, (show _ = execPhase0Restart s from rfl).trans (if_pos ⟨once, may⟩), by rw [board], by rw [trl]⟩
  case loss =>
    exact ⟨_, (show _ = execPowerLoss mv s from rfl).trans (if_neg (by simp [in_]; omega)), powerOff_loses _ _ rfl _, rfl, rfl, rfl, rfl⟩
  case overvoltage =>
    exact ⟨_, (show _ = execInputOvervoltage mv s from rfl).trans (if_neg (by simp [in_]; omega)), powerOff_loses _ _ rfl _, rfl⟩
  case trip =>
    exact ⟨_, (show _ = execAnalogTrip n c s from rfl).trans (if_neg (by simp [up]; omega)), powerOff_loses _ _ rfl _, rfl, rfl⟩
  case reset =>
    have acts : exec (.sysResetN true ns) s = .next { s.powerOff with
        board := { s.powerOff.board with sysReset := true, sysResetAt := s.now, railFails := 0 } } := by
      rw [show exec (.sysResetN true ns) s = execSysResetN true ns s from rfl, execSysResetN, if_pos rfl, if_neg (by omega)]
      exact if_neg (by simp [high]; omega)
    exact ⟨_, acts, powerOff_loses _ _ rfl _, rfl⟩
  case pulse =>
    rw [show exec (.sysResetN true ns) s = execSysResetN true ns s from rfl, execSysResetN, if_pos rfl, if_neg (by omega)]
    exact if_pos (.inr (.inl short))
  case release =>
    refine ⟨_, (show _ = execSysResetN false ns s from rfl).trans ((if_neg (by decide)).trans (if_neg (by simp [low]))), ?_⟩
    change (State.mayPowerUp _).board.sysReset = false ∧ _
    rw [mayPowerUp_board]
    refine ⟨rfl, fun input rails held crit => ?_⟩
    exact mayPowerUp_rises (by simp [Board.mayRise, input, rails, held, crit])
  case perst =>
    refine ⟨_, (show _ = execPerstNAssert s from rfl).trans (if_neg (by simp [high])), ?_⟩
    generalize resets : ({ s with host := _, mem := _ } : State) = u
    obtain ⟨lost, shut⟩ := loseAdmissions_lost u false false (fun _ => true)
    have port := loseAdmissions_samePort u false false (fun _ => true)
    generalize u.loseAdmissions _ _ _ = t at *
    have hdm : t.mem.hdm = u.mem.hdm := by rw [lost.frame]
    rw [HostPort.SamePort] at port
    rw [hdm, port, ← resets]
    exact ⟨rfl, rfl, rfl, rfl, rfl, fun p known => shut p known rfl⟩

end Sys2Proof.Machine
end

section
/-! SUPPORT. The device reset (R511 to R514): its beginning, what its steps lose and keep, and its ready point; and the settlement of O35. -/
namespace Sys2Proof.Machine

/-! The beginning (R511). -/

theorem startReset_begins {s : State} (up : s.inReset = false) (q seq : Nat) : resetBegun s (s.startReset 2 0 q seq 0 0) 2 q seq 0 0 :=
  if_neg (by rw [show s.rel.resets.busy = false from up]; decide)

theorem trigger_begins {s : State} (up : s.inReset = false) (trig detail : Nat) : resetBegun s (s.trigger trig detail) 3 0 0 trig (detail % 4096) :=
  if_neg (by rw [show s.rel.resets.busy = false from up]; decide)

section
variable {s : State}

theorem watchdogExpire_acts {q t : Nat} {x : Running} (runs : (s.queue q).running = some x) (armed : x.wdog = some t) :
    exec (.watchdogExpire q) s = if t ≤ s.now then .next (s.startReset 2 0 q x.cmd.seq 0 0) else .next s := by
  rw [show exec (.watchdogExpire q) s = execWatchdogExpire q s from rfl, execWatchdogExpire, runs]
  dsimp only
  rw [armed]

theorem feDevreset_acts {rq : Requester} (may : s.mayWrite rq 0x20020) (key : Word) : exec (.feDevreset rq key) s =
    .next (if key.toNat % 65536 = 0xA5C3 then s.trigger 3 0 else s.discard 0x20 0x20020) := by
  rw [show exec (.feDevreset rq key) s = execFeDevreset rq key s from rfl, execFeDevreset, regWrite_mayWrite may]

theorem cancelStopTimeout_triggers {r p t : Nat} {l : LaunchRun} {y : Running} (runs : s.regRun r = some (p, l)) (cancelled : l.cancelled.isSome = true)
    (running : (s.queue l.queue).running = some y) (waits : y.waitUntil = some t) (due : t ≤ s.now) (issued : (s.region r).issued ≠ []) :
    exec (.cancelStopTimeout r) s = .next (s.trigger 5 r) := by
  rw [show exec (.cancelStopTimeout r) s = execCancelStopTimeout r s from rfl, execCancelStopTimeout, runs]
  exact if_pos (by simp [running, waits, cancelled, due, issued])

end

/-! What the steps of a reset leave as it is once the state is lost. -/

/-- Two regions run and have issued the same. -/
def Region.SameWork (x y : Region) : Prop := y.running = x.running ∧ y.issued = x.issued

theorem Region.SameWork.refl (x : Region) : x.SameWork x := ⟨rfl, rfl⟩

theorem Region.SameWork.trans {x y z : Region} (h : x.SameWork y) (k : y.SameWork z) : x.SameWork z := ⟨k.1.trans h.1, k.2.trans h.2⟩

/-- From s to t queues, slots, firmware, fuses and the reset's own record are as they were, and no partition's command and no
region's work has begun. -/
structure StaysLost (s t : State) : Prop where
  frame : t = { s with
    regions := t.regions, parts := t.parts, mem := t.mem, kv := t.kv, wgt := t.wgt, sync := t.sync, pwr := t.pwr, obs := t.obs,
    out := t.out, host := t.host, eft := { s.eft with links := t.eft.links }, sec := { s.sec with cloche := t.sec.cloche },
    rel := { s.rel with pending := t.rel.pending, applied := t.rel.applied } }
  idle : ∀ p, (s.part p).launch = none → (t.part p).launch = none
  region : ∀ r, (s.region r).SameWork (t.region r)

theorem StaysLost.refl (s : State) : StaysLost s s := ⟨rfl, fun _ => id, fun _ => .refl _⟩

theorem StaysLost.trans {s t u : State} (h : StaysLost s t) (k : StaysLost t u) : StaysLost s u where
  frame := by rw [k.frame, h.frame]
  idle p free := k.idle p (h.idle p free)
  region r := (h.region r).trans (k.region r)

/-- A step that changes neither partitions nor regions. -/
theorem StaysLost.of_frame {s t : State} (frame : t = { s with
    mem := t.mem, kv := t.kv, wgt := t.wgt, sync := t.sync, pwr := t.pwr, obs := t.obs, out := t.out, host := t.host,
    eft := { s.eft with links := t.eft.links }, sec := { s.sec with cloche := t.sec.cloche },
    rel := { s.rel with pending := t.rel.pending, applied := t.rel.applied } }) : StaysLost s t :=
  ⟨by rw [frame], fun p => by rw [frame]; exact id, fun r => by rw [frame]; exact .refl _⟩

theorem Tells.staysLost {s t : State} (h : Tells s t) : StaysLost s t := .of_frame (by rw [h.frame])

theorem setRegion_staysLost (s : State) (r : Nat) {x : Region} (same : (s.region r).SameWork x) : StaysLost s (s.setRegion r x) :=
  ⟨rfl, fun _ => id, setRegion_region_rel .refl s r same⟩

theorem foldl_staysLost {α : Type} {f : State → α → State} (step : ∀ s a, StaysLost s (f s a)) (l : List α) (s : State) :
    StaysLost s (l.foldl f s) := foldl_rel .refl .trans step l s

/-- An entry of a table whose entries are mapped alike. -/
theorem getD_map_of {α : Type} {P : α → Prop} {f : α → α} {d : α} (all : ∀ x, P (f x)) (default_ : P d) (l : List α) (n : Nat) :
    P ((l.map f).getD n d) := by
  rw [List.getD_eq_getElem?_getD, List.getElem?_map]
  cases l[n]? with
  | none => exact default_
  | some x => exact all x

theorem getD_map_rel {α : Type} {R : α → α → Prop} {f : α → α} {d : α} (all : ∀ x, R x (f x)) (default_ : R d d) (l : List α) (n : Nat) :
    R (l.getD n d) ((l.map f).getD n d) := by
  rw [List.getD_eq_getElem?_getD, List.getD_eq_getElem?_getD, List.getElem?_map]
  cases l[n]? with
  | none => exact default_
  | some x => exact all x

/-! The wipe of a partition. -/

theorem refDown_staysLost (s : State) (a n : Nat) : StaysLost s (s.refDown a n) := .of_frame rfl

theorem dropRuns_staysLost (s : State) (p n : Nat) : StaysLost s (s.dropRuns p n) := by
  refine foldl_staysLost (fun s r => ?_) _ s
  exact setRegion_staysLost s r ⟨rfl, rfl⟩

theorem freeSeq_staysLost (s : State) (n : Nat) : StaysLost s (s.freeSeq n) := by
  have counts : StaysLost s (((s.seq n).runFrames ++ (s.seq n).scoreFrame.toList).foldl (fun (s : State) f => s.refDown f 1)
      ((s.seq n).runs.foldl (fun (s' : State) r => if r.st = .evicted then s' else s'.refDown r.frame (r.count * (s.seq n).geo.frames)) s)) := by
    refine .trans (foldl_staysLost (fun s' r => ?_) _ _) (foldl_staysLost (fun s f => refDown_staysLost s f 1) _ _)
    split
    · exact .refl s'
    · exact refDown_staysLost ..
  exact (counts.trans (dropRuns_staysLost ..)).trans (.of_frame rfl)

theorem freeSeqs_staysLost (s : State) (p : Nat) : StaysLost s (s.freeSeqs p) := by
  refine foldl_staysLost (fun s n => ?_) _ s
  split
  · exact freeSeq_staysLost s n
  · exact .refl s

theorem freeGen_staysLost (s : State) (p e : Nat) : StaysLost s (s.freeGen p e) := by
  refine ⟨rfl, fun _ => id, fun r => ?_⟩
  exact getD_map_rel (R := Region.SameWork) (f := fun x => { x with rlc := x.rlc.filter (fun c => !(c.weight && c.tag == p && c.gen == (s.gen p e).gen)) })
    (fun _ => ⟨rfl, rfl⟩) (.refl _) s.regions r

theorem freeGens_staysLost (s : State) (p : Nat) : StaysLost s (s.freeGens p) := by
  have folded := foldl_staysLost (f := fun (s : State) e => if (s.gen p e).st = .free then s else s.freeGen p e)
    (fun s e => by split; exacts [.refl s, freeGen_staysLost s p e]) (List.range 8)
    { s with wgt := { s.wgt with builds := s.wgt.builds.filter (fun b => b.part != p) } }
  unfold State.freeGens
  dsimp only
  generalize List.foldl _ _ (List.range 8) = u at folded ⊢
  exact .trans (.of_frame rfl) (folded.trans (.of_frame rfl))

theorem flushTables_staysLost (s : State) (p : Nat) : StaysLost s (s.flushTables p) := by
  unfold State.flushTables
  dsimp only
  generalize flushed : ({ s with mem := _ } : State) = u
  refine .trans (t := u) (.of_frame (by rw [← flushed])) (foldl_staysLost (fun s r => ?_) _ u)
  exact setRegion_staysLost s r ⟨rfl, rfl⟩

theorem unwriteCtx_staysLost (s : State) (c : Nat) : StaysLost s (s.unwriteCtx c) := by
  refine foldl_staysLost (fun s r => ?_) _ s
  exact setRegion_staysLost s r ⟨rfl, rfl⟩

theorem setPart_staysLost (s : State) (p : Nat) {x : Part} (idle : (s.part p).launch = none → x.launch = none) : StaysLost s (s.setPart p x) :=
  ⟨rfl, setPart_part_rel (R := fun x y => x.launch = none → y.launch = none) (fun _ => id) s p idle, fun _ => .refl _⟩

theorem setCloche_staysLost (s : State) (p : Nat) (c : Cloche) : StaysLost s (s.setCloche p c) := .of_frame rfl

theorem wipePart_staysLost (s : State) (p : Nat) : StaysLost s (s.wipePart p) := by
  have wiped := ((freeSeqs_staysLost s p).trans (freeGens_staysLost _ p)).trans (flushTables_staysLost _ p)
  unfold State.wipePart
  dsimp only
  generalize State.flushTables _ p = u at wiped ⊢
  have fenced := wiped.trans (setPart_staysLost u p (x := { u.part p with fences := [], fenceBy := [] }) fun idle => idle)
  generalize u.setPart p _ = v at fenced ⊢
  exact (fenced.trans (foldl_staysLost unwriteCtx_staysLost _ v)).trans (setCloche_staysLost ..)

theorem setClocheSt_staysLost (s : State) (p : Nat) (st : ClocheSt) : StaysLost s (s.setClocheSt p st) := by
  unfold State.setClocheSt
  split
  · exact .refl s
  · exact (setCloche_staysLost ..).trans (event_tells ..).staysLost

theorem clocheAfterReset_staysLost (s : State) : StaysLost s s.clocheAfterReset := by
  refine foldl_staysLost (fun s p => ?_) _ s
  dsimp only
  split
  · exact .refl s
  · exact ((setCloche_staysLost ..).trans (setClocheSt_staysLost ..)).trans (wipePart_staysLost ..)

/-- With no partition in Cloche a reset wipes nothing. -/
theorem clocheAfterReset_none {s : State} (off : ∀ p, p < 8 → s.inCloche p = false) : s.clocheAfterReset = s := by
  suffices all : ∀ ps : List Nat, (∀ p ∈ ps, s.inCloche p = false) → ps.foldl (fun (s : State) p =>
      let c := s.cloche p
      if c.st = .off then s
      else ((s.setCloche p { c with ide := false, tsp := false, session := none }).setClocheSt p .entering).wipePart p) s = s from
    all _ fun p mem => off p (List.mem_range.mp mem)
  intro ps
  induction ps with
  | nil => exact fun _ => rfl
  | cons p ps ih =>
    intro out_
    rw [List.foldl_cons]
    dsimp only
    rw [if_pos (by simpa [State.inCloche] using out_ p List.mem_cons_self)]
    exact ih fun k mem => out_ k (List.mem_cons_of_mem _ mem)

/-! Steps that keep memory. -/

/-- From s to t sequences, local memory and region SRAM are as they were. -/
structure KeepsMemory (s t : State) : Prop where
  kv : t.kv = s.kv
  loc : t.mem.loc = s.mem.loc
  sram : ∀ r, sameSram (s.region r) (t.region r)

theorem KeepsMemory.refl (s : State) : KeepsMemory s s := ⟨rfl, rfl, fun _ _ => rfl⟩

theorem KeepsMemory.trans {s t u : State} (h : KeepsMemory s t) (k : KeepsMemory t u) : KeepsMemory s u :=
  ⟨k.kv.trans h.kv, k.loc.trans h.loc, fun r a => (k.sram r a).trans (h.sram r a)⟩

theorem Tells.keepsMemory {s t : State} (h : Tells s t) : KeepsMemory s t := by
  rw [h.frame]
  exact ⟨rfl, rfl, fun _ _ => rfl⟩

/-- From s to t both hold: nothing lost has come back, and memory is kept. -/
structure Goes (s t : State) : Prop where
  stays : StaysLost s t
  keeps : KeepsMemory s t

theorem Goes.refl (s : State) : Goes s s := ⟨.refl s, .refl s⟩

theorem Goes.trans {s t u : State} (h : Goes s t) (k : Goes t u) : Goes s u := ⟨h.stays.trans k.stays, h.keeps.trans k.keeps⟩

theorem Tells.goes {s t : State} (h : Tells s t) : Goes s t := ⟨h.staysLost, h.keepsMemory⟩

theorem freeGen_goes (s : State) (p e : Nat) : Goes s (s.freeGen p e) :=
  ⟨freeGen_staysLost s p e, rfl, rfl, fun r => getD_map_rel (R := sameSram)
    (f := fun x => { x with rlc := x.rlc.filter (fun c => !(c.weight && c.tag == p && c.gen == (s.gen p e).gen)) })
    (fun _ _ => rfl) (fun _ => rfl) s.regions r⟩

theorem gensAfterReset_goes (s : State) : Goes s s.gensAfterReset := by
  unfold State.gensAfterReset
  refine .trans (t := { s with wgt := { s.wgt with builds := [], caches := [], xfers := [] } }) ⟨.of_frame rfl, rfl, rfl, fun _ _ => rfl⟩
    (foldl_rel .refl .trans (fun s k => ?_) _ _)
  dsimp only
  split
  · exact freeGen_goes ..
  · exact freeGen_goes ..
  · exact .refl s
  · exact ⟨.of_frame rfl, rfl, rfl, fun _ _ => rfl⟩

theorem gensAfterReset_sec (s : State) : s.gensAfterReset.sec = s.sec := by
  unfold State.gensAfterReset
  refine foldl_rel (R := fun s t : State => t.sec = s.sec) (fun _ => rfl) (fun h k => k.trans h) (fun s k => ?_) _ _
  dsimp only
  split <;> rfl

theorem setLinkState_goes (s : State) (port : Nat) (st : LinkSt) (cause : LinkCause) : Goes s (s.setLinkState port st cause) := by
  obtain ⟨o, sets⟩ := setLinkState_sets s port st cause
  rw [sets]
  exact ⟨.of_frame rfl, rfl, rfl, fun _ _ => rfl⟩

theorem tryTrain_goes (s : State) (port : Nat) : Goes s (s.tryTrain port) := by
  unfold State.tryTrain
  dsimp only
  split
  · exact .trans (setLinkState_goes ..) ⟨.of_frame rfl, rfl, rfl, fun _ _ => rfl⟩
  · exact .refl s

theorem enablePorts_goes (s : State) : Goes s s.enablePorts := by
  refine foldl_rel .refl .trans (fun s port => ?_) _ s
  unfold State.setDisable
  dsimp only
  rw [if_neg (by decide)]
  split
  · refine .trans (t := s.setLink port { s.link port with disable := false }) ⟨.of_frame rfl, rfl, rfl, fun _ _ => rfl⟩ ?_
    exact (setLinkState_goes ..).trans (tryTrain_goes ..)
  · exact .refl s

theorem repairsAtReset_goes (s : State) : Goes s s.repairsAtReset := by
  refine foldl_rel .refl .trans (fun s e => ?_) _ s
  split
  · exact ⟨.of_frame rfl, rfl, rfl, fun _ _ => rfl⟩
  · obtain ⟨o, h, b, repaired, -⟩ := repaired_repairs s e.unit
    rw [repaired]
    exact ⟨.of_frame rfl, rfl, rfl, fun _ _ => rfl⟩

/-! The ready point (R513). -/

theorem ramp_goes (s : State) : Goes s s.ramp := by
  obtain ⟨frame, part, region, -, -⟩ := ramp_ramps s
  generalize s.ramp = t at *
  refine ⟨⟨by rw [frame], fun p idle => ?_, fun r => ?_⟩, by rw [frame], by rw [frame], fun r a => ?_⟩
  · have runs := (part p).runs
    rw [idle] at runs
    exact Option.isNone_iff_eq_none.mp (by simpa using runs)
  · rw [region r]
    exact ⟨rfl, rfl⟩
  · rw [region r]
    rfl

theorem alignAll_goes (s : State) : Goes s s.alignAll := by
  refine foldl_rel .refl .trans (fun s p => ?_) _ s
  obtain ⟨y, aligned, -⟩ := align_aligns s p
  rw [aligned]
  have stays := setPart_staysLost s p (x := { s.part p with needAlign := false }) fun idle => idle
  exact ⟨stays.trans (.of_frame rfl), rfl, rfl, fun _ _ => rfl⟩

theorem flushVectors_tells (s : State) : Tells s s.flushVectors := by
  refine foldl_rel .refl .trans (fun s v => ?_) _ s
  split
  · exact ⟨rfl⟩
  · exact .refl s

/-- At the ready point BUSY is 0 again. -/
theorem readyPoint_readies (s : State) : ∃ u o h b, Goes s u ∧ s.readyPoint = { u with
    rel := { u.rel with resets := { u.rel.resets with busy := false, waitFw := false } }, out := o, host := h, obs := b } := by
  have risen : Goes s (if s.trl.phase = 9 then s.ramp.alignAll else s) := by
    split
    · exact (ramp_goes s).trans (alignAll_goes _)
    · exact .refl s
  unfold State.readyPoint
  dsimp only
  generalize (if s.trl.phase = 9 then s.ramp.alignAll else s) = u at risen ⊢
  have told := ((irq_tells (u.setRel (fun r => { r with resets := { r.resets with busy := false, waitFw := false } })) 6).trans
    (notify_tells _ 0x0008 none (u.setRel (fun r => { r with resets := { r.resets with busy := false, waitFw := false } })).rel.resets.trigWord)).trans
    (flushVectors_tells _)
  exact ⟨u, _, _, _, risen, told.frame⟩

/-! The steps of a reset together (R512, R514). -/

theorem dropCopies_refsOnly (s : State) : RefsOnly s s.dropCopies := by
  refine foldl_rel .refl .trans (fun s x => ?_) _ s
  unfold State.dropCopy
  split
  · exact refDown_refsOnly ..
  · exact .refl s

/-- From s to u a device reset has lost what no reset keeps (Table 18-11), before it names its record and applies repairs. -/
structure LosesState (s u : State) : Prop where
  slots : ∀ x ∈ u.slots, x.sel = none
  transit : u.transit = []
  reqs : u.eft.reqs = []
  idle : ∀ p, (u.part p).launch = none
  rests : ∀ r, (u.region r).running = false ∧ (u.region r).issued = []
  queues : ∀ q, u.queue q = (s.queue q).afterReset
  sec : u.sec = s.sec.afterReset
  resets : u.rel.resets = s.rel.resets
  kv : u.kv = s.dropCopies.kv
  loc : u.mem.loc = s.mem.loc
  sram : ∀ r, sameSram (s.region r) (u.region r)

theorem loseState_loses (s : State) : ∃ u, LosesState s u ∧
    s.loseState = (((u.gensAfterReset.clocheAfterReset).nameRecord).enablePorts).repairsAtReset := by
  have only := dropCopies_refsOnly s
  unfold State.loseState
  dsimp only
  generalize copies : s.dropCopies = d at only ⊢
  generalize lost : ({ d with
    front := .reset, queues := _, slots := _, parts := _, regions := _, transit := [], mem := _, eft := _, sync := _, trl := _, pwr := _,
    sec := _, obs := _, rel := _, host := _ } : State) = u
  refine ⟨u, ?_, rfl⟩
  obtain ⟨queues, regions, sec, rel, loc⟩ : d.queues = s.queues ∧ d.regions = s.regions ∧ d.sec = s.sec ∧ d.rel = s.rel ∧ d.mem.loc = s.mem.loc := by
    rw [only]
    exact ⟨rfl, rfl, rfl, rfl, rfl⟩
  refine ⟨fun x mem => ?_, by rw [← lost], by rw [← lost]; rfl, fun p => ?_, fun r => ?_, fun q => ?_, ?_, ?_, ?_, ?_, fun r => ?_⟩
  all_goals subst lost
  · obtain ⟨y, -, rfl⟩ := List.mem_map.mp mem
    rfl
  · exact getD_map_of (P := fun x : Part => x.launch = none) (f := Part.afterReset) (fun _ => rfl) rfl d.parts p
  · exact getD_map_of (P := fun x : Region => x.running = false ∧ x.issued = []) (f := Region.afterReset) (fun _ => ⟨rfl, rfl⟩) ⟨rfl, rfl⟩ d.regions r
  · refine (get_map_values Queue.reset Queue.afterReset rfl d.queues q).trans ?_
    rw [queues]
    rfl
  · exact congrArg Sec.afterReset sec
  · show d.rel.resets = _
    rw [rel]
  · show d.kv = _
    rw [copies]
  · exact loc
  · have same := getD_map_rel (R := sameSram) (f := Region.afterReset) (d := .reset) (fun _ _ => rfl) (fun _ => rfl) d.regions r
    have before : d.regions.getD r .reset = s.region r := congrArg (List.getD · r .reset) regions
    rw [before] at same
    exact same

/-- The naming of the record disables the queue of a record that two resets name, and changes no other queue (R514). -/
theorem nameRecord_names (s : State) : ∃ qs n,
    s.nameRecord = { s with queues := qs, rel := { s.rel with resets := { s.rel.resets with lastNamed := n } } } ∧
    ∀ q, s.nameRecord.queue q = s.queue q ∨
      s.nameRecord.queue q = { s.queue q with state := .disabled } ∧ s.rel.resets.lastNamed = some (q, s.rel.resets.seq) := by
  unfold State.nameRecord
  dsimp only
  split
  · split
    · next named =>
      refine ⟨_, _, rfl, fun q => ?_⟩
      by_cases same : q = s.rel.resets.queue
      · subst same
        exact .inr ⟨queue_setQueue_self .., named⟩
      · exact .inl (queue_setQueue_ne _ same _)
    · exact ⟨s.queues, _, rfl, fun q => .inl rfl⟩
  · exact ⟨s.queues, _, rfl, fun q => .inl rfl⟩

/-- From s to t a device reset has lost and kept what Table 18-11 says. -/
structure ResetDone (s t : State) : Prop where
  fuses : t.sec.fuses = s.sec.fuses
  transit : t.transit = []
  reqs : t.eft.reqs = []
  idle : ∀ p, (t.part p).launch = none
  rests : ∀ r, (t.region r).running = false ∧ (t.region r).issued = []
  slots : ∀ u ∈ t.slots, u.sel = none
  disabled : ∀ q, (s.queue q).state = .disabled → t.queue q = s.queue q
  stopped : ∀ q, (s.queue q).state ≠ .disabled → (t.queue q).running = none ∧ (t.queue q).fidx = (s.queue q).fidx ∧ (t.queue q).inflight = [] ∧
    (t.queue q).shadow = (s.queue q).shadow ++ (s.queue q).inflight ∧ (t.queue q).head = (s.queue q).head ∧
    ((t.queue q).state = .stopped ∨ (t.queue q).state = .disabled ∧ s.rel.resets.lastNamed = some (q, s.rel.resets.seq))
  kept : (∀ p, p < 8 → s.inCloche p = false) →
    t.kv = s.dropCopies.kv ∧ t.mem.loc = s.mem.loc ∧ ∀ r, sameSram (s.region r) (t.region r)

theorem ResetDone.goes {s t u : State} (h : ResetDone s t) (k : Goes t u) : ResetDone s u := by
  obtain ⟨⟨frame, idle, region⟩, kv, loc, sram⟩ := k
  have queue : ∀ q, u.queue q = t.queue q := fun q => by rw [State.queue, frame]; rfl
  refine ⟨by rw [frame]; exact h.fuses, by rw [frame]; exact h.transit, by rw [frame]; exact h.reqs, fun p => idle p (h.idle p), fun r => ?_,
    by rw [frame]; exact h.slots, fun q off => (queue q).trans (h.disabled q off), fun q on => ?_, fun off => ?_⟩
  · obtain ⟨running, issued⟩ := h.rests r
    exact ⟨(region r).1.trans running, (region r).2.trans issued⟩
  · rw [queue q]
    exact h.stopped q on
  · obtain ⟨kv', loc', sram'⟩ := h.kept off
    exact ⟨kv.trans kv', loc.trans loc', fun r a => (sram r a).trans (sram' r a)⟩

/-- What a reset keeps of the firmware and of its own record. -/
theorem loseState_done (s : State) : ResetDone s s.loseState ∧ s.loseState.sec.fwok = s.sec.fwok ∧ s.loseState.imageGood = s.imageGood ∧
    s.loseState.inReset = s.inReset := by
  obtain ⟨u, lost, steps⟩ := loseState_loses s
  have gens := gensAfterReset_goes u
  have secured := gensAfterReset_sec u
  generalize u.gensAfterReset = v at *
  have wipes := clocheAfterReset_staysLost v
  have none_ : (∀ p, p < 8 → v.inCloche p = false) → v.clocheAfterReset = v := clocheAfterReset_none
  generalize v.clocheAfterReset = w at *
  have stays := gens.stays.trans wipes
  obtain ⟨qs, n, named, queue⟩ := nameRecord_names w
  have rest := (enablePorts_goes w.nameRecord).trans (repairsAtReset_goes _)
  rw [← steps] at rest
  generalize w.nameRecord = x at *
  obtain ⟨fuses, fwok, stage, digest, cloche⟩ : u.sec.fuses = s.sec.fuses ∧ u.sec.fwok = s.sec.fwok ∧ u.sec.fwStage = s.sec.fwStage ∧
      u.sec.fwdig = s.sec.fwdig ∧ u.sec.cloche = s.sec.cloche := by
    rw [lost.sec]
    exact ⟨rfl, rfl, rfl, rfl, rfl⟩
  have busy : u.rel.resets.busy = s.rel.resets.busy := congrArg Resets.busy lost.resets
  have start : ResetDone s x := by
    have before : ∀ q, w.queue q = (s.queue q).afterReset := fun q => by rw [← lost.queues q, State.queue, stays.frame]; rfl
    refine ⟨?_, ?_, ?_, fun p => ?_, fun r => ?_, ?_, fun q off => ?_, fun q on => ?_, fun off => ?_⟩
    · rw [named, stays.frame]
      exact fuses
    · rw [named, stays.frame]
      exact lost.transit
    · rw [named, stays.frame]
      exact lost.reqs
    · rw [named]
      exact stays.idle p (lost.idle p)
    · obtain ⟨running, issued⟩ := lost.rests r
      rw [named]
      exact ⟨(stays.region r).1.trans running, (stays.region r).2.trans issued⟩
    · rw [named, stays.frame]
      exact lost.slots
    · have same : w.queue q = s.queue q := (before q).trans (if_pos off)
      rcases queue q with kept | ⟨kept, -⟩ <;> rw [kept, same]
      rw [← off]
    · have after : w.queue q = _ := (before q).trans (if_neg on)
      have last : s.rel.resets.lastNamed = w.rel.resets.lastNamed ∧ s.rel.resets.seq = w.rel.resets.seq := by
        rw [← lost.resets, stays.frame]
        exact ⟨rfl, rfl⟩
      rcases queue q with kept | ⟨kept, twice⟩ <;> rw [kept, after]
      · exact ⟨rfl, rfl, rfl, rfl, rfl, .inl rfl⟩
      · exact ⟨rfl, rfl, rfl, rfl, rfl, .inr ⟨rfl, by rw [last.1, last.2]; exact twice⟩⟩
    · have open_ : ∀ p, v.inCloche p = s.inCloche p := fun p => by rw [State.inCloche, State.cloche, secured, cloche]; rfl
      obtain rfl := none_ fun p known => (open_ p).trans (off p known)
      rw [named]
      exact ⟨gens.keeps.kv.trans lost.kv, gens.keeps.loc.trans lost.loc, fun r a => (gens.keeps.sram r a).trans (lost.sram r a)⟩
  refine ⟨start.goes rest, ?_, ?_, ?_⟩
  · rw [rest.stays.frame, named, stays.frame]
    exact fwok
  · unfold State.imageGood
    rw [rest.stays.frame, named, stays.frame]
    dsimp only
    rw [stage, digest]
  · rw [rest.stays.frame, named, stays.frame]
    exact busy

/-- Settles O35: each cause by its guard, and the reset by what its steps lose and keep up to the ready point. -/
theorem deviceResetsBeginAndComplete : Obligations.DeviceResetsBeginAndComplete := by
  refine ⟨fun s up => ⟨fun q x t runs armed => ?watchdog, fun core fw => ?core, fun code fw => ?fatal, fun rq key may => ?key,
    fun r p l y t runs cancelled running waits due issued => ?stop⟩, fun good s begun ready rails => ?completes⟩
  case watchdog =>
    have acts := watchdogExpire_acts runs armed
    exact ⟨fun due => ⟨_, acts.trans (if_pos due), startReset_begins up q x.cmd.seq⟩, fun early => acts.trans (if_neg (Nat.not_le.mpr early))⟩
  case core => exact ⟨_, (show _ = execFwWatchdogExpire core s from rfl).trans (if_pos fw), trigger_begins up 1 core⟩
  case fatal => exact ⟨_, (show _ = execFirmwareFatal code s from rfl).trans (if_pos fw), trigger_begins up 7 code⟩
  case key =>
    have acts := feDevreset_acts may key
    exact ⟨fun right => ⟨_, by rw [acts, if_pos right], trigger_begins up 3 0⟩, fun wrong => by rw [acts, if_neg wrong]⟩
  case stop => exact ⟨_, cancelStopTimeout_triggers runs cancelled running waits due issued, trigger_begins up 5 r⟩
  case completes =>
    obtain ⟨done, fwok, image, busy⟩ := loseState_done s
    have acts : exec (.deviceReset good) s = _ := if_neg (by simp [show s.rel.resets.busy = true from begun, ready, rails])
    refine ⟨_, acts, ?_⟩
    dsimp only
    rw [fwok, image]
    generalize s.loseState = u at *
    split
    · exact ⟨⟨busy.trans begun, rfl, rfl⟩, done.fuses, done.transit, done.reqs, done.idle, done.rests, done.slots, done.disabled, done.stopped, done.kept⟩
    · obtain ⟨v, o, h, b, goes, ends⟩ := readyPoint_readies u
      have after := done.goes goes
      have kept : v.sec.fwok = u.sec.fwok := by rw [goes.stays.frame]
      rw [ends]
      exact ⟨⟨rfl, kept.trans fwok⟩, after.fuses, after.transit, after.reqs, after.idle, after.rests, after.slots, after.disabled, after.stopped, after.kept⟩

end Sys2Proof.Machine
end

section
/-! SUPPORT. Start-up: firmware, coordinates, the image and its patches, and START (R523 to R530); and the settlement of O37. -/
namespace Sys2Proof.Machine

/-! Firmware (R534, R565). -/

section
variable {s : State} {rq : Requester} (may : s.mayWrite rq fwOff)
include may

theorem fwGo_acts : exec (.fwGo rq) s = .next (if s.trl.phase = 2 ∨ s.rel.resets.waitFw = true then s.fwGo else s.discard 0x21 fwOff) := by
  rw [show exec (.fwGo rq) s = execFwGo rq s from rfl, execFwGo, regWrite_mayWrite may]

end

theorem fwGo_refuses {s : State} (refused : s.fwJudge (s.sec.fwStage.load 0 s.sec.fwBytes) ≠ 0) :
    s.fwGo = { s with sec := { s.sec with fwresult := s.fwJudge (s.sec.fwStage.load 0 s.sec.fwBytes) } } := if_pos refused

/-- Firmware that is accepted is measured; at power-on start-up goes on, and a reset that waits for it ends. -/
theorem fwGo_starts {s : State} (good : s.fwJudge (s.sec.fwStage.load 0 s.sec.fwBytes) = 0) :
    let b := s.sec.fwStage.load 0 s.sec.fwBytes
    s.fwGo.sec.fwok = true ∧ s.fwGo.sec.fwresult = 0 ∧ s.fwGo.sec.runSvn = leAt b 8 4 ∧ s.fwGo.sec.fwdig = sha3 b ∧
      s.fwGo.sec.fuses = s.sec.fuses ∧ (s.rel.resets.waitFw = false → s.fwGo.trl.phase = 5 ∧ s.fwGo.sec.akSvn = s.sec.fuses.svn) ∧
      (s.rel.resets.waitFw = true → s.fwGo.inReset = false ∧ s.fwGo.sec.akSvn = s.sec.akSvn) := by
  unfold State.fwGo
  dsimp only
  rw [if_neg (not_not.mpr good)]
  split
  · next waits =>
    obtain ⟨u, o, h, b, goes, ends⟩ := readyPoint_readies (s.fwStart (s.sec.fwStage.load 0 s.sec.fwBytes))
    rw [ends, goes.stays.frame]
    exact ⟨rfl, rfl, rfl, rfl, rfl, fun powers => absurd (waits.symm.trans powers) (by decide), fun _ => ⟨rfl, rfl⟩⟩
  · next powers => exact ⟨rfl, rfl, rfl, rfl, rfl, fun _ => ⟨rfl, rfl⟩, fun waits => absurd waits powers⟩

/-! Coordinates (R424, R530). -/

theorem tryTrain_sets (s : State) (port : Nat) : ∃ ls o b, s.tryTrain port = { s with eft := { s.eft with links := ls }, out := o, obs := b } := by
  obtain ⟨o, sets⟩ := setLinkState_sets s port .training .none
  unfold State.tryTrain
  dsimp only
  split
  · rw [sets]
    exact ⟨_, _, _, rfl⟩
  · exact ⟨_, _, _, rfl⟩

theorem foldl_tryTrain_coord (ports : List Nat) (s : State) : (ports.foldl (fun (s : State) p => s.tryTrain p) s).eft.coord = s.eft.coord := by
  refine foldl_rel (R := fun s t : State => t.eft.coord = s.eft.coord) (fun _ => rfl) (fun h k => k.trans h) (fun s p => ?_) ports s
  obtain ⟨ls, o, b, trained⟩ := tryTrain_sets s p
  rw [trained]

/-- The module takes its coordinates, and its ports may train. -/
def State.takeCoord (s : State) (c : Coord) : State :=
  let s := { s with eft := { s.eft with coord := c } }
  let s := if s.sec.fwok then s.newRepair else s
  (List.range 18).foldl (fun (s : State) p => s.tryTrain p) s

theorem takeCoord_coord (s : State) (c : Coord) : (s.takeCoord c).eft.coord = c := by
  unfold State.takeCoord
  rw [foldl_tryTrain_coord]
  dsimp only
  split <;> rfl

section
variable {s : State} (hears : s.hears) (h : MgmtHdr) (modid usz vsz twin : Nat)
include hears

theorem coord_misfits (misfits : h.fits 4 = false) : exec (.coord h modid usz vsz twin) s = .next (s.mgmtReply 0x01 h.tag .range []) := by
  rw [show exec (.coord h modid usz vsz twin) s = execCoord h modid usz vsz twin s from rfl, execCoord, mgmtCmd_misfits hears misfits]

theorem coord_acts (fits : h.fits 4 = true) : exec (.coord h modid usz vsz twin) s =
    .next (if 2 ^ 15 ≤ modid ∨ 16 ≤ usz ∨ 16 ≤ vsz ∨ 2 ≤ twin then s.mgmtReply 0x01 h.tag .range []
      else if s.trl.loaded then s.mgmtReply 0x01 h.tag .state []
      else (s.takeCoord ⟨modid, true, usz, vsz, twin == 1⟩).mgmtReply 0x01 h.tag .ok []) := by
  rw [show exec (.coord h modid usz vsz twin) s = execCoord h modid usz vsz twin s from rfl, execCoord, mgmtCmd_fits hears fits]
  rfl

theorem start_misfits (time : Nat) (misfits : h.fits 8 = false) : exec (.start h time) s = .next (s.mgmtReply 0x02 h.tag .range []) := by
  rw [show exec (.start h time) s = execStart h time s from rfl, execStart, mgmtCmd_misfits hears misfits]

theorem start_acts (time : Nat) (fits : h.fits 8 = true) : exec (.start h time) s =
    .next (if s.trl.phase ≠ 6 then s.mgmtReply 0x02 h.tag .state [] else (s.startTime time).mgmtReply 0x02 h.tag .ok []) := by
  rw [show exec (.start h time) s = execStart h time s from rfl, execStart, mgmtCmd_fits hears fits]

end

/-- The root takes the time given and serves. -/
theorem startTime_root {s : State} (root : s.isRoot = true) (time : Nat) : (s.startTime time).trl.phase = 9 ∧
    (s.startTime time).time.st = .locked ∧ (s.startTime time).time.now = time % 2 ^ 64 := by
  have starts : s.startTime time =
      State.nowLocked { s with trl := { s.trl with phase := 7 }, time := { s.time with now := time % 2 ^ 64 } } := if_pos root
  obtain ⟨-, -, -, locked, phase⟩ := nowLocked_locks { s with trl := { s.trl with phase := 7 }, time := { s.time with now := time % 2 ^ 64 } }
  rw [starts, locked, phase]
  exact ⟨rfl, rfl, rfl⟩

/-- Another module waits for its parent. -/
theorem startTime_child {s : State} (child : s.isRoot = false) (unlocked : s.time.st ≠ .locked) (time : Nat) :
    s.startTime time = { s with trl := { s.trl with phase := 7 } } := by
  unfold State.startTime
  exact (if_neg (by rw [show State.isRoot { s with trl := { s.trl with phase := 7 } } = s.isRoot from rfl, child]; decide)).trans (if_neg unlocked)

/-! What leaves the image in force alone. -/

/-- From s to t the image in force and its load are the same. -/
def KeepsTrl (s t : State) : Prop := t.trl = s.trl

theorem KeepsTrl.refl (s : State) : KeepsTrl s s := rfl

theorem KeepsTrl.trans {s t u : State} (h : KeepsTrl s t) (k : KeepsTrl t u) : KeepsTrl s u := Eq.trans k h

theorem foldl_keepsTrl {α : Type} {f : State → α → State} (step : ∀ s a, KeepsTrl s (f s a)) (l : List α) (s : State) :
    KeepsTrl s (l.foldl f s) := foldl_rel .refl .trans step l s

theorem KeepsTrl.ite {s t u : State} {c : Prop} [Decidable c] (h : KeepsTrl s t) (k : KeepsTrl t u) : KeepsTrl s (if c then u else t) := by
  split
  · exact h.trans k
  · exact h

theorem StaysLost.keepsTrl {s t : State} (h : StaysLost s t) : KeepsTrl s t := by
  unfold KeepsTrl
  rw [h.frame]

theorem Tells.keepsTrl {s t : State} (h : Tells s t) : KeepsTrl s t := h.staysLost.keepsTrl

theorem align_keepsTrl (s : State) (p : Nat) : KeepsTrl s (s.align p) := by
  obtain ⟨y, aligned, -⟩ := align_aligns s p
  unfold KeepsTrl
  rw [aligned]
  rfl

theorem loseAlign_keepsTrl (s : State) (p : Nat) : KeepsTrl s (s.loseAlign p) := rfl

/-- A record of a patch that is a partition's limit, a queue or a slot. -/
theorem putRecord_keepsTrl (s : State) (x : Nat × Nat) : KeepsTrl s
    (if x.1 = 4 then s.putLimit x.2 else if x.1 = 7 then (if x.2 < 512 then s.putQueue x.2 else s.putSlot (x.2 - 512)) else s) := by
  split
  · rfl
  · split
    · split <;> rfl
    · rfl

theorem repaired_keepsTrl (s : State) (unit : Nat) : KeepsTrl s (s.repaired unit) := by
  obtain ⟨o, h, b, repaired, -⟩ := repaired_repairs s unit
  unfold KeepsTrl
  rw [repaired]

theorem setTimeState_keepsTrl (s : State) (st : TimeSt) : KeepsTrl s (s.setTimeState st) := by
  obtain ⟨y, b, sets, -⟩ := setTimeState_sets s st
  unfold KeepsTrl
  rw [sets]

theorem putTime_keepsTrl (s : State) (o : ModRec) : KeepsTrl s (s.putTime o) := by
  unfold State.putTime
  dsimp only
  split
  · exact .refl s
  · split
    · exact .trans (t := { s with time := { s.time with depth := 0 } }) rfl (setTimeState_keepsTrl ..)
    · rw [draw_eq]
      dsimp only
      split
      · exact .trans (.refl _) (setTimeState_keepsTrl ..)
      · exact .trans (.refl _) (setTimeState_keepsTrl ..)
      · exact .refl s

theorem loseWord_keepsTrl (s : State) (l : CopyLoss) : KeepsTrl s (s.loseWord l) := by
  unfold State.loseWord
  cases l with
  | bank r b entry col =>
    obtain ⟨x, m, k, o, h, logged⟩ := logError_eq (s.setRegion r ((s.region r).setBlock b (((s.region r).block b).dropWord entry col)))
      (tier4Addr r b entry) 4 6 ((s.setRegion r ((s.region r).setBlock b (((s.region r).block b).dropWord entry col))).partOfRegion r) 0 0 0
    unfold KeepsTrl
    dsimp only
    rw [logged]
    rfl
  | sram r off =>
    obtain ⟨x, m, k, o, h, logged⟩ := logError_eq (s.setRegion r ((s.region r).sramUnwrite (off / 64 * 64) 64))
      (0x40000000000 + r * 2 ^ 26 + off / 64 * 64) 3 6 ((s.setRegion r ((s.region r).sramUnwrite (off / 64 * 64) 64)).partOfRegion r) 0 0 0
    unfold KeepsTrl
    dsimp only
    rw [logged]
    rfl

theorem retrain_keepsTrl (s : State) (port : Nat) : KeepsTrl s (s.retrain port) := by
  unfold State.retrain
  dsimp only
  split
  · exact .refl s
  · exact .trans (t := s.setLink port _) rfl ((setLinkState_goes ..).stays.keepsTrl.trans rfl)

theorem relink_keepsTrl (s o : State) : KeepsTrl s (s.relink o) := by
  refine foldl_keepsTrl (fun s port => ?_) _ s
  split
  · exact (retrain_keepsTrl ..).trans (tryTrain_goes ..).stays.keepsTrl
  · exact .refl s

theorem teardown_keepsTrl (s : State) (p : Nat) : KeepsTrl s (s.teardown p) := by
  have wiped := (wipePart_staysLost s p).keepsTrl
  unfold State.teardown
  dsimp only
  split
  · exact wiped
  · exact wiped.trans (setCloche_staysLost ..).keepsTrl

/-! Patches (R526, Table 19-15). -/

theorem spareShares_shares (s o : State) : ∃ sh, (s.spareShares o).trl = { s.trl with st := { s.trl.st with shares := sh } } := by
  unfold State.spareShares
  split
  · exact ⟨_, rfl⟩
  · dsimp only
    split
    · exact ⟨_, rfl⟩
    · exact ⟨_, rfl⟩

/-- The effects of a patch leave its structure in force but for the share table of a spare port. -/
theorem patchEffects_trl (s o : State) (names : List (Nat × Nat)) :
    (∃ sh, (s.patchEffects o names).trl = { s.trl with st := { s.trl.st with shares := sh } }) ∧
      ((∀ x ∈ names, x.1 ≠ 8) → (s.patchEffects o names).trl = s.trl) := by
  unfold State.patchEffects
  dsimp only
  suffices all : ∀ u, KeepsTrl s u → (∃ sh, (if names.any (fun x => x.1 == 8) = true then (u.spareShares o).relink o else u).refreshLevels.trl =
      { s.trl with st := { s.trl.st with shares := sh } }) ∧ ((∀ x ∈ names, x.1 ≠ 8) →
        (if names.any (fun x => x.1 == 8) = true then (u.spareShares o).relink o else u).refreshLevels.trl = s.trl) by
    refine all _ ?_
    refine .trans ?_ (foldl_keepsTrl loseAlign_keepsTrl _ _)
    refine .trans ?_ (foldl_keepsTrl (fun s c => (unwriteCtx_staysLost s c).keepsTrl) _ _)
    refine .trans ?_ (foldl_keepsTrl putRecord_keepsTrl names _)
    refine .ite ?_ (foldl_keepsTrl align_keepsTrl _ _)
    refine .ite ?_ (.trans (t := State.putPower _) rfl (putTime_keepsTrl ..))
    refine .ite (.refl s) (.trans ?_ (foldl_keepsTrl align_keepsTrl _ _))
    exact .ite (.trans (foldl_keepsTrl repaired_keepsTrl _ s) rfl) (irq_tells ..).keepsTrl
  intro u kept
  rw [(refreshLevels_relevels _).trl_eq]
  split
  · next links =>
    obtain ⟨sh, shared⟩ := spareShares_shares u o
    have linked : ((u.spareShares o).relink o).trl = _ := relink_keepsTrl (u.spareShares o) o
    refine ⟨⟨sh, by rw [linked, shared, kept]⟩, fun no => ?_⟩
    obtain ⟨x, mem, eight⟩ := List.any_eq_true.mp links
    exact absurd (beq_iff_eq.mp eight) (no x mem)
  · exact ⟨⟨s.trl.st.shares, kept⟩, fun _ => kept⟩

/-- From s to t a patch to structure n with these names has been committed, with this digest. -/
structure Commits (s t : State) (n : TStruct) (names : List (Nat × Nat)) (digest : List Byte) : Prop where
  patched : patched t n names
  digest : t.trl.tdig = digest
  idle : t.trl.busy = none
  result : t.trl.result = 0
  patches : t.trl.patches = (s.trl.patches + 1) % 2 ^ 32

theorem trlDone_trl (s : State) : s.trlDone.trl = { s.trl with busy := none, result := 0, section_ := 0, record := 0 } :=
  (irq_tells { s with trl := { s.trl with busy := none, result := 0, section_ := 0, record := 0 } } 8).keepsTrl

theorem commitPatch_commits (s : State) (b : Patch) : Commits s (s.commitPatch b) b.next b.names b.digest := by
  have torn := foldl_keepsTrl teardown_keepsTrl
    ((List.range 8).filter (fun p => b.names.contains (4, p) && tears s.trl.st b.next p && (s.partRec p).valid)) s
  unfold State.commitPatch
  dsimp only
  generalize List.foldl _ _ _ = u at torn ⊢
  obtain ⟨⟨sh, effects⟩, same⟩ := patchEffects_trl { u with trl := { u.trl with st := b.next, tdig := b.digest, patches := (u.trl.patches + 1) % 2 ^ 32 } }
    s b.names
  generalize State.patchEffects _ s b.names = v at effects same ⊢
  have done := trlDone_trl v
  refine ⟨⟨?_, fun no => ?_⟩, ?_, ?_, ?_, ?_⟩ <;> rw [done]
  · rw [effects]
  · rw [same no]
  · rw [effects]
  · rw [effects, torn]

theorem patchCommit_commits {s : State} {w : Patch} (waits : s.trl.busy = some w) (up : s.inReset = false) (due : s.patchDue w = true)
    (lost : List CopyLoss) : ∃ t, exec (.patchCommit lost) s = .next t ∧ Commits s t w.next w.names w.digest := by
  have kept := foldl_keepsTrl loseWord_keepsTrl (lost.filter (s.copiedBy (newRepairs s.trl.st w.next))) s
  have acts : exec (.patchCommit lost) s = .next (State.commitPatch
      ((lost.filter (s.copiedBy (newRepairs s.trl.st w.next))).foldl (fun (s : State) l => s.loseWord l) s) w) := by
    rw [show exec (.patchCommit lost) s = execPatchCommit lost s from rfl, execPatchCommit, waits]
    exact if_pos ⟨due, by simp [up]⟩
  generalize List.foldl _ s _ = u at kept acts
  obtain ⟨patched, digest, idle, result, patches⟩ := commitPatch_commits u w
  exact ⟨_, acts, patched, digest, idle, result, by rw [patches, kept]⟩

/-! A full image (R525). -/

/-- From s to t the image in force and the record of repairs are the same. -/
def KeepsImage (s t : State) : Prop := t.trl = s.trl ∧ t.rel = s.rel

theorem KeepsImage.refl (s : State) : KeepsImage s s := ⟨rfl, rfl⟩

theorem KeepsImage.trans {s t u : State} (h : KeepsImage s t) (k : KeepsImage t u) : KeepsImage s u := ⟨k.1.trans h.1, k.2.trans h.2⟩

theorem foldl_keepsImage {α : Type} {f : State → α → State} (step : ∀ s a, KeepsImage s (f s a)) (l : List α) (s : State) :
    KeepsImage s (l.foldl f s) := foldl_rel .refl .trans step l s

theorem putQueue_keepsImage (s : State) (q : Nat) : KeepsImage s (s.putQueue q) := ⟨rfl, rfl⟩
theorem putSlot_keepsImage (s : State) (i : Nat) : KeepsImage s (s.putSlot i) := ⟨rfl, rfl⟩
theorem putLimit_keepsImage (s : State) (p : Nat) : KeepsImage s (s.putLimit p) := ⟨rfl, rfl⟩

theorem putPower_keepsImage (s : State) : KeepsImage s s.putPower := ⟨rfl, rfl⟩
theorem putTrims_keepsImage (s : State) : KeepsImage s s.putTrims := ⟨rfl, rfl⟩

theorem unwriteCtx_keepsImage (s : State) (c : Nat) : KeepsImage s (s.unwriteCtx c) := by
  have regions := unwriteCtx_regionsOnly s c
  unfold RegionsOnly at regions
  rw [regions]
  exact ⟨rfl, rfl⟩

theorem endLoopback_keepsImage (s : State) (st : Nat) : KeepsImage s (s.endLoopback st) := by
  unfold State.endLoopback
  split
  · exact .refl s
  · dsimp only
    split
    · exact ⟨rfl, rfl⟩
    · exact ⟨rfl, rfl⟩

theorem tryTrain_keepsImage (s : State) (port : Nat) : KeepsImage s (s.tryTrain port) := by
  obtain ⟨ls, o, b, trained⟩ := tryTrain_sets s port
  rw [trained]
  exact ⟨rfl, rfl⟩

/-- A full image in force, where self-test found no failed unit. -/
theorem loadImage_loads {s : State} (good : s.rel.failedUnits = []) (n : TStruct) (digest : List Byte) :
    (s.loadImage n digest).trl = { s.trl with st := n, tdig := digest, loaded := true, phase := 6, busy := none, result := 0, section_ := 0, record := 0 } := by
  unfold State.loadImage
  dsimp only
  generalize forced : ({ s with trl := _, board := _ } : State) = u
  suffices all : ∀ v, KeepsImage u v → v.bootRepairs.trlDone.trl =
      { s.trl with st := n, tdig := digest, loaded := true, phase := 6, busy := none, result := 0, section_ := 0, record := 0 } by
    refine all _ ?_
    refine .trans ?_ (foldl_keepsImage tryTrain_keepsImage _ _)
    refine .trans ?_ (endLoopback_keepsImage _ 6)
    refine .trans ?_ (foldl_keepsImage unwriteCtx_keepsImage _ _)
    refine .trans ?_ (foldl_keepsImage putLimit_keepsImage _ _)
    refine .trans (.trans ?_ (putPower_keepsImage _)) (putTrims_keepsImage _)
    exact (foldl_keepsImage putQueue_keepsImage _ u).trans (foldl_keepsImage putSlot_keepsImage _ _)
  rintro v ⟨trl, rel⟩
  have none_ : v.bootRepairs = v := if_pos (by rw [rel, ← forced]; exact good)
  rw [none_, trlDone_trl, trl, ← forced]

section
variable {s : State} {rq : Requester} (may : s.mayWrite rq trlOff)
include may

theorem trellisGo_discards (barred : s.trl.busy.isSome = true ∨ s.trl.phase < 5) : exec (.trellisGo rq) s = .next (s.discard 0x21 trlOff) := by
  rw [show exec (.trellisGo rq) s = execTrellisGo rq s from rfl, execTrellisGo, regWrite_mayWrite may]
  exact congrArg _ (if_pos (by simpa using barred))

variable (idle : s.trl.busy = none) (ready : 5 ≤ s.trl.phase)
include idle ready

theorem trellisGo_goes : exec (.trellisGo rq) s = .next s.trlGo := by
  rw [show exec (.trellisGo rq) s = execTrellisGo rq s from rfl, execTrellisGo, regWrite_mayWrite may]
  exact congrArg _ (if_neg (by simp [idle]; omega))

end

section
variable {s : State}

theorem trlGo_refuses {r sec rcd : Nat} (judged : s.judgeImage (s.trl.staging.load 0 s.trl.bytes) = .error (r, sec, rcd)) : s.trlGo =
    ({ s with trl := { s.trl with result := r, section_ := sec, record := rcd } } : State).irq 8 := by
  unfold State.trlGo
  dsimp only
  rw [judged]

variable {c : Container} {n : TStruct} (judged : s.judgeImage (s.trl.staging.load 0 s.trl.bytes) = .ok (c, n))
include judged

theorem trlGo_loads (full : c.form = 0) : s.trlGo = s.loadImage n (sha3 (s.trl.staging.load 0 s.trl.bytes)) := by
  unfold State.trlGo
  dsimp only
  rw [judged]
  exact if_pos full

theorem trlGo_patches (patch : c.form ≠ 0) :
    let names := c.recs.map (fun r => (r.1, r.2.1))
    let w : Patch := ⟨n, sha3 (s.trl.tdig ++ s.trl.staging.load 0 s.trl.bytes), s.patchHold n names, names⟩
    s.trlGo = if s.patchDue w = true ∧ (!(s.copiesStorage n)) = true then s.commitPatch w else { s with trl := { s.trl with busy := some w } } := by
  unfold State.trlGo
  dsimp only
  rw [judged]
  exact if_neg patch

end

/-- Settles O37: firmware, coordinates, START, the image and its patches, each by what its command does once it is let in. -/
theorem startupReachesServing : Obligations.StartupReachesServing := by
  refine fun s => ⟨fun rq may => ?firmware, fun h modid usz vsz twin hears => ?coord, fun h time hears => ?start, fun rq may => ?image,
    fun w lost waits up => ?patch⟩
  case firmware =>
    have acts := fwGo_acts may
    intro b
    refine ⟨fun late unasked => ?_, fun asked refused => ?_, fun asked good => ⟨_, acts.trans (congrArg _ (if_pos asked)), fwGo_starts good⟩⟩
    · exact acts.trans (congrArg _ (if_neg (by simp [late, unasked])))
    · rw [acts, if_pos asked, fwGo_refuses refused]
  case coord =>
    intro ok
    cases fits : h.fits 4 with
    | false =>
      have misfits := coord_misfits hears h modid usz vsz twin fits
      exact ⟨fun _ => misfits, fun good => absurd good.1 (by simp [fits]), fun good => absurd good.1 (by simp [fits])⟩
    | true =>
      have acts := coord_acts hears h modid usz vsz twin fits
      have inside : ok → ¬(2 ^ 15 ≤ modid ∨ 16 ≤ usz ∨ 16 ≤ vsz ∨ 2 ≤ twin) := fun good => by
        obtain ⟨-, g⟩ := good
        omega
      refine ⟨fun bad => ?_, fun good loaded => ?_, fun good early => ?_⟩
      · rw [acts, if_pos]
        by_contra within_
        exact bad ⟨fits, by omega⟩
      · rw [acts, if_neg (inside good), if_pos loaded]
      · rw [if_neg (inside good), if_neg (by simp [early])] at acts
        have taken := takeCoord_coord s ⟨modid, true, usz, vsz, twin == 1⟩
        generalize s.takeCoord _ = u at acts taken
        exact ⟨_, acts, taken, rfl⟩
  case start =>
    refine ⟨start_misfits hears h time, fun fits other => (start_acts hears h time fits).trans (congrArg _ (if_pos other)),
      fun fits six root => ?_, fun fits six child unlocked => ?_⟩
    · obtain ⟨phase, locked, now⟩ := startTime_root root time
      exact ⟨_, (start_acts hears h time fits).trans (congrArg _ (if_neg (not_not.mpr six))), phase, locked, now, rfl⟩
    · rw [start_acts hears h time fits, if_neg (not_not.mpr six), startTime_child child unlocked]
  case image =>
    intro b
    refine ⟨trellisGo_discards may, fun idle ready => ?_⟩
    have acts := trellisGo_goes may idle ready
    refine ⟨fun r sec rcd judged => ?_, fun c n judged full good => ?_, fun c n judged patch => ?_⟩
    · rw [trlGo_refuses judged] at acts
      refine ⟨_, acts, ?_⟩
      obtain ⟨o, h, told⟩ := irq_eq { s with trl := { s.trl with result := r, section_ := sec, record := rcd } } 8
      rw [told]
    · rw [trlGo_loads judged full] at acts
      refine ⟨_, acts, ?_⟩
      rw [loadImage_loads good]
      exact ⟨rfl, rfl, rfl, rfl, rfl, rfl⟩
    · rw [trlGo_patches judged patch] at acts
      intro names w
      refine ⟨fun waits => acts.trans (congrArg _ (if_neg ?_)), fun due alone => ?_⟩
      · rintro ⟨due, alone⟩
        rcases waits with h | h
        · exact absurd (due.symm.trans h) (by decide)
        · rw [h] at alone
          cases alone
      · obtain ⟨patched, digest, idle, result, patches⟩ := commitPatch_commits s w
        exact ⟨_, acts.trans (congrArg _ (if_pos ⟨due, by simp [alone]⟩)), patched, digest, idle, result, patches⟩
  case patch =>
    refine ⟨fun early => ?_, fun due => ?_⟩
    · rw [show exec (.patchCommit lost) s = execPatchCommit lost s from rfl, execPatchCommit, waits]
      exact if_neg fun h => absurd (h.1.symm.trans early) (by decide)
    · obtain ⟨t, acts, patched, digest, idle, result, patches⟩ := patchCommit_commits waits up due lost
      exact ⟨t, acts, patched, digest, idle, result, patches⟩

end Sys2Proof.Machine
end
